-- ==== Sys2Proof/Word.lean ====
section
/-! DEFINITION. The word types of the part: a slot of the object dictionary is 64 bits, host and device memory is
read by bytes. -/

namespace Sys2Proof

/-- A byte of a DOMAIN image, of DRAM, of flash or of a frame on a link. -/
abbrev Byte := BitVec 8

/-- A 64-bit slot of the dictionary (R70). -/
abbrev Slot := BitVec 64

end Sys2Proof
end

