-- ==== Sys2Proof/Syntax.lean ====
section
/-! DEFINITION. The commands of the part: one constructor per row of the table of operations and events, with the
operands the row's step needs: the master that makes an access, the unit it names, the value written, and what the
world outside the package supplies (samples, frames, measured counts). -/

namespace Sys2Proof

/-- The masters of the dictionary (R75, R81, Table 3.6). -/
inductive Master
  /-- the management controller, secure side included -/
  | mc
  /-- PCIe Function 1 -/
  | f1
  /-- PCIe Function 0 -/
  | f0
  /-- the serial-port slave -/
  | sp
  /-- the CAN FD client -/
  | can
  deriving DecidableEq, Repr

/-- How much of a slot an access names (R86): the whole slot, its low or its high half, or a width or length that
does not match. -/
inductive Part | full | low | high | mismatch
  deriving DecidableEq, Repr

/-- How much a read names (R86, R91, R92): the low or the high half of a slot, so many consecutive slots in one access, or a width or
alignment that R86 excludes. -/
inductive ReadPart | low | high | slots (n : BitVec 10) | mismatch
  deriving DecidableEq, Repr

/-- A write of a master to an object, as it stands beside others in one cycle (R81). -/
structure MasterWrite where
  m : Master
  part : Part
  v : Slot
  deriving DecidableEq, Repr

/-- Where a rail lies against its trip levels (Table 2.10). -/
inductive RailLevel | inRange | under | above
  deriving DecidableEq, Repr

/-- What the SFDP of a flash device tells: the fastest protocol that it shares with the port, with what goes with it, and the command
sequence that enables octal mode, empty where the protocol needs none (R436). -/
structure FlashDevice where
  protocol : BitVec 8
  readCmd : BitVec 8
  dummy : BitVec 8
  programCmd : BitVec 8
  eraseCmd : BitVec 8
  extension : BitVec 8
  clockDiv : BitVec 8
  sampleDelay : BitVec 8
  enable : List (List (BitVec 8)) := []
  deriving DecidableEq, Repr

/-- What the flash configuration of R436 found: nothing to configure, an SFDP that could not be read (with the select
it failed on), the settings of the one device, or those of each device in the order of the selects. -/
inductive FlashReport
  | skip
  | unreadable (select : BitVec 2)
  | found (protocol readCmd dummy programCmd eraseCmd extension clockDiv sampleDelay : BitVec 8)
  | devices (l : List FlashDevice)
  deriving DecidableEq, Repr

/-- A BAR2 access (R366): a read of bytes, with the 64-byte blocks the memory finds uncorrectable, or a write. -/
inductive Bar2
  | read (len : BitVec 13) (bad : List (BitVec 40))
  | write (data : List Byte) (poisoned : Bool)
  deriving DecidableEq, Repr

/-- A current limit as its output meets it: the limit is reached, the current falls below it again, or it has lasted 1 ms (R136). -/
inductive LimitEvent | entered | left | lasted
  deriving DecidableEq, Repr

/-- An error the PCIe endpoint finds (R372). -/
inductive PcieError
  | correctable (bit : Fin 16) | uncorrectable (bit : Fin 32) | poisonedWrite | retrain
  deriving DecidableEq, Repr

/-- A received CAN frame (R374): identifier, whether it is 29 bits long, data bytes, and the bit time measured from
its edges in 1/256 of the nominal quantum (used while REFCLK is lost, R376). -/
structure CanFrame where
  ident : BitVec 29
  extended : Bool
  data : List Byte
  bitTime : BitVec 16
  deriving DecidableEq, Repr

/-- A USDO initiate request (R378): write or read, index, sub-index, declared length in bytes, and the bytes it
carries (all of them for an expedited transfer), with the COB-ID it comes on, and whether it reads every sub-index of the object in
one transfer (R91). -/
structure UsdoRequest where
  ident : BitVec 11
  isWrite : Bool
  whole : Bool
  idx : BitVec 16
  sub : BitVec 8
  len : Nat
  data : List Byte
  deriving DecidableEq, Repr

/-- A segment of a running USDO session, with the COB-ID it comes on: bytes of a download, or a request for the next bytes of an
upload. -/
structure UsdoSegment where
  ident : BitVec 11
  data : List Byte
  last : Bool
  deriving DecidableEq, Repr

/-- A Psirel time mark as received (Table 13.7). `phase` is the signed distance, in 1/16 ns, from the time base at
this command to the local time at the reference instant of the mark; `transit` is the transit measured while the mark
was forwarded, in 1/16 ns. -/
structure PsiMark where
  t : BitVec 64
  d : BitVec 32
  c : BitVec 16
  hops : BitVec 8
  flags : BitVec 8
  crcOk : Bool
  phase : BitVec 16
  transit : BitVec 32
  deriving DecidableEq, Repr

/-- A Psirel trigger as received (Table 13.7). -/
structure PsiTrigger where
  target : BitVec 64
  node : BitVec 14
  mask : BitVec 8
  seq : BitVec 8
  crcOk : Bool
  deriving DecidableEq, Repr

/-- What one return measurement finds (R393). -/
inductive PsiReturn
  | valid (c : BitVec 16) | none | inverted
  deriving DecidableEq, Repr

/-- A link power state that carries packets (PCIE_LINK_STATE 2 to 5, Table 13.1). -/
inductive LinkPower | l0 | l0s | l1 | l12
  deriving DecidableEq, Repr

/-- A host write to PCIe configuration space. -/
inductive CfgWrite
  | busMaster (f1 : Bool) (on : Bool) | power (f1 : Bool) (d3hot : Bool) | pmeEnable (on : Bool)
  | aspm (l0s l1 l12 : Bool)
  | clearUncorrectable (mask : BitVec 32) | clearCorrectable (mask : BitVec 32)
  deriving DecidableEq, Repr

/-- What a load of a set has read (R233, R234): the parts of the image, with the field slots empty where there is none, or
a DMA error. -/
inductive SetImage
  | dmaError
  | parts (header records slotA slotB : List Byte)
  deriving DecidableEq, Repr

/-- What a save of a set has found in the flash image (R238): its header and its field slots as they stood when the save read them, empty
where there is none, or a flash error. -/
inductive SaveResult
  | flashError
  | parts (header slotA slotB : List Byte)
  deriving DecidableEq, Repr

/-- The outcome of a leap-line calibration step (R197, R198): the trim code whose measured output is nearest the target, and the
residual in µV. -/
structure CalStep where
  code : BitVec 12
  residual : BitVec 32
  deriving DecidableEq, Repr

/-- What the receiver finds in the header of a CSI-2 packet (Table 11.2). -/
inductive CsiHeader | good | corrected | uncorrectable
  deriving DecidableEq, Repr

/-- A long packet (R301 to R304): its header and data type, the pixels that its word count holds whole, as the packing that CSI-2
defines gives them (for YUV422 and RGB888 the bytes of each pixel, first byte lowest), whether bytes are left over, and
whether the payload CRC is right. -/
structure CsiLine where
  hdr : CsiHeader
  dt : BitVec 6
  pixels : List (BitVec 24)
  ragged : Bool
  crcOk : Bool
  deriving DecidableEq, Repr
/-- What a read of an NVM group finds (R443): the group of 8 bytes, and whether its error is uncorrectable or was corrected. -/
structure NvmFind where
  group : BitVec 19
  uncorrectable : Bool
  deriving DecidableEq, Repr

/-- The commands, in the order of the table. -/
inductive Instr
  /-- INTERNAL_POR_RELEASE (R455): The internal power-on reset is released, the straps are sampled and the boot
    ROM starts verifying both Gnoner slots. -/
  | internalPorRelease (straps : BitVec 6)
  /-- SYS_RST (R467): SYS_RST_N held low for 10 µs or more causes a front-die reset. -/
  | sysRst
  /-- RAIL_TRIP_CROSSING (R54): A rail crosses a trip level; while VANA is below its trip no NVM group write
    starts, and a waiting write starts when VANA returns. -/
  | railTripCrossing (rail : Fin 11) (level : RailLevel)
  /-- RAIL_FAULT (R49): A rail stays beyond a trip level for its declaration time (10 µs, or 2 µs for front-die
    undervoltage) and is declared faulty. -/
  | railFault (rail : Fin 11) (above : Bool)
  /-- FRONT_DIE_RESET_HOLD_END (R53): All three front-die rails have been in range for 2 ms and the front die
    leaves reset. -/
  | frontDieResetHoldEnd (straps : BitVec 6)
  /-- PIXEL_DIE_RETRY (R480): One second after a pixel-die rail fault Gnoner starts the pixel die again, entering
    the safe state after three failed attempts. -/
  | pixelDieRetry
  /-- PIX_SUPPLY_TIMEOUT (R52): The pixel-die rails are not all in range 15 ms after PIX_PWR_EN rises, so
    PIX_PWR_EN is driven low and a pixel-die supply fault is recorded. -/
  | pixSupplyTimeout (rail : Fin 6)
  /-- GNONER_START (R455): Slot verification ends and the boot ROM starts the verified slot with the higher
    release. -/
  | gnonerStart (ok0 ok1 : Bool)
  /-- GNONER_START_TIMEOUT (R456): Gnoner does not report ready within 100 ms, so the boot ROM restarts it or
    falls back to the other slot. -/
  | gnonerStartTimeout
  /-- GNONER_READY (R457): Gnoner reports ready, then applies stored values, sends boot-up, starts the
    housekeeping round and calibration, and starts the pixel die and run requests. -/
  | gnonerReady (vsol : BitVec 32) (flash : FlashReport) (found : List NvmFind := [])
  /-- DRAM_TRAINING_COMPLETE (R440): DRAM channel training ends; a channel that fails reads DRAM_CH_STATE 3. -/
  | dramTrainingComplete (ch : Fin 2) (ok : Bool) (gib : Fin 9)
  /-- DRAM_INIT_COMPLETE (R457): Every byte of DRAM has been initialised with its SECDED code, PIXEL_DIE_STATE
    reads 2 and CHIP_MODE reads 1. -/
  | dramInitComplete (lanesOk : BitVec 4)
  /-- CHIP_RESET (R467): A write of the signature to CHIP_RESET restarts the boot ROM selection, Gnoner, the pixel
    die and every region. -/
  | chipReset (m : Master) (v : BitVec 32)
  /-- MODE_REQUEST_RUN (R465): A write of 1 to MODE_REQUEST leaves standby or the safe state and restarts the
    pixel die and run requests. -/
  | modeRequestRun (m : Master)
  /-- MODE_REQUEST_STANDBY (R462): A write of 2 to MODE_REQUEST powers the pixel die down, stops the heads and
    parks the actuators. -/
  | modeRequestStandby (m : Master)
  /-- MODE_REQUEST_DEEP_STANDBY (R462): A write of 3 to MODE_REQUEST enters standby and then deep standby. -/
  | modeRequestDeepStandby (m : Master)
  /-- STANDBY_REACHED (R462): The heads have stopped and the park has finished, so CHIP_MODE reads 2; for deep
    standby CAN_STBY rises, the link and round stop and the controller sleeps. -/
  | standbyReached
  /-- MC_WAKE_COMPLETE (R463): The woken management controller is ready, the round resumes and CHIP_MODE reads 2. -/
  | mcWakeComplete
  /-- SPS_WAKE (R463): A falling edge of SP_CS0_N while the port is slave wakes the management controller from
    deep standby. -/
  | spsWake
  /-- CLK_TICK (R29): The local time base advances by 1000 ns; bias ramps step and tick-driven work runs. -/
  | clkTick
  /-- TIME_BASE_COMPARE (R29): Every 1 ms the two time-base copies are compared and the pixel-die copy is
    corrected if they differ by more than 5 ns. -/
  | timeBaseCompare
  /-- BACKUP_OSC_TRIM (R33): Every 1 ms while REFCLK is present the backup oscillator is measured and the monitor
    window trimmed. -/
  | backupOscTrim (periods : BitVec 32)
  /-- REFCLK_MONITOR_WINDOW (R30): A REFCLK monitor window ends and its edge count is judged against the loss or
    restore limits. -/
  | refclkMonitorWindow (edges : BitVec 32)
  /-- CLK_PIX_DIVIDER_SWITCH (R28): The CLK_PIX divider switches between ÷3 and ÷4 at the next boundary between
    NUC line slots. -/
  | clkPixDividerSwitch
  /-- DIE_LINK_ALIGNMENT_LOST (R15): The die link loses alignment and the front die treats the pixel die as
    failed. -/
  | dieLinkAlignmentLost
  /-- OBJECT_WRITE (R76): A write to an object with no row of its own is checked and takes effect according to its
    update class; `also` are the writes of other masters to it in the same cycle (R81). -/
  | objectWrite (m : Master) (idx : BitVec 16) (sub : BitVec 8) (part : Part) (v : Slot) (also : List MasterWrite := [])
  /-- STAGE_HOLD_WRITE (R78): A write to STAGE_HOLD holds or releases the staged writes of the owners whose bits
    it sets. -/
  | stageHoldWrite (m : Master) (v : Slot)
  /-- HALF_WRITE_LOW (R89): A 32-bit write to the low half of a 64-bit object is held until the high half is
    written. -/
  | halfWriteLow (m : Master) (idx : BitVec 16) (sub : BitVec 8) (v : BitVec 32)
  /-- HALF_WRITE_EXPIRY (R89): A held low-half write is discarded after 1 ms without its high half. -/
  | halfWriteExpiry (m : Master)
  /-- HALF_READ_LOW (R92): A read of the low half of a 64-bit object latches its high half for that master; `part`
    says which half or how many whole slots the read names (R86, R91). -/
  | halfReadLow (m : Master) (idx : BitVec 16) (sub : BitVec 8) (part : ReadPart := .low)
  /-- HALF_READ_LATCH_EXPIRY (R92): A high-half latch is released after 1 ms. -/
  | halfReadLatchExpiry (m : Master)
  /-- LOCK_READ (R95): A read of a lock acquires it if free and returns the owner code otherwise; `also` are the
    other masters that read it in the same cycle (R96). -/
  | lockRead (m : Master) (n : Fin 32) (also : List Master := [])
  /-- LOCK_WRITE (R97): A write to a lock releases it if written by its owner with its own code, and is otherwise
    ignored and counted. -/
  | lockWrite (m : Master) (n : Fin 32) (v : BitVec 8)
  /-- LOCK_FORCE (R98): A secure write to LOCK_FORCE releases the locks named in the mask. -/
  | lockForce (m : Master) (v : BitVec 32)
  /-- STORE (R100): A signature write to STORE starts a guarded write of the named groups into the older parameter
    image. -/
  | store (m : Master) (g : Fin 4) (v : BitVec 32)
  /-- RESTORE (R101): A signature write to RESTORE writes a new parameter image with restore marks for the named
    groups. -/
  | restore (m : Master) (g : Fin 4) (v : BitVec 32)
  /-- STORE_COMPLETE (R100): A store or restore-mark image write completes with its sequence number written last. -/
  | storeComplete
  /-- REGION_RESET (R471): A write to REGION_RESET schedules a restart of the named region at its next frame
    boundary. -/
  | regionReset (m : Master) (v : BitVec 8)
  /-- ERRQ_ACK (R107): A write to ERRQ_ACK acknowledges every record of the region at or before the written
    sequence. -/
  | errqAck (m : Master) (r : Fin 5) (v : BitVec 16)
  /-- HEAD_RUN_REQUEST (R133): A write of 1 to RUN_REQUEST is checked and starts the head's supply, clock, script
    and biases. -/
  | headRunRequest (m : Master) (h : Fin 4)
  /-- HEAD_STOP_REQUEST (R135): A write of 0 to RUN_REQUEST lets the current frame complete and then stops the
    head. -/
  | headStopRequest (m : Master) (h : Fin 4)
  /-- HEAD_LAST_FRAME_END (R135): The last frame of a stopping head completes and its bias outputs begin ramping
    to 0 V. -/
  | headLastFrameEnd (h : Fin 4)
  /-- HEAD_STOP_COMPLETE (R135): The bias outputs of a stopping head reach 0 V, MCLK stops, the supply switches
    off and RUN_STATE reads 0. -/
  | headStopComplete (h : Fin 4)
  /-- HEAD_SUPPLY_SETTLED (R133): SUP_SETTLE ends, the supply current is checked and MCLK starts, or the start
    fails. -/
  | headSupplySettled (h : Fin 4)
  /-- HEAD_BIAS_SETTLED (R133): BIAS_SETTLE after the bias ramp ends and the head's first frame starts
    verification. -/
  | headBiasSettled (h : Fin 4)
  /-- CFG_REQUEST (R127): A write to CFG_REQUEST queues one configuration transaction. -/
  | cfgRequest (m : Master) (h : Fin 4) (v : BitVec 64)
  /-- CFG_TRANSACTION_START (R127): A queued configuration transaction starts once the leap line or blanking can
    hold it. -/
  | cfgTransactionStart (h : Fin 4)
  /-- CFG_TRANSACTION_COMPLETE (R127): A configuration transaction completes, advancing CFG_STATUS and storing
    read data. -/
  | cfgTransactionComplete (h : Fin 4) (data : BitVec 32)
  /-- CFG_SCRIPT_WAIT_END (R128): The wait time of a wait entry of the CFG_INIT script expires and the script
    continues. -/
  | cfgScriptWaitEnd (h : Fin 4)
  /-- CFG_CHECK_FAILURE (R129): Three consecutive check mismatches cause head loss with cause 6. -/
  | cfgCheckFailure (h : Fin 4)
  /-- HEAD_FRAME_START (R22): At a head's frame start the device latches capture time, applies staged writes,
    evaluates the band, advances Solstice, exchanges converters and applies throttling. -/
  | headFrameStart (h : Fin 4)
  /-- LEAP_LINE (R119): The leap line runs its settle, tap-test and calibration segments and then returns the AFE
    inputs to the taps. -/
  | leapLine (h : Fin 4) (responses : List (BitVec 32)) (step refStep : Option CalStep)
  /-- BLANKING_START (R154): At the start of blanking a pending spare is connected in parallel, or a calibrated
    converter is reconnected. -/
  | blankingStart (h : Fin 4)
  /-- HEAD_VERIFICATION_END (R134): The head's verification frames end; reversed taps are swapped or taken out of
    service and the head runs or fails. -/
  | headVerificationEnd (h : Fin 4)
  /-- TAP_RAIL_SHORT (R136): A tap's common mode lies outside range in 16 consecutive sampled lines and the tap
    goes out of service. -/
  | tapRailShort (h : Fin 4) (tap : Fin 16)
  /-- HEAD_SUPPLY_OVERCURRENT (R136): The head supply is in current limit for 1 ms and the head is lost with cause
    1. -/
  | headSupplyOvercurrent (h : Fin 4) (e : LimitEvent := .lasted)
  /-- HEAD_SUPPLY_UNDERCURRENT (R136): The supply current lies below SUP_MIN_CURRENT in 10 consecutive rounds and
    the head is lost with cause 2. -/
  | headSupplyUndercurrent (h : Fin 4)
  /-- BIAS_OVERCURRENT (R136): A bias output is in current limit for 1 ms and the head is lost with cause 3. -/
  | biasOvercurrent (h : Fin 4) (b : Fin 8) (e : LimitEvent := .lasted)
  /-- BIAS_OPEN (R136): A bias current lies below BIAS_MIN_CURRENT in 10 consecutive rounds and the head is lost
    with cause 4. -/
  | biasOpen (h : Fin 4) (b : Fin 8)
  /-- HEAD_RETRY (R141): RETRY_INTERVAL after a loss the port runs the head start sequence again. -/
  | headRetry (h : Fin 4)
  /-- TRIGGER_DELIVERY (R397): A Psirel trigger addressed to the node is delivered to each matching head at its
    first MCLK edge at or after the target time. -/
  | triggerDelivery (h : Fin 4)
  /-- TRIGGER_TIMEOUT (R121): No trigger is accepted within 2 × FRAME_LENGTH, so the port starts a frame itself
    and runs free marking SYNC_LOST. -/
  | triggerTimeout (h : Fin 4)
  /-- CONVERTER_WATCHDOG (R158): A conversion does not end within 24 CLK_CONV cycles and the converter is reset. -/
  | converterWatchdog (b : Fin 4) (conv : Fin 34)
  /-- CONVERTER_RESET_END (R158): A converter reset ends and the converter resumes its slot with its next due
    sample. -/
  | converterResetEnd (b : Fin 4) (conv : Fin 34)
  /-- HK_ROUND_TRIGGER (R162): At each 1000th CLK_TICK both housekeeping converters start a round. -/
  | hkRoundTrigger
  /-- HK_ROUND_COMPLETE (R164): Both converters finish a round and every value of the round is published at once. -/
  | hkRoundComplete (hk0 hk1 : List (BitVec 22)) (mr0 mr1 : Option (BitVec 5)) (inputs : List (List Int) := [])
  /-- THROTTLE_STEP_DOWN (R180): T_hot has stayed below the hysteresis threshold for THR_DWELL and the level falls
    by one. -/
  | throttleStepDown
  /-- THROTTLE_FLOOR_END (R181): The floor set by a sensor state entry expires after 10 × THR_DWELL. -/
  | throttleFloorEnd (sensor : Fin 17)
  /-- L4_EXIT (R184): Every valid front-die sensor has read at or below THR_L4_EXIT for THR_DWELL and the pixel
    die restarts at L3. -/
  | l4Exit
  /-- LEVEL_TRIP (R186): The analogue level-trip comparator of a die operates and trips thermal shutdown. -/
  | levelTrip (die : Fin 2) (v : BitVec 32)
  /-- HK_URGENT_REQUEST (R166): A write to HK_URGENT_REQUEST starts one urgent conversion, or is dropped or
    reported invalid. -/
  | hkUrgentRequest (m : Master) (v : BitVec 16)
  /-- HK_URGENT_COMPLETE (R166): An urgent conversion ends and its result and time are published. -/
  | hkUrgentComplete (k : Fin 2) (code : BitVec 16) (input : Option Int := none)
  /-- HK_CONVERTER_WATCHDOG (R469): A housekeeping conversion not ended in 2 µs resets the converter and
    invalidates its members for the round. -/
  | hkConverterWatchdog (k : Fin 2)
  /-- CAL_COMMAND (R194): A write of 1 to CAL_COMMAND triggers a calibration run. -/
  | calCommand (m : Master)
  /-- CAL_RUN_START (R195): A triggered calibration run starts once no run is in progress and VREF_STATE reads 0. -/
  | calRunStart (ref0 ref1 : CalStep)
  /-- CONVERTER_CALIBRATION_COMPLETE (R196): A converter's three-point calibration ends and its trim codes and
    digital correction values are written. -/
  | converterCalibrationComplete (b : Fin 4) (off gain : BitVec 10) (oc gc : BitVec 32)
  /-- CAL_RUN_COMPLETE (R195): Every target has been calibrated and CAL_RUNS and CAL_LAST_RUN_TIME are updated. -/
  | calRunComplete
  /-- CAL_REVERT (R199): A write to CAL_REVERT exchanges the current and previous trims of a head or of the
    reference buffers. -/
  | calRevert (m : Master) (v : BitVec 8)
  /-- LINE_ELIGIBLE (R312): A head line's last sample is converted and the line becomes eligible with a deadline. -/
  | lineEligible (h : Fin 4) (samples : List (List (Option (BitVec 16))))
  /-- LINE_GRANT (R311): The arbiter grants a free resource to the eligible line with the earliest deadline and
    the line is processed. -/
  | lineGrant (res : Fin 2) (badRec badState badAcc : List (BitVec 16)) (fixed : List (BitVec 40) := [])
  /-- LINE_COMPLETE (R311): A granted line is complete and its resource is released. -/
  | lineComplete (res : Fin 2)
  /-- NUC_LANE_WATCHDOG (R469): A granted line not complete in 100 µs resets the lane group and grants the line
    again. -/
  | nucLaneWatchdog (lane : Fin 4)
  /-- BLOCK_RESET_TIMEOUT (R471): A block reset does not complete within 1 ms and the block's region is scheduled
    to restart. -/
  | blockResetTimeout (region : Fin 5) (block : BitVec 8)
  /-- REGION_RESTART (R471): A scheduled region restarts at its frame boundary, with the effects of Table 16.6. -/
  | regionRestart (region : Fin 5)
  /-- REGION_RESTART_COMPLETE (R471): A region restart completes and the region returns to running or degraded. -/
  | regionRestartComplete (region : Fin 5) (lanesOk : BitVec 4)
  /-- REGION_RESTART_TIMEOUT (R472): A region restart does not complete in its time and the chip enters the safe
    state. -/
  | regionRestartTimeout (region : Fin 5)
  /-- GNONER_WATCHDOG (R469): The Gnoner watchdog is not served for 100 ms and the HKP region restarts. -/
  | gnonerWatchdog
  /-- ONION_LOAD (R234): A write to ONION_LOAD loads a set image from flash or host memory into a set. -/
  | onionLoad (m : Master) (v : BitVec 64)
  /-- ONION_LOAD_COMPLETE (R234): A load ends, the set becomes resident or failed, and ONION_LOAD_STATUS reports
    the outcome. -/
  | onionLoadComplete (r : SetImage)
  /-- ONION_PASS_COMPLETE (R235): A pass writing the E field of every record of a set completes. -/
  | onionPassComplete (set : Fin 32)
  /-- ONION_REVERT (R237): A write to ONION_REVERT exchanges a set's field layer and shadow. -/
  | onionRevert (m : Master) (v : BitVec 8)
  /-- ONION_SAVE (R238): A write to ONION_SAVE writes a set's field layer into a flash field slot. -/
  | onionSave (m : Master) (v : BitVec 8)
  /-- ONION_SAVE_COMPLETE (R238): A save ends after its slot header is written, or fails or restarts. -/
  | onionSaveComplete (r : SaveResult)
  /-- ONION_EVICT (R259): A write to ONION_EVICT frees a set and its DRAM range. -/
  | onionEvict (m : Master) (v : BitVec 8)
  /-- SOLSTICE_REQUEST (R247): A write of 1 to SOLSTICE_COMMAND sets the command bit of SOLSTICE_DUE. -/
  | solsticeRequest (m : Master) (h : Fin 4)
  /-- SOLSTICE_ABANDON_COMMAND (R255): A write of 2 to SOLSTICE_COMMAND abandons the event with cause 1 or
    withdraws the request. -/
  | solsticeAbandonCommand (m : Master) (h : Fin 4)
  /-- SOLSTICE_COMMIT_COMPLETE (R253): The commit pass completes; shadow, sequence, anchors, counters and log are
    updated and an autosave requested. -/
  | solsticeCommitComplete (h : Fin 4)
  /-- SOLSTICE_CLOSE_TIMEOUT (R249): The close is not reported within 30 frames and the event is abandoned with
    cause 3. -/
  | solsticeCloseTimeout (h : Fin 4)
  /-- SHUTTER_STUCK (R256): The open is not reported within 30 frames or is faulty and the Solstice reads stuck
    closed. -/
  | shutterStuck (h : Fin 4)
  /-- SHUTTER_REOPEN_RETRY (R256): While stuck closed an open is commanded again every 1 s. -/
  | shutterReopenRetry (h : Fin 4)
  /-- CH_ENERGISE (R264): A write of 1 to CH_COMMAND starts or queues an operation on the channel. -/
  | chEnergise (m : Master) (ch : Fin 4)
  /-- CH_RELEASE (R266): A write of 2 to CH_COMMAND passes the operation to fast decay or removes it from the
    queue. -/
  | chRelease (m : Master) (ch : Fin 4)
  /-- SHUTTER_CLOSE (R276): A write of 1 to SHUTTER_COMMAND requests a close operation on the lower channel. -/
  | shutterClose (m : Master) (b : Fin 2)
  /-- SHUTTER_OPEN (R276): A write of 2 to SHUTTER_COMMAND requests an open operation on the upper channel. -/
  | shutterOpen (m : Master) (b : Fin 2)
  /-- BANK_RUN_START (R262): A write of 1 to BANK_RUN lets the bank start operations. -/
  | bankRunStart (m : Master) (b : Fin 2)
  /-- BANK_STOP (R262): A write of 0 to BANK_RUN ends running operations with result 13 and discards queued
    requests. -/
  | bankStop (m : Master) (b : Fin 2)
  /-- BANK_FAULT_CLEAR (R273): A write of 1 to BANK_FAULT_CLEAR clears the bank latch. -/
  | bankFaultClear (m : Master) (b : Fin 2)
  /-- BOOST_START (R264): An operation's boost begins within 20 µs of its command or of leaving the queue. -/
  | boostStart (ch : Fin 4)
  /-- PEAK_REACHED (R271): The sensed current reaches PEAK_CURRENT, ending boost and judging the time to peak. -/
  | peakReached (ch : Fin 4) (current : BitVec 32)
  /-- BOOST_TIMEOUT (R271): The peak is not reached within BOOST_TIMEOUT and the operation ends with result 5. -/
  | boostTimeout (ch : Fin 4)
  /-- MOTION_DETECTED (R272): The boost current falls DIP_MIN below its running maximum and motion time is
    recorded. -/
  | motionDetected (ch : Fin 4) (current : BitVec 32)
  /-- HOLD_END (R264): HOLD_TIME after boost end the operation passes to fast decay. -/
  | holdEnd (ch : Fin 4)
  /-- HOLD_OVERCURRENT (R265): In shared mode the hold current exceeds HOLD_CURRENT for 1 ms and the operation
    ends with result 8. -/
  | holdOvercurrent (ch : Fin 4)
  /-- DECAY_END (R264): The sensed current falls below 50 mA and dwell begins. -/
  | decayEnd (ch : Fin 4) (samples : List (BitVec 32))
  /-- DECAY_TIMEOUT (R264): Decay does not end within DECAY_TIMEOUT and the operation ends with result 9. -/
  | decayTimeout (ch : Fin 4) (samples : List (BitVec 32))
  /-- CLAMP_ENERGY_EXCEEDED (R270): The clamp-energy estimate of a decay exceeds 30 mJ and the operation ends with
    result 10. -/
  | clampEnergyExceeded (ch : Fin 4) (samples : List (BitVec 32))
  /-- CLAMP_HOLDOFF_END (R270): The 1 s clamp power falls to 500 mW or below and held starts resume. -/
  | clampHoldoffEnd
  /-- OPERATION_COMPLETE (R267): Dwell ends and the operation's results are published and OPERATIONS increments. -/
  | operationComplete (ch : Fin 4) (highest : BitVec 32)
  /-- SWITCH_OVERCURRENT (R273): A switch above 6.0 A is switched off within 2 µs and the operation ends with
    result 7. -/
  | switchOvercurrent (ch : Fin 4)
  /-- CROSS_CURRENT (R273): Over 100 mA sensed for 10 µs in a channel not operating latches the bank with result
    11. -/
  | crossCurrent (ch : Fin 4)
  /-- OFFSTATE_TEST (R274): Every 100 ms the driver starts an off-state test on each idle bank. -/
  | offstateTest
  /-- OFFSTATE_TEST_END (R274): An off-state test ends and conditions found twice are reported or latch the bank. -/
  | offstateTestEnd (b : Fin 2) (found : BitVec 4)
  /-- VSOL_REVERSED (R275): The comparator finds VSOL below −1.0 V, ending operations with result 12. -/
  | vsolReversed
  /-- VSOL_RECOVERED (R275): VSOL_STATE returns to 0 and the driver resumes. -/
  | vsolRecovered (inRange : Bool := true)
  /-- PARK_COMPLETE (R278): Every bank has finished its park and reads BANK_STATE 5. -/
  | parkComplete
  /-- TNR_RESEED (R285): A write of 1 to TNR_RESEED makes the next frame of the source a seed frame. -/
  | tnrReseed (m : Master) (src : Fin 6)
  /-- PALETTE_LOAD (R341): A write to PALETTE_LOAD copies a palette image into its on-chip copy. -/
  | paletteLoad (m : Master) (v : BitVec 8)
  /-- PALETTE_COPY_COMPLETE (R341): A palette copy completes and users change to it at their next frame start. -/
  | paletteCopyComplete (p : Fin 8)
  /-- SRC_RUN_REQUEST (R302): A write of 1 to SRC_RUN is checked and admitted and starts the CSI-2 source. -/
  | srcRunRequest (m : Master) (i : Fin 2)
  /-- SRC_STOP (R302): A write of 0 to SRC_RUN stops the CSI-2 source. -/
  | srcStop (m : Master) (i : Fin 2)
  /-- RX_RUN_START (R324): A write of 1 to RX_RUN starts a CSI-2 receiver. -/
  | rxRunStart (m : Master) (k : Fin 2)
  /-- RX_STOP (R324): A write of 0 to RX_RUN stops a receiver unless a running source names it. -/
  | rxStop (m : Master) (k : Fin 2)
  /-- CSI_FRAME_START_PACKET (R303): A frame-start short packet opens a CSI-2 frame and its capture time is taken. -/
  | csiFrameStartPacket (k : Fin 2) (vc : Fin 4) (hdr : CsiHeader) (number : BitVec 16)
  /-- CSI_LONG_PACKET (R304): A long packet delivers one CSI-2 line, checked and handled for ECC, CRC, length and
    overrun. -/
  | csiLongPacket (k : Fin 2) (vc : Fin 4) (l : CsiLine)
  /-- CSI_FRAME_END_PACKET (R303): A frame-end packet closes the CSI-2 frame and missing content is filled. -/
  | csiFrameEndPacket (k : Fin 2) (vc : Fin 4) (hdr : CsiHeader)
  /-- CSI_SOURCE_TIMEOUT (R307): No frame-start packet arrives within SRC_FRAME_TIMEOUT and the source is lost. -/
  | csiSourceTimeout (i : Fin 2)
  /-- CSI_SUBSTITUTE_FRAME (R307): At each declared frame period of a lost source a substitute frame starts as a
    repeat. -/
  | csiSubstituteFrame (i : Fin 2)
  /-- CSI_LANE_WATCHDOG (R469): No valid start of transmission for 1 ms while receiving resets the CSI lane. -/
  | csiLaneWatchdog (k : Fin 2) (lane : Fin 4)
  /-- STREAM_START (R332): A write of 1 to STREAM_RUN is checked and admitted and starts the stream. -/
  | streamStart (m : Master) (n : Fin 8)
  /-- STREAM_STOP (R333): A write of 0 to STREAM_RUN lets the frame in progress complete and stops the stream. -/
  | streamStop (m : Master) (n : Fin 8)
  /-- STREAM_LINE_OUTPUT (R336): The scaler produces an output line, which is converted and written to the host
    ring. -/
  | streamLineOutput (n : Fin 8)
  /-- STREAM_FRAME_COMPLETE (R346): After the last line the frame header, writeback word and MSI-X are written and
    RING_WRITE advances. -/
  | streamFrameComplete (n : Fin 8)
  /-- STREAM_WATCHDOG (R347): A scaler or stream writer watchdog reset rewrites the frame from the stored frame or
    discards it. -/
  | streamWatchdog (n : Fin 8) (writer fits : Bool)
  /-- STAT_RECORD_COMPLETE (R356): A source frame's statistics record is complete and the ROI objects are updated. -/
  | statRecordComplete (src : Fin 6)
  /-- STAT_HOST_COPY_START (R424): The next queued statistics record copy starts on its DMA channel. -/
  | statHostCopyStart (ch : Fin 16)
  /-- STAT_HOST_COPY_COMPLETE (R357): A record copy completes and its writeback word and MSI-X follow. -/
  | statHostCopyComplete (ch : Fin 16) (status : BitVec 8)
  /-- PERST_ASSERT (R369): Assertion of PERST_N stops streams and statistics copies and releases host locks. -/
  | perstAssert
  /-- PERST_DEASSERT (R464): Deassertion of PERST_N readies configuration space, and in standby wakes the
    controller and starts the host-facing pixel-die blocks. -/
  | perstDeassert
  /-- HOT_RESET (R369): A hot reset stops streams and statistics copies and releases host locks. -/
  | hotReset
  /-- FLR_F0 (R369): A function-level reset of Function 0 stops streams and copies and empties channels 0–5. -/
  | flrF0
  /-- FLR_F1 (R369): A function-level reset of Function 1 releases its locks and empties channels 6–7. -/
  | flrF1
  /-- LINK_DOWN (R369): The PCIe link goes down without reset; frames are discarded and host locks released. -/
  | linkDown
  /-- BUS_MASTER_DISABLE (R369): Bus Master Enable 0 or D3hot on Function 0 acts on streams and copies as link
    down. -/
  | busMasterDisable
  /-- PME_TURN_OFF (R371): PME_Turn_Off brings the link to L2, after which wake causes drive WAKE_N low. -/
  | pmeTurnOff
  /-- PCIE_EVENT_ACK (R368): A write to PCIE_EVENT_ACK clears the event status bits written as 1. -/
  | pcieEventAck (m : Master) (v : BitVec 8)
  /-- BAR2_ACCESS (R366): A BAR2 access reaches device DRAM at the base offset, with out-of-range, poison and
    protection handling. -/
  | bar2Access (off : BitVec 26) (acc : Bar2) (fixed : List (BitVec 40) := [])
  /-- PCIE_ERROR_RECEIVED (R372): A received PCIe error is reported through AER and counted. -/
  | pcieErrorReceived (e : PcieError)
  /-- CAN_FRAME_RECEIVED (R374): A CAN FD frame is received and dispatched to NMT, USDO or a receive PDO. -/
  | canFrameReceived (f : CanFrame)
  /-- CAN_WAKE (R375): A dominant level of 5 µs on CAN_RX in deep standby wakes the management controller. -/
  | canWake
  /-- NMT_START_REMOTE (R377): The NMT start command enters operational. -/
  | nmtStartRemote
  /-- NMT_STOP_REMOTE (R377): The NMT stop command enters stopped. -/
  | nmtStopRemote
  /-- NMT_ENTER_PRE_OPERATIONAL (R377): The NMT command enters pre-operational. -/
  | nmtEnterPreOperational
  /-- NMT_RESET_COMMUNICATION (R377): Reset communication restarts the controller, reloads store group 2, releases
    CAN locks and sends boot-up. -/
  | nmtResetCommunication (found : List NvmFind := [])
  /-- NMT_RESET_NODE (R377): Reset node acts as reset communication, and also as a chip reset while
    NMT_RESET_ACTION is 1. -/
  | nmtResetNode (found : List NvmFind := [])
  /-- USDO_INITIATE (R378): A USDO initiate request opens an expedited or segmented transfer, ending any running
    session. -/
  | usdoInitiate (r : UsdoRequest) (found : List NvmFind := [])
  /-- USDO_SEGMENT (R378): A USDO segment continues the running segmented transfer. -/
  | usdoSegment (r : UsdoSegment)
  /-- USDO_TIMEOUT (R378): A session without a segment for 1 s is dropped and counted. -/
  | usdoTimeout
  /-- RPDO_RECEIVED (R383): A receive PDO writes its mapped values in order as CAN-client writes, or is ignored. -/
  | rpdoReceived (n : Fin 2) (data : List Byte)
  /-- TPDO_EVENT_TIMER (R381): A transmit PDO's event timer expires and the PDO is sent. -/
  | tpdoEventTimer (n : Fin 4)
  /-- TPDO_INHIBIT_END (R381): A transmit PDO's inhibit time ends and one merged PDO is sent. -/
  | tpdoInhibitEnd (n : Fin 4)
  /-- EMCY_INHIBIT_END (R379): The EMCY inhibit time ends and the next queued EMCY message is sent. -/
  | emcyInhibitEnd
  /-- HEARTBEAT (R377): The heartbeat is produced every HEARTBEAT_TIME. -/
  | heartbeat
  /-- CAN_TRIGGER (R385): A write to CAN_TRIGGER issues, delivers or ignores a frame trigger according to
    PSIREL_ROLE. -/
  | canTrigger (m : Master) (v : BitVec 32)
  /-- PSIREL_MARK_SEND (R391): The master sends a time mark each time its time base reaches a multiple of 1 ms. -/
  | psirelMarkSend
  /-- PSIREL_MARK_RECEIVED (R394): A member receives a time mark, computes its error and steps or steers its time
    base. -/
  | psirelMarkReceived (mk : PsiMark)
  /-- PSIREL_HOLDOVER (R394): A locked member without a valid mark for 3 ms enters holdover. -/
  | psirelHoldover
  /-- PSIREL_RETURN_MEASURE (R393): Once per millisecond the node times the reflection on its return pair. -/
  | psirelReturnMeasure (r : PsiReturn)
  /-- PSIREL_CABLE_DELAY_PUBLISH (R393): Every 64 ms the mean of the last 64 valid return measurements is
    published. -/
  | psirelCableDelayPublish
  /-- PSIREL_TRIGGER (R397): A write to PSIREL_TRIGGER on the master sends a trigger with the configured lead. -/
  | psirelTrigger (m : Master) (v : BitVec 32)
  /-- PSIREL_PERIODIC_TRIGGER (R397): The master sends a periodic trigger PSIREL_TRIGGER_LEAD before each period
    target time. -/
  | psirelPeriodicTrigger
  /-- PSIREL_TRIGGER_RECEIVED (R397): A member receives a trigger message, forwards it and schedules or discards
    delivery. -/
  | psirelTriggerReceived (t : PsiTrigger)
  /-- PSIREL_TIME_SET (R396): A write to PSIREL_TIME_SET sets the time of the next mark instant. -/
  | psirelTimeSet (m : Master) (v : BitVec 64)
  /-- PSIREL_TIME_ADJUST (R396): A write to PSIREL_TIME_ADJUST slews the time base without a step. -/
  | psirelTimeAdjust (m : Master) (v : BitVec 32)
  /-- PSIREL_WAKE (R399): A write of 1 to PSIREL_WAKE on the master sends a wake gap. -/
  | psirelWake (m : Master) (v : BitVec 8)
  /-- PSIREL_WAKE_DETECT (R399): In deep standby a signal present for 5 µs after a 10 µs gap on SYNC_IN wakes the
    management controller. -/
  | psirelWakeDetect
  /-- PSIREL_INPUT_INVALID (R398): SYNC_IN shows no signal for 1 µs or over 16 code violations in 1 ms and is
    invalid. -/
  | psirelInputInvalid (violations : BitVec 8)
  /-- MBX_SEND (R404): A write of 1 to the H2D command sends the message and raises the wake event. -/
  | mbxSend (m : Master) (ch : Fin 8)
  /-- MBX_RECALL (R406): A write of 2 to the H2D command removes an untaken message. -/
  | mbxRecall (m : Master) (ch : Fin 8)
  /-- MBX_D2H_RELEASE (R405): A write of 1 to the D2H release takes the device-to-host message. -/
  | mbxD2hRelease (m : Master) (ch : Fin 8)
  /-- MBX_IRQ_ACK (R412): A write to the IRQ acknowledgement clears the status bits written as 1. -/
  | mbxIrqAck (m : Master) (ch : Fin 8) (v : BitVec 8)
  /-- MBX_TIMEOUT (R406): A message not taken within MBX_TIMEOUT sets the timed-out flag and raises a timeout
    indication. -/
  | mbxTimeout (ch : Fin 8) (d2h : Bool)
  /-- MBX_TAKE (R409): Gnoner takes an H2D message into its request store once it has room. -/
  | mbxTake (ch : Fin 8)
  /-- MBX_D2H_SEND (R409): Gnoner sends a reply into an empty D2H buffer and raises the D2H indication. -/
  | mbxD2hSend (ch : Fin 8)
  /-- MBX_CHANNEL_WATCHDOG (R469): An internal mailbox transfer not complete in 100 µs resets and empties the
    channel. -/
  | mbxChannelWatchdog (ch : Fin 8)
  /-- MBX_OBJECT_READ (R414): Request type 0x0001 reads one object slot. -/
  | mbxObjectRead (ch : Fin 8)
  /-- MBX_OBJECT_WRITE (R414): Request type 0x0002 writes one object slot. -/
  | mbxObjectWrite (ch : Fin 8)
  /-- MBX_OBJECT_READ_MULTI (R414): Request type 0x0003 reads up to three consecutive sub-indices at one instant. -/
  | mbxObjectReadMulti (ch : Fin 8)
  /-- MBX_ECHO (R414): Request type 0x0010 returns the same words. -/
  | mbxEcho (ch : Fin 8)
  /-- FW_IMAGE_WRITE (R461): Request type 0x0100 writes image bytes from Function 1 host memory into the slot not
    running. -/
  | fwImageWrite (ch : Fin 8) (data : List Byte)
  /-- FW_COMMIT (R461): Request type 0x0101 verifies the written slot and logs the commit. -/
  | fwCommit (ch : Fin 8) (sigOk : Bool)
  /-- FW_SLOT_STATUS (R461): Request type 0x0102 returns the running slot, verified slots and releases. -/
  | fwSlotStatus (ch : Fin 8)
  /-- DMA_START (R418): A write of 1 to DMA_START checks the descriptor and arms or readies the channel. -/
  | dmaStart (m : Master) (ch : Fin 16)
  /-- DMA_ABORT (R423): A write of 1 to DMA_ABORT ends the channel's transfer with status 2. -/
  | dmaAbort (m : Master) (ch : Fin 16)
  /-- DMA_REQUEST_ASSERT (R419): A pacing request is asserted, making the paced channel ready for one grant. -/
  | dmaRequestAssert (req : Fin 12)
  /-- DMA_REQUEST_WITHDRAW (R419): A pacing request is withdrawn, missing or flagging the grant. -/
  | dmaRequestWithdraw (req : Fin 12)
  /-- DMA_GRANT (R415): The free engine grants the ready channel of highest priority, round-robin within a
    priority. -/
  | dmaGrant (src : List Byte) (fixed : List (BitVec 40) := [])
  /-- DMA_COMPLETE (R421): A transfer is complete; status is published, the completion record written and MSI-X
    sent. -/
  | dmaComplete (fixed : List (BitVec 40) := [])
  /-- DMA_BEAT_ERROR (R422): The first failed beat ends the transfer with its error status. -/
  | dmaBeatError (bytes : Nat) (status : BitVec 8) (dst : Bool)
  /-- DMA_TIMEOUT (R423): A grant completes no beat within DMA_TIMEOUT and ends with status 7. -/
  | dmaTimeout (bytes : Nat) (dst : Bool)
  /-- SP_ROLE_WRITE (R428): A write to SP_ROLE changes the serial port between master and slave. -/
  | spRoleWrite (m : Master) (v : BitVec 8)
  /-- SPS_FRAME_START (R433): SP_CS0_N falls and the slave forms the status byte and sends the kept reply. -/
  | spsFrameStart
  /-- SPS_FRAME_END (R434): SP_CS0_N rises and the frame is checked for CRC, length and alive counter and accepted
    or ignored. -/
  | spsFrameEnd (bytes : List Byte)
  /-- SPS_NOP (R433): Opcode 0 carries no request and fetches the kept reply. -/
  | spsNop
  /-- SPS_READ_SLOT (R430): Opcode 1 reads one object slot. -/
  | spsReadSlot
  /-- SPS_WRITE_SLOT (R430): Opcode 2 writes one object slot. -/
  | spsWriteSlot
  /-- SPS_READ_SLOTS (R431): Opcode 3 reads up to 16 sub-indices of one object at one instant. -/
  | spsReadSlots
  /-- SPS_DOMAIN_READ (R432): Opcode 4 reads bytes of a DOMAIN image from an offset. -/
  | spsDomainRead (found : List NvmFind := [])
  /-- SPS_DOMAIN_WRITE (R432): Opcode 5 writes a segment of a DOMAIN transfer. -/
  | spsDomainWrite
  /-- SPS_DOMAIN_END (R432): Opcode 6 closes the DOMAIN transfer and writes the image. -/
  | spsDomainEnd
  /-- SPS_REPLY_READY (R433): An accepted slave request completes and its reply is kept for the next frames. -/
  | spsReplyReady
  /-- XIP_READ (R437): A read of the XIP window issues a flash read or continues the previous one. -/
  | xipRead (off : BitVec 28) (len : BitVec 16)
  /-- XIP_PROGRAM_WRITE (R438): A management-controller write to the window collects in the page buffer, flushing
    on a break. -/
  | xipProgramWrite (off : BitVec 28) (data : List Byte)
  /-- PAGE_BUFFER_TIMEOUT (R438): After 10 µs without a write the page buffer is flushed as a program. -/
  | pageBufferTimeout
  /-- SPM_FLUSH (R438): A write of 1 to SPM_FLUSH flushes the page buffer as a program. -/
  | spmFlush (m : Master)
  /-- SPM_ERASE (R438): A write to SPM_ERASE erases the 4 KiB sector holding the offset. -/
  | spmErase (m : Master) (off : BitVec 32)
  /-- SPM_STATUS_POLL (R438): The flash status register is polled every SPM_POLL_INTERVAL until the sequence ends
    or errs. -/
  | spmStatusPoll (status : BitVec 8) (fixed : List (BitVec 40) := [])
  /-- SPM_SEQUENCE_TIMEOUT (R438): A program or erase exceeds its timeout and ends in error. -/
  | spmSequenceTimeout
  /-- SPM_COPY_START (R439): A write of 1 to SPM_COPY_START copies DRAM into flash sector by sector. -/
  | spmCopyStart (m : Master)
  /-- SPM_COPY_COMPLETE (R439): A DRAM-to-flash copy ends and SPM_COPY_STATUS reports the outcome. -/
  | spmCopyComplete (result : BitVec 8)
  /-- DRAM_SCRUB_PASS (R442): The scrubber completes a pass over DRAM, correcting single-bit errors. -/
  | dramScrubPass (ch : Fin 2) (corrected uncorrectable : List (BitVec 40)) (link : BitVec 32 := 0)
  /-- NVM_WRITE_WATCHDOG (R469): An NVM group write not complete in 5 µs is reset and written again. -/
  | nvmWriteWatchdog
  /-- NVM_HOLD_RELEASE (R451): The thermal hold on NVM writes ends and the queued writes are written. -/
  | nvmHoldRelease
  /-- PCIE_LINK_UP (R413): The PCIe link completes training and reaches L0, and MSI-X messages held pending while
    it was down are sent; a link that is up passes to the power state that ASPM allows, or back to L0 (Table 13.1). -/
  | pcieLinkUp (speed : Fin 6) (width : Fin 5) (power : LinkPower := .l0)
  /-- PCIE_CONFIG_WRITE (R372): A host write to configuration space sets Bus Master Enable, the power state or
    PME_En, or clears an AER status bit; clearing an uncorrectable status bit clears ERROR_REGISTER bit 4. -/
  | pcieConfigWrite (w : CfgWrite)
  /-- MSIX_VECTOR_UNMASK (R367): The host unmasks an MSI-X vector whose pending bit is set, and one message
    follows. -/
  | msixVectorUnmask (f1 : Bool) (vec : Fin 64)
  /-- CAN_ERROR_DETECTED (R374): The CAN FD controller detects a bus error while transmitting or receiving,
    changes CAN_TEC or CAN_REC and may enter warning, error passive or bus off. -/
  | canErrorDetected (tx : Bool) (weight : BitVec 8)
  /-- CAN_BUS_OFF_RECOVERY (R379): The bus-off recovery sequence of recessive bits completes, the controller
    returns to error active and sends EMCY 0x8140. -/
  | canBusOffRecovery
  /-- CSI_SOT_ERROR (R324): A CSI-2 lane fails start-of-transmission synchronisation; SOT_ERRORS increments and
    RX_STATE reads lane synchronisation lost. -/
  | csiSotError (k : Fin 2)
  /-- CSI_DESKEW_SEQUENCE (R300): The receiver gets an initial or periodic deskew sequence, realigns its lanes and
    increments DESKEWS. -/
  | csiDeskewSequence (k : Fin 2)
  /-- PSIREL_IN_INVERTED (R398): The receiver finds inverted commas on SYNC_IN, inverts its input within 1 µs and
    sets PSIREL_IN_INVERTED. -/
  | psirelInInverted
  /-- HK_CONVERTER_ROUND_END (R167): One housekeeping converter finishes its part of the round and is no longer
    busy, so it accepts urgent requests. -/
  | hkConverterRoundEnd (k : Fin 2)
  /-- BLOCK_RESET_COMPLETE (R470): A block's self-reset ends after at most 100 µs and the block retries its
    interrupted line, grant, frame or conversion. -/
  | blockResetComplete (region : Fin 5) (block fits : BitVec 8)
  /-- CELL_RESET_COMPLETE (R469): A cell reset of Table 16.5 ends and the cell resumes, for example a lane group
    granted its line again. -/
  | cellResetComplete (region : Fin 5) (block cell : BitVec 8)
  deriving DecidableEq, Repr

end Sys2Proof
end

