-- ==== Sys2Proof/Decode.lean ====
section
/-! DEFINITION. The command a word spells by the bits of the table: the table gives no row any bits. -/

namespace Sys2Proof

/-- The command that a word of `nbits` bits spells by the fields of opcode_table.json. Every row of the table has an
empty field list, so no word spells a command. -/
def decodeTableWord (_nbits _w : Nat) : Option Instr := none

end Sys2Proof
end

