-- ==== Sys2Proof/Machine/Arith.lean ====
section
/-! DEFINITION. The arithmetic helpers of R4 to R9, R230 and of the CRC rules, over integers: every product and sum
is formed at full width and narrowed where a rule says so. -/

namespace Sys2Proof.Machine

/-- `rne(v, k)` of R6: the integer nearest to v / 2^k, the even one when halfway. -/
def rne (v : Int) (k : Nat) : Int :=
  let p : Int := (2 ^ k : Nat)
  let q := v.fdiv p
  let r2 := 2 * (v - q * p)
  if r2 < p then q else if p < r2 then q + 1 else if q % 2 = 0 then q else q + 1

/-- `rne_div(a, b)` of R230: the integer nearest to a / b for b > 0, the even one when halfway (0 for b = 0). -/
def rneDiv (a b : Int) : Int :=
  if b ≤ 0 then 0
  else
    let q := a.fdiv b
    let r2 := 2 * (a - q * b)
    if r2 < b then q else if b < r2 then q + 1 else if q % 2 = 0 then q else q + 1

/-- Clamp to a range (R7). -/
def clampI (v lo hi : Int) : Int := if v < lo then lo else if hi < v then hi else v

/-- `sat(v, t)` of R7 for a signed type of w bits. -/
def satS (v : Int) (w : Nat) : Int := clampI v (- (2 ^ (w - 1) : Nat)) ((2 ^ (w - 1) : Nat) - 1)

/-- `sat(v, t)` of R7 for an unsigned type of w bits. -/
def satU (v : Int) (w : Nat) : Int := clampI v 0 ((2 ^ w : Nat) - 1)

/-- `sx(v, w)` of R8: a w-bit field as a two's-complement number. -/
def sx (v w : Nat) : Int :=
  let f := v % 2 ^ w
  if f < 2 ^ (w - 1) then f else (f : Int) - (2 ^ w : Nat)

/-- The low w bits of an integer, as the two's-complement field of that width. -/
def lowBits (v : Int) (w : Nat) : Nat := (v % ((2 ^ w : Nat) : Int)).toNat

/-- The bits of a 64-bit slot that hold a value (R70): the value itself extended by sign or by zeros. -/
def slotOf (v : Int) : Slot := BitVec.ofInt 64 v

/-- Bits [hi:lo] of a number. -/
def bits (v hi lo : Nat) : Nat := (v / 2 ^ lo) % 2 ^ (hi + 1 - lo)

/-- Bit b of a number. -/
def bitOf (v b : Nat) : Bool := (v / 2 ^ b) % 2 = 1

/-- The number with bit b made 1 or 0. -/
def putBit (v b : Nat) (on : Bool) : Nat :=
  if bitOf v b then (if on then v else v - 2 ^ b) else (if on then v + 2 ^ b else v)

/-- The bits of `v` that are 0 in `m`. -/
def clearBits (v m : Nat) : Nat := v - Nat.land v m

/-- How many of the low `w` bits of a number are 1. -/
def popCount : Nat → Nat → Nat
  | 0, _ => 0
  | w + 1, v => v % 2 + popCount w (v / 2)

/-- n bytes of a number, least significant first (R5). -/
def leBytes : Nat → Nat → List Byte
  | 0, _ => []
  | n + 1, v => BitVec.ofNat 8 v :: leBytes n (v / 256)

/-- The number whose bytes, least significant first, are the list (R5). -/
def leNat : List Byte → Nat
  | [] => 0
  | b :: bs => b.toNat + 256 * leNat bs

/-- n bytes of an integer in two's complement, least significant first. -/
def leInt (n : Nat) (v : Int) : List Byte := leBytes n (lowBits v (8 * n))

/-- One bit step of a reflected 32-bit CRC with polynomial 0x04C1_1DB7 (R103). -/
def crc32Bit (c : Nat) : Nat := if c % 2 = 1 then Nat.xor (c / 2) 0xEDB88320 else c / 2

/-- One byte of the CRC-32 of R103. -/
def crc32Byte (c : Nat) (b : Byte) : Nat := (List.range 8).foldl (fun a _ => crc32Bit a) (Nat.xor c b.toNat)

/-- The CRC-32 of R103: reflected, initial value all ones, complemented at the end. -/
def crc32 (l : List Byte) : Nat := Nat.xor (l.foldl crc32Byte 0xFFFFFFFF) 0xFFFFFFFF

/-- One bit step of the CRC-16 with polynomial 0x1021 (R390, R429). -/
def crc16Bit (c : Nat) : Nat := if c / 0x8000 % 2 = 1 then Nat.xor (c * 2 % 0x10000) 0x1021 else c * 2 % 0x10000

/-- One byte of the CRC-16. -/
def crc16Byte (c : Nat) (b : Byte) : Nat :=
  (List.range 8).foldl (fun a _ => crc16Bit a) (Nat.xor c (b.toNat * 256))

/-- The CRC-16 of R429: polynomial 0x1021, initial value 0xFFFF, no reflection, no final complement. -/
def crc16 (l : List Byte) : Nat := l.foldl crc16Byte 0xFFFF

/-- Apply `f` to element `i` of a list (no change when there is none). -/
def modAt {α : Type} (l : List α) (i : Nat) (f : α → α) : List α := l.modify i f

/-- Element `i` of a list, or the default value. -/
def at' {α : Type} [Inhabited α] (l : List α) (i : Nat) : α := l.getD i default

/-- The first n values of a function, 0 to n − 1. -/
def tab {α : Type} (n : Nat) (f : Nat → α) : List α := (List.range n).map f

/-- An integer put into its place in an ascending list. -/
def sortedInsert (x : Int) : List Int → List Int
  | [] => [x]
  | y :: ys => if x ≤ y then x :: y :: ys else y :: sortedInsert x ys

/-- A list of integers in ascending order. -/
def sortInts (l : List Int) : List Int := l.foldr sortedInsert []

/-- The sum of a list of integers. -/
def sumI (l : List Int) : Int := l.foldl (· + ·) 0

/-- The sum of a list of naturals. -/
def sumN (l : List Nat) : Nat := l.foldl (· + ·) 0

end Sys2Proof.Machine
end

