-- ==== Sys2Proof/Config.lean ====
section
/-! DEFINITION. What an implementation fixes and what the spec leaves open. The free values are constants without a
body: nothing can be proved of a particular one. -/

namespace Sys2Proof.Config

/-- The open values of the spec: occurrence `n` of a value the spec does not fix (assumption 3). The state counts
the occurrences. -/
opaque freeValue : Nat → BitVec 64

/-- The page of device DRAM at which the image of a DOMAIN object of the reserved area begins (R94, R486): the spec
gives the area, not the page (assumption 4). The argument is the key of the object. -/
opaque domainPage : Nat → BitVec 32

/-- A byte of the reserved area of device DRAM outside the DOMAIN images, as one access finds it (R486): the spec gives the area's uses,
not their places (assumption 4). The arguments are the occurrence and the address. -/
opaque reservedByte : Nat → Nat → BitVec 8

/-- The refresh multiplier that JESD209-5B assigns to a reading of MR4 (R192): the standard's table is not in the spec
(assumption 20). -/
opaque mr4Multiplier : Nat → BitVec 8

/-- The client port of a DRAM controller through which a client reads (Table 1.1 gives six ports, and the spec does not say whose each
is): the pixel path's coefficient records (0), temporal state (1) and accumulators (2), and BAR2 (3) (assumption 100). -/
opaque dramPort : Nat → BitVec 8

/-- A byte of a Gnoner slot as the factory left it (Table 15.5): the spec does not give the image. The arguments are the slot and the
offset (assumption 116). -/
opaque slotByte : Nat → Nat → BitVec 8

end Sys2Proof.Config
end

