-- ==== Sys2Proof/Machine/Nuc.lean ====
section
/-! DEFINITION. The arithmetic of steps 4 to 8 of the pixel path and of Solstice, on plain values: linearisation, offset
and gain correction, Equinox, bad-pixel replacement, the HDR merge (R205 to R224) and the commit of a Solstice (R251,
R252). -/

namespace Sys2Proof.Machine

/-! ### Samples and coefficient records -/

/-- A sample as step 4 receives it (R205). -/
structure Sample where
  code : Nat
  ovr : Bool
  rec' : Bool
  miss : Bool
  deriving DecidableEq, Repr, Inhabited

/-- O of a record, sQ15.8 (Table 7.2). -/
def recO (r : Nat) : Int := sx (bits r 23 0) 24
/-- G, uQ2.14 -/
def recG (r : Nat) : Nat := bits r 39 24
/-- D1, sQ7.8 -/
def recD1 (r : Nat) : Int := sx (bits r 55 40) 16
/-- D2, sQ3.12 -/
def recD2 (r : Nat) : Int := sx (bits r 71 56) 16
/-- K_hdr, uQ2.14 -/
def recK (r : Nat) : Nat := bits r 87 72
/-- E, sQ7.8 -/
def recE (r : Nat) : Int := sx (bits r 103 88) 16
/-- BP_METHOD -/
def recMethod (r : Nat) : Nat := bits r 106 104
/-- F.DEAD -/
def recDead (r : Nat) : Bool := bitOf r 120
/-- F.NOISY -/
def recNoisy (r : Nat) : Bool := bitOf r 121
/-- F.SHORT_ONLY -/
def recShortOnly (r : Nat) : Bool := bitOf r 122
/-- F.BLIND -/
def recBlind (r : Nat) : Bool := bitOf r 123
/-- F.EXCLUDE -/
def recExclude (r : Nat) : Bool := bitOf r 124

/-- A record with another E. -/
def withE (r : Nat) (e : Int) : Nat := r - bits r 103 88 * 2 ^ 88 + lowBits e 16 * 2 ^ 88

/-- An unusable record (R226): EXCLUDE 1, G 1.0, every other field 0. -/
def unusableRecord : Nat := 0x4000 * 2 ^ 24 + 2 ^ 124

/-- The default knots of a linearisation table (R228). -/
def identityKnots : List Int := tab 257 (fun i => 65536 * i)

/-! ### Per-frame quantities -/

/-- ΔT in sQ7.8 and whether it clamped (R207). -/
def deltaT (tFpa tRef : Int) : Int × Bool :=
  let q := (tFpa - tRef) * 4
  (satS q 16, decide (satS q 16 ≠ q))

/-- RHO_INV of an HDR_RHO R (R208). -/
def rhoInv (r : Nat) : Nat :=
  let q := 0x1000000 / r
  let m := 0x1000000 % r
  if 2 * m > r ∨ (2 * m = r ∧ q % 2 = 1) then q + 1 else q

/-! ### Steps 4 and 5 -/

/-- Linearise a CODE, and whether it clamped (R210). -/
def linearise (knots : List Int) (code : Nat) : Int × Bool :=
  let i := code / 256
  let f : Int := (code % 256 : Nat)
  let l := knots.getD i 0
  let t := l + rne ((knots.getD (i + 1) 0 - l) * f) 8
  (satS t 32, decide (satS t 32 ≠ t))

/-- The offset sum of a record, exact, with 28 fraction bits (R212). -/
def offsetSum (r : Nat) (dT : Int) : Int :=
  recO r * 2 ^ 20 + recE r * 2 ^ 20 + recD1 r * dT * 2 ^ 12 + recD2 r * (dT * dT)

/-- Correct a sample for offset, drift and gain, and whether it clamped (R212, R213). -/
def correct (r : Nat) (dT : Int) (rho : Nat) (short : Bool) (x : Int) : Int × Bool :=
  let s28 := offsetSum r dT
  let s := if short then rne (s28 * rho) 32 else rne s28 16
  let y := rne ((x * 16 - s) * recG r) 18
  (satS y 32, decide (satS y 32 ≠ y))

/-! ### Step 6: Equinox -/

/-- The state of a column of one integration (R243). -/
structure EqxCol where
  a : Int := 0
  z : Int := 0
  seed : Bool := true
  deriving DecidableEq, Repr, Inhabited

/-- A seeded column (R245): seed 1 and Z 0, its anchor left to the next estimate. -/
def EqxCol.seeded (e : EqxCol) : EqxCol := { e with z := 0, seed := true }

/-- The state after the blind rows of a frame, from the sum and the count of the contributing samples (R243). -/
def EqxCol.update (e : EqxCol) (g : Nat) (sum : Int) (n : Nat) : EqxCol :=
  if n = 0 then e
  else
    let m := rneDiv sum n
    if e.seed then { a := m, z := 0, seed := false }
    else { e with z := e.z + rne ((m - e.a) * 256 - e.z) g }

/-- The correction of a column. -/
def EqxCol.corr (e : EqxCol) : Int := rne e.z 8

/-- Correct an active sample, and whether it was passed uncorrected (R244). -/
def EqxCol.apply (e : EqxCol) (y : Int) : Int × Bool :=
  let v := y - e.corr
  if satS v 32 = v then (v, false) else (y, true)

/-! ### Step 7: bad-pixel replacement -/

/-- An active sample before step 7: its step 6 output, CODE and flags, the method that replaces it (0: good), and
whether it is replaced for MISS. -/
structure Cell where
  v : Int
  code : Nat
  ovr : Bool
  rec' : Bool
  meth : Nat
  forMiss : Bool
  deriving DecidableEq, Repr, Inhabited

/-- An active sample after step 7. -/
structure Cell7 where
  v : Int
  code : Nat
  ovr : Bool
  rec' : Bool
  replaced : Bool
  unreplaced : Bool
  fellBack : Bool
  deriving DecidableEq, Repr, Inhabited

/-- The method that replaces a sample (Table 7.3); 0 when it is good. -/
def methodFor (tapOut unusable miss bypass noisyToo : Bool) (r : Nat) : Nat :=
  let m := recMethod r
  let m1 := if 5 ≤ m then 1 else m
  if tapOut then 2
  else if unusable then 1
  else if miss then (if m = 0 then 2 else m1)
  else if bypass then 0
  else if m ≠ 0 then m1
  else if recDead r then 1
  else if recNoisy r && noisyToo then 1
  else 0

/-- An image of samples, by row and column. -/
abbrev Plane (α : Type) := List (List α)

/-- A sample of an image when it lies inside and is good (R217). -/
def available (p : Plane Cell) (row col : Int) : Option Cell :=
  if row < 0 ∨ col < 0 then none
  else
    match (p[row.toNat]?).bind (fun l => l[col.toNat]?) with
    | some c => if c.meth = 0 then some c else none
    | none => none

/-- A replaced sample whose value comes from the samples listed (R219). -/
def fromCells (v : Int) (l : List Cell) (fellBack : Bool) : Cell7 := {
  v := v, code := (l.map (·.code)).foldl max 0, ovr := l.any (·.ovr), rec' := l.any (·.rec')
  replaced := true, unreplaced := false, fellBack := fellBack }

/-- The nearest available sample of a row within `span` columns, the left one first at equal distance (R218). -/
def nearest (p : Plane Cell) (row col : Int) (span : Nat) : Option Cell :=
  (tab span (fun d => d + 1)).findSome? (fun (d : Nat) =>
    ((available p row (col - d)).orElse (fun _ => available p row (col + d))))

/-- The fallback of R218. -/
def fallback (p : Plane Cell) (prev : List Cell7) (row col : Nat) (span : Nat) (own : Cell) : Cell7 :=
  match nearest p row col span with
  | some c => fromCells c.v [c] true
  | none =>
    match prev[col]? with
    | some c => { c with replaced := true, unreplaced := false, fellBack := true }
    | none => { v := own.v, code := own.code, ovr := own.ovr, rec' := own.rec', replaced := false, unreplaced := true, fellBack := false }

/-- The replacement of a sample by its method (Table 7.4); `prev` is the output of the previous active row. -/
def replaceCell (p : Plane Cell) (prev : List Cell7) (row col span : Nat) (own : Cell) : Cell7 :=
  let l := available p row ((col : Int) - 1)
  let r := available p row (col + 1)
  let u := available p ((row : Int) - 1) col
  let d := available p (row + 1) col
  let sum := fun (cs : List Cell) => sumI (cs.map (·.v))
  let two := fun (cs : List Cell) => match cs with
    | [a, b] => fromCells (rne (a.v + b.v) 1) [a, b] false
    | [a] => fromCells a.v [a] false
    | _ => fallback p prev row col span own
  match own.meth with
  | 1 =>
    let cs := [l, r, u, d].filterMap id
    if cs.length = 4 then fromCells (rne (sum cs) 2) cs false
    else if cs.length = 3 then
      (if l.isSome && r.isSome then two ([l, r].filterMap id) else two ([u, d].filterMap id))
    else two cs
  | 2 => two ([l, r].filterMap id)
  | 3 => two ([u, d].filterMap id)
  | _ => two ([l].filterMap id)

/-- One row through step 7. -/
def replaceRow (p : Plane Cell) (prev : List Cell7) (row span : Nat) (cells : List Cell) : List Cell7 :=
  cells.zipIdx.map (fun (c, col) =>
    if c.meth = 0 then
      { v := c.v, code := c.code, ovr := c.ovr, rec' := c.rec', replaced := false, unreplaced := false, fellBack := false }
    else replaceCell p prev row col span c)

/-- Every row through step 7, in order. -/
def replaceRows (p : Plane Cell) (span : Nat) : List Cell7 → Nat → Plane Cell → Plane Cell7
  | _, _, [] => []
  | prev, row, r :: rest =>
    let out := replaceRow p prev row span r
    out :: replaceRows p span out (row + 1) rest

/-- An image through step 7 (R216 to R219). -/
def replacePlane (p : Plane Cell) (span : Nat) : Plane Cell7 := replaceRows p span [] 0 p

/-! ### Step 8: the HDR merge -/

/-- A pixel after step 8, with its flags (Table 7.6) and what the merge counted. -/
structure Merged where
  y : Int
  ovr : Bool
  rec' : Bool
  replaced : Bool
  unreplaced : Bool
  exclude : Bool
  k : Nat
  sat : Bool
  redirect : Bool
  deriving DecidableEq, Repr, Inhabited

/-- The weight k of a pixel, and whether a redirecting rule set it (R220). -/
def hdrWeight (mode knee width : Nat) (shortOnly : Bool) (l s : Cell7) : Nat × Bool :=
  if mode = 1 then (0, false)
  else if mode = 2 ∨ shortOnly then (256, false)
  else if l.ovr ∧ l.code = 0 then (0, true)
  else if l.ovr ∧ l.code = 0xFFFF then (256, true)
  else if l.rec' ∧ !s.ovr ∧ !s.rec' then (256, true)
  else if l.code < knee then (0, false)
  else (min 256 ((l.code - knee) / 2 ^ (width - 8)), false)

/-- Merge the samples of a pixel (R221, R224). -/
def mergePixel (mode knee width rho : Nat) (r : Nat) (l s : Cell7) : Merged :=
  let (k, red) := hdrWeight mode knee width (recShortOnly r) l s
  let q := rne (s.v * ((rho * recK r : Nat) : Int)) 22
  let ys := if 0 < k then satS q 32 else 0
  let m := ((256 - k : Nat) : Int) * l.v + (k : Int) * ys
  let long := decide (k < 256)
  let short := decide (0 < k)
  { y := rne m 8, ovr := (long && l.ovr) || (short && s.ovr), rec' := (long && l.rec') || (short && s.rec')
    replaced := (long && l.replaced) || (short && s.replaced)
    unreplaced := (long && l.unreplaced) || (short && s.unreplaced)
    exclude := recExclude r, k := k, sat := decide (0 < k ∧ satS q 32 ≠ q), redirect := red }

/-- The one sample of a single-integration source (R222). -/
def passPixel (r : Nat) (l : Cell7) : Merged := {
  y := l.v, ovr := l.ovr, rec' := l.rec', replaced := l.replaced, unreplaced := l.unreplaced
  exclude := recExclude r, k := 0, sat := false, redirect := false }

/-! ### The commit of a Solstice (R251, R252) -/

/-- An accumulator: the sum and the invalid bit. -/
structure Accum where
  s : Int
  bad : Bool
  deriving DecidableEq, Repr, Inhabited

/-- Whether a pixel contributes to the mean. -/
def contributes (r : Nat) (a : Accum) : Bool :=
  !a.bad && decide (recG r ≠ 0) && !recDead r && !recNoisy r && !recExclude r && decide (recMethod r = 0)

/-- The sum and the count over the contributing pixels. -/
def commitSums (l : List (Nat × Accum)) : Int × Nat :=
  let c := l.filter (fun (x : Nat × Accum) => contributes x.1 x.2)
  (sumI (c.map (fun (x : Nat × Accum) => x.2.s)), c.length)

/-- mu16 (R252). -/
def commitMean (n : Nat) (m : Int) (p : Nat) : Int := rneDiv (m * 256) ((n * p : Nat) : Int)

/-- The new E of an active pixel: kept, or moved and perhaps clamped. -/
def commitE (n : Nat) (mu16 : Int) (r : Nat) (a : Accum) : Int × Bool × Bool :=
  if a.bad ∨ recG r = 0 then (recE r, true, false)
  else
    let num := (a.s * 256 - n * mu16) * 64
    let e := recE r + rneDiv num ((n * recG r : Nat) : Int)
    (satS e 16, false, decide (satS e 16 ≠ e))

end Sys2Proof.Machine
end

