-- ==== Sys2Proof/Machine/Radiometry.lean ====
section
/-! DEFINITION. The arithmetic of steps 9 to 11 on plain values: the temporal filter, the spatial filter, responsivity,
compensation and the temperature table (R281 to R297). -/

namespace Sys2Proof.Machine

/-! ### Step 9: the temporal filter -/

/-- A temporal state word (Table 10.1). -/
structure TnrWord where
  age : Nat := 0
  motion : Nat := 0
  s : Int := 0
  deriving DecidableEq, Repr, Inhabited

/-- The 48 bits of a state word. -/
def TnrWord.word (t : TnrWord) : Nat := t.age * 2 ^ 44 + t.motion * 2 ^ 40 + lowBits t.s 40

/-- ALPHA_AGE of R284. -/
def alphaAge : List Nat := [256, 128, 85, 64, 51, 43, 37, 32, 28, 26, 23, 21, 20, 18, 17, 16]

/-- Parameters of the temporal filter for a frame. -/
structure TnrPar where
  shift : Nat
  resetClass : Nat
  alpha : List Nat
  deriving DecidableEq, Repr

/-- Filter a pixel (R284): its output, its new state word, and whether it was reset by motion. `fresh` stands for a
seed, OVR, REC or an unusable state word. -/
def tnrPixel (p : TnrPar) (fresh : Bool) (x : Int) (t : TnrWord) : Int × TnrWord × Bool :=
  if fresh then (rne (x * 256) 8, { age := 1, motion := 0, s := x * 256 }, false)
  else
    let d := x * 256 - t.s
    let k := min 15 (d.natAbs / 2 ^ (8 + p.shift))
    let m := max k (max t.motion 1 - 1)
    if p.resetClass ≤ k then (rne (x * 256) 8, { age := 1, motion := m, s := x * 256 }, true)
    else
      let al := max (p.alpha.getD m 256) (alphaAge.getD t.age 16)
      let s1 := t.s + rne (d * al) 8
      (rne s1 8, { age := min 15 (t.age + 1), motion := m, s := s1 }, false)

/-! ### Step 10: the spatial filter -/

/-- A pixel between steps 8 and 11: its value and the pixel flags of Table 7.6. -/
structure Pix where
  v : Int
  ovr : Bool := false
  rec' : Bool := false
  replaced : Bool := false
  unreplaced : Bool := false
  exclude : Bool := false
  deriving DecidableEq, Repr, Inhabited

/-- A pixel of an image, none outside it or where the row is missing (R305). -/
def pixAt (p : List (Option (List Pix))) (row col : Int) : Option Pix :=
  if row < 0 ∨ col < 0 then none
  else
    match p[row.toNat]? with
    | some (some l) => l[col.toNat]?
    | _ => none

/-- The offsets of a 5 × 5 window with the place of their spatial weight, for dx² + dy² = 0, 1, 2, 4, 5, 8. -/
def snrWindow : List (Int × Int × Nat) :=
  ([-2, -1, 0, 1, 2] : List Int).flatMap (fun dy => ([-2, -1, 0, 1, 2] : List Int).map (fun dx =>
    (dx, dy, match (dx * dx + dy * dy).toNat with | 0 => 0 | 1 => 1 | 2 => 2 | 4 => 3 | 5 => 4 | _ => 5)))

/-- Filter a pixel over its window (R288, R289). -/
def snrPixel (p : List (Option (List Pix))) (spatial range : List Nat) (shift row col : Nat) (own : Pix) : Int :=
  if own.ovr || own.rec' then own.v
  else
    let members := snrWindow.filterMap (fun (dx, dy, n) =>
      match pixAt p (row + dy) (col + dx) with
      | some x =>
        if x.ovr || x.rec' then none
        else
          let i := min 31 ((x.v - own.v).natAbs / 2 ^ shift)
          some ((spatial.getD n 0) * (range.getD i 0), x.v)
      | none => none)
    let w := sumN (members.map (·.1))
    let a := sumI (members.map (fun m => (m.1 : Int) * m.2))
    rneDiv a w

/-- Filter every pixel of the rows present. -/
def snrRows (p : List (Option (List Pix))) (spatial range : List Nat) (shift : Nat) : List (Option (List Pix)) :=
  p.zipIdx.map (fun (r, row) => r.map (fun l => l.zipIdx.map (fun (x, col) =>
    { x with v := snrPixel p spatial range shift row col x })))

/-! ### Step 11: radiometry -/

/-- Compensation of one set (R292): emissivity, transmission, reflected and atmospheric temperature. -/
structure CompSet where
  eps : Nat
  tau : Nat
  tRefl : Int
  tAtm : Int
  deriving DecidableEq, Repr

/-- The Y16R code of a temperature in 1/64 °C (R293). -/
def y16rCode (t : Int) : Nat := (satU (rneDiv (5 * t + 87408) 10) 16).toNat

/-- K of a compensation set. -/
def compK (s : CompSet) : Nat := (rneDiv (2 ^ 46) ((s.eps * s.tau : Nat) : Int)).toNat

/-- C of a compensation set, and how many clamps formed it (R293). -/
def compC (rad : List Int) (s : CompSet) : Int × Nat :=
  let (lr, b1) := linearise rad (y16rCode s.tRefl)
  let (la, b2) := linearise rad (y16rCode s.tAtm)
  let v := rne ((s.tau : Int) * (32768 - s.eps) * lr) 30 + rne ((32768 - s.tau : Int) * la) 15
  let n := fun (b : Bool) => if b then 1 else 0
  (satS v 32, n b1 + n b2 + n (decide (satS v 32 ≠ v)))

/-- Radiance of a FLUX value, and whether it clamped (R291). -/
def radiance (gain : Nat) (off y : Int) : Int × Bool :=
  let v := rne ((y - off) * gain) 16
  (satS v 32, decide (satS v 32 ≠ v))

/-- Object radiance, and whether it clamped (R294). -/
def objectRadiance (cc : Int) (k : Nat) (l : Int) : Int × Bool :=
  let v := rne ((l - cc) * k) 16
  (satS v 32, decide (satS v 32 ≠ v))

/-- The Y16R value of an object radiance (R295). -/
def temperature (knots : List Nat) (origin : Int) (m : Nat) (lo : Int) : Nat :=
  let v := lo - origin
  if v < 0 then 0x0000
  else
    let u := v.toNat
    let interp := fun (i f sh : Nat) =>
      let t0 : Int := (knots.getD i 0 : Nat)
      let t1 : Int := (knots.getD (i + 1) 0 : Nat)
      let t := t0 + rne ((t1 - t0) * f) sh
      if t < 7461 then 0x0000 else if 56740 < t then 0xFFFF else t.toNat
    if u < 2 ^ (m + 6) then interp (u / 2 ^ m) (u % 2 ^ m) m
    else
      let b := u.log2
      if m + 21 ≤ b then 0xFFFF
      else
        let sh := b - 6
        interp (64 * (b - m - 5) + (u - 2 ^ b) / 2 ^ sh) ((u - 2 ^ b) % 2 ^ sh) sh

/-- The Y16F value of a FLUX value, and whether it clamped (R296). -/
def y16f (off : Int) (shift : Nat) (y : Int) : Nat × Bool :=
  let v := rne (y - off) shift
  ((satU v 16).toNat, decide (satU v 16 ≠ v))

end Sys2Proof.Machine
end

