-- ==== Sys2Proof/Machine/Imaging.lean ====
section
/-! DEFINITION. The arithmetic of fusion, scaling, windows, colours and statistics on plain values (R321 to R323, R336 to
R342, R350 to R356). -/

namespace Sys2Proof.Machine

/-- A stored frame as rows of stored values: 16 bits for a thermal source or RAW, two or three bytes in packet order,
least significant first, for YUV422 and RGB888 (Table 11.1). -/
abbrev Rows := List (List Nat)

/-- A value of a stored frame (0 outside). -/
def Rows.at (r : Rows) (x y : Nat) : Nat := (r.getD y []).getD x 0

/-! ### Colours (R321, R342) -/

/-- A colour: red, green, blue and A. -/
structure Rgba where
  r : Nat
  g : Nat
  b : Nat
  a : Nat := 0
  deriving DecidableEq, Repr, Inhabited

/-- An 8-bit value. -/
def u8 (v : Int) : Nat := (satU v 8).toNat

/-- Bits of a RAW data type; 0 for the others. -/
def rawBits (dt : Nat) : Nat :=
  match dt with | 0x2A => 8 | 0x2B => 10 | 0x2C => 12 | 0x2D => 14 | 0x2E => 16 | _ => 0

/-- Colour of visible pixel x of a row of stored values (R321). -/
def visColour (dt : Nat) (row : List Nat) (x : Nat) : Rgba :=
  let v := row.getD x 0
  if dt = 0x24 then { r := v % 256, g := v / 256 % 256, b := v / 65536 }
  else if dt = 0x1E then
    -- packet order U Y0 V Y1: the low byte of the left pixel is U, of the right pixel V, the high bytes are Y
    let left := row.getD (x - x % 2) 0
    let right := row.getD (x - x % 2 + 1) 0
    let y : Int := (v / 256 : Nat)
    let u : Int := (left % 256 : Nat) - 128
    let w : Int := (right % 256 : Nat) - 128
    { r := u8 (y + rne (359 * w) 8), g := u8 (y - rne (88 * u + 183 * w) 8), b := u8 (y + rne (454 * u) 8) }
  else
    let g := if rawBits dt ≤ 8 then v else u8 (rne v (rawBits dt - 8))
    { r := g, g := g, b := g }

/-- Luma of a colour (R342). -/
def luma (c : Rgba) : Int := rne (77 * c.r + 150 * c.g + 29 * c.b : Nat) 8

/-- The four bytes of a YUV422 pair: Y0, U, Y1, V (R342). -/
def yuvPair (l r : Rgba) : List Byte :=
  let y := fun (c : Rgba) => u8 (16 + rne (66 * c.r + 129 * c.g + 25 * c.b : Nat) 8)
  let rs : Int := (l.r + r.r : Nat)
  let gs : Int := (l.g + r.g : Nat)
  let bs : Int := (l.b + r.b : Nat)
  let u := u8 (128 + rne (-38 * rs - 74 * gs + 112 * bs) 9)
  let v := u8 (128 + rne (112 * rs - 94 * gs - 18 * bs) 9)
  [y l, u, y r, v].map (fun n => BitVec.ofNat 8 n)

/-! ### Fusion (R322, R323) -/

/-- The value a visible pixel maps to in the thermal frame, none where it maps outside. -/
def fuseMap (h : List Int) (t : Rows) (wt ht u v : Nat) : Option Nat :=
  let c := fun (i : Nat) => h.getD i 0
  let x := c 0 * u + c 1 * v + c 2
  let y := c 3 * u + c 4 * v + c 5
  let z := c 6 * u + c 7 * v + c 8
  if z ≤ 0 then none
  else
    let x8 := rneDiv (x * 256) z
    let y8 := rneDiv (y * 256) z
    if x8 < 0 ∨ 256 * ((wt : Int) - 1) < x8 ∨ y8 < 0 ∨ 256 * ((ht : Int) - 1) < y8 then none
    else
      let xi := x8.toNat / 256
      let fx := x8.toNat % 256
      let yi := y8.toNat / 256
      let fy := y8.toNat % 256
      let xj := min (xi + 1) (wt - 1)
      let yj := min (yi + 1) (ht - 1)
      let taps : List (Nat × Nat) := [((256 - fx) * (256 - fy), t.at xi yi), (fx * (256 - fy), t.at xj yi),
        ((256 - fx) * fy, t.at xi yj), (fx * fy, t.at xj yj)]
      if taps.any (fun p => decide (p.1 ≠ 0 ∧ (p.2 = 0 ∨ p.2 = 0xFFFF))) then
        some (taps.foldl (fun (best : Nat × Nat) p => if best.1 < p.1 then p else best) (0, 0)).2
      else some (rne (sumN (taps.map (fun p => p.1 * p.2))) 16).toNat

/-- Parameters of a fusion channel for a frame. -/
structure FusePar where
  low : Int
  high : Int
  showLow : Nat
  showHigh : Nat
  alpha : Nat
  palette : List Nat
  h : List Int
  deriving DecidableEq, Repr

/-- A palette entry. -/
def paletteEntry (p : List Nat) (i : Nat) : Rgba :=
  let v := p.getD i 0
  { r := v % 256, g := v / 256 % 256, b := v / 65536 % 256 }

/-- One fused pixel; A is 0 where it is not overlaid (R323). -/
def fusePixel (p : FusePar) (t : Option Nat) (vis : Rgba) : Rgba × Bool :=
  match t with
  | none => (vis, false)
  | some t =>
    if t < p.showLow ∨ p.showHigh < t then (vis, false)
    else
      let e := paletteEntry p.palette (u8 (rneDiv ((t - p.low) * 255) (p.high - p.low)))
      let mix := fun (x y : Nat) => (rne (p.alpha * x + (256 - p.alpha) * y : Nat) 8).toNat
      ({ r := mix e.r vis.r, g := mix e.g vis.g, b := mix e.b vis.b, a := min p.alpha 255 }, true)

/-! ### Scaling (R336 to R338) -/

/-- A value between the passes: a horizontal sum with 6 fraction bits, or a special tap taken outright. -/
inductive Tap
  | num (v : Int)
  | special (v : Int)
  deriving DecidableEq, Repr, Inhabited

/-- The special tap of a pass, if any: coefficient of largest magnitude, the first at equal magnitude (R338). -/
def specialTap (l : List (Int × Tap)) : Option Int :=
  (l.foldl (fun (best : Nat × Option Int) (p : Int × Tap) => match p.2 with
    | .special v => if best.1 < p.1.natAbs then (p.1.natAbs, some v) else best
    | .num _ => best) (0, none)).2

/-- Position and phase of an output coordinate: integer part and phase 0 to 63 (R336). -/
def scalePlace (crop out j : Nat) : Int × Nat :=
  let step := rneDiv ((crop * 65536 : Nat) : Int) out
  let p := j * step + step.fdiv 2 - 32768
  (p.fdiv 65536, ((p % 65536) / 1024).toNat)

/-- Clamp an index into a window. -/
def clampIx (i : Int) (n : Nat) : Nat := (clampI i 0 ((n : Int) - 1)).toNat

/-- The horizontal pass at one output column over one row of the crop window. -/
def scaleH (ch : List Int) (row : List Tap) (crop out j : Nat) : Tap :=
  let (ix, ph) := scalePlace crop out j
  let taps := tab 8 (fun k => (ch.getD (8 * ph + k) 0, row.getD (clampIx (ix - 3 + k) crop) (.num 0)))
  match specialTap taps with
  | some v => .special v
  | none => .num (rne (sumI (taps.map (fun p => match p.2 with | .num v => p.1 * v | .special _ => 0))) 8)

/-- The vertical pass: the output before saturation. -/
def scaleV (cv : List Int) (col : List Tap) (crop out k : Nat) : Int :=
  let (iy, ph) := scalePlace crop out k
  let taps := tab 4 (fun i => (cv.getD (4 * ph + i) 0, col.getD (clampIx (iy - 1 + i) crop) (.num 0)))
  match specialTap taps with
  | some v => v
  | none => rne (sumI (taps.map (fun p => match p.2 with | .num v => p.1 * v | .special _ => 0))) 20

/-- One output line of one component from the crop window's rows, saturated to w bits, and how many values clamped. -/
def scaleLine (ch cv : List Int) (rows : List (List Tap)) (cropW cropH outW outH k w : Nat) : List Nat × Nat :=
  let vals := tab outW (fun j => scaleV cv (rows.map (fun r => scaleH ch r cropW outW j)) cropH outH k)
  (vals.map (fun v => (satU v w).toNat), (vals.filter (fun v => decide (satU v w ≠ v))).length)

/-! ### Windows (R339, R340) -/

/-- The index of a value in a window. -/
def windowIndex (lo hi : Int) (t : Nat) : Nat := u8 (rneDiv ((t - lo) * 255) (hi - lo))

/-- A histogram as a record holds it. -/
structure Hist where
  n : Nat := 0
  low : Nat := 0
  shift : Nat := 0
  bins : List Nat := []
  y16f : Bool := false
  deriving DecidableEq, Repr, Inhabited

/-- Damping state of an AGC: Ls, Hs and the domain they came from. -/
structure AgcState where
  ls : Int
  hs : Int
  y16f : Bool
  deriving DecidableEq, Repr

/-- The smallest b with a running sum over the first b + 1 bins above a limit. -/
def firstAbove (lim : Nat) : List Nat → Nat → Nat → Nat
  | [], b, _ => b
  | x :: xs, b, acc => if lim < acc + x then b else firstAbove lim xs (b + 1) (acc + x)

/-- One AGC step from a record with n > 0 (R340): the new state and the window. -/
def agcStep (clipLow clipHigh damp span : Nat) (st : Option AgcState) (h : Hist) : AgcState × Nat × Nat :=
  let cl := (rneDiv ((h.n * clipLow : Nat) : Int) 65536).toNat
  let chh := (rneDiv ((h.n * clipHigh : Nat) : Int) 65536).toNat
  let lo := firstAbove cl h.bins 0 0
  let hi := 1023 - firstAbove chh h.bins.reverse 0 0
  let lt : Int := h.low + lo * 2 ^ h.shift
  let ht : Int := h.low + ((hi + 1) * 2 ^ h.shift : Nat) - 1
  let reset : Bool := match st with | none => true | some s => decide (s.y16f ≠ h.y16f)
  let ls := match reset, st with | false, some s => s.ls + rne (lt * 256 - s.ls) damp | _, _ => lt * 256
  let hs := match reset, st with | false, some s => s.hs + rne (ht * 256 - s.hs) damp | _, _ => ht * 256
  let l := rne ls 8
  let hh := rne hs 8
  let narrow := decide (hh - l < span)
  let m := rne (l + hh) 1
  let l2 := if narrow then m - span / 2 else l
  let h2 := if narrow then l2 + span else hh
  let l3 := satU l2 16
  ({ ls := ls, hs := hs, y16f := h.y16f }, l3.toNat, (max (satU h2 16) (l3 + 1)).toNat)

/-! ### Statistics (R350 to R352) -/

/-- A pixel as the statistics unit takes it: its value and whether it is excluded. -/
structure StatPix where
  v : Nat
  out : Bool
  deriving DecidableEq, Repr, Inhabited

/-- The result of an ROI (Table 12.5). -/
structure RoiResult where
  min : Nat := 0
  max : Nat := 0
  maxX : Nat := 0
  maxY : Nat := 0
  count : Nat := 0
  below : Nat := 0
  above : Nat := 0
  mean : Nat := 0
  sum : Nat := 0
  empty : Bool := true
  deriving DecidableEq, Repr, Inhabited

/-- Whether a value is a range code in a frame stored in Y16R. -/
def rangeCode (y16r : Bool) (v : Nat) : Bool := y16r && decide (v = 0 ∨ v = 0xFFFF)

/-- One more pixel of an ROI. -/
def RoiResult.add (y16r : Bool) (r : RoiResult) (x y : Nat) (p : StatPix) : RoiResult :=
  if p.out then r
  else
    let r := if r.empty then { r with min := p.v, max := p.v, maxX := x, maxY := y, empty := false }
      else if r.max < p.v then { r with max := p.v, maxX := x, maxY := y }
      else if p.v < r.min then { r with min := p.v } else r
    if rangeCode y16r p.v then
      (if p.v = 0 then { r with below := r.below + 1 } else { r with above := r.above + 1 })
    else { r with count := r.count + 1, sum := r.sum + p.v }

/-- The result over the pixels of a rectangle, in row-major order (R352). -/
def roiOf (y16r : Bool) (img : List (List StatPix)) (x0 y0 w h : Nat) : RoiResult :=
  let rows := ((img.zipIdx).drop y0).take h
  let r := rows.foldl (fun (r : RoiResult) (row, y) =>
    (((row.zipIdx).drop x0).take w).foldl (fun (r : RoiResult) (p, x) => r.add y16r x y p) r) {}
  { r with mean := (rneDiv r.sum r.count).toNat }

/-- Counts of a histogram: bins, below, above, under, over (R351). -/
structure HistCounts where
  bins : List Nat := List.replicate 1024 0
  below : Nat := 0
  above : Nat := 0
  under : Nat := 0
  beyond : Nat := 0
  deriving DecidableEq, Repr, Inhabited

/-- One more pixel. -/
def HistCounts.add (y16r : Bool) (low shift : Nat) (c : HistCounts) (p : StatPix) : HistCounts :=
  if p.out then c
  else if rangeCode y16r p.v then (if p.v = 0 then { c with below := c.below + 1 } else { c with above := c.above + 1 })
  else if p.v < low then { c with under := c.under + 1 }
  else
    let b := (p.v - low) / 2 ^ shift
    if 1023 < b then { c with beyond := c.beyond + 1 } else { c with bins := modAt c.bins b (· + 1) }

/-- The histogram of an image. -/
def histOf (y16r : Bool) (low shift : Nat) (img : List (List StatPix)) : HistCounts :=
  img.foldl (fun c row => row.foldl (HistCounts.add y16r low shift) c) {}

end Sys2Proof.Machine
end

