-- ==== Sys2Proof/Machine/Objects.lean ====
section
/-! DEFINITION. The object table of the dictionary: one row per object of Tables 3.8 to 15.10, the key of
every sub-index (key = index x 256 + sub-index), its width and sign (Table 3.1, R70), access class (Table
3.2), update class (Table 3.3), default and the values a write may have (R71, R72). Values the spec leaves
to the factory, the release or a measurement are the model's own: assumption 2. -/

namespace Sys2Proof.Machine

/-- Access classes, Table 3.2; `domain` marks a DOMAIN sub-index, whose slot reads as a descriptor (R94). -/
inductive Acc | ro | rw | wo | rws | domain
  deriving DecidableEq, Repr

/-- Update classes, Table 3.3. -/
inductive Upd | i | f | s | p
  deriving DecidableEq, Repr

/-- What R71 and R72 let a write hold. `command` values are checked by the operation the write starts, `custom`
ones by `customCheck`. -/
inductive Check
  | anyValue | bool | counter | command | custom | nonZero
  | range (lo hi : Int) | oneOf (l : List Int) | rangeOr (special lo hi : Int)
  | aligned (n : Int) (special : List Int) | fields (mask : Nat)
  deriving DecidableEq, Repr

/-- Where the default of a sub-index comes from: the same for all, by sub-index, or by the copy of the object
(head, stream, channel). The last value of the list serves every later position. -/
inductive Sel | const | sub | inst
  deriving DecidableEq, Repr

/-- One row of an object table. Copy `i` of an object lies `i * step` indices above the first, and copy `j` of
its second numbering `j` indices above that. -/
structure Row where
  key : Nat
  count : Nat
  copies : Nat
  step : Nat
  copies2 : Nat
  width : Nat
  signed : Bool
  acc : Acc
  upd : Upd
  sel : Sel
  dflt : List Int
  chk : Check
  kept : Bool
  deriving DecidableEq, Repr

/-! ### Keys -/

namespace K

/-- 1000:00 DEVICE_TYPE, Table 3.8. -/
abbrev deviceType : Nat := 0x100000
/-- 1001:00 ERROR_REGISTER, Table 3.8. -/
abbrev errorRegister : Nat := 0x100100
/-- 1008:00 DEVICE_NAME, Table 3.8. -/
abbrev deviceName : Nat := 0x100800
/-- 1009:00 HW_VERSION, Table 3.8. -/
abbrev hwVersion : Nat := 0x100900
/-- 100A:00 SW_VERSION, Table 3.8. -/
abbrev swVersion : Nat := 0x100A00
/-- 1010:00 STORE_COUNT, Table 3.8. -/
abbrev storeCount : Nat := 0x101000
/-- 1010:01 STORE_ALL, Table 3.8. -/
abbrev storeAll : Nat := 0x101001
/-- 1010:02 STORE_COMM, Table 3.8. -/
abbrev storeComm : Nat := 0x101002
/-- 1010:03 STORE_APP, Table 3.8. -/
abbrev storeApp : Nat := 0x101003
/-- 1010:04 STORE_CHIP, Table 3.8. -/
abbrev storeChip : Nat := 0x101004
/-- 1011:00 RESTORE_COUNT, Table 3.8. -/
abbrev restoreCount : Nat := 0x101100
/-- 1011:01 RESTORE, Table 3.8. -/
abbrev restore (j : Nat) : Nat := 0x101101 + j
/-- 1018:00 IDENTITY_COUNT, Table 3.8. -/
abbrev identityCount : Nat := 0x101800
/-- 1018:01 IDENTITY_VENDOR, Table 3.8. -/
abbrev identityVendor : Nat := 0x101801
/-- 1018:02 IDENTITY_PRODUCT, Table 3.8. -/
abbrev identityProduct : Nat := 0x101802
/-- 1018:03 IDENTITY_REVISION, Table 3.8. -/
abbrev identityRevision : Nat := 0x101803
/-- 1018:04 IDENTITY_SERIAL, Table 3.8. -/
abbrev identitySerial : Nat := 0x101804
/-- 2000:01 CHIP_MODE, Table 3.10. -/
abbrev chipMode : Nat := 0x200001
/-- 2000:02 PIXEL_DIE_STATE, Table 3.10. -/
abbrev pixelDieState : Nat := 0x200002
/-- 2000:03 STRAPS, Table 3.10. -/
abbrev straps : Nat := 0x200003
/-- 2000:04 MODE_REQUEST, Table 3.10. -/
abbrev modeRequest : Nat := 0x200004
/-- 2000:05 ACTUATOR_FITTED, Table 3.10. -/
abbrev actuatorFitted : Nat := 0x200005
/-- 2000:06 REFCLK_STATE, Table 3.10. -/
abbrev refclkState : Nat := 0x200006
/-- 2000:07 CLK_PIX_DIV, Table 3.10. -/
abbrev clkPixDiv : Nat := 0x200007
/-- 2000:08 SYSTEM_TIME, Table 3.10. -/
abbrev systemTime : Nat := 0x200008
/-- 2000:09 STORE_STATE, Table 3.10. -/
abbrev storeState : Nat := 0x200009
/-- 2001:01 REGION_STATE, Table 3.10. -/
abbrev regionState (j : Nat) : Nat := 0x200101 + j
/-- 2002:00 DVORHUS_CRC, Table 3.10. -/
abbrev dvorhusCrc : Nat := 0x200200
/-- 2003:01 CHIP_RESET, Table 3.10. -/
abbrev chipReset : Nat := 0x200301
/-- 2003:02 REGION_RESET, Table 3.10. -/
abbrev regionReset : Nat := 0x200302
/-- 2008:01 ABORT_LAST, Table 3.10. -/
abbrev abortLast (j : Nat) : Nat := 0x200801 + j
/-- 2009:01 ABORT_COUNT, Table 3.10. -/
abbrev abortCount (j : Nat) : Nat := 0x200901 + j
/-- 2010:00 STAGE_HOLD, Table 3.10. -/
abbrev stageHold : Nat := 0x201000
/-- 2011:00 STAGE_PENDING, Table 3.10. -/
abbrev stagePending : Nat := 0x201100
/-- 2020:01 LOCK, Table 3.10. -/
abbrev lock (j : Nat) : Nat := 0x202001 + j
/-- 2021:00 LOCK_FORCE, Table 3.10. -/
abbrev lockForce : Nat := 0x202100
/-- 2022:00 LOCK_VIOLATIONS, Table 3.10. -/
abbrev lockViolations : Nat := 0x202200
/-- 2023:00 LOCK_FORCED, Table 3.10. -/
abbrev lockForced : Nat := 0x202300
/-- 2100:01 ERRQ_ACQ, Table 3.10. -/
abbrev errqAcq (j : Nat) : Nat := 0x210001 + j
/-- 2101:01 ERRQ_PIX, Table 3.10. -/
abbrev errqPix (j : Nat) : Nat := 0x210101 + j
/-- 2102:01 ERRQ_MEM, Table 3.10. -/
abbrev errqMem (j : Nat) : Nat := 0x210201 + j
/-- 2103:01 ERRQ_HOST, Table 3.10. -/
abbrev errqHost (j : Nat) : Nat := 0x210301 + j
/-- 2104:01 ERRQ_HKP, Table 3.10. -/
abbrev errqHkp (j : Nat) : Nat := 0x210401 + j
/-- 2108:01 ERRQ_STATUS, Table 3.10. -/
abbrev errqStatus (j : Nat) : Nat := 0x210801 + j
/-- 2109:01 ERRQ_ACK, Table 3.10. -/
abbrev errqAck (j : Nat) : Nat := 0x210901 + j
/-- 210A:01 ERRQ_OVERFLOW, Table 3.10. -/
abbrev errqOverflow (j : Nat) : Nat := 0x210A01 + j
/-- 2400:01 RUN_REQUEST, Table 4.9. -/
abbrev runRequest (i : Nat) : Nat := 0x240001 + 0x4000 * i
/-- 2400:02 RUN_STATE, Table 4.9. -/
abbrev runState (i : Nat) : Nat := 0x240002 + 0x4000 * i
/-- 2400:03 RETRY_INTERVAL, Table 4.9. -/
abbrev retryInterval (i : Nat) : Nat := 0x240003 + 0x4000 * i
/-- 2400:04 RETRY_MAX, Table 4.9. -/
abbrev retryMax (i : Nat) : Nat := 0x240004 + 0x4000 * i
/-- 2400:05 LOST_COUNT, Table 4.9. -/
abbrev lostCount (i : Nat) : Nat := 0x240005 + 0x4000 * i
/-- 2400:06 LAST_LOST_TIME, Table 4.9. -/
abbrev lastLostTime (i : Nat) : Nat := 0x240006 + 0x4000 * i
/-- 2400:07 LAST_LOST_CAUSE, Table 4.9. -/
abbrev lastLostCause (i : Nat) : Nat := 0x240007 + 0x4000 * i
/-- 2400:08 FRAME_NUMBER, Table 4.9. -/
abbrev frameNumber (i : Nat) : Nat := 0x240008 + 0x4000 * i
/-- 2401:01 ACTIVE_WIDTH, Table 4.9. -/
abbrev activeWidth (i : Nat) : Nat := 0x240101 + 0x4000 * i
/-- 2401:02 ACTIVE_HEIGHT, Table 4.9. -/
abbrev activeHeight (i : Nat) : Nat := 0x240102 + 0x4000 * i
/-- 2401:03 BLIND_ROWS, Table 4.9. -/
abbrev blindRows (i : Nat) : Nat := 0x240103 + 0x4000 * i
/-- 2401:04 BLIND_COLUMNS, Table 4.9. -/
abbrev blindColumns (i : Nat) : Nat := 0x240104 + 0x4000 * i
/-- 2401:05 BLIND_ROW_PLACE, Table 4.9. -/
abbrev blindRowPlace (i : Nat) : Nat := 0x240105 + 0x4000 * i
/-- 2401:06 BLIND_COLUMN_PLACE, Table 4.9. -/
abbrev blindColumnPlace (i : Nat) : Nat := 0x240106 + 0x4000 * i
/-- 2401:07 TAP_COUNT, Table 4.9. -/
abbrev tapCount (i : Nat) : Nat := 0x240107 + 0x4000 * i
/-- 2401:08 INTEGRATIONS, Table 4.9. -/
abbrev integrations (i : Nat) : Nat := 0x240108 + 0x4000 * i
/-- 2401:09 READ_LAG, Table 4.9. -/
abbrev readLag (i : Nat) : Nat := 0x240109 + 0x4000 * i
/-- 2402:01 MCLK_DIV, Table 4.9. -/
abbrev mclkDiv (i : Nat) : Nat := 0x240201 + 0x4000 * i
/-- 2402:02 PIXEL_MCLKS, Table 4.9. -/
abbrev pixelMclks (i : Nat) : Nat := 0x240202 + 0x4000 * i
/-- 2402:03 LINE_LENGTH, Table 4.9. -/
abbrev lineLength (i : Nat) : Nat := 0x240203 + 0x4000 * i
/-- 2402:04 FRAME_LENGTH, Table 4.9. -/
abbrev frameLength (i : Nat) : Nat := 0x240204 + 0x4000 * i
/-- 2402:05 READOUT_START, Table 4.9. -/
abbrev readoutStart (i : Nat) : Nat := 0x240205 + 0x4000 * i
/-- 2402:06 INTL_START, Table 4.9. -/
abbrev intlStart (i : Nat) : Nat := 0x240206 + 0x4000 * i
/-- 2402:07 INTS_START, Table 4.9. -/
abbrev intsStart (i : Nat) : Nat := 0x240207 + 0x4000 * i
/-- 2402:08 SAMPLE_PHASE, Table 4.9. -/
abbrev samplePhase (i : Nat) : Nat := 0x240208 + 0x4000 * i
/-- 2402:09 REF_POSITION, Table 4.9. -/
abbrev refPosition (i : Nat) : Nat := 0x240209 + 0x4000 * i
/-- 2402:0A SIGNAL_SIGN, Table 4.9. -/
abbrev signalSign (i : Nat) : Nat := 0x24020A + 0x4000 * i
/-- 2402:0B SYNC_POLARITY, Table 4.9. -/
abbrev syncPolarity (i : Nat) : Nat := 0x24020B + 0x4000 * i
/-- 2402:0C TRIGGER_MODE, Table 4.9. -/
abbrev triggerMode (i : Nat) : Nat := 0x24020C + 0x4000 * i
/-- 2402:0D EARLY_TRIGGERS, Table 4.9. -/
abbrev earlyTriggers (i : Nat) : Nat := 0x24020D + 0x4000 * i
/-- 2402:0E MISSED_TRIGGERS, Table 4.9. -/
abbrev missedTriggers (i : Nat) : Nat := 0x24020E + 0x4000 * i
/-- 2403:01 AFE_GAIN, Table 4.9. -/
abbrev afeGain (i : Nat) (j : Nat) : Nat := 0x240301 + 0x4000 * i + j
/-- 2404:01 AFE_OFFSET, Table 4.9. -/
abbrev afeOffset (i : Nat) (j : Nat) : Nat := 0x240401 + 0x4000 * i + j
/-- 2405:00 TAP_ENABLE, Table 4.9. -/
abbrev tapEnable (i : Nat) : Nat := 0x240500 + 0x4000 * i
/-- 2406:01 TAP_STATE, Table 4.9. -/
abbrev tapState (i : Nat) (j : Nat) : Nat := 0x240601 + 0x4000 * i + j
/-- 2407:01 TAP_FAULTS, Table 4.9. -/
abbrev tapFaults (i : Nat) (j : Nat) : Nat := 0x240701 + 0x4000 * i + j
/-- 2408:00 TAP_AUTO_SWAP, Table 4.9. -/
abbrev tapAutoSwap (i : Nat) : Nat := 0x240800 + 0x4000 * i
/-- 2409:01 TAP_TEST_RESPONSE, Table 4.9. -/
abbrev tapTestResponse (i : Nat) (j : Nat) : Nat := 0x240901 + 0x4000 * i + j
/-- 2410:00 BIAS_ENABLE, Table 4.9. -/
abbrev biasEnable (i : Nat) : Nat := 0x241000 + 0x4000 * i
/-- 2411:01 BIAS_CODE, Table 4.9. -/
abbrev biasCode (i : Nat) (j : Nat) : Nat := 0x241101 + 0x4000 * i + j
/-- 2412:01 BIAS_LIMIT, Table 4.9. -/
abbrev biasLimit (i : Nat) (j : Nat) : Nat := 0x241201 + 0x4000 * i + j
/-- 2413:00 BIAS_SLEW, Table 4.9. -/
abbrev biasSlew (i : Nat) : Nat := 0x241300 + 0x4000 * i
/-- 2414:01 BIAS_CURRENT, Table 4.9. -/
abbrev biasCurrent (i : Nat) (j : Nat) : Nat := 0x241401 + 0x4000 * i + j
/-- 2415:01 BIAS_MIN_CURRENT, Table 4.9. -/
abbrev biasMinCurrent (i : Nat) (j : Nat) : Nat := 0x241501 + 0x4000 * i + j
/-- 2416:00 BIAS_CLAMPED, Table 4.9. -/
abbrev biasClamped (i : Nat) : Nat := 0x241600 + 0x4000 * i
/-- 2417:00 BIAS_SETTLE, Table 4.9. -/
abbrev biasSettle (i : Nat) : Nat := 0x241700 + 0x4000 * i
/-- 2418:00 SUP_SETTLE, Table 4.9. -/
abbrev supSettle (i : Nat) : Nat := 0x241800 + 0x4000 * i
/-- 2419:00 SUP_MIN_CURRENT, Table 4.9. -/
abbrev supMinCurrent (i : Nat) : Nat := 0x241900 + 0x4000 * i
/-- 241A:00 SUP_CURRENT, Table 4.9. -/
abbrev supCurrent (i : Nat) : Nat := 0x241A00 + 0x4000 * i
/-- 241B:00 SUP_STATE, Table 4.9. -/
abbrev supState (i : Nat) : Nat := 0x241B00 + 0x4000 * i
/-- 2420:00 CFG_CLOCK_DIV, Table 4.9. -/
abbrev cfgClockDiv (i : Nat) : Nat := 0x242000 + 0x4000 * i
/-- 2421:00 CFG_ADDR_BITS, Table 4.9. -/
abbrev cfgAddrBits (i : Nat) : Nat := 0x242100 + 0x4000 * i
/-- 2422:00 CFG_DATA_BITS, Table 4.9. -/
abbrev cfgDataBits (i : Nat) : Nat := 0x242200 + 0x4000 * i
/-- 2423:00 CFG_INIT, Table 4.9. -/
abbrev cfgInit (i : Nat) : Nat := 0x242300 + 0x4000 * i
/-- 2424:00 CFG_REQUEST, Table 4.9. -/
abbrev cfgRequest (i : Nat) : Nat := 0x242400 + 0x4000 * i
/-- 2425:00 CFG_STATUS, Table 4.9. -/
abbrev cfgStatus (i : Nat) : Nat := 0x242500 + 0x4000 * i
/-- 2426:00 CFG_READ_DATA, Table 4.9. -/
abbrev cfgReadData (i : Nat) : Nat := 0x242600 + 0x4000 * i
/-- 2427:01 CFG_CHECK_ADDRESS, Table 4.9. -/
abbrev cfgCheckAddress (i : Nat) : Nat := 0x242701 + 0x4000 * i
/-- 2427:02 CFG_CHECK_VALUE, Table 4.9. -/
abbrev cfgCheckValue (i : Nat) : Nat := 0x242702 + 0x4000 * i
/-- 2427:03 CFG_CHECK_ENABLE, Table 4.9. -/
abbrev cfgCheckEnable (i : Nat) : Nat := 0x242703 + 0x4000 * i
/-- 2428:00 CFG_CHECK_FAILS, Table 4.9. -/
abbrev cfgCheckFails (i : Nat) : Nat := 0x242800 + 0x4000 * i
/-- 2430:00 TFPA_SOURCE, Table 4.9. -/
abbrev tfpaSource (i : Nat) : Nat := 0x243000 + 0x4000 * i
/-- 2431:00 TFPA_EXCITATION, Table 4.9. -/
abbrev tfpaExcitation (i : Nat) : Nat := 0x243100 + 0x4000 * i
/-- 2432:00 TFPA_V0, Table 4.9. -/
abbrev tfpaV0 (i : Nat) : Nat := 0x243200 + 0x4000 * i
/-- 2433:00 TFPA_STEP_LOG2, Table 4.9. -/
abbrev tfpaStepLog2 (i : Nat) : Nat := 0x243300 + 0x4000 * i
/-- 2434:01 TFPA_TABLE, Table 4.9. -/
abbrev tfpaTable (i : Nat) (j : Nat) : Nat := 0x243401 + 0x4000 * i + j
/-- 2435:00 TFPA_REGISTER, Table 4.9. -/
abbrev tfpaRegister (i : Nat) : Nat := 0x243500 + 0x4000 * i
/-- 2436:00 TFPA_RAW, Table 4.9. -/
abbrev tfpaRaw (i : Nat) : Nat := 0x243600 + 0x4000 * i
/-- 2437:00 TFPA_TEMPERATURE, Table 4.9. -/
abbrev tfpaTemperature (i : Nat) : Nat := 0x243700 + 0x4000 * i
/-- 2438:00 TFPA_STATE, Table 4.9. -/
abbrev tfpaState (i : Nat) : Nat := 0x243800 + 0x4000 * i
/-- 2800:01 BANK_SPARES_FREE, Table 5.6. -/
abbrev bankSparesFree (j : Nat) : Nat := 0x280001 + j
/-- 2801:01 BANK_STANDIN, Table 5.6. -/
abbrev bankStandin (j : Nat) : Nat := 0x280101 + j
/-- 2802:01 BANK_SUBST_FRAMES, Table 5.6. -/
abbrev bankSubstFrames (j : Nat) : Nat := 0x280201 + j
/-- 2810:01 CONV_STATE, Table 5.6. -/
abbrev convState (i : Nat) (j : Nat) : Nat := 0x281001 + 0x100 * i + j
/-- 2814:01 CONV_SLOT, Table 5.6. -/
abbrev convSlot (i : Nat) (j : Nat) : Nat := 0x281401 + 0x100 * i + j
/-- 2818:01 CONV_OFFSET, Table 5.6. -/
abbrev convOffset (i : Nat) (j : Nat) : Nat := 0x281801 + 0x100 * i + j
/-- 281C:01 CONV_GAIN, Table 5.6. -/
abbrev convGain (i : Nat) (j : Nat) : Nat := 0x281C01 + 0x100 * i + j
/-- 2820:01 CONV_TRIM_OFFSET, Table 5.6. -/
abbrev convTrimOffset (i : Nat) (j : Nat) : Nat := 0x282001 + 0x100 * i + j
/-- 2824:01 CONV_TRIM_GAIN, Table 5.6. -/
abbrev convTrimGain (i : Nat) (j : Nat) : Nat := 0x282401 + 0x100 * i + j
/-- 2828:01 CONV_RESETS, Table 5.6. -/
abbrev convResets (i : Nat) (j : Nat) : Nat := 0x282801 + 0x100 * i + j
/-- 282C:01 CONV_OVR_COUNT, Table 5.6. -/
abbrev convOvrCount (i : Nat) (j : Nat) : Nat := 0x282C01 + 0x100 * i + j
/-- 2830:01 CONV_SAT_COUNT, Table 5.6. -/
abbrev convSatCount (i : Nat) (j : Nat) : Nat := 0x283001 + 0x100 * i + j
/-- 2834:01 CONV_MISS_COUNT, Table 5.6. -/
abbrev convMissCount (i : Nat) (j : Nat) : Nat := 0x283401 + 0x100 * i + j
/-- 2838:01 CONV_STANDIN_COUNT, Table 5.6. -/
abbrev convStandinCount (i : Nat) (j : Nat) : Nat := 0x283801 + 0x100 * i + j
/-- 2880:00 HK_AVERAGE, Table 5.7. -/
abbrev hkAverage : Nat := 0x288000
/-- 2881:00 HK_SETTLE, Table 5.7. -/
abbrev hkSettle : Nat := 0x288100
/-- 2882:00 HK_ROUND_SEQUENCE, Table 5.7. -/
abbrev hkRoundSequence : Nat := 0x288200
/-- 2883:00 HK_ROUND_TIME, Table 5.7. -/
abbrev hkRoundTime : Nat := 0x288300
/-- 2884:01 HK_BUSY_TIME, Table 5.7. -/
abbrev hkBusyTime (j : Nat) : Nat := 0x288401 + j
/-- 2885:00 HK_ROUND_OVERRUNS, Table 5.7. -/
abbrev hkRoundOverruns : Nat := 0x288500
/-- 2886:01 HK_RESULT, Table 5.7. -/
abbrev hkResult (j : Nat) : Nat := 0x288601 + j
/-- 2887:00 HK_VALID, Table 5.7. -/
abbrev hkValid : Nat := 0x288700
/-- 2888:01 HK_RAIL, Table 5.7. -/
abbrev hkRail (j : Nat) : Nat := 0x288801 + j
/-- 2889:01 HK_PIXEL_SENSOR, Table 5.7. -/
abbrev hkPixelSensor (j : Nat) : Nat := 0x288901 + j
/-- 2890:00 HK_URGENT_REQUEST, Table 5.7. -/
abbrev hkUrgentRequest : Nat := 0x289000
/-- 2891:00 HK_URGENT_RESULT, Table 5.7. -/
abbrev hkUrgentResult : Nat := 0x289100
/-- 2892:00 HK_URGENT_STATUS, Table 5.7. -/
abbrev hkUrgentStatus : Nat := 0x289200
/-- 2893:00 HK_URGENT_DROPPED, Table 5.7. -/
abbrev hkUrgentDropped : Nat := 0x289300
/-- 2894:00 HK_URGENT_TIME, Table 5.7. -/
abbrev hkUrgentTime : Nat := 0x289400
/-- 2C00:01 SENSOR_TEMP, Table 6.6. -/
abbrev sensorTemp (j : Nat) : Nat := 0x2C0001 + j
/-- 2C01:01 SENSOR_STATE, Table 6.6. -/
abbrev sensorState (j : Nat) : Nat := 0x2C0101 + j
/-- 2C02:01 SENSOR_RATE, Table 6.6. -/
abbrev sensorRate (j : Nat) : Nat := 0x2C0201 + j
/-- 2C03:01 LIMIT_HIGH, Table 6.6. -/
abbrev limitHigh (j : Nat) : Nat := 0x2C0301 + j
/-- 2C04:01 RATE_LIMIT, Table 6.6. -/
abbrev rateLimit (j : Nat) : Nat := 0x2C0401 + j
/-- 2C05:00 LIMIT_FLAGS, Table 6.6. -/
abbrev limitFlags : Nat := 0x2C0500
/-- 2C06:01 NTC_V0, Table 6.6. -/
abbrev ntcV0 (j : Nat) : Nat := 0x2C0601 + j
/-- 2C07:01 NTC_STEP_LOG2, Table 6.6. -/
abbrev ntcStepLog2 (j : Nat) : Nat := 0x2C0701 + j
/-- 2C08:01 NTC0_TABLE, Table 6.6. -/
abbrev ntc0Table (j : Nat) : Nat := 0x2C0801 + j
/-- 2C09:01 NTC1_TABLE, Table 6.6. -/
abbrev ntc1Table (j : Nat) : Nat := 0x2C0901 + j
/-- 2C0A:00 NTC_ENABLE, Table 6.6. -/
abbrev ntcEnable : Nat := 0x2C0A00
/-- 2C0B:01 DIE_SENSOR_V25, Table 6.6. -/
abbrev dieSensorV25 (j : Nat) : Nat := 0x2C0B01 + j
/-- 2C0C:01 DIE_SENSOR_SLOPE, Table 6.6. -/
abbrev dieSensorSlope (j : Nat) : Nat := 0x2C0C01 + j
/-- 2C10:01 DRAM_MR4, Table 6.6. -/
abbrev dramMr4 (j : Nat) : Nat := 0x2C1001 + j
/-- 2C11:01 DRAM_REFRESH_BOUND, Table 6.6. -/
abbrev dramRefreshBound (j : Nat) : Nat := 0x2C1101 + j
/-- 2C12:01 DRAM_REFRESH_MULT, Table 6.6. -/
abbrev dramRefreshMult (j : Nat) : Nat := 0x2C1201 + j
/-- 2C13:01 DRAM_REFRESH_IN_FORCE, Table 6.6. -/
abbrev dramRefreshInForce (j : Nat) : Nat := 0x2C1301 + j
/-- 2C14:01 DRAM_MR4_FAILS, Table 6.6. -/
abbrev dramMr4Fails (j : Nat) : Nat := 0x2C1401 + j
/-- 2C20:00 THROTTLE_LEVEL, Table 6.6. -/
abbrev throttleLevel : Nat := 0x2C2000
/-- 2C21:01 THR_ENTER, Table 6.6. -/
abbrev thrEnter (j : Nat) : Nat := 0x2C2101 + j
/-- 2C22:00 THR_HYST, Table 6.6. -/
abbrev thrHyst : Nat := 0x2C2200
/-- 2C23:00 THR_DWELL, Table 6.6. -/
abbrev thrDwell : Nat := 0x2C2300
/-- 2C24:00 THR_L3_HEAD, Table 6.6. -/
abbrev thrL3Head : Nat := 0x2C2400
/-- 2C25:00 THR_HOTTEST, Table 6.6. -/
abbrev thrHottest : Nat := 0x2C2500
/-- 2C26:00 THR_FAIL_MARGIN, Table 6.6. -/
abbrev thrFailMargin : Nat := 0x2C2600
/-- 2C27:01 THR_ENTRIES, Table 6.6. -/
abbrev thrEntries (j : Nat) : Nat := 0x2C2701 + j
/-- 2C28:00 THR_FLOOR, Table 6.6. -/
abbrev thrFloor : Nat := 0x2C2800
/-- 2C29:00 PLAUSIBLE_SPREAD, Table 6.6. -/
abbrev plausibleSpread : Nat := 0x2C2900
/-- 2C2A:00 THERMAL_SHUTDOWN, Table 6.6. -/
abbrev thermalShutdown : Nat := 0x2C2A00
/-- 2C2B:00 SHUTDOWN_HYST, Table 6.6. -/
abbrev shutdownHyst : Nat := 0x2C2B00
/-- 2C2C:00 SHUTDOWN_COUNT, Table 6.6. -/
abbrev shutdownCount : Nat := 0x2C2C00
/-- 2C2D:00 LAST_SHUTDOWN_TIME, Table 6.6. -/
abbrev lastShutdownTime : Nat := 0x2C2D00
/-- 2C2E:00 THR_L4_EXIT, Table 6.6. -/
abbrev thrL4Exit : Nat := 0x2C2E00
/-- 2C40:01 ALMANAC_BAND_COUNT, Table 6.7. -/
abbrev almanacBandCount (i : Nat) : Nat := 0x2C4001 + 0x100 * i
/-- 2C40:02 ALMANAC_HYST, Table 6.7. -/
abbrev almanacHyst (i : Nat) : Nat := 0x2C4002 + 0x100 * i
/-- 2C40:03 CURRENT_BAND, Table 6.7. -/
abbrev currentBand (i : Nat) : Nat := 0x2C4003 + 0x100 * i
/-- 2C40:04 FORCE_BAND, Table 6.7. -/
abbrev forceBand (i : Nat) : Nat := 0x2C4004 + 0x100 * i
/-- 2C40:05 ALMANAC_BAND_CHANGES, Table 6.7. -/
abbrev almanacBandChanges (i : Nat) : Nat := 0x2C4005 + 0x100 * i
/-- 2C40:06 ALMANAC_SET_MISSING, Table 6.7. -/
abbrev almanacSetMissing (i : Nat) : Nat := 0x2C4006 + 0x100 * i
/-- 2C40:07 LAST_BAND_CHANGE_TIME, Table 6.7. -/
abbrev lastBandChangeTime (i : Nat) : Nat := 0x2C4007 + 0x100 * i
/-- 2C80:01 BAND_LOWER, Table 6.7. -/
abbrev bandLower (i : Nat) : Nat := 0x2C8001 + 0x100 * i
/-- 2C80:02 TAU_L, Table 6.7. -/
abbrev tauL (i : Nat) : Nat := 0x2C8002 + 0x100 * i
/-- 2C80:03 TAU_S, Table 6.7. -/
abbrev tauS (i : Nat) : Nat := 0x2C8003 + 0x100 * i
/-- 2C80:04 BIAS_CODE_BAND, Table 6.7. -/
abbrev biasCodeBand (i : Nat) (j : Nat) : Nat := 0x2C8004 + 0x100 * i + j
/-- 2C80:0C COEF_SET, Table 6.7. -/
abbrev coefSet (i : Nat) : Nat := 0x2C800C + 0x100 * i
/-- 2C80:0D T_REF, Table 6.7. -/
abbrev tRef (i : Nat) : Nat := 0x2C800D + 0x100 * i
/-- 2C80:0E HDR_RHO, Table 6.7. -/
abbrev hdrRho (i : Nat) : Nat := 0x2C800E + 0x100 * i
/-- 2C80:0F RESP_INDEX, Table 6.7. -/
abbrev respIndex (i : Nat) : Nat := 0x2C800F + 0x100 * i
/-- 2C80:10 TRIM_SET, Table 6.7. -/
abbrev trimSet (i : Nat) : Nat := 0x2C8010 + 0x100 * i
/-- 2E00:00 VREF_DECLARED, Table 6.8. -/
abbrev vrefDeclared : Nat := 0x2E0000
/-- 2E01:00 VREF_STATE, Table 6.8. -/
abbrev vrefState : Nat := 0x2E0100
/-- 2E02:00 CAL_DELTA, Table 6.8. -/
abbrev calDelta : Nat := 0x2E0200
/-- 2E03:00 CAL_COMMAND, Table 6.8. -/
abbrev calCommand : Nat := 0x2E0300
/-- 2E04:00 CAL_REVERT, Table 6.8. -/
abbrev calRevert : Nat := 0x2E0400
/-- 2E05:00 CAL_STATE, Table 6.8. -/
abbrev calState : Nat := 0x2E0500
/-- 2E06:00 CAL_RUNS, Table 6.8. -/
abbrev calRuns : Nat := 0x2E0600
/-- 2E07:00 CAL_LAST_RUN_TIME, Table 6.8. -/
abbrev calLastRunTime : Nat := 0x2E0700
/-- 2E08:00 CAL_RUN_TEMP, Table 6.8. -/
abbrev calRunTemp : Nat := 0x2E0800
/-- 2E09:00 CAL_AUTO, Table 6.8. -/
abbrev calAuto : Nat := 0x2E0900
/-- 2E0A:00 CAL_REVERTS, Table 6.8. -/
abbrev calReverts : Nat := 0x2E0A00
/-- 2E10:01 CAL_COUNT_CONV, Table 6.8. -/
abbrev calCountConv (i : Nat) (j : Nat) : Nat := 0x2E1001 + 0x100 * i + j
/-- 2E14:01 CAL_TIME_CONV, Table 6.8. -/
abbrev calTimeConv (i : Nat) (j : Nat) : Nat := 0x2E1401 + 0x100 * i + j
/-- 2E18:01 CAL_COUNT_AFE, Table 6.8. -/
abbrev calCountAfe (i : Nat) (j : Nat) : Nat := 0x2E1801 + 0x100 * i + j
/-- 2E1C:01 CAL_TIME_AFE, Table 6.8. -/
abbrev calTimeAfe (i : Nat) (j : Nat) : Nat := 0x2E1C01 + 0x100 * i + j
/-- 2E20:01 CAL_COUNT_BIAS, Table 6.8. -/
abbrev calCountBias (i : Nat) (j : Nat) : Nat := 0x2E2001 + 0x100 * i + j
/-- 2E24:01 CAL_TIME_BIAS, Table 6.8. -/
abbrev calTimeBias (i : Nat) (j : Nat) : Nat := 0x2E2401 + 0x100 * i + j
/-- 2E28:01 CAL_RESIDUAL_BIAS, Table 6.8. -/
abbrev calResidualBias (i : Nat) (j : Nat) : Nat := 0x2E2801 + 0x100 * i + j
/-- 2E2C:01 CAL_COUNT_REFBUF, Table 6.8. -/
abbrev calCountRefbuf (j : Nat) : Nat := 0x2E2C01 + j
/-- 2E2D:01 CAL_TIME_REFBUF, Table 6.8. -/
abbrev calTimeRefbuf (j : Nat) : Nat := 0x2E2D01 + j
/-- 2E2E:01 CAL_RESIDUAL_REFBUF, Table 6.8. -/
abbrev calResidualRefbuf (j : Nat) : Nat := 0x2E2E01 + j
/-- 2E2F:01 REFBUF_TRIM, Table 6.8. -/
abbrev refbufTrim (j : Nat) : Nat := 0x2E2F01 + j
/-- 2E38:01 BIAS_TRIM, Table 6.8. -/
abbrev biasTrim (i : Nat) (j : Nat) : Nat := 0x2E3801 + 0x100 * i + j
/-- 2E3C:01 AFE_TRIM, Table 6.8. -/
abbrev afeTrim (i : Nat) (j : Nat) : Nat := 0x2E3C01 + 0x100 * i + j
/-- 3000:01 LIN_SELECT, Table 7.7. -/
abbrev linSelect (i : Nat) : Nat := 0x300001 + 0x4000 * i
/-- 3000:02 LIN_IN_FORCE, Table 7.7. -/
abbrev linInForce (i : Nat) : Nat := 0x300002 + 0x4000 * i
/-- 3000:03 LIN_SAT_COUNT, Table 7.7. -/
abbrev linSatCount (i : Nat) : Nat := 0x300003 + 0x4000 * i
/-- 3001:00 LIN_TABLE_A, Table 7.7. -/
abbrev linTableA (i : Nat) : Nat := 0x300100 + 0x4000 * i
/-- 3002:00 LIN_TABLE_B, Table 7.7. -/
abbrev linTableB (i : Nat) : Nat := 0x300200 + 0x4000 * i
/-- 3004:01 NUC_BYPASS, Table 7.7. -/
abbrev nucBypass (i : Nat) : Nat := 0x300401 + 0x4000 * i
/-- 3004:02 DELTA_T, Table 7.7. -/
abbrev deltaT (i : Nat) : Nat := 0x300402 + 0x4000 * i
/-- 3004:03 T_FPA_USED, Table 7.7. -/
abbrev tFpaUsed (i : Nat) : Nat := 0x300403 + 0x4000 * i
/-- 3004:04 T_REF_USED, Table 7.7. -/
abbrev tRefUsed (i : Nat) : Nat := 0x300404 + 0x4000 * i
/-- 3004:05 DELTA_T_SAT_COUNT, Table 7.7. -/
abbrev deltaTSatCount (i : Nat) : Nat := 0x300405 + 0x4000 * i
/-- 3004:06 NUC_SAT_COUNT, Table 7.7. -/
abbrev nucSatCount (i : Nat) : Nat := 0x300406 + 0x4000 * i
/-- 3004:07 RHO_INV, Table 7.7. -/
abbrev rhoInv (i : Nat) : Nat := 0x300407 + 0x4000 * i
/-- 3004:08 COEF_UNCORRECTABLE, Table 7.7. -/
abbrev coefUncorrectable (i : Nat) : Nat := 0x300408 + 0x4000 * i
/-- 3005:01 SRC_COEF_SET, Table 7.7. -/
abbrev srcCoefSet (i : Nat) : Nat := 0x300501 + 0x4000 * i
/-- 3005:02 SRC_T_FPA, Table 7.7. -/
abbrev srcTFpa (i : Nat) : Nat := 0x300502 + 0x4000 * i
/-- 3005:03 SRC_T_REF, Table 7.7. -/
abbrev srcTRef (i : Nat) : Nat := 0x300503 + 0x4000 * i
/-- 3008:01 BP_BYPASS, Table 7.7. -/
abbrev bpBypass (i : Nat) : Nat := 0x300801 + 0x4000 * i
/-- 3008:02 BP_REPLACE_NOISY, Table 7.7. -/
abbrev bpReplaceNoisy (i : Nat) : Nat := 0x300802 + 0x4000 * i
/-- 3008:03 BP_FALLBACK_SPAN, Table 7.7. -/
abbrev bpFallbackSpan (i : Nat) : Nat := 0x300803 + 0x4000 * i
/-- 3008:04 BP_REPLACED_FRAME, Table 7.7. -/
abbrev bpReplacedFrame (i : Nat) : Nat := 0x300804 + 0x4000 * i
/-- 3008:05 BP_MISS_FRAME, Table 7.7. -/
abbrev bpMissFrame (i : Nat) : Nat := 0x300805 + 0x4000 * i
/-- 3008:06 BP_FALLBACKS, Table 7.7. -/
abbrev bpFallbacks (i : Nat) : Nat := 0x300806 + 0x4000 * i
/-- 3008:07 BP_UNREPLACED, Table 7.7. -/
abbrev bpUnreplaced (i : Nat) : Nat := 0x300807 + 0x4000 * i
/-- 3008:08 BP_METHOD_INVALID, Table 7.7. -/
abbrev bpMethodInvalid (i : Nat) : Nat := 0x300808 + 0x4000 * i
/-- 3012:01 HDR_MODE, Table 7.7. -/
abbrev hdrMode (i : Nat) : Nat := 0x301201 + 0x4000 * i
/-- 3012:02 HDR_WIDTH_LOG2, Table 7.7. -/
abbrev hdrWidthLog2 (i : Nat) : Nat := 0x301202 + 0x4000 * i
/-- 3012:03 HDR_RHO_IN_FORCE, Table 7.7. -/
abbrev hdrRhoInForce (i : Nat) : Nat := 0x301203 + 0x4000 * i
/-- 3012:04 HDR_KNEE, Table 7.7. -/
abbrev hdrKnee (i : Nat) : Nat := 0x301204 + 0x4000 * i
/-- 3012:05 HDR_SAT_COUNT, Table 7.7. -/
abbrev hdrSatCount (i : Nat) : Nat := 0x301205 + 0x4000 * i
/-- 3012:06 HDR_SHORT_FRAME, Table 7.7. -/
abbrev hdrShortFrame (i : Nat) : Nat := 0x301206 + 0x4000 * i
/-- 3012:07 HDR_BLEND_FRAME, Table 7.7. -/
abbrev hdrBlendFrame (i : Nat) : Nat := 0x301207 + 0x4000 * i
/-- 3012:08 HDR_REDIRECTS, Table 7.7. -/
abbrev hdrRedirects (i : Nat) : Nat := 0x301208 + 0x4000 * i
/-- 3180:01 NUC_LANES_IN_SERVICE, Table 7.8. -/
abbrev nucLanesInService : Nat := 0x318001
/-- 3180:02 NUC_LANE_RESETS, Table 7.8. -/
abbrev nucLaneResets : Nat := 0x318002
/-- 3180:03 NUC_SAMPLES, Table 7.8. -/
abbrev nucSamples : Nat := 0x318003
/-- 3400:01 SOLSTICE_SHUTTER, Table 8.9. -/
abbrev solsticeShutter (i : Nat) : Nat := 0x340001 + 0x1000 * i
/-- 3400:02 SOLSTICE_FRAMES, Table 8.9. -/
abbrev solsticeFrames (i : Nat) : Nat := 0x340002 + 0x1000 * i
/-- 3400:03 SOLSTICE_CLOSE_FRAMES, Table 8.9. -/
abbrev solsticeCloseFrames (i : Nat) : Nat := 0x340003 + 0x1000 * i
/-- 3400:04 SOLSTICE_SETTLE_FRAMES, Table 8.9. -/
abbrev solsticeSettleFrames (i : Nat) : Nat := 0x340004 + 0x1000 * i
/-- 3400:05 SOLSTICE_REOPEN_FRAMES, Table 8.9. -/
abbrev solsticeReopenFrames (i : Nat) : Nat := 0x340005 + 0x1000 * i
/-- 3400:06 SOLSTICE_DELTA, Table 8.9. -/
abbrev solsticeDelta (i : Nat) : Nat := 0x340006 + 0x1000 * i
/-- 3400:07 SOLSTICE_MAX_INTERVAL, Table 8.9. -/
abbrev solsticeMaxInterval (i : Nat) : Nat := 0x340007 + 0x1000 * i
/-- 3400:08 SOLSTICE_MIN_INTERVAL, Table 8.9. -/
abbrev solsticeMinInterval (i : Nat) : Nat := 0x340008 + 0x1000 * i
/-- 3400:09 SOLSTICE_INHIBIT, Table 8.9. -/
abbrev solsticeInhibit (i : Nat) : Nat := 0x340009 + 0x1000 * i
/-- 3400:0A SOLSTICE_COMMAND, Table 8.9. -/
abbrev solsticeCommand (i : Nat) : Nat := 0x34000A + 0x1000 * i
/-- 3401:01 SOLSTICE_STATE, Table 8.9. -/
abbrev solsticeState (i : Nat) : Nat := 0x340101 + 0x1000 * i
/-- 3401:02 SOLSTICE_PHASE_FRAME, Table 8.9. -/
abbrev solsticePhaseFrame (i : Nat) : Nat := 0x340102 + 0x1000 * i
/-- 3401:03 SOLSTICE_DUE, Table 8.9. -/
abbrev solsticeDue (i : Nat) : Nat := 0x340103 + 0x1000 * i
/-- 3401:04 SOLSTICE_COUNT, Table 8.9. -/
abbrev solsticeCount (i : Nat) : Nat := 0x340104 + 0x1000 * i
/-- 3401:05 SOLSTICE_LAST_TIME, Table 8.9. -/
abbrev solsticeLastTime (i : Nat) : Nat := 0x340105 + 0x1000 * i
/-- 3401:06 SOLSTICE_ABANDONED, Table 8.9. -/
abbrev solsticeAbandoned (i : Nat) : Nat := 0x340106 + 0x1000 * i
/-- 3401:07 SOLSTICE_ABANDON_CAUSE, Table 8.9. -/
abbrev solsticeAbandonCause (i : Nat) : Nat := 0x340107 + 0x1000 * i
/-- 3401:08 SOLSTICE_RESTARTS, Table 8.9. -/
abbrev solsticeRestarts (i : Nat) : Nat := 0x340108 + 0x1000 * i
/-- 3401:09 SOLSTICE_PIXELS, Table 8.9. -/
abbrev solsticePixels (i : Nat) : Nat := 0x340109 + 0x1000 * i
/-- 3401:0A SOLSTICE_MEAN, Table 8.9. -/
abbrev solsticeMean (i : Nat) : Nat := 0x34010A + 0x1000 * i
/-- 3401:0B SOLSTICE_E_KEPT, Table 8.9. -/
abbrev solsticeEKept (i : Nat) : Nat := 0x34010B + 0x1000 * i
/-- 3401:0C SOLSTICE_E_CLAMPED, Table 8.9. -/
abbrev solsticeEClamped (i : Nat) : Nat := 0x34010C + 0x1000 * i
/-- 3401:0D SHUTTER_STUCK, Table 8.9. -/
abbrev shutterStuck (i : Nat) : Nat := 0x34010D + 0x1000 * i
/-- 3480:01 EQX_ENABLE, Table 8.10. -/
abbrev eqxEnable (i : Nat) : Nat := 0x348001 + 0x1000 * i
/-- 3480:02 EQX_GAIN_LOG2, Table 8.10. -/
abbrev eqxGainLog2 (i : Nat) : Nat := 0x348002 + 0x1000 * i
/-- 3480:03 EQX_SEEDS, Table 8.10. -/
abbrev eqxSeeds (i : Nat) : Nat := 0x348003 + 0x1000 * i
/-- 3480:04 EQX_COLUMNS_HELD, Table 8.10. -/
abbrev eqxColumnsHeld (i : Nat) : Nat := 0x348004 + 0x1000 * i
/-- 3480:05 EQX_UNSEEDED, Table 8.10. -/
abbrev eqxUnseeded (i : Nat) : Nat := 0x348005 + 0x1000 * i
/-- 3480:06 EQX_RANGE_SKIPS, Table 8.10. -/
abbrev eqxRangeSkips (i : Nat) : Nat := 0x348006 + 0x1000 * i
/-- 3480:07 EQX_CORR_MAX, Table 8.10. -/
abbrev eqxCorrMax (i : Nat) : Nat := 0x348007 + 0x1000 * i
/-- 3481:00 EQX_STATE, Table 8.10. -/
abbrev eqxState (i : Nat) : Nat := 0x348100 + 0x1000 * i
/-- 3500:01 ONION_RESIDENT, Table 8.11. -/
abbrev onionResident : Nat := 0x350001
/-- 3500:02 ONION_LOAD, Table 8.11. -/
abbrev onionLoad : Nat := 0x350002
/-- 3500:03 ONION_LOAD_STATUS, Table 8.11. -/
abbrev onionLoadStatus : Nat := 0x350003
/-- 3500:04 ONION_EVICT, Table 8.11. -/
abbrev onionEvict : Nat := 0x350004
/-- 3500:05 ONION_REVERT, Table 8.11. -/
abbrev onionRevert : Nat := 0x350005
/-- 3500:06 ONION_REVERTS, Table 8.11. -/
abbrev onionReverts : Nat := 0x350006
/-- 3500:07 ONION_SAVE, Table 8.11. -/
abbrev onionSave : Nat := 0x350007
/-- 3500:08 ONION_SAVE_STATUS, Table 8.11. -/
abbrev onionSaveStatus : Nat := 0x350008
/-- 3500:09 ONION_AUTOSAVE, Table 8.11. -/
abbrev onionAutosave : Nat := 0x350009
/-- 3500:0A ONION_DMA_CHANNEL, Table 8.11. -/
abbrev onionDmaChannel : Nat := 0x35000A
/-- 3500:0B ONION_HOST_ADDRESS, Table 8.11. -/
abbrev onionHostAddress : Nat := 0x35000B
/-- 3500:0C ONION_WRITE_BLOCKED, Table 8.11. -/
abbrev onionWriteBlocked : Nat := 0x35000C
/-- 3540:01 SET_STATE, Table 8.11. -/
abbrev setState (i : Nat) : Nat := 0x354001 + 0x100 * i
/-- 3540:02 SET_OWNER, Table 8.11. -/
abbrev setOwner (i : Nat) : Nat := 0x354002 + 0x100 * i
/-- 3540:03 SET_FLASH_OFFSET, Table 8.11. -/
abbrev setFlashOffset (i : Nat) : Nat := 0x354003 + 0x100 * i
/-- 3540:04 SET_BOOT, Table 8.11. -/
abbrev setBoot (i : Nat) : Nat := 0x354004 + 0x100 * i
/-- 3540:05 SET_GEOMETRY, Table 8.11. -/
abbrev setGeometry (i : Nat) : Nat := 0x354005 + 0x100 * i
/-- 3540:06 SET_FIELD_SEQUENCE, Table 8.11. -/
abbrev setFieldSequence (i : Nat) : Nat := 0x354006 + 0x100 * i
/-- 3540:07 SET_ANCHOR_TEMP, Table 8.11. -/
abbrev setAnchorTemp (i : Nat) : Nat := 0x354007 + 0x100 * i
/-- 3540:08 SET_ANCHOR_TIME, Table 8.11. -/
abbrev setAnchorTime (i : Nat) : Nat := 0x354008 + 0x100 * i
/-- 3540:09 SET_SHADOW_VALID, Table 8.11. -/
abbrev setShadowValid (i : Nat) : Nat := 0x354009 + 0x100 * i
/-- 3540:0A SET_SAVED_SEQUENCE, Table 8.11. -/
abbrev setSavedSequence (i : Nat) : Nat := 0x35400A + 0x100 * i
/-- 3540:0B SET_STALE, Table 8.11. -/
abbrev setStale (i : Nat) : Nat := 0x35400B + 0x100 * i
/-- 3540:0C SET_VIEW, Table 8.11. -/
abbrev setView (i : Nat) : Nat := 0x35400C + 0x100 * i
/-- 3540:0D SET_SHADOW, Table 8.11. -/
abbrev setShadow (i : Nat) : Nat := 0x35400D + 0x100 * i
/-- 3700:01 VSOL_STATE, Table 9.6. -/
abbrev vsolState : Nat := 0x370001
/-- 3700:02 CLAMP_POWER_AVG, Table 9.6. -/
abbrev clampPowerAvg : Nat := 0x370002
/-- 3700:03 CLAMP_HOLDOFFS, Table 9.6. -/
abbrev clampHoldoffs : Nat := 0x370003
/-- 3704:01 BANK_MODE, Table 9.6. -/
abbrev bankMode (i : Nat) : Nat := 0x370401 + 0x100 * i
/-- 3704:02 BANK_RUN, Table 9.6. -/
abbrev bankRun (i : Nat) : Nat := 0x370402 + 0x100 * i
/-- 3704:03 BANK_STATE, Table 9.6. -/
abbrev bankState (i : Nat) : Nat := 0x370403 + 0x100 * i
/-- 3704:04 CHANNEL_MASK, Table 9.6. -/
abbrev channelMask (i : Nat) : Nat := 0x370404 + 0x100 * i
/-- 3704:05 SHUTTER_COMMAND, Table 9.6. -/
abbrev shutterCommand (i : Nat) : Nat := 0x370405 + 0x100 * i
/-- 3704:06 SHUTTER_POSITION, Table 9.6. -/
abbrev shutterPosition (i : Nat) : Nat := 0x370406 + 0x100 * i
/-- 3704:07 PARK_POSITION, Table 9.6. -/
abbrev parkPosition (i : Nat) : Nat := 0x370407 + 0x100 * i
/-- 3704:08 OFFSTATE_RESULT, Table 9.6. -/
abbrev offstateResult (i : Nat) : Nat := 0x370408 + 0x100 * i
/-- 3704:09 BANK_FAULTS, Table 9.6. -/
abbrev bankFaults (i : Nat) : Nat := 0x370409 + 0x100 * i
/-- 3704:0A BANK_FAULT_CLEAR, Table 9.6. -/
abbrev bankFaultClear (i : Nat) : Nat := 0x37040A + 0x100 * i
/-- 3710:01 PEAK_CURRENT, Table 9.6. -/
abbrev peakCurrent (i : Nat) : Nat := 0x371001 + 0x100 * i
/-- 3710:02 HOLD_CURRENT, Table 9.6. -/
abbrev holdCurrent (i : Nat) : Nat := 0x371002 + 0x100 * i
/-- 3710:03 HOLD_TIME, Table 9.6. -/
abbrev holdTime (i : Nat) : Nat := 0x371003 + 0x100 * i
/-- 3710:04 CHOP_FREQ, Table 9.6. -/
abbrev chopFreq (i : Nat) : Nat := 0x371004 + 0x100 * i
/-- 3710:05 BOOST_TIMEOUT, Table 9.6. -/
abbrev boostTimeout (i : Nat) : Nat := 0x371005 + 0x100 * i
/-- 3710:06 TPEAK_MIN, Table 9.6. -/
abbrev tpeakMin (i : Nat) : Nat := 0x371006 + 0x100 * i
/-- 3710:07 TPEAK_MAX, Table 9.6. -/
abbrev tpeakMax (i : Nat) : Nat := 0x371007 + 0x100 * i
/-- 3710:08 MOTION_CHECK, Table 9.6. -/
abbrev motionCheck (i : Nat) : Nat := 0x371008 + 0x100 * i
/-- 3710:09 DIP_MIN, Table 9.6. -/
abbrev dipMin (i : Nat) : Nat := 0x371009 + 0x100 * i
/-- 3710:0A DECAY_TIMEOUT, Table 9.6. -/
abbrev decayTimeout (i : Nat) : Nat := 0x37100A + 0x100 * i
/-- 3710:0B DWELL, Table 9.6. -/
abbrev dwell (i : Nat) : Nat := 0x37100B + 0x100 * i
/-- 3720:01 CH_COMMAND, Table 9.6. -/
abbrev chCommand (i : Nat) : Nat := 0x372001 + 0x100 * i
/-- 3720:02 CH_STATE, Table 9.6. -/
abbrev chState (i : Nat) : Nat := 0x372002 + 0x100 * i
/-- 3720:03 LAST_RESULT, Table 9.6. -/
abbrev lastResult (i : Nat) : Nat := 0x372003 + 0x100 * i
/-- 3720:04 LAST_TPEAK, Table 9.6. -/
abbrev lastTpeak (i : Nat) : Nat := 0x372004 + 0x100 * i
/-- 3720:05 LAST_TPEAK_NORM, Table 9.6. -/
abbrev lastTpeakNorm (i : Nat) : Nat := 0x372005 + 0x100 * i
/-- 3720:06 LAST_MOTION_TIME, Table 9.6. -/
abbrev lastMotionTime (i : Nat) : Nat := 0x372006 + 0x100 * i
/-- 3720:07 LAST_PEAK_CURRENT, Table 9.6. -/
abbrev lastPeakCurrent (i : Nat) : Nat := 0x372007 + 0x100 * i
/-- 3720:08 LAST_CLAMP_ENERGY, Table 9.6. -/
abbrev lastClampEnergy (i : Nat) : Nat := 0x372008 + 0x100 * i
/-- 3720:09 LAST_END_TIME, Table 9.6. -/
abbrev lastEndTime (i : Nat) : Nat := 0x372009 + 0x100 * i
/-- 3720:0A CURRENT_NOW, Table 9.6. -/
abbrev currentNow (i : Nat) : Nat := 0x37200A + 0x100 * i
/-- 3730:01 OPERATIONS, Table 9.6. -/
abbrev operations (i : Nat) : Nat := 0x373001 + 0x100 * i
/-- 3730:02 FAULTS, Table 9.6. -/
abbrev faults (i : Nat) : Nat := 0x373002 + 0x100 * i
/-- 3730:03 TPEAK_WARNINGS, Table 9.6. -/
abbrev tpeakWarnings (i : Nat) : Nat := 0x373003 + 0x100 * i
/-- 3730:04 REFUSED, Table 9.6. -/
abbrev refused (i : Nat) : Nat := 0x373004 + 0x100 * i
/-- 3800:01 TNR_ENABLE, Table 10.6. -/
abbrev tnrEnable (i : Nat) : Nat := 0x380001 + 0x4000 * i
/-- 3800:02 TNR_MOTION_SHIFT, Table 10.6. -/
abbrev tnrMotionShift (i : Nat) : Nat := 0x380002 + 0x4000 * i
/-- 3800:03 TNR_RESET_CLASS, Table 10.6. -/
abbrev tnrResetClass (i : Nat) : Nat := 0x380003 + 0x4000 * i
/-- 3800:04 TNR_BAND_RESEED, Table 10.6. -/
abbrev tnrBandReseed (i : Nat) : Nat := 0x380004 + 0x4000 * i
/-- 3800:05 TNR_RESEED, Table 10.6. -/
abbrev tnrReseed (i : Nat) : Nat := 0x380005 + 0x4000 * i
/-- 3800:06 TNR_SEEDS, Table 10.6. -/
abbrev tnrSeeds (i : Nat) : Nat := 0x380006 + 0x4000 * i
/-- 3800:07 TNR_RESET_PIXELS, Table 10.6. -/
abbrev tnrResetPixels (i : Nat) : Nat := 0x380007 + 0x4000 * i
/-- 3800:08 TNR_STATE_UNCORRECTABLE, Table 10.6. -/
abbrev tnrStateUncorrectable (i : Nat) : Nat := 0x380008 + 0x4000 * i
/-- 3801:01 TNR_ALPHA, Table 10.6. -/
abbrev tnrAlpha (i : Nat) (j : Nat) : Nat := 0x380101 + 0x4000 * i + j
/-- 3802:00 TNR_STATE, Table 10.6. -/
abbrev tnrState (i : Nat) : Nat := 0x380200 + 0x4000 * i
/-- 3808:01 SNR_ENABLE, Table 10.6. -/
abbrev snrEnable (i : Nat) : Nat := 0x380801 + 0x4000 * i
/-- 3808:02 SNR_RANGE_SHIFT, Table 10.6. -/
abbrev snrRangeShift (i : Nat) : Nat := 0x380802 + 0x4000 * i
/-- 3808:03 SNR_THROTTLED_FRAMES, Table 10.6. -/
abbrev snrThrottledFrames (i : Nat) : Nat := 0x380803 + 0x4000 * i
/-- 3809:01 SNR_SPATIAL, Table 10.6. -/
abbrev snrSpatial (i : Nat) (j : Nat) : Nat := 0x380901 + 0x4000 * i + j
/-- 380A:01 SNR_RANGE, Table 10.6. -/
abbrev snrRange (i : Nat) (j : Nat) : Nat := 0x380A01 + 0x4000 * i + j
/-- 3810:01 RADIO_OUTPUT, Table 10.6. -/
abbrev radioOutput (i : Nat) : Nat := 0x381001 + 0x4000 * i
/-- 3810:02 RADIO_SELECT, Table 10.6. -/
abbrev radioSelect (i : Nat) : Nat := 0x381002 + 0x4000 * i
/-- 3810:03 RADIO_IN_FORCE, Table 10.6. -/
abbrev radioInForce (i : Nat) : Nat := 0x381003 + 0x4000 * i
/-- 3810:04 TEMP_ORIGIN, Table 10.6. -/
abbrev tempOrigin (i : Nat) : Nat := 0x381004 + 0x4000 * i
/-- 3810:05 TEMP_SHIFT, Table 10.6. -/
abbrev tempShift (i : Nat) : Nat := 0x381005 + 0x4000 * i
/-- 3810:06 Y16F_OFFSET, Table 10.6. -/
abbrev y16fOffset (i : Nat) : Nat := 0x381006 + 0x4000 * i
/-- 3810:07 Y16F_SHIFT, Table 10.6. -/
abbrev y16fShift (i : Nat) : Nat := 0x381007 + 0x4000 * i
/-- 3810:08 RADIO_SAT_COUNT, Table 10.6. -/
abbrev radioSatCount (i : Nat) : Nat := 0x381008 + 0x4000 * i
/-- 3810:09 Y16F_SAT_COUNT, Table 10.6. -/
abbrev y16fSatCount (i : Nat) : Nat := 0x381009 + 0x4000 * i
/-- 3810:0A BELOW_RANGE_FRAME, Table 10.6. -/
abbrev belowRangeFrame (i : Nat) : Nat := 0x38100A + 0x4000 * i
/-- 3810:0B ABOVE_RANGE_FRAME, Table 10.6. -/
abbrev aboveRangeFrame (i : Nat) : Nat := 0x38100B + 0x4000 * i
/-- 3810:0C SRC_RESP_INDEX, Table 10.6. -/
abbrev srcRespIndex (i : Nat) : Nat := 0x38100C + 0x4000 * i
/-- 3810:0D RESP_INDEX_USED, Table 10.6. -/
abbrev respIndexUsed (i : Nat) : Nat := 0x38100D + 0x4000 * i
/-- 3811:00 TEMP_TABLE_A, Table 10.6. -/
abbrev tempTableA (i : Nat) : Nat := 0x381100 + 0x4000 * i
/-- 3812:00 TEMP_TABLE_B, Table 10.6. -/
abbrev tempTableB (i : Nat) : Nat := 0x381200 + 0x4000 * i
/-- 3813:00 RAD_TABLE_A, Table 10.6. -/
abbrev radTableA (i : Nat) : Nat := 0x381300 + 0x4000 * i
/-- 3814:00 RAD_TABLE_B, Table 10.6. -/
abbrev radTableB (i : Nat) : Nat := 0x381400 + 0x4000 * i
/-- 3818:01 RESP_GAIN, Table 10.6. -/
abbrev respGain (i : Nat) (j : Nat) : Nat := 0x381801 + 0x4000 * i + j
/-- 3819:01 RESP_OFFSET, Table 10.6. -/
abbrev respOffset (i : Nat) (j : Nat) : Nat := 0x381901 + 0x4000 * i + j
/-- 3820:01 EMISSIVITY, Table 10.6. -/
abbrev emissivity (i : Nat) : Nat := 0x382001 + 0x4000 * i
/-- 3820:02 TRANSMISSION, Table 10.6. -/
abbrev transmission (i : Nat) : Nat := 0x382002 + 0x4000 * i
/-- 3820:03 T_REFLECTED, Table 10.6. -/
abbrev tReflected (i : Nat) : Nat := 0x382003 + 0x4000 * i
/-- 3820:04 T_ATMOSPHERE, Table 10.6. -/
abbrev tAtmosphere (i : Nat) : Nat := 0x382004 + 0x4000 * i
/-- 3820:05 COMP_C, Table 10.6. -/
abbrev compC (i : Nat) : Nat := 0x382005 + 0x4000 * i
/-- 3820:06 COMP_K, Table 10.6. -/
abbrev compK (i : Nat) : Nat := 0x382006 + 0x4000 * i
/-- 3821:01 ROI_RADIO_OWN, Table 10.6. -/
abbrev roiRadioOwn (i : Nat) (r : Nat) : Nat := 0x382101 + 0x4000 * i + 0x100 * r
/-- 3821:02 ROI_EMISSIVITY, Table 10.6. -/
abbrev roiEmissivity (i : Nat) (r : Nat) : Nat := 0x382102 + 0x4000 * i + 0x100 * r
/-- 3821:03 ROI_TRANSMISSION, Table 10.6. -/
abbrev roiTransmission (i : Nat) (r : Nat) : Nat := 0x382103 + 0x4000 * i + 0x100 * r
/-- 3821:04 ROI_T_REFLECTED, Table 10.6. -/
abbrev roiTReflected (i : Nat) (r : Nat) : Nat := 0x382104 + 0x4000 * i + 0x100 * r
/-- 3821:05 ROI_T_ATMOSPHERE, Table 10.6. -/
abbrev roiTAtmosphere (i : Nat) (r : Nat) : Nat := 0x382105 + 0x4000 * i + 0x100 * r
/-- 3821:06 ROI_COMP_C, Table 10.6. -/
abbrev roiCompC (i : Nat) (r : Nat) : Nat := 0x382106 + 0x4000 * i + 0x100 * r
/-- 3821:07 ROI_COMP_K, Table 10.6. -/
abbrev roiCompK (i : Nat) (r : Nat) : Nat := 0x382107 + 0x4000 * i + 0x100 * r
/-- 3C00:01 RX_LANES, Table 11.4. -/
abbrev rxLanes (i : Nat) : Nat := 0x3C0001 + 0x1000 * i
/-- 3C00:02 RX_LANE_RATE, Table 11.4. -/
abbrev rxLaneRate (i : Nat) : Nat := 0x3C0002 + 0x1000 * i
/-- 3C00:03 RX_CLOCK_MODE, Table 11.4. -/
abbrev rxClockMode (i : Nat) : Nat := 0x3C0003 + 0x1000 * i
/-- 3C00:04 RX_POLARITY, Table 11.4. -/
abbrev rxPolarity (i : Nat) : Nat := 0x3C0004 + 0x1000 * i
/-- 3C00:05 RX_RUN, Table 11.4. -/
abbrev rxRun (i : Nat) : Nat := 0x3C0005 + 0x1000 * i
/-- 3C00:06 RX_STATE, Table 11.4. -/
abbrev rxState (i : Nat) : Nat := 0x3C0006 + 0x1000 * i
/-- 3C01:01 HDR_ECC_CORRECTED, Table 11.4. -/
abbrev hdrEccCorrected (i : Nat) : Nat := 0x3C0101 + 0x1000 * i
/-- 3C01:02 HDR_ECC_UNCORRECTABLE, Table 11.4. -/
abbrev hdrEccUncorrectable (i : Nat) : Nat := 0x3C0102 + 0x1000 * i
/-- 3C01:03 PAYLOAD_CRC_ERRORS, Table 11.4. -/
abbrev payloadCrcErrors (i : Nat) : Nat := 0x3C0103 + 0x1000 * i
/-- 3C01:04 SOT_ERRORS, Table 11.4. -/
abbrev sotErrors (i : Nat) : Nat := 0x3C0104 + 0x1000 * i
/-- 3C01:05 UNROUTED_PACKETS, Table 11.4. -/
abbrev unroutedPackets (i : Nat) : Nat := 0x3C0105 + 0x1000 * i
/-- 3C01:06 UNKNOWN_DT_PACKETS, Table 11.4. -/
abbrev unknownDtPackets (i : Nat) : Nat := 0x3C0106 + 0x1000 * i
/-- 3C01:07 DESKEWS, Table 11.4. -/
abbrev deskews (i : Nat) : Nat := 0x3C0107 + 0x1000 * i
/-- 3C02:01 VC_FRAME_STARTS, Table 11.4. -/
abbrev vcFrameStarts (i : Nat) (j : Nat) : Nat := 0x3C0201 + 0x1000 * i + j
/-- 3C40:01 SRC_RUN, Table 11.5. -/
abbrev srcRun (i : Nat) : Nat := 0x3C4001 + 0x1000 * i
/-- 3C40:02 SRC_STATE, Table 11.5. -/
abbrev srcState (i : Nat) : Nat := 0x3C4002 + 0x1000 * i
/-- 3C40:03 SRC_RECEIVER, Table 11.5. -/
abbrev srcReceiver (i : Nat) : Nat := 0x3C4003 + 0x1000 * i
/-- 3C40:04 SRC_VC, Table 11.5. -/
abbrev srcVc (i : Nat) : Nat := 0x3C4004 + 0x1000 * i
/-- 3C40:05 SRC_DATA_TYPE, Table 11.5. -/
abbrev srcDataType (i : Nat) : Nat := 0x3C4005 + 0x1000 * i
/-- 3C40:06 SRC_ROLE, Table 11.5. -/
abbrev srcRole (i : Nat) : Nat := 0x3C4006 + 0x1000 * i
/-- 3C40:07 SRC_WIDTH, Table 11.5. -/
abbrev srcWidth (i : Nat) : Nat := 0x3C4007 + 0x1000 * i
/-- 3C40:08 SRC_HEIGHT, Table 11.5. -/
abbrev srcHeight (i : Nat) : Nat := 0x3C4008 + 0x1000 * i
/-- 3C40:09 SRC_FRAME_RATE, Table 11.5. -/
abbrev srcFrameRate (i : Nat) : Nat := 0x3C4009 + 0x1000 * i
/-- 3C40:0A SRC_FRAME_TIMEOUT, Table 11.5. -/
abbrev srcFrameTimeout (i : Nat) : Nat := 0x3C400A + 0x1000 * i
/-- 3C40:0B SRC_CRC_POLICY, Table 11.5. -/
abbrev srcCrcPolicy (i : Nat) : Nat := 0x3C400B + 0x1000 * i
/-- 3C40:0C SRC_OVR_LIMITS, Table 11.5. -/
abbrev srcOvrLimits (i : Nat) : Nat := 0x3C400C + 0x1000 * i
/-- 3C40:0D SRC_FRAME_NUMBER, Table 11.5. -/
abbrev srcFrameNumber (i : Nat) : Nat := 0x3C400D + 0x1000 * i
/-- 3C40:0E SRC_CAPTURE_TIME, Table 11.5. -/
abbrev srcCaptureTime (i : Nat) : Nat := 0x3C400E + 0x1000 * i
/-- 3C40:0F SRC_FIFO_LINES, Table 11.5. -/
abbrev srcFifoLines (i : Nat) : Nat := 0x3C400F + 0x1000 * i
/-- 3C40:10 SRC_LOST_COUNT, Table 11.5. -/
abbrev srcLostCount (i : Nat) : Nat := 0x3C4010 + 0x1000 * i
/-- 3C41:01 SHORT_FRAMES, Table 11.5. -/
abbrev shortFrames (i : Nat) : Nat := 0x3C4101 + 0x1000 * i
/-- 3C41:02 LONG_FRAMES, Table 11.5. -/
abbrev longFrames (i : Nat) : Nat := 0x3C4102 + 0x1000 * i
/-- 3C41:03 SHORT_LINES, Table 11.5. -/
abbrev shortLines (i : Nat) : Nat := 0x3C4103 + 0x1000 * i
/-- 3C41:04 LONG_LINES, Table 11.5. -/
abbrev longLines (i : Nat) : Nat := 0x3C4104 + 0x1000 * i
/-- 3C41:05 CRC_LINES, Table 11.5. -/
abbrev crcLines (i : Nat) : Nat := 0x3C4105 + 0x1000 * i
/-- 3C41:06 ECC_LOST_PACKETS, Table 11.5. -/
abbrev eccLostPackets (i : Nat) : Nat := 0x3C4106 + 0x1000 * i
/-- 3C41:07 OVERRUN_LINES, Table 11.5. -/
abbrev overrunLines (i : Nat) : Nat := 0x3C4107 + 0x1000 * i
/-- 3C41:08 ORPHAN_PACKETS, Table 11.5. -/
abbrev orphanPackets (i : Nat) : Nat := 0x3C4108 + 0x1000 * i
/-- 3C41:09 DT_MISMATCH, Table 11.5. -/
abbrev dtMismatch (i : Nat) : Nat := 0x3C4109 + 0x1000 * i
/-- 3C41:0A SENDER_FRAME_GAPS, Table 11.5. -/
abbrev senderFrameGaps (i : Nat) : Nat := 0x3C410A + 0x1000 * i
/-- 3D00:01 ADMIT_RESULT, Table 11.6. -/
abbrev admitResult : Nat := 0x3D0001
/-- 3D00:02 ADMIT_REQUEST, Table 11.6. -/
abbrev admitRequest : Nat := 0x3D0002
/-- 3D00:03 ADMIT_REFUSALS, Table 11.6. -/
abbrev admitRefusals : Nat := 0x3D0003
/-- 3D01:01 ADMIT_DEMAND, Table 11.6. -/
abbrev admitDemand (j : Nat) : Nat := 0x3D0101 + j
/-- 3D02:01 ADMIT_CEILING, Table 11.6. -/
abbrev admitCeiling (j : Nat) : Nat := 0x3D0201 + j
/-- 3D03:01 ADMIT_LAST_DEMAND, Table 11.6. -/
abbrev admitLastDemand (j : Nat) : Nat := 0x3D0301 + j
/-- 3D04:01 LINES_GRANTED, Table 11.6. -/
abbrev linesGranted (j : Nat) : Nat := 0x3D0401 + j
/-- 3D05:01 DEADLINE_MISSES, Table 11.6. -/
abbrev deadlineMisses (j : Nat) : Nat := 0x3D0501 + j
/-- 3D06:01 FIFO_PEAK, Table 11.6. -/
abbrev fifoPeak (j : Nat) : Nat := 0x3D0601 + j
/-- 3D40:01 FUSE_THERMAL, Table 11.7. -/
abbrev fuseThermal (i : Nat) : Nat := 0x3D4001 + 0x1000 * i
/-- 3D40:02 FUSE_PALETTE, Table 11.7. -/
abbrev fusePalette (i : Nat) : Nat := 0x3D4002 + 0x1000 * i
/-- 3D40:03 FUSE_LOW, Table 11.7. -/
abbrev fuseLow (i : Nat) : Nat := 0x3D4003 + 0x1000 * i
/-- 3D40:04 FUSE_HIGH, Table 11.7. -/
abbrev fuseHigh (i : Nat) : Nat := 0x3D4004 + 0x1000 * i
/-- 3D40:05 FUSE_SHOW_LOW, Table 11.7. -/
abbrev fuseShowLow (i : Nat) : Nat := 0x3D4005 + 0x1000 * i
/-- 3D40:06 FUSE_SHOW_HIGH, Table 11.7. -/
abbrev fuseShowHigh (i : Nat) : Nat := 0x3D4006 + 0x1000 * i
/-- 3D40:07 FUSE_ALPHA, Table 11.7. -/
abbrev fuseAlpha (i : Nat) : Nat := 0x3D4007 + 0x1000 * i
/-- 3D40:08 FUSE_THERMAL_AGE, Table 11.7. -/
abbrev fuseThermalAge (i : Nat) : Nat := 0x3D4008 + 0x1000 * i
/-- 3D40:09 FUSE_OVERLAID, Table 11.7. -/
abbrev fuseOverlaid (i : Nat) : Nat := 0x3D4009 + 0x1000 * i
/-- 3D41:01 FUSE_H, Table 11.7. -/
abbrev fuseH (i : Nat) (j : Nat) : Nat := 0x3D4101 + 0x1000 * i + j
/-- 4000:01 STREAM_RUN, Table 12.7. -/
abbrev streamRun (i : Nat) : Nat := 0x400001 + 0x1000 * i
/-- 4000:02 STREAM_STATE, Table 12.7. -/
abbrev streamState (i : Nat) : Nat := 0x400002 + 0x1000 * i
/-- 4000:03 STREAM_SOURCE, Table 12.7. -/
abbrev streamSource (i : Nat) : Nat := 0x400003 + 0x1000 * i
/-- 4000:04 STREAM_FORMAT, Table 12.7. -/
abbrev streamFormat (i : Nat) : Nat := 0x400004 + 0x1000 * i
/-- 4000:05 STREAM_DECIMATE, Table 12.7. -/
abbrev streamDecimate (i : Nat) : Nat := 0x400005 + 0x1000 * i
/-- 4000:06 STREAM_YIELDABLE, Table 12.7. -/
abbrev streamYieldable (i : Nat) : Nat := 0x400006 + 0x1000 * i
/-- 4001:01 CROP_X, Table 12.7. -/
abbrev cropX (i : Nat) : Nat := 0x400101 + 0x1000 * i
/-- 4001:02 CROP_Y, Table 12.7. -/
abbrev cropY (i : Nat) : Nat := 0x400102 + 0x1000 * i
/-- 4001:03 CROP_WIDTH, Table 12.7. -/
abbrev cropWidth (i : Nat) : Nat := 0x400103 + 0x1000 * i
/-- 4001:04 CROP_HEIGHT, Table 12.7. -/
abbrev cropHeight (i : Nat) : Nat := 0x400104 + 0x1000 * i
/-- 4001:05 OUT_WIDTH, Table 12.7. -/
abbrev outWidth (i : Nat) : Nat := 0x400105 + 0x1000 * i
/-- 4001:06 OUT_HEIGHT, Table 12.7. -/
abbrev outHeight (i : Nat) : Nat := 0x400106 + 0x1000 * i
/-- 4001:07 SCALE_KERNEL, Table 12.7. -/
abbrev scaleKernel (i : Nat) : Nat := 0x400107 + 0x1000 * i
/-- 4002:01 WINDOW_MODE, Table 12.7. -/
abbrev windowMode (i : Nat) : Nat := 0x400201 + 0x1000 * i
/-- 4002:02 WINDOW_LOW, Table 12.7. -/
abbrev windowLow (i : Nat) : Nat := 0x400202 + 0x1000 * i
/-- 4002:03 WINDOW_HIGH, Table 12.7. -/
abbrev windowHigh (i : Nat) : Nat := 0x400203 + 0x1000 * i
/-- 4002:04 PALETTE, Table 12.7. -/
abbrev palette (i : Nat) : Nat := 0x400204 + 0x1000 * i
/-- 4002:05 AGC_CLIP_LOW, Table 12.7. -/
abbrev agcClipLow (i : Nat) : Nat := 0x400205 + 0x1000 * i
/-- 4002:06 AGC_CLIP_HIGH, Table 12.7. -/
abbrev agcClipHigh (i : Nat) : Nat := 0x400206 + 0x1000 * i
/-- 4002:07 AGC_DAMP_LOG2, Table 12.7. -/
abbrev agcDampLog2 (i : Nat) : Nat := 0x400207 + 0x1000 * i
/-- 4002:08 AGC_MIN_SPAN, Table 12.7. -/
abbrev agcMinSpan (i : Nat) : Nat := 0x400208 + 0x1000 * i
/-- 4002:09 WINDOW_IN_FORCE, Table 12.7. -/
abbrev windowInForce (i : Nat) : Nat := 0x400209 + 0x1000 * i
/-- 4003:01 RING_BASE, Table 12.7. -/
abbrev ringBase (i : Nat) : Nat := 0x400301 + 0x1000 * i
/-- 4003:02 RING_SLOTS, Table 12.7. -/
abbrev ringSlots (i : Nat) : Nat := 0x400302 + 0x1000 * i
/-- 4003:03 SLOT_SIZE, Table 12.7. -/
abbrev slotSize (i : Nat) : Nat := 0x400303 + 0x1000 * i
/-- 4003:04 LINE_STRIDE, Table 12.7. -/
abbrev lineStride (i : Nat) : Nat := 0x400304 + 0x1000 * i
/-- 4003:05 RING_READ, Table 12.7. -/
abbrev ringRead (i : Nat) : Nat := 0x400305 + 0x1000 * i
/-- 4003:06 RING_WRITE, Table 12.7. -/
abbrev ringWrite (i : Nat) : Nat := 0x400306 + 0x1000 * i
/-- 4003:07 WB_ADDRESS, Table 12.7. -/
abbrev wbAddress (i : Nat) : Nat := 0x400307 + 0x1000 * i
/-- 4003:08 PROGRESS_LINES, Table 12.7. -/
abbrev progressLines (i : Nat) : Nat := 0x400308 + 0x1000 * i
/-- 4003:09 MSIX_VECTOR, Table 12.7. -/
abbrev msixVector (i : Nat) : Nat := 0x400309 + 0x1000 * i
/-- 4003:0A IRQ_EVERY, Table 12.7. -/
abbrev irqEvery (i : Nat) : Nat := 0x40030A + 0x1000 * i
/-- 4003:0B RELAXED_ORDERING, Table 12.7. -/
abbrev relaxedOrdering (i : Nat) : Nat := 0x40030B + 0x1000 * i
/-- 4004:01 DELIVERY_SEQUENCE, Table 12.7. -/
abbrev deliverySequence (i : Nat) : Nat := 0x400401 + 0x1000 * i
/-- 4004:02 FRAMES_WRITTEN, Table 12.7. -/
abbrev framesWritten (i : Nat) : Nat := 0x400402 + 0x1000 * i
/-- 4004:03 RING_FULL_DROPS, Table 12.7. -/
abbrev ringFullDrops (i : Nat) : Nat := 0x400403 + 0x1000 * i
/-- 4004:04 EGRESS_DISCARDS, Table 12.7. -/
abbrev egressDiscards (i : Nat) : Nat := 0x400404 + 0x1000 * i
/-- 4004:05 REPEATED_FRAMES, Table 12.7. -/
abbrev repeatedFrames (i : Nat) : Nat := 0x400405 + 0x1000 * i
/-- 4004:06 THROTTLED_OMITTED, Table 12.7. -/
abbrev throttledOmitted (i : Nat) : Nat := 0x400406 + 0x1000 * i
/-- 4004:07 SCALE_CLAMPS, Table 12.7. -/
abbrev scaleClamps (i : Nat) : Nat := 0x400407 + 0x1000 * i
/-- 4004:08 LAST_FRAME_NUMBER, Table 12.7. -/
abbrev lastFrameNumber (i : Nat) : Nat := 0x400408 + 0x1000 * i
/-- 4004:09 LAST_CAPTURE_TIME, Table 12.7. -/
abbrev lastCaptureTime (i : Nat) : Nat := 0x400409 + 0x1000 * i
/-- 4004:0A LAST_MARKS, Table 12.7. -/
abbrev lastMarks (i : Nat) : Nat := 0x40040A + 0x1000 * i
/-- 4005:00 SCALE_H_TABLE, Table 12.7. -/
abbrev scaleHTable (i : Nat) : Nat := 0x400500 + 0x1000 * i
/-- 4006:00 SCALE_V_TABLE, Table 12.7. -/
abbrev scaleVTable (i : Nat) : Nat := 0x400600 + 0x1000 * i
/-- 4200:00 PALETTE_IMAGE, Table 12.8. -/
abbrev paletteImage (i : Nat) : Nat := 0x420000 + 0x100 * i
/-- 4208:00 PALETTE_LOAD, Table 12.8. -/
abbrev paletteLoad : Nat := 0x420800
/-- 4209:01 PALETTE_LOADS, Table 12.8. -/
abbrev paletteLoads (j : Nat) : Nat := 0x420901 + j
/-- 4400:01 STAT_ENABLE, Table 12.9. -/
abbrev statEnable (i : Nat) : Nat := 0x440001 + 0x1000 * i
/-- 4400:02 STAT_STATE, Table 12.9. -/
abbrev statState (i : Nat) : Nat := 0x440002 + 0x1000 * i
/-- 4400:03 HIST_LOW, Table 12.9. -/
abbrev histLow (i : Nat) : Nat := 0x440003 + 0x1000 * i
/-- 4400:04 HIST_SHIFT, Table 12.9. -/
abbrev histShift (i : Nat) : Nat := 0x440004 + 0x1000 * i
/-- 4400:05 STAT_PIXEL_MASK, Table 12.9. -/
abbrev statPixelMask (i : Nat) : Nat := 0x440005 + 0x1000 * i
/-- 4400:06 STAT_INCLUDE_FROZEN, Table 12.9. -/
abbrev statIncludeFrozen (i : Nat) : Nat := 0x440006 + 0x1000 * i
/-- 4400:07 STAT_SEQUENCE, Table 12.9. -/
abbrev statSequence (i : Nat) : Nat := 0x440007 + 0x1000 * i
/-- 4400:08 ALARM_STATE, Table 12.9. -/
abbrev alarmState (i : Nat) : Nat := 0x440008 + 0x1000 * i
/-- 4400:09 ALARM_EVENTS, Table 12.9. -/
abbrev alarmEvents (i : Nat) : Nat := 0x440009 + 0x1000 * i
/-- 4401:01 STAT_HOST_BASE, Table 12.9. -/
abbrev statHostBase (i : Nat) : Nat := 0x440101 + 0x1000 * i
/-- 4401:02 STAT_HOST_SLOTS, Table 12.9. -/
abbrev statHostSlots (i : Nat) : Nat := 0x440102 + 0x1000 * i
/-- 4401:03 STAT_HOST_READ, Table 12.9. -/
abbrev statHostRead (i : Nat) : Nat := 0x440103 + 0x1000 * i
/-- 4401:04 STAT_HOST_WRITE, Table 12.9. -/
abbrev statHostWrite (i : Nat) : Nat := 0x440104 + 0x1000 * i
/-- 4401:05 STAT_WB_ADDRESS, Table 12.9. -/
abbrev statWbAddress (i : Nat) : Nat := 0x440105 + 0x1000 * i
/-- 4401:06 STAT_DMA_CHANNEL, Table 12.9. -/
abbrev statDmaChannel (i : Nat) : Nat := 0x440106 + 0x1000 * i
/-- 4401:07 STAT_MSIX_VECTOR, Table 12.9. -/
abbrev statMsixVector (i : Nat) : Nat := 0x440107 + 0x1000 * i
/-- 4401:08 STAT_HOST_DROPS, Table 12.9. -/
abbrev statHostDrops (i : Nat) : Nat := 0x440108 + 0x1000 * i
/-- 4402:00 STAT_RECORDS, Table 12.9. -/
abbrev statRecords (i : Nat) : Nat := 0x440200 + 0x1000 * i
/-- 4480:01 ROI_ENABLE, Table 12.10. -/
abbrev roiEnable (i : Nat) : Nat := 0x448001 + 0x100 * i
/-- 4480:02 ROI_X, Table 12.10. -/
abbrev roiX (i : Nat) : Nat := 0x448002 + 0x100 * i
/-- 4480:03 ROI_Y, Table 12.10. -/
abbrev roiY (i : Nat) : Nat := 0x448003 + 0x100 * i
/-- 4480:04 ROI_WIDTH, Table 12.10. -/
abbrev roiWidth (i : Nat) : Nat := 0x448004 + 0x100 * i
/-- 4480:05 ROI_HEIGHT, Table 12.10. -/
abbrev roiHeight (i : Nat) : Nat := 0x448005 + 0x100 * i
/-- 4480:06 ALARM_A_QUANTITY, Table 12.10. -/
abbrev alarmAQuantity (i : Nat) : Nat := 0x448006 + 0x100 * i
/-- 4480:07 ALARM_A_DIR, Table 12.10. -/
abbrev alarmADir (i : Nat) : Nat := 0x448007 + 0x100 * i
/-- 4480:08 ALARM_A_LEVEL, Table 12.10. -/
abbrev alarmALevel (i : Nat) : Nat := 0x448008 + 0x100 * i
/-- 4480:09 ALARM_A_HYST, Table 12.10. -/
abbrev alarmAHyst (i : Nat) : Nat := 0x448009 + 0x100 * i
/-- 4480:0A ALARM_A_FRAMES, Table 12.10. -/
abbrev alarmAFrames (i : Nat) : Nat := 0x44800A + 0x100 * i
/-- 4480:0B ALARM_B_QUANTITY, Table 12.10. -/
abbrev alarmBQuantity (i : Nat) : Nat := 0x44800B + 0x100 * i
/-- 4480:0C ALARM_B_DIR, Table 12.10. -/
abbrev alarmBDir (i : Nat) : Nat := 0x44800C + 0x100 * i
/-- 4480:0D ALARM_B_LEVEL, Table 12.10. -/
abbrev alarmBLevel (i : Nat) : Nat := 0x44800D + 0x100 * i
/-- 4480:0E ALARM_B_HYST, Table 12.10. -/
abbrev alarmBHyst (i : Nat) : Nat := 0x44800E + 0x100 * i
/-- 4480:0F ALARM_B_FRAMES, Table 12.10. -/
abbrev alarmBFrames (i : Nat) : Nat := 0x44800F + 0x100 * i
/-- 4480:10 ROI_MIN, Table 12.10. -/
abbrev roiMin (i : Nat) : Nat := 0x448010 + 0x100 * i
/-- 4480:11 ROI_MAX, Table 12.10. -/
abbrev roiMax (i : Nat) : Nat := 0x448011 + 0x100 * i
/-- 4480:12 ROI_MAX_POS, Table 12.10. -/
abbrev roiMaxPos (i : Nat) : Nat := 0x448012 + 0x100 * i
/-- 4480:13 ROI_MEAN, Table 12.10. -/
abbrev roiMean (i : Nat) : Nat := 0x448013 + 0x100 * i
/-- 4480:14 ROI_SUM, Table 12.10. -/
abbrev roiSum (i : Nat) : Nat := 0x448014 + 0x100 * i
/-- 4480:15 ROI_COUNT, Table 12.10. -/
abbrev roiCount (i : Nat) : Nat := 0x448015 + 0x100 * i
/-- 4480:16 ROI_BELOW, Table 12.10. -/
abbrev roiBelow (i : Nat) : Nat := 0x448016 + 0x100 * i
/-- 4480:17 ROI_ABOVE, Table 12.10. -/
abbrev roiAbove (i : Nat) : Nat := 0x448017 + 0x100 * i
/-- 4480:18 ROI_FRAME_NUMBER, Table 12.10. -/
abbrev roiFrameNumber (i : Nat) : Nat := 0x448018 + 0x100 * i
/-- 4C00:01 PCIE_LINK_STATE, Table 13.10. -/
abbrev pcieLinkState : Nat := 0x4C0001
/-- 4C00:02 PCIE_LINK_SPEED, Table 13.10. -/
abbrev pcieLinkSpeed : Nat := 0x4C0002
/-- 4C00:03 PCIE_LINK_WIDTH, Table 13.10. -/
abbrev pcieLinkWidth : Nat := 0x4C0003
/-- 4C00:04 PCIE_SPEED_LIMIT, Table 13.10. -/
abbrev pcieSpeedLimit : Nat := 0x4C0004
/-- 4C00:05 PCIE_SUBSYSTEM_ID, Table 13.10. -/
abbrev pcieSubsystemId : Nat := 0x4C0005
/-- 4C00:06 PCIE_LINK_DOWNS, Table 13.10. -/
abbrev pcieLinkDowns : Nat := 0x4C0006
/-- 4C00:07 PCIE_RETRAINS, Table 13.10. -/
abbrev pcieRetrains : Nat := 0x4C0007
/-- 4C00:08 PCIE_RESETS, Table 13.10. -/
abbrev pcieResets : Nat := 0x4C0008
/-- 4C00:09 PCIE_FLRS, Table 13.10. -/
abbrev pcieFlrs : Nat := 0x4C0009
/-- 4C01:01 PCIE_BAR2_BASE, Table 13.10. -/
abbrev pcieBar2Base : Nat := 0x4C0101
/-- 4C01:02 BAR2_OUTSIDE, Table 13.10. -/
abbrev bar2Outside : Nat := 0x4C0102
/-- 4C01:03 BAR2_POISONED, Table 13.10. -/
abbrev bar2Poisoned : Nat := 0x4C0103
/-- 4C02:01 PCIE_EVENT_VECTOR, Table 13.10. -/
abbrev pcieEventVector : Nat := 0x4C0201
/-- 4C02:02 PCIE_EVENT_MASK, Table 13.10. -/
abbrev pcieEventMask : Nat := 0x4C0202
/-- 4C02:03 PCIE_EVENT_STATUS, Table 13.10. -/
abbrev pcieEventStatus : Nat := 0x4C0203
/-- 4C02:04 PCIE_EVENT_ACK, Table 13.10. -/
abbrev pcieEventAck : Nat := 0x4C0204
/-- 4C02:05 PCIE_WAKE_MASK, Table 13.10. -/
abbrev pcieWakeMask : Nat := 0x4C0205
/-- 4C03:01 PCIE_CORRECTABLE, Table 13.10. -/
abbrev pcieCorrectable : Nat := 0x4C0301
/-- 4C03:02 PCIE_UNCORRECTABLE, Table 13.10. -/
abbrev pcieUncorrectable : Nat := 0x4C0302
/-- 4C03:03 PCIE_POISONED_RX, Table 13.10. -/
abbrev pciePoisonedRx : Nat := 0x4C0303
/-- 1014:00 EMCY_COB_ID, Table 13.11. -/
abbrev emcyCobId : Nat := 0x101400
/-- 1015:00 EMCY_INHIBIT, Table 13.11. -/
abbrev emcyInhibit : Nat := 0x101500
/-- 1017:00 HEARTBEAT_TIME, Table 13.11. -/
abbrev heartbeatTime : Nat := 0x101700
/-- 1400:01 RPDO_COB_ID, Table 13.11. -/
abbrev rpdoCobId (i : Nat) : Nat := 0x140001 + 0x100 * i
/-- 1400:02 RPDO_TYPE, Table 13.11. -/
abbrev rpdoType (i : Nat) : Nat := 0x140002 + 0x100 * i
/-- 1600:01 RPDO_MAP1, Table 13.11. -/
abbrev rpdoMap1 (j : Nat) : Nat := 0x160001 + j
/-- 1601:01 RPDO_MAP2, Table 13.11. -/
abbrev rpdoMap2 (j : Nat) : Nat := 0x160101 + j
/-- 1800:01 TPDO_COB_ID, Table 13.11. -/
abbrev tpdoCobId (i : Nat) : Nat := 0x180001 + 0x100 * i
/-- 1800:02 TPDO_TYPE, Table 13.11. -/
abbrev tpdoType (i : Nat) : Nat := 0x180002 + 0x100 * i
/-- 1800:03 TPDO_INHIBIT, Table 13.11. -/
abbrev tpdoInhibit (i : Nat) : Nat := 0x180003 + 0x100 * i
/-- 1800:05 TPDO_EVENT_TIMER, Table 13.11. -/
abbrev tpdoEventTimer (i : Nat) : Nat := 0x180005 + 0x100 * i
/-- 1A00:01 TPDO_MAP1, Table 13.11. -/
abbrev tpdoMap1 (j : Nat) : Nat := 0x1A0001 + j
/-- 1A01:01 TPDO_MAP2, Table 13.11. -/
abbrev tpdoMap2 (j : Nat) : Nat := 0x1A0101 + j
/-- 1A02:01 TPDO_MAP3, Table 13.11. -/
abbrev tpdoMap3 (j : Nat) : Nat := 0x1A0201 + j
/-- 1A03:01 TPDO_MAP4, Table 13.11. -/
abbrev tpdoMap4 (j : Nat) : Nat := 0x1A0301 + j
/-- 4D00:01 CAN_NODE_ID, Table 13.12. -/
abbrev canNodeId : Nat := 0x4D0001
/-- 4D00:02 CAN_NOMINAL_RATE, Table 13.12. -/
abbrev canNominalRate : Nat := 0x4D0002
/-- 4D00:03 CAN_DATA_RATE, Table 13.12. -/
abbrev canDataRate : Nat := 0x4D0003
/-- 4D00:04 CAN_STATE, Table 13.12. -/
abbrev canState : Nat := 0x4D0004
/-- 4D00:05 CAN_TEC, Table 13.12. -/
abbrev canTec : Nat := 0x4D0005
/-- 4D00:06 CAN_REC, Table 13.12. -/
abbrev canRec : Nat := 0x4D0006
/-- 4D00:07 CAN_BUS_OFFS, Table 13.12. -/
abbrev canBusOffs : Nat := 0x4D0007
/-- 4D00:08 NMT_STATE, Table 13.12. -/
abbrev nmtState : Nat := 0x4D0008
/-- 4D00:09 NMT_RESET_ACTION, Table 13.12. -/
abbrev nmtResetAction : Nat := 0x4D0009
/-- 4D01:01 RPDO_IGNORED, Table 13.12. -/
abbrev rpdoIgnored : Nat := 0x4D0101
/-- 4D01:02 RPDO_REFUSED, Table 13.12. -/
abbrev rpdoRefused : Nat := 0x4D0102
/-- 4D01:03 TPDO_COALESCED, Table 13.12. -/
abbrev tpdoCoalesced : Nat := 0x4D0103
/-- 4D01:04 TPDO_LOST, Table 13.12. -/
abbrev tpdoLost : Nat := 0x4D0104
/-- 4D01:05 EMCY_DROPPED, Table 13.12. -/
abbrev emcyDropped : Nat := 0x4D0105
/-- 4D01:06 USDO_TIMEOUTS, Table 13.12. -/
abbrev usdoTimeouts : Nat := 0x4D0106
/-- 4D01:07 CAN_TRIGGERS_IGNORED, Table 13.12. -/
abbrev canTriggersIgnored : Nat := 0x4D0107
/-- 4D02:01 CAN_EVENT_SOURCE, Table 13.12. -/
abbrev canEventSource : Nat := 0x4D0201
/-- 4D02:02 CAN_EVENT_FRAME, Table 13.12. -/
abbrev canEventFrame : Nat := 0x4D0202
/-- 4D02:03 CAN_EVENT_TIME, Table 13.12. -/
abbrev canEventTime : Nat := 0x4D0203
/-- 4D03:00 CAN_TRIGGER, Table 13.12. -/
abbrev canTrigger : Nat := 0x4D0300
/-- 4E00:01 PSIREL_ROLE, Table 13.13. -/
abbrev psirelRole : Nat := 0x4E0001
/-- 4E00:02 PSIREL_NODE, Table 13.13. -/
abbrev psirelNode : Nat := 0x4E0002
/-- 4E00:03 PSIREL_STATE, Table 13.13. -/
abbrev psirelState : Nat := 0x4E0003
/-- 4E00:04 PSIREL_HOPS, Table 13.13. -/
abbrev psirelHops : Nat := 0x4E0004
/-- 4E00:05 PSIREL_ERROR, Table 13.13. -/
abbrev psirelError : Nat := 0x4E0005
/-- 4E00:06 PSIREL_RATE_ADJ, Table 13.13. -/
abbrev psirelRateAdj : Nat := 0x4E0006
/-- 4E00:07 PSIREL_STEPS, Table 13.13. -/
abbrev psirelSteps : Nat := 0x4E0007
/-- 4E00:08 PSIREL_MARKS_BAD, Table 13.13. -/
abbrev psirelMarksBad : Nat := 0x4E0008
/-- 4E00:09 PSIREL_HOLDOVERS, Table 13.13. -/
abbrev psirelHoldovers : Nat := 0x4E0009
/-- 4E00:0A PSIREL_TIMESCALE, Table 13.13. -/
abbrev psirelTimescale : Nat := 0x4E000A
/-- 4E01:01 PSIREL_EXTRA_DELAY, Table 13.13. -/
abbrev psirelExtraDelay : Nat := 0x4E0101
/-- 4E01:02 PSIREL_RET_ENABLE, Table 13.13. -/
abbrev psirelRetEnable : Nat := 0x4E0102
/-- 4E01:03 PSIREL_CABLE_DELAY, Table 13.13. -/
abbrev psirelCableDelay : Nat := 0x4E0103
/-- 4E01:04 PSIREL_RET_STATE, Table 13.13. -/
abbrev psirelRetState : Nat := 0x4E0104
/-- 4E01:05 PSIREL_TRANSIT, Table 13.13. -/
abbrev psirelTransit : Nat := 0x4E0105
/-- 4E01:06 PSIREL_IN_INVERTED, Table 13.13. -/
abbrev psirelInInverted : Nat := 0x4E0106
/-- 4E01:07 PSIREL_CODE_ERRORS, Table 13.13. -/
abbrev psirelCodeErrors : Nat := 0x4E0107
/-- 4E01:08 PSIREL_UPSTREAM_DELAY, Table 13.13. -/
abbrev psirelUpstreamDelay : Nat := 0x4E0108
/-- 4E02:01 PSIREL_TIME_SET, Table 13.13. -/
abbrev psirelTimeSet : Nat := 0x4E0201
/-- 4E02:02 PSIREL_TIME_ADJUST, Table 13.13. -/
abbrev psirelTimeAdjust : Nat := 0x4E0202
/-- 4E02:03 PSIREL_TRIGGER, Table 13.13. -/
abbrev psirelTrigger : Nat := 0x4E0203
/-- 4E02:04 PSIREL_TRIG_PERIOD, Table 13.13. -/
abbrev psirelTrigPeriod : Nat := 0x4E0204
/-- 4E02:05 PSIREL_TRIG_PHASE, Table 13.13. -/
abbrev psirelTrigPhase : Nat := 0x4E0205
/-- 4E02:06 PSIREL_TRIG_GROUPS, Table 13.13. -/
abbrev psirelTrigGroups : Nat := 0x4E0206
/-- 4E02:07 PSIREL_TRIGGER_LEAD, Table 13.13. -/
abbrev psirelTriggerLead : Nat := 0x4E0207
/-- 4E02:08 PSIREL_WAKE, Table 13.13. -/
abbrev psirelWake : Nat := 0x4E0208
/-- 4E02:09 PSIREL_TRIGGERS_LATE, Table 13.13. -/
abbrev psirelTriggersLate : Nat := 0x4E0209
/-- 4E02:0A PSIREL_TRIGGERS_SENT, Table 13.13. -/
abbrev psirelTriggersSent : Nat := 0x4E020A
/-- 4E03:01 PSIREL_HEAD_GROUP, Table 13.13. -/
abbrev psirelHeadGroup (j : Nat) : Nat := 0x4E0301 + j
/-- 4F00:01 SPS_STATE, Table 13.14. -/
abbrev spsState : Nat := 0x4F0001
/-- 4F00:02 SPS_FRAMES, Table 13.14. -/
abbrev spsFrames : Nat := 0x4F0002
/-- 4F00:03 SPS_CRC_ERRORS, Table 13.14. -/
abbrev spsCrcErrors : Nat := 0x4F0003
/-- 4F00:04 SPS_ALIVE_ERRORS, Table 13.14. -/
abbrev spsAliveErrors : Nat := 0x4F0004
/-- 5000:01 MBX_H2D_WORD, Table 14.11. -/
abbrev mbxH2dWord (i : Nat) (j : Nat) : Nat := 0x500001 + 0x800 * i + j
/-- 5001:01 MBX_H2D_COMMAND, Table 14.11. -/
abbrev mbxH2dCommand (i : Nat) : Nat := 0x500101 + 0x800 * i
/-- 5001:02 MBX_H2D_STATE, Table 14.11. -/
abbrev mbxH2dState (i : Nat) : Nat := 0x500102 + 0x800 * i
/-- 5001:03 MBX_H2D_FLAGS, Table 14.11. -/
abbrev mbxH2dFlags (i : Nat) : Nat := 0x500103 + 0x800 * i
/-- 5002:01 MBX_D2H_WORD, Table 14.11. -/
abbrev mbxD2hWord (i : Nat) (j : Nat) : Nat := 0x500201 + 0x800 * i + j
/-- 5003:01 MBX_D2H_RELEASE, Table 14.11. -/
abbrev mbxD2hRelease (i : Nat) : Nat := 0x500301 + 0x800 * i
/-- 5003:02 MBX_D2H_STATE, Table 14.11. -/
abbrev mbxD2hState (i : Nat) : Nat := 0x500302 + 0x800 * i
/-- 5004:01 MBX_TIMEOUT, Table 14.11. -/
abbrev mbxTimeout (i : Nat) : Nat := 0x500401 + 0x800 * i
/-- 5004:02 MBX_VECTOR, Table 14.11. -/
abbrev mbxVector (i : Nat) : Nat := 0x500402 + 0x800 * i
/-- 5004:03 MBX_IRQ_ENABLE, Table 14.11. -/
abbrev mbxIrqEnable (i : Nat) : Nat := 0x500403 + 0x800 * i
/-- 5004:04 MBX_IRQ_STATUS, Table 14.11. -/
abbrev mbxIrqStatus (i : Nat) : Nat := 0x500404 + 0x800 * i
/-- 5004:05 MBX_IRQ_ACK, Table 14.11. -/
abbrev mbxIrqAck (i : Nat) : Nat := 0x500405 + 0x800 * i
/-- 5005:01 MBX_SENT, Table 14.11. -/
abbrev mbxSent (i : Nat) : Nat := 0x500501 + 0x800 * i
/-- 5005:02 MBX_RECEIVED, Table 14.11. -/
abbrev mbxReceived (i : Nat) : Nat := 0x500502 + 0x800 * i
/-- 5005:03 MBX_TIMEOUTS, Table 14.11. -/
abbrev mbxTimeouts (i : Nat) : Nat := 0x500503 + 0x800 * i
/-- 5005:04 MBX_RECALLS, Table 14.11. -/
abbrev mbxRecalls (i : Nat) : Nat := 0x500504 + 0x800 * i
/-- 5005:05 MBX_D2H_TIMEOUTS, Table 14.11. -/
abbrev mbxD2hTimeouts (i : Nat) : Nat := 0x500505 + 0x800 * i
/-- 5005:06 MBX_RESETS, Table 14.11. -/
abbrev mbxResets (i : Nat) : Nat := 0x500506 + 0x800 * i
/-- 5040:01 MBX_MC_WAKES, Table 14.11. -/
abbrev mbxMcWakes : Nat := 0x504001
/-- 5100:01 DMA_SRC_SPACE, Table 14.12. -/
abbrev dmaSrcSpace (i : Nat) : Nat := 0x510001 + 0x400 * i
/-- 5100:02 DMA_SRC_ADDR, Table 14.12. -/
abbrev dmaSrcAddr (i : Nat) : Nat := 0x510002 + 0x400 * i
/-- 5100:03 DMA_DST_SPACE, Table 14.12. -/
abbrev dmaDstSpace (i : Nat) : Nat := 0x510003 + 0x400 * i
/-- 5100:04 DMA_DST_ADDR, Table 14.12. -/
abbrev dmaDstAddr (i : Nat) : Nat := 0x510004 + 0x400 * i
/-- 5100:05 DMA_ELEM_BYTES, Table 14.12. -/
abbrev dmaElemBytes (i : Nat) : Nat := 0x510005 + 0x400 * i
/-- 5100:06 DMA_COUNT, Table 14.12. -/
abbrev dmaCount (i : Nat) (j : Nat) : Nat := 0x510006 + 0x400 * i + j
/-- 5100:09 DMA_SRC_STEP, Table 14.12. -/
abbrev dmaSrcStep (i : Nat) (j : Nat) : Nat := 0x510009 + 0x400 * i + j
/-- 5100:0C DMA_DST_STEP, Table 14.12. -/
abbrev dmaDstStep (i : Nat) (j : Nat) : Nat := 0x51000C + 0x400 * i + j
/-- 5101:01 DMA_PRIORITY, Table 14.12. -/
abbrev dmaPriority (i : Nat) : Nat := 0x510101 + 0x400 * i
/-- 5101:02 DMA_REQ_SOURCE, Table 14.12. -/
abbrev dmaReqSource (i : Nat) : Nat := 0x510102 + 0x400 * i
/-- 5101:03 DMA_GRANT_UNIT, Table 14.12. -/
abbrev dmaGrantUnit (i : Nat) : Nat := 0x510103 + 0x400 * i
/-- 5101:04 DMA_REPEAT, Table 14.12. -/
abbrev dmaRepeat (i : Nat) : Nat := 0x510104 + 0x400 * i
/-- 5101:05 DMA_TIMEOUT, Table 14.12. -/
abbrev dmaTimeout (i : Nat) : Nat := 0x510105 + 0x400 * i
/-- 5101:06 DMA_START, Table 14.12. -/
abbrev dmaStart (i : Nat) : Nat := 0x510106 + 0x400 * i
/-- 5101:07 DMA_ABORT, Table 14.12. -/
abbrev dmaAbort (i : Nat) : Nat := 0x510107 + 0x400 * i
/-- 5101:08 DMA_STATE, Table 14.12. -/
abbrev dmaState (i : Nat) : Nat := 0x510108 + 0x400 * i
/-- 5101:09 DMA_VECTOR, Table 14.12. -/
abbrev dmaVector (i : Nat) : Nat := 0x510109 + 0x400 * i
/-- 5101:0A DMA_IRQ_ENABLE, Table 14.12. -/
abbrev dmaIrqEnable (i : Nat) : Nat := 0x51010A + 0x400 * i
/-- 5101:0B DMA_RECORD_SPACE, Table 14.12. -/
abbrev dmaRecordSpace (i : Nat) : Nat := 0x51010B + 0x400 * i
/-- 5101:0C DMA_RECORD_ADDR, Table 14.12. -/
abbrev dmaRecordAddr (i : Nat) : Nat := 0x51010C + 0x400 * i
/-- 5101:0D DMA_SECURE, Table 14.12. -/
abbrev dmaSecure (i : Nat) : Nat := 0x51010D + 0x400 * i
/-- 5102:01 DMA_LAST_STATUS, Table 14.12. -/
abbrev dmaLastStatus (i : Nat) : Nat := 0x510201 + 0x400 * i
/-- 5102:02 DMA_SEQUENCE, Table 14.12. -/
abbrev dmaSequence (i : Nat) : Nat := 0x510202 + 0x400 * i
/-- 5102:03 DMA_BYTES_MOVED, Table 14.12. -/
abbrev dmaBytesMoved (i : Nat) : Nat := 0x510203 + 0x400 * i
/-- 5102:04 DMA_POSITION, Table 14.12. -/
abbrev dmaPosition (i : Nat) : Nat := 0x510204 + 0x400 * i
/-- 5102:05 DMA_FAIL_ADDR, Table 14.12. -/
abbrev dmaFailAddr (i : Nat) : Nat := 0x510205 + 0x400 * i
/-- 5102:06 DMA_END_TIME, Table 14.12. -/
abbrev dmaEndTime (i : Nat) : Nat := 0x510206 + 0x400 * i
/-- 5103:01 DMA_COMPLETIONS, Table 14.12. -/
abbrev dmaCompletions (i : Nat) : Nat := 0x510301 + 0x400 * i
/-- 5103:02 DMA_ERRORS, Table 14.12. -/
abbrev dmaErrors (i : Nat) : Nat := 0x510302 + 0x400 * i
/-- 5103:03 DMA_TIMEOUTS, Table 14.12. -/
abbrev dmaTimeouts (i : Nat) : Nat := 0x510303 + 0x400 * i
/-- 5103:04 DMA_REQ_WITHDRAWN, Table 14.12. -/
abbrev dmaReqWithdrawn (i : Nat) : Nat := 0x510304 + 0x400 * i
/-- 5103:05 DMA_REQ_MISSED, Table 14.12. -/
abbrev dmaReqMissed (i : Nat) : Nat := 0x510305 + 0x400 * i
/-- 5180:01 DMA_ACTIVE_CHANNEL, Table 14.12. -/
abbrev dmaActiveChannel : Nat := 0x518001
/-- 5180:02 DMA_GRANTS, Table 14.12. -/
abbrev dmaGrants : Nat := 0x518002
/-- 4800:01 DRAM_RATE, Table 15.7. -/
abbrev dramRate : Nat := 0x480001
/-- 4800:02 DRAM_LINK_ECC, Table 15.7. -/
abbrev dramLinkEcc : Nat := 0x480002
/-- 4800:03 DRAM_CHANNELS, Table 15.7. -/
abbrev dramChannels : Nat := 0x480003
/-- 4800:04 DRAM_INSTALLED, Table 15.7. -/
abbrev dramInstalled : Nat := 0x480004
/-- 4800:05 DRAM_CAPACITY, Table 15.7. -/
abbrev dramCapacity : Nat := 0x480005
/-- 4800:06 DRAM_SCRUB_PERIOD, Table 15.7. -/
abbrev dramScrubPeriod : Nat := 0x480006
/-- 4801:01 DRAM_CH_STATE, Table 15.7. -/
abbrev dramChState (j : Nat) : Nat := 0x480101 + j
/-- 4802:01 DRAM_CORRECTED, Table 15.7. -/
abbrev dramCorrected (j : Nat) : Nat := 0x480201 + j
/-- 4803:01 DRAM_UNCORRECTABLE, Table 15.7. -/
abbrev dramUncorrectable (j : Nat) : Nat := 0x480301 + j
/-- 4804:01 DRAM_LINK_ECC_ERRORS, Table 15.7. -/
abbrev dramLinkEccErrors (j : Nat) : Nat := 0x480401 + j
/-- 4805:01 DRAM_SCRUB_PASSES, Table 15.7. -/
abbrev dramScrubPasses (j : Nat) : Nat := 0x480501 + j
/-- 4840:01 NVM_STATE, Table 15.8. -/
abbrev nvmState : Nat := 0x484001
/-- 4840:02 NVM_GROUP_WRITES, Table 15.8. -/
abbrev nvmGroupWrites : Nat := 0x484002
/-- 4840:03 NVM_CORRECTED, Table 15.8. -/
abbrev nvmCorrected : Nat := 0x484003
/-- 4840:04 NVM_UNCORRECTABLE, Table 15.8. -/
abbrev nvmUncorrectable : Nat := 0x484004
/-- 4840:05 NVM_HELD, Table 15.8. -/
abbrev nvmHeld : Nat := 0x484005
/-- 4840:06 NVM_HELD_DROPPED, Table 15.8. -/
abbrev nvmHeldDropped : Nat := 0x484006
/-- 4841:01 NVM_IMAGE_SEQUENCE, Table 15.8. -/
abbrev nvmImageSequence (j : Nat) : Nat := 0x484101 + j
/-- 4841:03 NVM_IMAGE_IN_FORCE, Table 15.8. -/
abbrev nvmImageInForce : Nat := 0x484103
/-- 4842:00 NVM_LOG, Table 15.8. -/
abbrev nvmLog : Nat := 0x484200
/-- 4843:01 NVM_LOG_NEWEST, Table 15.8. -/
abbrev nvmLogNewest : Nat := 0x484301
/-- 4843:02 NVM_LOG_VALID, Table 15.8. -/
abbrev nvmLogValid : Nat := 0x484302
/-- 4844:01 NVM_POWER_ONS, Table 15.8. -/
abbrev nvmPowerOns : Nat := 0x484401
/-- 4844:02 NVM_STORES, Table 15.8. -/
abbrev nvmStores : Nat := 0x484402
/-- 4880:01 SP_ROLE, Table 15.10. -/
abbrev spRole : Nat := 0x488001
/-- 4880:02 SPM_STATE, Table 15.10. -/
abbrev spmState : Nat := 0x488002
/-- 4880:03 SPM_AUTO_CONFIG, Table 15.10. -/
abbrev spmAutoConfig : Nat := 0x488003
/-- 4880:04 SPM_CS_SPLIT, Table 15.10. -/
abbrev spmCsSplit : Nat := 0x488004
/-- 4880:05 SPM_CLOCK_DIV, Table 15.10. -/
abbrev spmClockDiv : Nat := 0x488005
/-- 4880:06 SPM_PROTOCOL, Table 15.10. -/
abbrev spmProtocol : Nat := 0x488006
/-- 4880:07 SPM_READ_CMD, Table 15.10. -/
abbrev spmReadCmd : Nat := 0x488007
/-- 4880:08 SPM_DUMMY_CYCLES, Table 15.10. -/
abbrev spmDummyCycles : Nat := 0x488008
/-- 4880:09 SPM_PROGRAM_CMD, Table 15.10. -/
abbrev spmProgramCmd : Nat := 0x488009
/-- 4880:0A SPM_ERASE_CMD, Table 15.10. -/
abbrev spmEraseCmd : Nat := 0x48800A
/-- 4880:0B SPM_CMD_EXTENSION, Table 15.10. -/
abbrev spmCmdExtension : Nat := 0x48800B
/-- 4880:0C SPM_SAMPLE_DELAY, Table 15.10. -/
abbrev spmSampleDelay : Nat := 0x48800C
/-- 4880:0D SPM_POLL_INTERVAL, Table 15.10. -/
abbrev spmPollInterval : Nat := 0x48800D
/-- 4880:0E SPM_PROGRAM_TIMEOUT, Table 15.10. -/
abbrev spmProgramTimeout : Nat := 0x48800E
/-- 4880:0F SPM_ERASE_TIMEOUT, Table 15.10. -/
abbrev spmEraseTimeout : Nat := 0x48800F
/-- 4880:10 SPM_ERROR_MASK, Table 15.10. -/
abbrev spmErrorMask : Nat := 0x488010
/-- 4881:01 SPM_ERASE, Table 15.10. -/
abbrev spmErase : Nat := 0x488101
/-- 4881:02 SPM_FLUSH, Table 15.10. -/
abbrev spmFlush : Nat := 0x488102
/-- 4882:01 SPM_COPY_SRC, Table 15.10. -/
abbrev spmCopySrc : Nat := 0x488201
/-- 4882:02 SPM_COPY_DST, Table 15.10. -/
abbrev spmCopyDst : Nat := 0x488202
/-- 4882:03 SPM_COPY_LENGTH, Table 15.10. -/
abbrev spmCopyLength : Nat := 0x488203
/-- 4882:04 SPM_COPY_START, Table 15.10. -/
abbrev spmCopyStart : Nat := 0x488204
/-- 4882:05 SPM_COPY_STATUS, Table 15.10. -/
abbrev spmCopyStatus : Nat := 0x488205
/-- 4883:01 SPM_PROGRAMS, Table 15.10. -/
abbrev spmPrograms : Nat := 0x488301
/-- 4883:02 SPM_ERASES, Table 15.10. -/
abbrev spmErases : Nat := 0x488302
/-- 4883:03 SPM_ERRORS, Table 15.10. -/
abbrev spmErrors : Nat := 0x488303
/-- 4883:04 SPM_LAST_STATUS, Table 15.10. -/
abbrev spmLastStatus : Nat := 0x488304

end K

/-- The rows of 1000 to 1FFF. -/
def rowsIdentity : List Row :=
  [
  ⟨0x100000, 1, 1, 1, 1, 32, false, .ro, .i, .const, [0x40000], .anyValue, false⟩,
  ⟨0x100100, 1, 1, 1, 1, 8, false, .ro, .i, .const, [0], .anyValue, false⟩,
  ⟨0x100800, 1, 1, 1, 1, 64, false, .ro, .i, .const, [15253766205690970], .anyValue, false⟩,
  ⟨0x100900, 1, 1, 1, 1, 64, false, .ro, .i, .const, [12610], .anyValue, false⟩,
  ⟨0x100A00, 1, 1, 1, 1, 64, false, .ro, .i, .const, [925904434], .anyValue, false⟩,
  ⟨0x101000, 1, 1, 1, 1, 8, false, .ro, .i, .const, [4], .anyValue, false⟩,
  ⟨0x101001, 1, 1, 1, 1, 32, false, .rw, .i, .const, [1], .command, false⟩,
  ⟨0x101002, 1, 1, 1, 1, 32, false, .rw, .i, .const, [1], .command, false⟩,
  ⟨0x101003, 1, 1, 1, 1, 32, false, .rw, .i, .const, [1], .command, false⟩,
  ⟨0x101004, 1, 1, 1, 1, 32, false, .rw, .i, .const, [1], .command, false⟩,
  ⟨0x101100, 1, 1, 1, 1, 8, false, .ro, .i, .const, [4], .anyValue, false⟩,
  ⟨0x101101, 4, 1, 1, 1, 32, false, .rw, .i, .const, [1], .command, false⟩,
  ⟨0x101800, 1, 1, 1, 1, 8, false, .ro, .i, .const, [4], .anyValue, false⟩,
  ⟨0x101801, 1, 1, 1, 1, 32, false, .ro, .i, .const, [0], .anyValue, false⟩,
  ⟨0x101802, 1, 1, 1, 1, 32, false, .ro, .i, .const, [18454], .anyValue, false⟩,
  ⟨0x101803, 1, 1, 1, 1, 32, false, .ro, .i, .const, [11600391], .anyValue, false⟩,
  ⟨0x101804, 1, 1, 1, 1, 32, false, .ro, .i, .const, [0], .anyValue, false⟩,
  ⟨0x101400, 1, 1, 1, 1, 32, false, .rw, .i, .const, [129], .anyValue, true⟩,
  ⟨0x101500, 1, 1, 1, 1, 16, false, .rw, .i, .const, [0], .anyValue, true⟩,
  ⟨0x101700, 1, 1, 1, 1, 16, false, .rw, .i, .const, [1000], .anyValue, true⟩,
  ⟨0x140001, 1, 2, 1, 1, 32, false, .rw, .i, .inst, [513, 769], .anyValue, true⟩,
  ⟨0x140002, 1, 2, 1, 1, 8, false, .rw, .i, .const, [254], .oneOf [254, 255], true⟩,
  ⟨0x160001, 16, 1, 1, 1, 32, false, .rw, .i, .sub, [1292042272, 0], .custom, true⟩,
  ⟨0x160101, 16, 1, 1, 1, 32, false, .rw, .i, .sub, [872417800, 873466376, 874514952, 875563528, 0], .custom, true⟩,
  ⟨0x180001, 1, 4, 1, 1, 32, false, .rw, .i, .inst, [385, 641, 2147484545, 2147484801], .anyValue, true⟩,
  ⟨0x180002, 1, 4, 1, 1, 8, false, .rw, .i, .const, [254], .oneOf [254, 255], true⟩,
  ⟨0x180003, 1, 4, 1, 1, 16, false, .rw, .i, .inst, [0, 1000, 0, 0], .anyValue, true⟩,
  ⟨0x180005, 1, 4, 1, 1, 16, false, .rw, .i, .inst, [0, 1000, 0, 0], .anyValue, true⟩,
  ⟨0x1A0001, 16, 1, 1, 1, 32, false, .rw, .i, .sub, [1291976968, 1291977248, 1291977536, 1140852768, 1141901344, 1142949920, 1143998496, 1145047072, 1146095648, 0], .custom, true⟩,
  ⟨0x1A0101, 16, 1, 1, 1, 32, false, .rw, .i, .sub, [268501000, 536871176, 740294664, 1308623624, 536873024, 0], .custom, true⟩,
  ⟨0x1A0201, 16, 1, 1, 1, 32, false, .rw, .i, .sub, [0], .custom, true⟩,
  ⟨0x1A0301, 16, 1, 1, 1, 32, false, .rw, .i, .sub, [0], .custom, true⟩]

/-- The rows of 2000 to 23FF. -/
def rowsChip : List Row :=
  [
  ⟨0x200001, 1, 1, 1, 1, 8, false, .ro, .i, .const, [0], .anyValue, false⟩,
  ⟨0x200002, 1, 1, 1, 1, 8, false, .ro, .i, .const, [0], .anyValue, false⟩,
  ⟨0x200003, 1, 1, 1, 1, 8, false, .ro, .i, .const, [0], .anyValue, false⟩,
  ⟨0x200004, 1, 1, 1, 1, 8, false, .rw, .i, .const, [1], .oneOf [1, 2, 3], false⟩,
  ⟨0x200005, 1, 1, 1, 1, 8, false, .ro, .i, .const, [0], .bool, false⟩,
  ⟨0x200006, 1, 1, 1, 1, 8, false, .ro, .i, .const, [0], .anyValue, false⟩,
  ⟨0x200007, 1, 1, 1, 1, 8, false, .ro, .i, .const, [3], .anyValue, false⟩,
  ⟨0x200008, 1, 1, 1, 1, 64, false, .ro, .i, .const, [0], .anyValue, false⟩,
  ⟨0x200009, 1, 1, 1, 1, 8, false, .ro, .i, .const, [0], .anyValue, false⟩,
  ⟨0x200101, 5, 1, 1, 1, 8, false, .ro, .i, .const, [0], .anyValue, false⟩,
  ⟨0x200200, 1, 1, 1, 1, 32, false, .ro, .i, .const, [0], .anyValue, false⟩,
  ⟨0x200301, 1, 1, 1, 1, 32, false, .wo, .i, .const, [0], .command, false⟩,
  ⟨0x200302, 1, 1, 1, 1, 8, false, .wo, .i, .const, [0], .command, false⟩,
  ⟨0x200801, 4, 1, 1, 1, 64, false, .ro, .i, .const, [0], .anyValue, false⟩,
  ⟨0x200901, 4, 1, 1, 1, 32, false, .rw, .i, .const, [0], .counter, false⟩,
  ⟨0x201000, 1, 1, 1, 1, 16, false, .rw, .i, .const, [0], .fields 65343, false⟩,
  ⟨0x201100, 1, 1, 1, 1, 16, false, .ro, .i, .const, [0], .anyValue, false⟩,
  ⟨0x202001, 32, 1, 1, 1, 8, false, .rw, .i, .const, [0], .command, false⟩,
  ⟨0x202100, 1, 1, 1, 1, 32, false, .rws, .i, .const, [0], .command, false⟩,
  ⟨0x202200, 1, 1, 1, 1, 32, false, .rw, .i, .const, [0], .counter, false⟩,
  ⟨0x202300, 1, 1, 1, 1, 32, false, .rw, .i, .const, [0], .counter, false⟩,
  ⟨0x210001, 64, 1, 1, 1, 64, false, .ro, .i, .const, [0], .anyValue, false⟩,
  ⟨0x210101, 64, 1, 1, 1, 64, false, .ro, .i, .const, [0], .anyValue, false⟩,
  ⟨0x210201, 64, 1, 1, 1, 64, false, .ro, .i, .const, [0], .anyValue, false⟩,
  ⟨0x210301, 64, 1, 1, 1, 64, false, .ro, .i, .const, [0], .anyValue, false⟩,
  ⟨0x210401, 64, 1, 1, 1, 64, false, .ro, .i, .const, [0], .anyValue, false⟩,
  ⟨0x210801, 5, 1, 1, 1, 32, false, .ro, .i, .const, [0], .anyValue, false⟩,
  ⟨0x210901, 5, 1, 1, 1, 16, false, .wo, .i, .const, [0], .command, false⟩,
  ⟨0x210A01, 5, 1, 1, 1, 32, false, .rw, .i, .const, [0], .counter, false⟩]

/-- The rows of 2400 to 27FF. -/
def rowsHeads : List Row :=
  [
  ⟨0x240001, 1, 4, 64, 1, 8, false, .rw, .i, .const, [0], .oneOf [0, 1], true⟩,
  ⟨0x240002, 1, 4, 64, 1, 8, false, .ro, .i, .const, [0], .anyValue, false⟩,
  ⟨0x240003, 1, 4, 64, 1, 64, false, .rw, .i, .const, [0x3B9ACA00], .range 10000000 0x34630B8A000, true⟩,
  ⟨0x240004, 1, 4, 64, 1, 16, false, .rw, .i, .const, [0], .anyValue, true⟩,
  ⟨0x240005, 1, 4, 64, 1, 32, false, .rw, .i, .const, [0], .counter, false⟩,
  ⟨0x240006, 1, 4, 64, 1, 64, false, .ro, .i, .const, [0], .anyValue, false⟩,
  ⟨0x240007, 1, 4, 64, 1, 8, false, .ro, .i, .const, [0], .anyValue, false⟩,
  ⟨0x240008, 1, 4, 64, 1, 32, false, .ro, .i, .const, [0], .anyValue, false⟩,
  ⟨0x240101, 1, 4, 64, 1, 16, false, .rw, .s, .const, [2048], .range 64 2048, true⟩,
  ⟨0x240102, 1, 4, 64, 1, 16, false, .rw, .s, .const, [1536], .range 48 1536, true⟩,
  ⟨0x240103, 1, 4, 64, 1, 8, false, .rw, .s, .const, [8], .range 0 8, true⟩,
  ⟨0x240104, 1, 4, 64, 1, 8, false, .rw, .s, .const, [32], .range 0 32, true⟩,
  ⟨0x240105, 1, 4, 64, 1, 8, false, .rw, .s, .const, [0], .oneOf [0, 1], true⟩,
  ⟨0x240106, 1, 4, 64, 1, 8, false, .rw, .s, .const, [0], .oneOf [0, 1], true⟩,
  ⟨0x240107, 1, 4, 64, 1, 8, false, .rw, .s, .const, [16], .oneOf [1, 2, 4, 8, 16], true⟩,
  ⟨0x240108, 1, 4, 64, 1, 8, false, .rw, .s, .const, [2], .oneOf [1, 2], true⟩,
  ⟨0x240109, 1, 4, 64, 1, 8, false, .rw, .s, .const, [1], .oneOf [0, 1], true⟩,
  ⟨0x240201, 1, 4, 64, 1, 8, false, .rw, .s, .const, [8], .range 5 48, true⟩,
  ⟨0x240202, 1, 4, 64, 1, 8, false, .rw, .s, .const, [1], .range 1 8, true⟩,
  ⟨0x240203, 1, 4, 64, 1, 16, false, .rw, .s, .const, [323], .range 32 8192, true⟩,
  ⟨0x240204, 1, 4, 64, 1, 32, false, .rw, .f, .const, [500000], .range 0 0xE4E1C00, true⟩,
  ⟨0x240205, 1, 4, 64, 1, 16, false, .rw, .s, .const, [25], .anyValue, true⟩,
  ⟨0x240206, 1, 4, 64, 1, 16, false, .rw, .f, .const, [8], .anyValue, true⟩,
  ⟨0x240207, 1, 4, 64, 1, 16, false, .rw, .f, .const, [256], .anyValue, true⟩,
  ⟨0x240208, 1, 4, 64, 1, 8, false, .rw, .s, .const, [4], .anyValue, true⟩,
  ⟨0x240209, 1, 4, 64, 1, 16, false, .rw, .s, .const, [300], .anyValue, true⟩,
  ⟨0x24020A, 1, 4, 64, 1, 8, false, .rw, .s, .const, [0], .oneOf [0, 1], true⟩,
  ⟨0x24020B, 1, 4, 64, 1, 8, false, .rw, .s, .const, [0], .fields 15, true⟩,
  ⟨0x24020C, 1, 4, 64, 1, 8, false, .rw, .s, .const, [0], .oneOf [0, 1], true⟩,
  ⟨0x24020D, 1, 4, 64, 1, 32, false, .rw, .i, .const, [0], .counter, false⟩,
  ⟨0x24020E, 1, 4, 64, 1, 32, false, .rw, .i, .const, [0], .counter, false⟩,
  ⟨0x240301, 16, 4, 64, 1, 8, false, .rw, .f, .const, [0], .oneOf [0, 1, 2, 3], true⟩,
  ⟨0x240401, 16, 4, 64, 1, 32, true, .rw, .f, .const, [0], .range (-1250000) 1249390, true⟩,
  ⟨0x240500, 1, 4, 64, 1, 16, false, .rw, .s, .const, [65535], .anyValue, true⟩,
  ⟨0x240601, 16, 4, 64, 1, 8, false, .ro, .i, .const, [0], .anyValue, false⟩,
  ⟨0x240701, 16, 4, 64, 1, 32, false, .rw, .i, .const, [0], .counter, false⟩,
  ⟨0x240800, 1, 4, 64, 1, 8, false, .rw, .s, .const, [1], .bool, true⟩,
  ⟨0x240901, 16, 4, 64, 1, 32, true, .ro, .i, .const, [0], .anyValue, false⟩,
  ⟨0x241000, 1, 4, 64, 1, 8, false, .rw, .s, .const, [0], .anyValue, true⟩,
  ⟨0x241101, 8, 4, 64, 1, 16, false, .ro, .i, .const, [0], .anyValue, false⟩,
  ⟨0x241201, 8, 4, 64, 1, 16, false, .rw, .s, .const, [65535], .anyValue, true⟩,
  ⟨0x241300, 1, 4, 64, 1, 32, false, .rw, .i, .const, [1000], .range 10 100000, true⟩,
  ⟨0x241401, 8, 4, 64, 1, 32, true, .ro, .i, .const, [0], .anyValue, false⟩,
  ⟨0x241501, 8, 4, 64, 1, 32, true, .rw, .s, .const, [0], .range 0 20000, true⟩,
  ⟨0x241600, 1, 4, 64, 1, 32, false, .rw, .i, .const, [0], .counter, false⟩,
  ⟨0x241700, 1, 4, 64, 1, 64, false, .rw, .s, .const, [1000000], .range 0 0x5F5E100, true⟩,
  ⟨0x241800, 1, 4, 64, 1, 64, false, .rw, .s, .const, [10000000], .range 1000000 0x3B9ACA00, true⟩,
  ⟨0x241900, 1, 4, 64, 1, 32, true, .rw, .s, .const, [20000], .range 0 500000, true⟩,
  ⟨0x241A00, 1, 4, 64, 1, 32, true, .ro, .i, .const, [0], .anyValue, false⟩,
  ⟨0x241B00, 1, 4, 64, 1, 8, false, .ro, .i, .const, [0], .anyValue, false⟩,
  ⟨0x242000, 1, 4, 64, 1, 16, false, .rw, .s, .const, [20], .range 20 320, true⟩,
  ⟨0x242100, 1, 4, 64, 1, 8, false, .rw, .s, .const, [7], .range 4 16, true⟩,
  ⟨0x242200, 1, 4, 64, 1, 8, false, .rw, .s, .const, [16], .oneOf [8, 16, 24, 32], true⟩,
  ⟨0x242300, 1, 4, 64, 1, 64, false, .domain, .s, .const, [0], .anyValue, true⟩,
  ⟨0x242400, 1, 4, 64, 1, 64, false, .wo, .i, .const, [0], .command, false⟩,
  ⟨0x242500, 1, 4, 64, 1, 32, false, .ro, .i, .const, [0], .anyValue, false⟩,
  ⟨0x242600, 1, 4, 64, 1, 32, false, .ro, .i, .const, [0], .anyValue, false⟩,
  ⟨0x242701, 1, 4, 64, 1, 16, false, .rw, .s, .const, [0], .anyValue, true⟩,
  ⟨0x242702, 1, 4, 64, 1, 32, false, .rw, .s, .const, [0], .anyValue, true⟩,
  ⟨0x242703, 1, 4, 64, 1, 8, false, .rw, .s, .const, [0], .bool, true⟩] ++ [
  ⟨0x242800, 1, 4, 64, 1, 32, false, .rw, .i, .const, [0], .counter, false⟩,
  ⟨0x243000, 1, 4, 64, 1, 8, false, .rw, .s, .const, [0], .oneOf [0, 1], true⟩,
  ⟨0x243100, 1, 4, 64, 1, 8, false, .rw, .s, .const, [2], .oneOf [0, 1, 2], true⟩,
  ⟨0x243200, 1, 4, 64, 1, 32, true, .rw, .i, .const, [0], .anyValue, true⟩,
  ⟨0x243300, 1, 4, 64, 1, 8, false, .rw, .i, .const, [16], .range 8 20, true⟩,
  ⟨0x243401, 17, 4, 64, 1, 16, true, .rw, .i, .const, [0], .anyValue, true⟩,
  ⟨0x243500, 1, 4, 64, 1, 16, false, .rw, .s, .const, [0], .anyValue, true⟩,
  ⟨0x243600, 1, 4, 64, 1, 32, true, .ro, .i, .const, [0], .anyValue, false⟩,
  ⟨0x243700, 1, 4, 64, 1, 16, true, .ro, .i, .const, [0], .anyValue, false⟩,
  ⟨0x243800, 1, 4, 64, 1, 8, false, .ro, .i, .const, [0], .anyValue, false⟩]

/-- The rows of 2800 to 2BFF. -/
def rowsConversion : List Row :=
  [
  ⟨0x280001, 4, 1, 1, 1, 8, false, .ro, .i, .const, [2], .anyValue, false⟩,
  ⟨0x280101, 4, 1, 1, 1, 16, false, .ro, .i, .const, [65535], .anyValue, false⟩,
  ⟨0x280201, 4, 1, 1, 1, 32, false, .rw, .i, .const, [0], .counter, false⟩,
  ⟨0x281001, 34, 4, 1, 1, 8, false, .ro, .i, .sub, [0, 0, 0, 0, 0, 0, 0, 0, 0, 0, 0, 0, 0, 0, 0, 0, 0, 0, 0, 0, 0, 0, 0, 0, 0, 0, 0, 0, 0, 0, 0, 0, 1], .anyValue, false⟩,
  ⟨0x281401, 34, 4, 1, 1, 8, false, .ro, .i, .sub, [0, 1, 2, 3, 4, 5, 6, 7, 8, 9, 10, 11, 12, 13, 14, 15, 16, 17, 18, 19, 20, 21, 22, 23, 24, 25, 26, 27, 28, 29, 30, 31, 255], .anyValue, false⟩,
  ⟨0x281801, 34, 4, 1, 1, 16, true, .rw, .f, .const, [0], .range (-2048) 2047, true⟩,
  ⟨0x281C01, 34, 4, 1, 1, 16, false, .rw, .f, .const, [0x8000], .range 0x6000 0xA000, true⟩,
  ⟨0x282001, 34, 4, 1, 1, 16, false, .ro, .i, .const, [512], .anyValue, false⟩,
  ⟨0x282401, 34, 4, 1, 1, 16, false, .ro, .i, .const, [512], .anyValue, false⟩,
  ⟨0x282801, 34, 4, 1, 1, 32, false, .rw, .i, .const, [0], .counter, false⟩,
  ⟨0x282C01, 34, 4, 1, 1, 32, false, .rw, .i, .const, [0], .counter, false⟩,
  ⟨0x283001, 34, 4, 1, 1, 32, false, .rw, .i, .const, [0], .counter, false⟩,
  ⟨0x283401, 34, 4, 1, 1, 32, false, .rw, .i, .const, [0], .counter, false⟩,
  ⟨0x283801, 34, 4, 1, 1, 32, false, .rw, .i, .const, [0], .counter, false⟩,
  ⟨0x288000, 1, 1, 1, 1, 8, false, .rw, .i, .const, [16], .oneOf [1, 2, 4, 8, 16, 32, 64], true⟩,
  ⟨0x288100, 1, 1, 1, 1, 32, false, .rw, .i, .const, [4000], .oneOf [2000, 3000, 4000, 5000, 6000, 7000, 8000, 9000, 10000, 11000, 12000, 13000, 14000, 15000, 16000, 17000, 18000, 19000, 20000], true⟩,
  ⟨0x288200, 1, 1, 1, 1, 32, false, .ro, .i, .const, [0], .anyValue, false⟩,
  ⟨0x288300, 1, 1, 1, 1, 64, false, .ro, .i, .const, [0], .anyValue, false⟩,
  ⟨0x288401, 2, 1, 1, 1, 32, false, .ro, .i, .const, [0], .anyValue, false⟩,
  ⟨0x288500, 1, 1, 1, 1, 32, false, .rw, .i, .const, [0], .counter, false⟩,
  ⟨0x288601, 32, 1, 1, 1, 32, true, .ro, .i, .const, [0], .anyValue, false⟩,
  ⟨0x288700, 1, 1, 1, 1, 32, false, .ro, .i, .const, [0], .anyValue, false⟩,
  ⟨0x288801, 11, 1, 1, 1, 32, true, .ro, .i, .const, [0], .anyValue, false⟩,
  ⟨0x288901, 8, 1, 1, 1, 32, true, .ro, .i, .const, [0], .anyValue, false⟩,
  ⟨0x289000, 1, 1, 1, 1, 16, false, .wo, .i, .const, [0], .command, false⟩,
  ⟨0x289100, 1, 1, 1, 1, 32, true, .ro, .i, .const, [0], .anyValue, false⟩,
  ⟨0x289200, 1, 1, 1, 1, 32, false, .ro, .i, .const, [0], .anyValue, false⟩,
  ⟨0x289300, 1, 1, 1, 1, 32, false, .rw, .i, .const, [0], .counter, false⟩,
  ⟨0x289400, 1, 1, 1, 1, 64, false, .ro, .i, .const, [0], .anyValue, false⟩]

/-- The rows of 2C00 to 2FFF. -/
def rowsThermal : List Row :=
  [
  ⟨0x2C0001, 17, 1, 1, 1, 16, true, .ro, .i, .const, [0], .anyValue, false⟩,
  ⟨0x2C0101, 17, 1, 1, 1, 8, false, .ro, .i, .const, [1], .anyValue, false⟩,
  ⟨0x2C0201, 17, 1, 1, 1, 16, true, .ro, .i, .const, [0], .anyValue, false⟩,
  ⟨0x2C0301, 17, 1, 1, 1, 16, true, .rw, .i, .sub, [7680, 7680, 7680, 7680, 7680, 7680, 7680, 7680, 7680, 7680, 7680, 5120, 5120, 5120, 5120, 5440], .anyValue, true⟩,
  ⟨0x2C0401, 17, 1, 1, 1, 16, false, .rw, .i, .sub, [320, 320, 320, 320, 320, 320, 320, 320, 320, 320, 320, 128, 128, 128, 128, 0], .anyValue, true⟩,
  ⟨0x2C0500, 1, 1, 1, 1, 64, false, .ro, .i, .const, [0], .anyValue, false⟩,
  ⟨0x2C0601, 2, 1, 1, 1, 32, true, .rw, .i, .const, [0], .anyValue, true⟩,
  ⟨0x2C0701, 2, 1, 1, 1, 8, false, .rw, .i, .const, [16], .range 8 20, true⟩,
  ⟨0x2C0801, 17, 1, 1, 1, 16, true, .rw, .i, .const, [0], .anyValue, true⟩,
  ⟨0x2C0901, 17, 1, 1, 1, 16, true, .rw, .i, .const, [0], .anyValue, true⟩,
  ⟨0x2C0A00, 1, 1, 1, 1, 8, false, .rw, .i, .const, [0], .fields 3, true⟩,
  ⟨0x2C0B01, 13, 1, 1, 1, 32, true, .ro, .i, .const, [600000], .anyValue, false⟩,
  ⟨0x2C0C01, 13, 1, 1, 1, 32, true, .ro, .i, .const, [(-2330)], .anyValue, false⟩,
  ⟨0x2C1001, 2, 1, 1, 1, 8, false, .ro, .i, .const, [0], .anyValue, false⟩,
  ⟨0x2C1101, 3, 1, 1, 1, 16, true, .rw, .i, .sub, [5440, 6080, 6720], .anyValue, true⟩,
  ⟨0x2C1201, 4, 1, 1, 1, 8, false, .rw, .i, .sub, [1, 2, 4, 4], .oneOf [1, 2, 4], true⟩,
  ⟨0x2C1301, 2, 1, 1, 1, 8, false, .ro, .i, .const, [1], .anyValue, false⟩,
  ⟨0x2C1401, 2, 1, 1, 1, 32, false, .rw, .i, .const, [0], .counter, false⟩,
  ⟨0x2C2000, 1, 1, 1, 1, 8, false, .ro, .i, .const, [0], .anyValue, false⟩,
  ⟨0x2C2101, 4, 1, 1, 1, 16, true, .rw, .i, .sub, [7360, 8000, 8448, 8832], .anyValue, true⟩,
  ⟨0x2C2200, 1, 1, 1, 1, 16, false, .rw, .i, .const, [192], .range 64 1280, true⟩,
  ⟨0x2C2300, 1, 1, 1, 1, 64, false, .rw, .i, .const, [0x3B9ACA00], .range 0x5F5E100 0xDF8475800, true⟩,
  ⟨0x2C2400, 1, 1, 1, 1, 8, false, .rw, .i, .const, [0], .range 0 3, true⟩,
  ⟨0x2C2500, 1, 1, 1, 1, 16, true, .ro, .i, .const, [0], .anyValue, false⟩,
  ⟨0x2C2600, 1, 1, 1, 1, 16, false, .rw, .i, .const, [640], .range 0 2560, true⟩,
  ⟨0x2C2701, 4, 1, 1, 1, 32, false, .rw, .i, .const, [0], .counter, false⟩,
  ⟨0x2C2800, 1, 1, 1, 1, 8, false, .rw, .i, .const, [0], .range 0 4, true⟩,
  ⟨0x2C2900, 1, 1, 1, 1, 16, false, .rw, .i, .const, [1280], .range 320 3200, true⟩,
  ⟨0x2C2A00, 1, 1, 1, 1, 16, true, .rw, .i, .const, [9600], .range 8320 9600, true⟩,
  ⟨0x2C2B00, 1, 1, 1, 1, 16, false, .rw, .i, .const, [1280], .range 320 2560, true⟩,
  ⟨0x2C2C00, 1, 1, 1, 1, 32, false, .rw, .i, .const, [0], .counter, false⟩,
  ⟨0x2C2D00, 1, 1, 1, 1, 64, false, .ro, .i, .const, [0], .anyValue, false⟩,
  ⟨0x2C2E00, 1, 1, 1, 1, 16, true, .rw, .i, .const, [6400], .anyValue, true⟩,
  ⟨0x2C4001, 1, 4, 1, 1, 8, false, .rw, .f, .const, [1], .range 1 16, true⟩,
  ⟨0x2C4002, 1, 4, 1, 1, 16, false, .rw, .f, .const, [32], .range 0 640, true⟩,
  ⟨0x2C4003, 1, 4, 1, 1, 8, false, .ro, .i, .const, [0], .anyValue, false⟩,
  ⟨0x2C4004, 1, 4, 1, 1, 8, false, .rw, .f, .const, [255], .oneOf [0, 1, 2, 3, 4, 5, 6, 7, 8, 9, 10, 11, 12, 13, 14, 15, 255], true⟩,
  ⟨0x2C4005, 1, 4, 1, 1, 32, false, .rw, .i, .const, [0], .counter, false⟩,
  ⟨0x2C4006, 1, 4, 1, 1, 32, false, .rw, .i, .const, [0], .counter, false⟩,
  ⟨0x2C4007, 1, 4, 1, 1, 64, false, .ro, .i, .const, [0], .anyValue, false⟩,
  ⟨0x2C8001, 1, 64, 1, 1, 16, true, .rw, .f, .const, [0], .anyValue, true⟩,
  ⟨0x2C8002, 1, 64, 1, 1, 16, false, .rw, .f, .const, [240], .range 1 8192, true⟩,
  ⟨0x2C8003, 1, 64, 1, 1, 16, false, .rw, .f, .const, [8], .range 1 8192, true⟩,
  ⟨0x2C8004, 8, 64, 1, 1, 16, false, .rw, .f, .const, [0], .anyValue, true⟩,
  ⟨0x2C800C, 1, 64, 1, 1, 8, false, .rw, .f, .const, [0], .anyValue, true⟩,
  ⟨0x2C800D, 1, 64, 1, 1, 16, true, .rw, .f, .const, [1600], .anyValue, true⟩,
  ⟨0x2C800E, 1, 64, 1, 1, 16, false, .rw, .f, .const, [7680], .range 256 65535, true⟩,
  ⟨0x2C800F, 1, 64, 1, 1, 8, false, .rw, .f, .const, [0], .range 0 15, true⟩,
  ⟨0x2C8010, 1, 64, 1, 1, 8, false, .rw, .f, .const, [0], .range 0 3, true⟩,
  ⟨0x2E0000, 1, 1, 1, 1, 32, true, .rw, .i, .const, [2500000], .range 1800000 3000000, true⟩,
  ⟨0x2E0100, 1, 1, 1, 1, 8, false, .ro, .i, .const, [0], .anyValue, false⟩,
  ⟨0x2E0200, 1, 1, 1, 1, 16, false, .rw, .i, .const, [192], .range 32 1280, true⟩,
  ⟨0x2E0300, 1, 1, 1, 1, 8, false, .wo, .i, .const, [0], .command, false⟩,
  ⟨0x2E0400, 1, 1, 1, 1, 8, false, .wo, .i, .const, [0], .command, false⟩,
  ⟨0x2E0500, 1, 1, 1, 1, 8, false, .ro, .i, .const, [0], .anyValue, false⟩,
  ⟨0x2E0600, 1, 1, 1, 1, 32, false, .rw, .i, .const, [0], .counter, false⟩,
  ⟨0x2E0700, 1, 1, 1, 1, 64, false, .ro, .i, .const, [0], .anyValue, false⟩,
  ⟨0x2E0800, 1, 1, 1, 1, 16, true, .ro, .i, .const, [0], .anyValue, false⟩,
  ⟨0x2E0900, 1, 1, 1, 1, 8, false, .rw, .i, .const, [1], .bool, true⟩,
  ⟨0x2E0A00, 1, 1, 1, 1, 32, false, .rw, .i, .const, [0], .counter, false⟩] ++ [
  ⟨0x2E1001, 34, 4, 1, 1, 32, false, .rw, .i, .const, [0], .counter, false⟩,
  ⟨0x2E1401, 34, 4, 1, 1, 64, false, .ro, .i, .const, [0], .anyValue, false⟩,
  ⟨0x2E1801, 16, 4, 1, 1, 32, false, .rw, .i, .const, [0], .counter, false⟩,
  ⟨0x2E1C01, 16, 4, 1, 1, 64, false, .ro, .i, .const, [0], .anyValue, false⟩,
  ⟨0x2E2001, 8, 4, 1, 1, 32, false, .rw, .i, .const, [0], .counter, false⟩,
  ⟨0x2E2401, 8, 4, 1, 1, 64, false, .ro, .i, .const, [0], .anyValue, false⟩,
  ⟨0x2E2801, 8, 4, 1, 1, 32, true, .ro, .i, .const, [0], .anyValue, false⟩,
  ⟨0x2E2C01, 2, 1, 1, 1, 32, false, .rw, .i, .const, [0], .counter, false⟩,
  ⟨0x2E2D01, 2, 1, 1, 1, 64, false, .ro, .i, .const, [0], .anyValue, false⟩,
  ⟨0x2E2E01, 2, 1, 1, 1, 32, true, .ro, .i, .const, [0], .anyValue, false⟩,
  ⟨0x2E2F01, 2, 1, 1, 1, 16, false, .ro, .i, .const, [512], .anyValue, false⟩,
  ⟨0x2E3801, 8, 4, 1, 1, 16, false, .ro, .i, .const, [512], .anyValue, false⟩,
  ⟨0x2E3C01, 16, 4, 1, 1, 16, false, .ro, .i, .const, [2048], .anyValue, false⟩]

/-- The rows of 3000 to 33FF. -/
def rowsNuc : List Row :=
  [
  ⟨0x300001, 1, 6, 64, 1, 8, false, .rw, .f, .const, [0], .oneOf [0, 1], true⟩,
  ⟨0x300002, 1, 6, 64, 1, 8, false, .ro, .i, .const, [0], .anyValue, false⟩,
  ⟨0x300003, 1, 6, 64, 1, 32, false, .rw, .i, .const, [0], .counter, false⟩,
  ⟨0x300100, 1, 6, 64, 1, 64, false, .domain, .f, .const, [0], .anyValue, false⟩,
  ⟨0x300200, 1, 6, 64, 1, 64, false, .domain, .f, .const, [0], .anyValue, false⟩,
  ⟨0x300401, 1, 6, 64, 1, 8, false, .rw, .f, .const, [0], .bool, true⟩,
  ⟨0x300402, 1, 6, 64, 1, 16, true, .ro, .i, .const, [0], .anyValue, false⟩,
  ⟨0x300403, 1, 6, 64, 1, 16, true, .ro, .i, .const, [0], .anyValue, false⟩,
  ⟨0x300404, 1, 6, 64, 1, 16, true, .ro, .i, .const, [0], .anyValue, false⟩,
  ⟨0x300405, 1, 6, 64, 1, 32, false, .rw, .i, .const, [0], .counter, false⟩,
  ⟨0x300406, 1, 6, 64, 1, 32, false, .rw, .i, .const, [0], .counter, false⟩,
  ⟨0x300407, 1, 6, 64, 1, 17, false, .ro, .i, .const, [2185], .anyValue, false⟩,
  ⟨0x300408, 1, 6, 64, 1, 32, false, .rw, .i, .const, [0], .counter, false⟩,
  ⟨0x310501, 1, 2, 64, 1, 8, false, .rw, .f, .const, [0], .anyValue, true⟩,
  ⟨0x310502, 1, 2, 64, 1, 16, true, .rw, .f, .const, [1600], .anyValue, true⟩,
  ⟨0x310503, 1, 2, 64, 1, 16, true, .rw, .f, .const, [1600], .anyValue, true⟩,
  ⟨0x300801, 1, 6, 64, 1, 8, false, .rw, .f, .const, [0], .bool, true⟩,
  ⟨0x300802, 1, 6, 64, 1, 8, false, .rw, .f, .const, [0], .bool, true⟩,
  ⟨0x300803, 1, 6, 64, 1, 8, false, .rw, .f, .const, [8], .range 1 32, true⟩,
  ⟨0x300804, 1, 6, 64, 1, 32, false, .ro, .i, .const, [0], .anyValue, false⟩,
  ⟨0x300805, 1, 6, 64, 1, 32, false, .ro, .i, .const, [0], .anyValue, false⟩,
  ⟨0x300806, 1, 6, 64, 1, 32, false, .rw, .i, .const, [0], .counter, false⟩,
  ⟨0x300807, 1, 6, 64, 1, 32, false, .rw, .i, .const, [0], .counter, false⟩,
  ⟨0x300808, 1, 6, 64, 1, 32, false, .rw, .i, .const, [0], .counter, false⟩,
  ⟨0x301201, 1, 4, 64, 1, 8, false, .rw, .f, .const, [0], .oneOf [0, 1, 2], true⟩,
  ⟨0x301202, 1, 4, 64, 1, 8, false, .rw, .f, .const, [12], .range 8 14, true⟩,
  ⟨0x301203, 1, 4, 64, 1, 16, false, .ro, .i, .const, [7680], .anyValue, false⟩,
  ⟨0x301204, 1, 4, 64, 1, 16, false, .rw, .f, .const, [56000], .anyValue, true⟩,
  ⟨0x301205, 1, 4, 64, 1, 32, false, .rw, .i, .const, [0], .counter, false⟩,
  ⟨0x301206, 1, 4, 64, 1, 32, false, .ro, .i, .const, [0], .anyValue, false⟩,
  ⟨0x301207, 1, 4, 64, 1, 32, false, .ro, .i, .const, [0], .anyValue, false⟩,
  ⟨0x301208, 1, 4, 64, 1, 32, false, .rw, .i, .const, [0], .counter, false⟩,
  ⟨0x318001, 1, 1, 1, 1, 8, false, .ro, .i, .const, [15], .anyValue, false⟩,
  ⟨0x318002, 1, 1, 1, 1, 32, false, .rw, .i, .const, [0], .counter, false⟩,
  ⟨0x318003, 1, 1, 1, 1, 64, false, .ro, .i, .const, [0], .anyValue, false⟩]

/-- The rows of 3400 to 36FF. -/
def rowsSolstice : List Row :=
  [
  ⟨0x340001, 1, 4, 16, 1, 8, false, .rw, .s, .const, [0], .oneOf [0, 1, 2, 3], true⟩,
  ⟨0x340002, 1, 4, 16, 1, 8, false, .rw, .i, .const, [16], .range 4 64, true⟩,
  ⟨0x340003, 1, 4, 16, 1, 8, false, .rw, .i, .const, [3], .range 1 30, true⟩,
  ⟨0x340004, 1, 4, 16, 1, 8, false, .rw, .i, .const, [2], .range 0 30, true⟩,
  ⟨0x340005, 1, 4, 16, 1, 8, false, .rw, .i, .const, [3], .range 1 30, true⟩,
  ⟨0x340006, 1, 4, 16, 1, 16, false, .rw, .i, .const, [64], .range 16 1280, true⟩,
  ⟨0x340007, 1, 4, 16, 1, 64, false, .rw, .i, .const, [0x1A3185C5000], .rangeOr 0 0xDF8475800 0x4E94914F0000, true⟩,
  ⟨0x340008, 1, 4, 16, 1, 64, false, .rw, .i, .const, [0xDF8475800], .range 0x3B9ACA00 0x34630B8A000, true⟩,
  ⟨0x340009, 1, 4, 16, 1, 8, false, .rw, .i, .const, [0], .bool, true⟩,
  ⟨0x34000A, 1, 4, 16, 1, 8, false, .wo, .i, .const, [0], .command, false⟩,
  ⟨0x340101, 1, 4, 16, 1, 8, false, .ro, .i, .const, [0], .anyValue, false⟩,
  ⟨0x340102, 1, 4, 16, 1, 8, false, .ro, .i, .const, [0], .anyValue, false⟩,
  ⟨0x340103, 1, 4, 16, 1, 8, false, .ro, .i, .const, [0], .anyValue, false⟩,
  ⟨0x340104, 1, 4, 16, 1, 32, false, .ro, .i, .const, [0], .anyValue, false⟩,
  ⟨0x340105, 1, 4, 16, 1, 64, false, .ro, .i, .const, [0], .anyValue, false⟩,
  ⟨0x340106, 1, 4, 16, 1, 32, false, .rw, .i, .const, [0], .counter, false⟩,
  ⟨0x340107, 1, 4, 16, 1, 8, false, .ro, .i, .const, [0], .anyValue, false⟩,
  ⟨0x340108, 1, 4, 16, 1, 32, false, .rw, .i, .const, [0], .counter, false⟩,
  ⟨0x340109, 1, 4, 16, 1, 32, false, .ro, .i, .const, [0], .anyValue, false⟩,
  ⟨0x34010A, 1, 4, 16, 1, 32, true, .ro, .i, .const, [0], .anyValue, false⟩,
  ⟨0x34010B, 1, 4, 16, 1, 32, false, .ro, .i, .const, [0], .anyValue, false⟩,
  ⟨0x34010C, 1, 4, 16, 1, 32, false, .ro, .i, .const, [0], .anyValue, false⟩,
  ⟨0x34010D, 1, 4, 16, 1, 32, false, .rw, .i, .const, [0], .counter, false⟩,
  ⟨0x348001, 1, 4, 16, 1, 8, false, .rw, .f, .const, [1], .bool, true⟩,
  ⟨0x348002, 1, 4, 16, 1, 8, false, .rw, .f, .const, [4], .range 0 8, true⟩,
  ⟨0x348003, 1, 4, 16, 1, 32, false, .rw, .i, .const, [0], .counter, false⟩,
  ⟨0x348004, 1, 4, 16, 1, 32, false, .ro, .i, .const, [0], .anyValue, false⟩,
  ⟨0x348005, 1, 4, 16, 1, 32, false, .ro, .i, .const, [0], .anyValue, false⟩,
  ⟨0x348006, 1, 4, 16, 1, 32, false, .rw, .i, .const, [0], .counter, false⟩,
  ⟨0x348007, 1, 4, 16, 1, 32, true, .ro, .i, .const, [0], .anyValue, false⟩,
  ⟨0x348100, 1, 4, 16, 1, 64, false, .domain, .i, .const, [0], .anyValue, false⟩,
  ⟨0x350001, 1, 1, 1, 1, 32, false, .ro, .i, .const, [0], .anyValue, false⟩,
  ⟨0x350002, 1, 1, 1, 1, 64, false, .wo, .i, .const, [0], .command, false⟩,
  ⟨0x350003, 1, 1, 1, 1, 32, false, .ro, .i, .const, [0], .anyValue, false⟩,
  ⟨0x350004, 1, 1, 1, 1, 8, false, .wo, .i, .const, [0], .command, false⟩,
  ⟨0x350005, 1, 1, 1, 1, 8, false, .wo, .i, .const, [0], .command, false⟩,
  ⟨0x350006, 1, 1, 1, 1, 32, false, .rw, .i, .const, [0], .counter, false⟩,
  ⟨0x350007, 1, 1, 1, 1, 8, false, .wo, .i, .const, [0], .command, false⟩,
  ⟨0x350008, 1, 1, 1, 1, 32, false, .ro, .i, .const, [0], .anyValue, false⟩,
  ⟨0x350009, 1, 1, 1, 1, 8, false, .rw, .i, .const, [1], .bool, true⟩,
  ⟨0x35000A, 1, 1, 1, 1, 8, false, .rw, .i, .const, [15], .range 0 15, true⟩,
  ⟨0x35000B, 1, 1, 1, 1, 64, false, .rw, .i, .const, [0], .aligned 4096 [], true⟩,
  ⟨0x35000C, 1, 1, 1, 1, 32, false, .rw, .i, .const, [0], .counter, false⟩,
  ⟨0x354001, 1, 32, 1, 1, 8, false, .ro, .i, .const, [0], .anyValue, false⟩,
  ⟨0x354002, 1, 32, 1, 1, 8, false, .rw, .i, .inst, [0, 1, 2, 3, 255], .oneOf [0, 1, 2, 3, 255], true⟩,
  ⟨0x354003, 1, 32, 1, 1, 32, false, .rw, .i, .inst, [0, 0x4000000, 0x8000000, 0xC000000, 4294967295], .aligned 0x10000 [4294967295], true⟩,
  ⟨0x354004, 1, 32, 1, 1, 8, false, .rw, .i, .inst, [1, 1, 1, 1, 0], .bool, true⟩,
  ⟨0x354005, 1, 32, 1, 1, 64, false, .ro, .i, .const, [0], .anyValue, false⟩,
  ⟨0x354006, 1, 32, 1, 1, 32, false, .ro, .i, .const, [0], .anyValue, false⟩,
  ⟨0x354007, 1, 32, 1, 1, 16, true, .ro, .i, .const, [0], .anyValue, false⟩,
  ⟨0x354008, 1, 32, 1, 1, 64, false, .ro, .i, .const, [0], .anyValue, false⟩,
  ⟨0x354009, 1, 32, 1, 1, 8, false, .ro, .i, .const, [0], .bool, false⟩,
  ⟨0x35400A, 1, 32, 1, 1, 32, false, .ro, .i, .const, [0], .anyValue, false⟩,
  ⟨0x35400B, 1, 32, 1, 1, 8, false, .ro, .i, .const, [0], .bool, false⟩,
  ⟨0x35400C, 1, 32, 1, 1, 64, false, .domain, .i, .const, [0], .anyValue, false⟩,
  ⟨0x35400D, 1, 32, 1, 1, 64, false, .domain, .i, .const, [0], .anyValue, false⟩]

/-- The rows of 3700 to 37FF. -/
def rowsActuators : List Row :=
  [
  ⟨0x370001, 1, 1, 1, 1, 8, false, .ro, .i, .const, [0], .anyValue, false⟩,
  ⟨0x370002, 1, 1, 1, 1, 32, false, .ro, .i, .const, [0], .anyValue, false⟩,
  ⟨0x370003, 1, 1, 1, 1, 32, false, .rw, .i, .const, [0], .counter, false⟩,
  ⟨0x370401, 1, 2, 1, 1, 8, false, .rw, .s, .const, [0], .range 0 3, true⟩,
  ⟨0x370402, 1, 2, 1, 1, 8, false, .rw, .i, .const, [0], .oneOf [0, 1], true⟩,
  ⟨0x370403, 1, 2, 1, 1, 8, false, .ro, .i, .const, [0], .anyValue, false⟩,
  ⟨0x370404, 1, 2, 1, 1, 8, false, .rw, .s, .const, [3], .fields 3, true⟩,
  ⟨0x370405, 1, 2, 1, 1, 8, false, .wo, .i, .const, [0], .command, false⟩,
  ⟨0x370406, 1, 2, 1, 1, 8, false, .ro, .i, .const, [0], .anyValue, false⟩,
  ⟨0x370407, 1, 2, 1, 1, 8, false, .rw, .i, .const, [2], .oneOf [0, 1, 2], true⟩,
  ⟨0x370408, 1, 2, 1, 1, 8, false, .ro, .i, .const, [0], .anyValue, false⟩,
  ⟨0x370409, 1, 2, 1, 1, 32, false, .rw, .i, .const, [0], .counter, false⟩,
  ⟨0x37040A, 1, 2, 1, 1, 8, false, .wo, .i, .const, [0], .command, false⟩,
  ⟨0x371001, 1, 4, 1, 1, 32, true, .rw, .i, .const, [2000000], .range 100000 0x3D0900, true⟩,
  ⟨0x371002, 1, 4, 1, 1, 32, true, .rw, .i, .const, [1000000], .range 0 2000000, true⟩,
  ⟨0x371003, 1, 4, 1, 1, 64, false, .rw, .i, .const, [25000000], .range 0 0x34630B8A000, true⟩,
  ⟨0x371004, 1, 4, 1, 1, 32, false, .rw, .i, .const, [25000], .range 20000 50000, true⟩,
  ⟨0x371005, 1, 4, 1, 1, 64, false, .rw, .i, .const, [10000000], .range 100000 0x5F5E100, true⟩,
  ⟨0x371006, 1, 4, 1, 1, 64, false, .rw, .i, .const, [300000], .anyValue, true⟩,
  ⟨0x371007, 1, 4, 1, 1, 64, false, .rw, .i, .const, [3000000], .anyValue, true⟩,
  ⟨0x371008, 1, 4, 1, 1, 8, false, .rw, .i, .const, [0], .bool, true⟩,
  ⟨0x371009, 1, 4, 1, 1, 32, true, .rw, .i, .const, [50000], .range 20000 1000000, true⟩,
  ⟨0x37100A, 1, 4, 1, 1, 64, false, .rw, .i, .const, [5000000], .range 100000 50000000, true⟩,
  ⟨0x37100B, 1, 4, 1, 1, 64, false, .rw, .i, .const, [5000000], .range 0 0x2540BE400, true⟩,
  ⟨0x372001, 1, 4, 1, 1, 8, false, .wo, .i, .const, [0], .command, false⟩,
  ⟨0x372002, 1, 4, 1, 1, 8, false, .ro, .i, .const, [0], .anyValue, false⟩,
  ⟨0x372003, 1, 4, 1, 1, 8, false, .ro, .i, .const, [0], .anyValue, false⟩,
  ⟨0x372004, 1, 4, 1, 1, 64, false, .ro, .i, .const, [0], .anyValue, false⟩,
  ⟨0x372005, 1, 4, 1, 1, 64, false, .ro, .i, .const, [0], .anyValue, false⟩,
  ⟨0x372006, 1, 4, 1, 1, 64, false, .ro, .i, .const, [0], .anyValue, false⟩,
  ⟨0x372007, 1, 4, 1, 1, 32, true, .ro, .i, .const, [0], .anyValue, false⟩,
  ⟨0x372008, 1, 4, 1, 1, 32, false, .ro, .i, .const, [0], .anyValue, false⟩,
  ⟨0x372009, 1, 4, 1, 1, 64, false, .ro, .i, .const, [0], .anyValue, false⟩,
  ⟨0x37200A, 1, 4, 1, 1, 32, true, .ro, .i, .const, [0], .anyValue, false⟩,
  ⟨0x373001, 1, 4, 1, 1, 32, false, .ro, .i, .const, [0], .anyValue, false⟩,
  ⟨0x373002, 1, 4, 1, 1, 32, false, .rw, .i, .const, [0], .counter, false⟩,
  ⟨0x373003, 1, 4, 1, 1, 32, false, .rw, .i, .const, [0], .counter, false⟩,
  ⟨0x373004, 1, 4, 1, 1, 32, false, .rw, .i, .const, [0], .counter, false⟩]

/-- The rows of 3800 to 3BFF. -/
def rowsNoise : List Row :=
  [
  ⟨0x380001, 1, 6, 64, 1, 8, false, .rw, .f, .const, [1], .bool, true⟩,
  ⟨0x380002, 1, 6, 64, 1, 8, false, .rw, .f, .const, [8], .range 0 16, true⟩,
  ⟨0x380003, 1, 6, 64, 1, 8, false, .rw, .f, .const, [12], .range 1 16, true⟩,
  ⟨0x380004, 1, 6, 64, 1, 8, false, .rw, .f, .const, [1], .bool, true⟩,
  ⟨0x380005, 1, 6, 64, 1, 8, false, .wo, .i, .const, [0], .command, false⟩,
  ⟨0x380006, 1, 6, 64, 1, 32, false, .rw, .i, .const, [0], .counter, false⟩,
  ⟨0x380007, 1, 6, 64, 1, 32, false, .ro, .i, .const, [0], .anyValue, false⟩,
  ⟨0x380008, 1, 6, 64, 1, 32, false, .rw, .i, .const, [0], .counter, false⟩,
  ⟨0x380101, 16, 6, 64, 1, 16, false, .rw, .f, .sub, [16, 16, 24, 32, 48, 64, 96, 128, 192, 256, 256, 256, 256, 256, 256, 256], .range 8 256, true⟩,
  ⟨0x380200, 1, 6, 64, 1, 64, false, .domain, .i, .const, [0], .anyValue, false⟩,
  ⟨0x380801, 1, 6, 64, 1, 8, false, .rw, .f, .const, [1], .bool, true⟩,
  ⟨0x380802, 1, 6, 64, 1, 8, false, .rw, .f, .const, [8], .range 0 16, true⟩,
  ⟨0x380803, 1, 6, 64, 1, 32, false, .rw, .i, .const, [0], .counter, false⟩,
  ⟨0x380901, 6, 6, 64, 1, 8, false, .rw, .f, .sub, [64, 48, 36, 20, 15, 6], .custom, true⟩,
  ⟨0x380A01, 32, 6, 64, 1, 8, false, .rw, .f, .sub, [255, 240, 200, 150, 100, 60, 30, 12, 0], .custom, true⟩,
  ⟨0x381001, 1, 6, 64, 1, 8, false, .rw, .f, .const, [0], .oneOf [0, 1], true⟩,
  ⟨0x381002, 1, 6, 64, 1, 8, false, .rw, .f, .const, [0], .oneOf [0, 1], true⟩,
  ⟨0x381003, 1, 6, 64, 1, 8, false, .ro, .i, .const, [0], .anyValue, false⟩,
  ⟨0x381004, 1, 6, 64, 1, 32, true, .rw, .f, .const, [0], .anyValue, true⟩,
  ⟨0x381005, 1, 6, 64, 1, 8, false, .rw, .f, .const, [4], .range 0 10, true⟩,
  ⟨0x381006, 1, 6, 64, 1, 32, true, .rw, .f, .const, [0], .anyValue, true⟩,
  ⟨0x381007, 1, 6, 64, 1, 8, false, .rw, .f, .const, [8], .range 0 16, true⟩,
  ⟨0x381008, 1, 6, 64, 1, 32, false, .rw, .i, .const, [0], .counter, false⟩,
  ⟨0x381009, 1, 6, 64, 1, 32, false, .rw, .i, .const, [0], .counter, false⟩,
  ⟨0x38100A, 1, 6, 64, 1, 32, false, .ro, .i, .const, [0], .anyValue, false⟩,
  ⟨0x38100B, 1, 6, 64, 1, 32, false, .ro, .i, .const, [0], .anyValue, false⟩,
  ⟨0x39100C, 1, 2, 64, 1, 8, false, .rw, .f, .const, [0], .range 0 15, true⟩,
  ⟨0x38100D, 1, 6, 64, 1, 8, false, .ro, .i, .const, [0], .anyValue, false⟩,
  ⟨0x381100, 1, 6, 64, 1, 64, false, .domain, .f, .const, [0], .anyValue, false⟩,
  ⟨0x381200, 1, 6, 64, 1, 64, false, .domain, .f, .const, [0], .anyValue, false⟩,
  ⟨0x381300, 1, 6, 64, 1, 64, false, .domain, .f, .const, [0], .anyValue, false⟩,
  ⟨0x381400, 1, 6, 64, 1, 64, false, .domain, .f, .const, [0], .anyValue, false⟩,
  ⟨0x381801, 16, 6, 64, 1, 24, false, .rw, .f, .const, [0x10000], .anyValue, true⟩,
  ⟨0x381901, 16, 6, 64, 1, 32, true, .rw, .f, .const, [0], .anyValue, true⟩,
  ⟨0x382001, 1, 6, 64, 1, 16, false, .rw, .f, .const, [0x8000], .range 328 0x8000, true⟩,
  ⟨0x382002, 1, 6, 64, 1, 16, false, .rw, .f, .const, [0x8000], .range 328 0x8000, true⟩,
  ⟨0x382003, 1, 6, 64, 1, 16, true, .rw, .f, .const, [1600], .anyValue, true⟩,
  ⟨0x382004, 1, 6, 64, 1, 16, true, .rw, .f, .const, [1600], .anyValue, true⟩,
  ⟨0x382005, 1, 6, 64, 1, 32, true, .ro, .i, .const, [0], .anyValue, false⟩,
  ⟨0x382006, 1, 6, 64, 1, 32, false, .ro, .i, .const, [0], .anyValue, false⟩,
  ⟨0x382101, 1, 6, 64, 16, 8, false, .rw, .f, .const, [0], .bool, true⟩,
  ⟨0x382102, 1, 6, 64, 16, 16, false, .rw, .f, .const, [0x8000], .range 328 0x8000, true⟩,
  ⟨0x382103, 1, 6, 64, 16, 16, false, .rw, .f, .const, [0x8000], .range 328 0x8000, true⟩,
  ⟨0x382104, 1, 6, 64, 16, 16, true, .rw, .f, .const, [1600], .anyValue, true⟩,
  ⟨0x382105, 1, 6, 64, 16, 16, true, .rw, .f, .const, [1600], .anyValue, true⟩,
  ⟨0x382106, 1, 6, 64, 16, 32, true, .ro, .i, .const, [0], .anyValue, false⟩,
  ⟨0x382107, 1, 6, 64, 16, 32, false, .ro, .i, .const, [0], .anyValue, false⟩]

/-- The rows of 3C00 to 3DFF. -/
def rowsReceivers : List Row :=
  [
  ⟨0x3C0001, 1, 2, 16, 1, 8, false, .rw, .s, .const, [4], .range 1 4, true⟩,
  ⟨0x3C0002, 1, 2, 16, 1, 32, false, .rw, .s, .const, [2500], .range 80 2500, true⟩,
  ⟨0x3C0003, 1, 2, 16, 1, 8, false, .rw, .s, .const, [0], .oneOf [0, 1], true⟩,
  ⟨0x3C0004, 1, 2, 16, 1, 8, false, .rw, .s, .const, [0], .fields 31, true⟩,
  ⟨0x3C0005, 1, 2, 16, 1, 8, false, .rw, .i, .const, [0], .oneOf [0, 1], true⟩,
  ⟨0x3C0006, 1, 2, 16, 1, 8, false, .ro, .i, .const, [0], .anyValue, false⟩,
  ⟨0x3C0101, 1, 2, 16, 1, 32, false, .rw, .i, .const, [0], .counter, false⟩,
  ⟨0x3C0102, 1, 2, 16, 1, 32, false, .rw, .i, .const, [0], .counter, false⟩,
  ⟨0x3C0103, 1, 2, 16, 1, 32, false, .rw, .i, .const, [0], .counter, false⟩,
  ⟨0x3C0104, 1, 2, 16, 1, 32, false, .rw, .i, .const, [0], .counter, false⟩,
  ⟨0x3C0105, 1, 2, 16, 1, 32, false, .rw, .i, .const, [0], .counter, false⟩,
  ⟨0x3C0106, 1, 2, 16, 1, 32, false, .rw, .i, .const, [0], .counter, false⟩,
  ⟨0x3C0107, 1, 2, 16, 1, 32, false, .rw, .i, .const, [0], .counter, false⟩,
  ⟨0x3C0201, 4, 2, 16, 1, 32, false, .rw, .i, .const, [0], .counter, false⟩,
  ⟨0x3C4001, 1, 2, 16, 1, 8, false, .rw, .i, .const, [0], .oneOf [0, 1], true⟩,
  ⟨0x3C4002, 1, 2, 16, 1, 8, false, .ro, .i, .const, [0], .anyValue, false⟩,
  ⟨0x3C4003, 1, 2, 16, 1, 8, false, .rw, .s, .inst, [0, 1], .oneOf [0, 1], true⟩,
  ⟨0x3C4004, 1, 2, 16, 1, 8, false, .rw, .s, .const, [0], .range 0 3, true⟩,
  ⟨0x3C4005, 1, 2, 16, 1, 8, false, .rw, .s, .const, [44], .oneOf [30, 36, 42, 43, 44, 45, 46], true⟩,
  ⟨0x3C4006, 1, 2, 16, 1, 8, false, .rw, .s, .const, [0], .oneOf [0, 1], true⟩,
  ⟨0x3C4007, 1, 2, 16, 1, 16, false, .rw, .s, .const, [3840], .range 32 4096, true⟩,
  ⟨0x3C4008, 1, 2, 16, 1, 16, false, .rw, .s, .const, [2160], .range 16 3072, true⟩,
  ⟨0x3C4009, 1, 2, 16, 1, 32, false, .rw, .s, .const, [60000], .range 1000 0x75300, true⟩,
  ⟨0x3C400A, 1, 2, 16, 1, 64, false, .rw, .i, .const, [0], .rangeOr 0 1000000 0x2540BE400, true⟩,
  ⟨0x3C400B, 1, 2, 16, 1, 8, false, .rw, .f, .const, [1], .oneOf [0, 1], true⟩,
  ⟨0x3C400C, 1, 2, 16, 1, 8, false, .rw, .f, .const, [0], .bool, true⟩,
  ⟨0x3C400D, 1, 2, 16, 1, 32, false, .ro, .i, .const, [0], .anyValue, false⟩,
  ⟨0x3C400E, 1, 2, 16, 1, 64, false, .ro, .i, .const, [0], .anyValue, false⟩,
  ⟨0x3C400F, 1, 2, 16, 1, 16, false, .ro, .i, .const, [8], .anyValue, false⟩,
  ⟨0x3C4010, 1, 2, 16, 1, 32, false, .rw, .i, .const, [0], .counter, false⟩,
  ⟨0x3C4101, 1, 2, 16, 1, 32, false, .rw, .i, .const, [0], .counter, false⟩,
  ⟨0x3C4102, 1, 2, 16, 1, 32, false, .rw, .i, .const, [0], .counter, false⟩,
  ⟨0x3C4103, 1, 2, 16, 1, 32, false, .rw, .i, .const, [0], .counter, false⟩,
  ⟨0x3C4104, 1, 2, 16, 1, 32, false, .rw, .i, .const, [0], .counter, false⟩,
  ⟨0x3C4105, 1, 2, 16, 1, 32, false, .rw, .i, .const, [0], .counter, false⟩,
  ⟨0x3C4106, 1, 2, 16, 1, 32, false, .rw, .i, .const, [0], .counter, false⟩,
  ⟨0x3C4107, 1, 2, 16, 1, 32, false, .rw, .i, .const, [0], .counter, false⟩,
  ⟨0x3C4108, 1, 2, 16, 1, 32, false, .rw, .i, .const, [0], .counter, false⟩,
  ⟨0x3C4109, 1, 2, 16, 1, 32, false, .rw, .i, .const, [0], .counter, false⟩,
  ⟨0x3C410A, 1, 2, 16, 1, 32, false, .rw, .i, .const, [0], .counter, false⟩,
  ⟨0x3D0001, 1, 1, 1, 1, 32, false, .ro, .i, .const, [0], .anyValue, false⟩,
  ⟨0x3D0002, 1, 1, 1, 1, 32, false, .ro, .i, .const, [0], .anyValue, false⟩,
  ⟨0x3D0003, 1, 1, 1, 1, 32, false, .rw, .i, .const, [0], .counter, false⟩,
  ⟨0x3D0101, 6, 1, 1, 1, 64, false, .ro, .i, .const, [0], .anyValue, false⟩,
  ⟨0x3D0201, 6, 1, 1, 1, 64, false, .ro, .i, .const, [0], .anyValue, false⟩,
  ⟨0x3D0301, 6, 1, 1, 1, 64, false, .ro, .i, .const, [0], .anyValue, false⟩,
  ⟨0x3D0401, 6, 1, 1, 1, 64, false, .ro, .i, .const, [0], .anyValue, false⟩,
  ⟨0x3D0501, 6, 1, 1, 1, 32, false, .rw, .i, .const, [0], .counter, false⟩,
  ⟨0x3D0601, 6, 1, 1, 1, 16, false, .rw, .i, .const, [0], .oneOf [0], true⟩,
  ⟨0x3D4001, 1, 2, 16, 1, 8, false, .rw, .i, .const, [0], .range 0 5, true⟩,
  ⟨0x3D4002, 1, 2, 16, 1, 8, false, .rw, .f, .const, [0], .range 0 7, true⟩,
  ⟨0x3D4003, 1, 2, 16, 1, 16, false, .rw, .f, .const, [8741], .anyValue, true⟩,
  ⟨0x3D4004, 1, 2, 16, 1, 16, false, .rw, .f, .const, [15141], .anyValue, true⟩,
  ⟨0x3D4005, 1, 2, 16, 1, 16, false, .rw, .f, .const, [0], .anyValue, true⟩,
  ⟨0x3D4006, 1, 2, 16, 1, 16, false, .rw, .f, .const, [65535], .anyValue, true⟩,
  ⟨0x3D4007, 1, 2, 16, 1, 16, false, .rw, .f, .const, [128], .range 0 256, true⟩,
  ⟨0x3D4008, 1, 2, 16, 1, 64, false, .ro, .i, .const, [0], .anyValue, false⟩,
  ⟨0x3D4009, 1, 2, 16, 1, 32, false, .ro, .i, .const, [0], .anyValue, false⟩,
  ⟨0x3D4101, 9, 2, 16, 1, 64, true, .rw, .f, .sub, [0x10000000000, 0, 0, 0, 0x10000000000, 0, 0, 0, 0x10000000000], .anyValue, true⟩]

/-- The rows of 4000 to 43FF. -/
def rowsStreams : List Row :=
  [
  ⟨0x400001, 1, 8, 16, 1, 8, false, .rw, .i, .const, [0], .oneOf [0, 1], true⟩,
  ⟨0x400002, 1, 8, 16, 1, 8, false, .ro, .i, .const, [0], .anyValue, false⟩,
  ⟨0x400003, 1, 8, 16, 1, 8, false, .rw, .s, .inst, [0, 1, 2, 3, 0, 1, 2, 3], .oneOf [0, 1, 2, 3, 4, 5, 16, 17], true⟩,
  ⟨0x400004, 1, 8, 16, 1, 8, false, .rw, .s, .const, [0], .range 0 5, true⟩,
  ⟨0x400005, 1, 8, 16, 1, 16, false, .rw, .f, .const, [1], .range 1 256, true⟩,
  ⟨0x400006, 1, 8, 16, 1, 8, false, .rw, .f, .const, [0], .bool, true⟩,
  ⟨0x400101, 1, 8, 16, 1, 16, false, .rw, .f, .const, [0], .anyValue, true⟩,
  ⟨0x400102, 1, 8, 16, 1, 16, false, .rw, .f, .const, [0], .anyValue, true⟩,
  ⟨0x400103, 1, 8, 16, 1, 16, false, .rw, .f, .const, [2048], .range 1 4096, true⟩,
  ⟨0x400104, 1, 8, 16, 1, 16, false, .rw, .f, .const, [1536], .range 1 3072, true⟩,
  ⟨0x400105, 1, 8, 16, 1, 16, false, .rw, .f, .const, [2048], .range 16 8192, true⟩,
  ⟨0x400106, 1, 8, 16, 1, 16, false, .rw, .f, .const, [1536], .range 16 8192, true⟩,
  ⟨0x400107, 1, 8, 16, 1, 8, false, .rw, .f, .const, [0], .oneOf [0, 1], true⟩,
  ⟨0x400201, 1, 8, 16, 1, 8, false, .rw, .f, .const, [0], .oneOf [0, 1], true⟩,
  ⟨0x400202, 1, 8, 16, 1, 16, false, .rw, .f, .const, [8741], .anyValue, true⟩,
  ⟨0x400203, 1, 8, 16, 1, 16, false, .rw, .f, .const, [15141], .anyValue, true⟩,
  ⟨0x400204, 1, 8, 16, 1, 8, false, .rw, .f, .const, [0], .range 0 7, true⟩,
  ⟨0x400205, 1, 8, 16, 1, 16, false, .rw, .f, .const, [655], .range 0 32767, true⟩,
  ⟨0x400206, 1, 8, 16, 1, 16, false, .rw, .f, .const, [655], .range 0 32767, true⟩,
  ⟨0x400207, 1, 8, 16, 1, 8, false, .rw, .f, .const, [3], .range 0 8, true⟩,
  ⟨0x400208, 1, 8, 16, 1, 16, false, .rw, .f, .const, [320], .range 1 65535, true⟩,
  ⟨0x400209, 1, 8, 16, 1, 32, false, .ro, .i, .const, [0], .anyValue, false⟩,
  ⟨0x400301, 1, 8, 16, 1, 64, false, .rw, .s, .const, [0], .aligned 4096 [], true⟩,
  ⟨0x400302, 1, 8, 16, 1, 8, false, .rw, .s, .const, [4], .range 2 64, true⟩,
  ⟨0x400303, 1, 8, 16, 1, 32, false, .rw, .s, .const, [0x601000], .anyValue, true⟩,
  ⟨0x400304, 1, 8, 16, 1, 32, false, .rw, .s, .const, [4096], .anyValue, true⟩,
  ⟨0x400305, 1, 8, 16, 1, 8, false, .rw, .i, .const, [0], .anyValue, false⟩,
  ⟨0x400306, 1, 8, 16, 1, 8, false, .ro, .i, .const, [0], .anyValue, false⟩,
  ⟨0x400307, 1, 8, 16, 1, 64, false, .rw, .s, .const, [0], .aligned 8 [0], true⟩,
  ⟨0x400308, 1, 8, 16, 1, 16, false, .rw, .f, .const, [0], .range 0 8192, true⟩,
  ⟨0x400309, 1, 8, 16, 1, 8, false, .rw, .s, .inst, [0, 1, 2, 3, 4, 5, 6, 7], .range 0 63, true⟩,
  ⟨0x40030A, 1, 8, 16, 1, 8, false, .rw, .f, .const, [1], .range 0 255, true⟩,
  ⟨0x40030B, 1, 8, 16, 1, 8, false, .rw, .s, .const, [0], .bool, true⟩,
  ⟨0x400401, 1, 8, 16, 1, 32, false, .ro, .i, .const, [0], .anyValue, false⟩,
  ⟨0x400402, 1, 8, 16, 1, 32, false, .rw, .i, .const, [0], .counter, false⟩,
  ⟨0x400403, 1, 8, 16, 1, 32, false, .rw, .i, .const, [0], .counter, false⟩,
  ⟨0x400404, 1, 8, 16, 1, 32, false, .rw, .i, .const, [0], .counter, false⟩,
  ⟨0x400405, 1, 8, 16, 1, 32, false, .rw, .i, .const, [0], .counter, false⟩,
  ⟨0x400406, 1, 8, 16, 1, 32, false, .rw, .i, .const, [0], .counter, false⟩,
  ⟨0x400407, 1, 8, 16, 1, 32, false, .rw, .i, .const, [0], .counter, false⟩,
  ⟨0x400408, 1, 8, 16, 1, 32, false, .ro, .i, .const, [0], .anyValue, false⟩,
  ⟨0x400409, 1, 8, 16, 1, 64, false, .ro, .i, .const, [0], .anyValue, false⟩,
  ⟨0x40040A, 1, 8, 16, 1, 16, false, .ro, .i, .const, [0], .anyValue, false⟩,
  ⟨0x400500, 1, 8, 16, 1, 64, false, .domain, .f, .const, [0], .anyValue, false⟩,
  ⟨0x400600, 1, 8, 16, 1, 64, false, .domain, .f, .const, [0], .anyValue, false⟩,
  ⟨0x420000, 1, 8, 1, 1, 64, false, .domain, .i, .const, [0], .anyValue, false⟩,
  ⟨0x420800, 1, 1, 1, 1, 8, false, .wo, .i, .const, [0], .command, false⟩,
  ⟨0x420901, 8, 1, 1, 1, 32, false, .rw, .i, .const, [0], .counter, false⟩]

/-- The rows of 4400 to 45FF. -/
def rowsStatistics : List Row :=
  [
  ⟨0x440001, 1, 6, 16, 1, 8, false, .rw, .f, .const, [1], .bool, true⟩,
  ⟨0x440002, 1, 6, 16, 1, 8, false, .ro, .i, .const, [0], .anyValue, false⟩,
  ⟨0x440003, 1, 6, 16, 1, 16, false, .rw, .f, .const, [0], .anyValue, true⟩,
  ⟨0x440004, 1, 6, 16, 1, 8, false, .rw, .f, .const, [6], .range 0 6, true⟩,
  ⟨0x440005, 1, 6, 16, 1, 8, false, .rw, .f, .const, [1], .fields 31, true⟩,
  ⟨0x440006, 1, 6, 16, 1, 8, false, .rw, .f, .const, [0], .bool, true⟩,
  ⟨0x440007, 1, 6, 16, 1, 32, false, .ro, .i, .const, [0], .anyValue, false⟩,
  ⟨0x440008, 1, 6, 16, 1, 32, false, .ro, .i, .const, [0], .anyValue, false⟩,
  ⟨0x440009, 1, 6, 16, 1, 32, false, .rw, .i, .const, [0], .counter, false⟩,
  ⟨0x440101, 1, 6, 16, 1, 64, false, .rw, .s, .const, [0], .aligned 4096 [0], true⟩,
  ⟨0x440102, 1, 6, 16, 1, 8, false, .rw, .s, .const, [8], .range 2 64, true⟩,
  ⟨0x440103, 1, 6, 16, 1, 8, false, .rw, .i, .const, [0], .anyValue, false⟩,
  ⟨0x440104, 1, 6, 16, 1, 8, false, .ro, .i, .const, [0], .anyValue, false⟩,
  ⟨0x440105, 1, 6, 16, 1, 64, false, .rw, .s, .const, [0], .aligned 8 [0], true⟩,
  ⟨0x440106, 1, 6, 16, 1, 8, false, .rw, .s, .const, [14], .range 0 15, true⟩,
  ⟨0x440107, 1, 6, 16, 1, 8, false, .rw, .s, .inst, [8, 9, 10, 11, 12, 13], .range 0 63, true⟩,
  ⟨0x440108, 1, 6, 16, 1, 32, false, .rw, .i, .const, [0], .counter, false⟩,
  ⟨0x440200, 1, 6, 16, 1, 64, false, .domain, .i, .const, [0], .anyValue, false⟩,
  ⟨0x448001, 1, 96, 1, 1, 8, false, .rw, .f, .const, [0], .bool, true⟩,
  ⟨0x448002, 1, 96, 1, 1, 16, false, .rw, .f, .const, [0], .anyValue, true⟩,
  ⟨0x448003, 1, 96, 1, 1, 16, false, .rw, .f, .const, [0], .anyValue, true⟩,
  ⟨0x448004, 1, 96, 1, 1, 16, false, .rw, .f, .const, [16], .range 1 4096, true⟩,
  ⟨0x448005, 1, 96, 1, 1, 16, false, .rw, .f, .const, [16], .range 1 3072, true⟩,
  ⟨0x448006, 1, 96, 1, 1, 8, false, .rw, .f, .const, [0], .oneOf [0, 1, 2], true⟩,
  ⟨0x448007, 1, 96, 1, 1, 8, false, .rw, .f, .const, [0], .oneOf [0, 1], true⟩,
  ⟨0x448008, 1, 96, 1, 1, 16, false, .rw, .f, .const, [65535], .anyValue, true⟩,
  ⟨0x448009, 1, 96, 1, 1, 16, false, .rw, .f, .const, [64], .anyValue, true⟩,
  ⟨0x44800A, 1, 96, 1, 1, 8, false, .rw, .f, .const, [1], .range 1 255, true⟩,
  ⟨0x44800B, 1, 96, 1, 1, 8, false, .rw, .f, .const, [0], .oneOf [0, 1, 2], true⟩,
  ⟨0x44800C, 1, 96, 1, 1, 8, false, .rw, .f, .const, [1], .oneOf [0, 1], true⟩,
  ⟨0x44800D, 1, 96, 1, 1, 16, false, .rw, .f, .const, [0], .anyValue, true⟩,
  ⟨0x44800E, 1, 96, 1, 1, 16, false, .rw, .f, .const, [64], .anyValue, true⟩,
  ⟨0x44800F, 1, 96, 1, 1, 8, false, .rw, .f, .const, [1], .range 1 255, true⟩,
  ⟨0x448010, 1, 96, 1, 1, 16, false, .ro, .i, .const, [0], .anyValue, false⟩,
  ⟨0x448011, 1, 96, 1, 1, 16, false, .ro, .i, .const, [0], .anyValue, false⟩,
  ⟨0x448012, 1, 96, 1, 1, 32, false, .ro, .i, .const, [0], .anyValue, false⟩,
  ⟨0x448013, 1, 96, 1, 1, 16, false, .ro, .i, .const, [0], .anyValue, false⟩,
  ⟨0x448014, 1, 96, 1, 1, 64, false, .ro, .i, .const, [0], .anyValue, false⟩,
  ⟨0x448015, 1, 96, 1, 1, 32, false, .ro, .i, .const, [0], .anyValue, false⟩,
  ⟨0x448016, 1, 96, 1, 1, 32, false, .ro, .i, .const, [0], .anyValue, false⟩,
  ⟨0x448017, 1, 96, 1, 1, 32, false, .ro, .i, .const, [0], .anyValue, false⟩,
  ⟨0x448018, 1, 96, 1, 1, 32, false, .ro, .i, .const, [0], .anyValue, false⟩]

/-- The rows of 4800 to 4BFF. -/
def rowsMemory : List Row :=
  [
  ⟨0x480001, 1, 1, 1, 1, 16, false, .rw, .p, .const, [8533], .oneOf [6400, 7500, 8533], true⟩,
  ⟨0x480002, 1, 1, 1, 1, 8, false, .rw, .p, .const, [1], .bool, true⟩,
  ⟨0x480003, 1, 1, 1, 1, 8, false, .ro, .i, .const, [2], .anyValue, false⟩,
  ⟨0x480004, 1, 1, 1, 1, 64, false, .ro, .i, .const, [0], .anyValue, false⟩,
  ⟨0x480005, 1, 1, 1, 1, 64, false, .ro, .i, .const, [0], .anyValue, false⟩,
  ⟨0x480006, 1, 1, 1, 1, 64, false, .rw, .i, .const, [0x4E94914F0000], .range 0x34630B8A000 0x2260FF9290000, true⟩,
  ⟨0x480101, 2, 1, 1, 1, 8, false, .ro, .i, .const, [0], .anyValue, false⟩,
  ⟨0x480201, 2, 1, 1, 1, 32, false, .rw, .i, .const, [0], .counter, false⟩,
  ⟨0x480301, 2, 1, 1, 1, 32, false, .rw, .i, .const, [0], .counter, false⟩,
  ⟨0x480401, 2, 1, 1, 1, 32, false, .rw, .i, .const, [0], .counter, false⟩,
  ⟨0x480501, 2, 1, 1, 1, 32, false, .rw, .i, .const, [0], .counter, false⟩,
  ⟨0x484001, 1, 1, 1, 1, 8, false, .ro, .i, .const, [0], .anyValue, false⟩,
  ⟨0x484002, 1, 1, 1, 1, 64, false, .ro, .i, .const, [0], .anyValue, false⟩,
  ⟨0x484003, 1, 1, 1, 1, 32, false, .rw, .i, .const, [0], .counter, false⟩,
  ⟨0x484004, 1, 1, 1, 1, 32, false, .rw, .i, .const, [0], .counter, false⟩,
  ⟨0x484005, 1, 1, 1, 1, 8, false, .ro, .i, .const, [0], .anyValue, false⟩,
  ⟨0x484006, 1, 1, 1, 1, 32, false, .rw, .i, .const, [0], .counter, false⟩,
  ⟨0x484101, 2, 1, 1, 1, 32, false, .ro, .i, .const, [0], .anyValue, false⟩,
  ⟨0x484103, 1, 1, 1, 1, 8, false, .ro, .i, .const, [255], .anyValue, false⟩,
  ⟨0x484200, 1, 1, 1, 1, 64, false, .domain, .i, .const, [0], .anyValue, false⟩,
  ⟨0x484301, 1, 1, 1, 1, 32, false, .ro, .i, .const, [0], .anyValue, false⟩,
  ⟨0x484302, 1, 1, 1, 1, 16, false, .ro, .i, .const, [0], .anyValue, false⟩,
  ⟨0x484401, 1, 1, 1, 1, 32, false, .ro, .i, .const, [0], .anyValue, false⟩,
  ⟨0x484402, 1, 1, 1, 1, 32, false, .ro, .i, .const, [0], .anyValue, false⟩,
  ⟨0x488001, 1, 1, 1, 1, 8, false, .rw, .i, .const, [0], .oneOf [0, 1], true⟩,
  ⟨0x488002, 1, 1, 1, 1, 8, false, .ro, .i, .const, [0], .anyValue, false⟩,
  ⟨0x488003, 1, 1, 1, 1, 8, false, .rw, .p, .const, [1], .bool, true⟩,
  ⟨0x488004, 1, 1, 1, 1, 8, false, .rw, .s, .const, [0], .bool, true⟩,
  ⟨0x488005, 1, 1, 1, 1, 8, false, .rw, .s, .const, [4], .range 2 16, true⟩,
  ⟨0x488006, 1, 1, 1, 1, 8, false, .rw, .s, .const, [0], .oneOf [0, 1, 2, 3, 4, 5, 6, 7], true⟩,
  ⟨0x488007, 1, 1, 1, 1, 8, false, .rw, .s, .const, [19], .anyValue, true⟩,
  ⟨0x488008, 1, 1, 1, 1, 8, false, .rw, .s, .const, [0], .range 0 31, true⟩,
  ⟨0x488009, 1, 1, 1, 1, 8, false, .rw, .s, .const, [18], .anyValue, true⟩,
  ⟨0x48800A, 1, 1, 1, 1, 8, false, .rw, .s, .const, [33], .anyValue, true⟩,
  ⟨0x48800B, 1, 1, 1, 1, 8, false, .rw, .s, .const, [1], .oneOf [0, 1], true⟩,
  ⟨0x48800C, 1, 1, 1, 1, 8, false, .rw, .s, .const, [4], .range 0 15, true⟩,
  ⟨0x48800D, 1, 1, 1, 1, 32, false, .rw, .i, .const, [10000], .range 1000 1000000, true⟩,
  ⟨0x48800E, 1, 1, 1, 1, 64, false, .rw, .i, .const, [5000000], .range 100000 0x5F5E100, true⟩,
  ⟨0x48800F, 1, 1, 1, 1, 64, false, .rw, .i, .const, [0x1DCD6500], .range 1000000 0x2540BE400, true⟩,
  ⟨0x488010, 1, 1, 1, 1, 8, false, .rw, .s, .const, [0], .anyValue, true⟩,
  ⟨0x488101, 1, 1, 1, 1, 32, false, .wo, .i, .const, [0], .command, false⟩,
  ⟨0x488102, 1, 1, 1, 1, 8, false, .wo, .i, .const, [0], .command, false⟩,
  ⟨0x488201, 1, 1, 1, 1, 64, false, .rw, .i, .const, [0], .anyValue, true⟩,
  ⟨0x488202, 1, 1, 1, 1, 32, false, .rw, .i, .const, [0], .anyValue, true⟩,
  ⟨0x488203, 1, 1, 1, 1, 32, false, .rw, .i, .const, [0], .range 1 0x10000000, true⟩,
  ⟨0x488204, 1, 1, 1, 1, 8, false, .wo, .i, .const, [0], .command, false⟩,
  ⟨0x488205, 1, 1, 1, 1, 32, false, .ro, .i, .const, [0], .anyValue, false⟩,
  ⟨0x488301, 1, 1, 1, 1, 32, false, .rw, .i, .const, [0], .counter, false⟩,
  ⟨0x488302, 1, 1, 1, 1, 32, false, .rw, .i, .const, [0], .counter, false⟩,
  ⟨0x488303, 1, 1, 1, 1, 32, false, .rw, .i, .const, [0], .counter, false⟩,
  ⟨0x488304, 1, 1, 1, 1, 8, false, .ro, .i, .const, [0], .anyValue, false⟩]

/-- The rows of 4C00 to 4FFF. -/
def rowsLinks : List Row :=
  [
  ⟨0x4C0001, 1, 1, 1, 1, 8, false, .ro, .i, .const, [0], .anyValue, false⟩,
  ⟨0x4C0002, 1, 1, 1, 1, 8, false, .ro, .i, .const, [0], .anyValue, false⟩,
  ⟨0x4C0003, 1, 1, 1, 1, 8, false, .ro, .i, .const, [0], .anyValue, false⟩,
  ⟨0x4C0004, 1, 1, 1, 1, 8, false, .rw, .p, .const, [5], .range 1 5, true⟩,
  ⟨0x4C0005, 1, 1, 1, 1, 16, false, .rw, .p, .const, [18454], .anyValue, true⟩,
  ⟨0x4C0006, 1, 1, 1, 1, 32, false, .rw, .i, .const, [0], .counter, false⟩,
  ⟨0x4C0007, 1, 1, 1, 1, 32, false, .rw, .i, .const, [0], .counter, false⟩,
  ⟨0x4C0008, 1, 1, 1, 1, 32, false, .rw, .i, .const, [0], .counter, false⟩,
  ⟨0x4C0009, 1, 1, 1, 1, 32, false, .rw, .i, .const, [0], .counter, false⟩,
  ⟨0x4C0101, 1, 1, 1, 1, 64, false, .rw, .i, .const, [0], .aligned 0x4000000 [0], false⟩,
  ⟨0x4C0102, 1, 1, 1, 1, 32, false, .rw, .i, .const, [0], .counter, false⟩,
  ⟨0x4C0103, 1, 1, 1, 1, 32, false, .rw, .i, .const, [0], .counter, false⟩,
  ⟨0x4C0201, 1, 1, 1, 1, 8, false, .rw, .i, .const, [48], .range 0 63, true⟩,
  ⟨0x4C0202, 1, 1, 1, 1, 8, false, .rw, .i, .const, [0], .anyValue, true⟩,
  ⟨0x4C0203, 1, 1, 1, 1, 8, false, .ro, .i, .const, [0], .anyValue, false⟩,
  ⟨0x4C0204, 1, 1, 1, 1, 8, false, .wo, .i, .const, [0], .command, false⟩,
  ⟨0x4C0205, 1, 1, 1, 1, 8, false, .rw, .i, .const, [0], .anyValue, true⟩,
  ⟨0x4C0301, 1, 1, 1, 1, 32, false, .rw, .i, .const, [0], .counter, false⟩,
  ⟨0x4C0302, 1, 1, 1, 1, 32, false, .rw, .i, .const, [0], .counter, false⟩,
  ⟨0x4C0303, 1, 1, 1, 1, 32, false, .rw, .i, .const, [0], .counter, false⟩,
  ⟨0x4D0001, 1, 1, 1, 1, 8, false, .rw, .p, .const, [1], .range 1 127, true⟩,
  ⟨0x4D0002, 1, 1, 1, 1, 16, false, .rw, .p, .const, [500], .oneOf [125, 250, 500, 1000], true⟩,
  ⟨0x4D0003, 1, 1, 1, 1, 16, false, .rw, .p, .const, [2000], .oneOf [0, 1000, 2000, 4000, 5000, 8000], true⟩,
  ⟨0x4D0004, 1, 1, 1, 1, 8, false, .ro, .i, .const, [0], .anyValue, false⟩,
  ⟨0x4D0005, 1, 1, 1, 1, 8, false, .ro, .i, .const, [0], .anyValue, false⟩,
  ⟨0x4D0006, 1, 1, 1, 1, 8, false, .ro, .i, .const, [0], .anyValue, false⟩,
  ⟨0x4D0007, 1, 1, 1, 1, 32, false, .rw, .i, .const, [0], .counter, false⟩,
  ⟨0x4D0008, 1, 1, 1, 1, 8, false, .ro, .i, .const, [0], .anyValue, false⟩,
  ⟨0x4D0009, 1, 1, 1, 1, 8, false, .rw, .i, .const, [0], .oneOf [0, 1], true⟩,
  ⟨0x4D0101, 1, 1, 1, 1, 32, false, .rw, .i, .const, [0], .counter, false⟩,
  ⟨0x4D0102, 1, 1, 1, 1, 32, false, .rw, .i, .const, [0], .counter, false⟩,
  ⟨0x4D0103, 1, 1, 1, 1, 32, false, .rw, .i, .const, [0], .counter, false⟩,
  ⟨0x4D0104, 1, 1, 1, 1, 32, false, .rw, .i, .const, [0], .counter, false⟩,
  ⟨0x4D0105, 1, 1, 1, 1, 32, false, .rw, .i, .const, [0], .counter, false⟩,
  ⟨0x4D0106, 1, 1, 1, 1, 32, false, .rw, .i, .const, [0], .counter, false⟩,
  ⟨0x4D0107, 1, 1, 1, 1, 32, false, .rw, .i, .const, [0], .counter, false⟩,
  ⟨0x4D0201, 1, 1, 1, 1, 8, false, .ro, .i, .const, [0], .anyValue, false⟩,
  ⟨0x4D0202, 1, 1, 1, 1, 32, false, .ro, .i, .const, [0], .anyValue, false⟩,
  ⟨0x4D0203, 1, 1, 1, 1, 64, false, .ro, .i, .const, [0], .anyValue, false⟩,
  ⟨0x4D0300, 1, 1, 1, 1, 32, false, .wo, .i, .const, [0], .command, false⟩,
  ⟨0x4E0001, 1, 1, 1, 1, 8, false, .rw, .p, .const, [0], .oneOf [0, 1, 2], true⟩,
  ⟨0x4E0002, 1, 1, 1, 1, 16, false, .rw, .p, .const, [0], .range 0 16383, true⟩,
  ⟨0x4E0003, 1, 1, 1, 1, 8, false, .ro, .i, .const, [0], .anyValue, false⟩,
  ⟨0x4E0004, 1, 1, 1, 1, 8, false, .ro, .i, .const, [0], .anyValue, false⟩,
  ⟨0x4E0005, 1, 1, 1, 1, 32, true, .ro, .i, .const, [0], .anyValue, false⟩,
  ⟨0x4E0006, 1, 1, 1, 1, 32, true, .ro, .i, .const, [0], .anyValue, false⟩,
  ⟨0x4E0007, 1, 1, 1, 1, 32, false, .rw, .i, .const, [0], .counter, false⟩,
  ⟨0x4E0008, 1, 1, 1, 1, 32, false, .rw, .i, .const, [0], .counter, false⟩,
  ⟨0x4E0009, 1, 1, 1, 1, 32, false, .rw, .i, .const, [0], .counter, false⟩,
  ⟨0x4E000A, 1, 1, 1, 1, 8, false, .rw, .i, .const, [0], .oneOf [0, 1], true⟩,
  ⟨0x4E0101, 1, 1, 1, 1, 32, false, .rw, .i, .const, [0], .range 0 65535, true⟩,
  ⟨0x4E0102, 1, 1, 1, 1, 8, false, .rw, .i, .const, [1], .bool, true⟩,
  ⟨0x4E0103, 1, 1, 1, 1, 32, false, .ro, .i, .const, [0], .anyValue, false⟩,
  ⟨0x4E0104, 1, 1, 1, 1, 8, false, .ro, .i, .const, [0], .anyValue, false⟩,
  ⟨0x4E0105, 1, 1, 1, 1, 32, false, .ro, .i, .const, [0], .anyValue, false⟩,
  ⟨0x4E0106, 1, 1, 1, 1, 8, false, .ro, .i, .const, [0], .bool, false⟩,
  ⟨0x4E0107, 1, 1, 1, 1, 32, false, .rw, .i, .const, [0], .counter, false⟩,
  ⟨0x4E0108, 1, 1, 1, 1, 32, false, .ro, .i, .const, [0], .anyValue, false⟩,
  ⟨0x4E0201, 1, 1, 1, 1, 64, false, .wo, .i, .const, [0], .command, false⟩,
  ⟨0x4E0202, 1, 1, 1, 1, 32, true, .wo, .i, .const, [0], .command, false⟩] ++ [
  ⟨0x4E0203, 1, 1, 1, 1, 32, false, .wo, .i, .const, [0], .command, false⟩,
  ⟨0x4E0204, 1, 1, 1, 1, 64, false, .rw, .i, .const, [0], .rangeOr 0 1000000 0x2540BE400, true⟩,
  ⟨0x4E0205, 1, 1, 1, 1, 64, false, .rw, .i, .const, [0], .anyValue, true⟩,
  ⟨0x4E0206, 1, 1, 1, 1, 8, false, .rw, .i, .const, [1], .nonZero, true⟩,
  ⟨0x4E0207, 1, 1, 1, 1, 64, false, .rw, .i, .const, [200000], .range 50000 10000000, true⟩,
  ⟨0x4E0208, 1, 1, 1, 1, 8, false, .wo, .i, .const, [0], .command, false⟩,
  ⟨0x4E0209, 1, 1, 1, 1, 32, false, .rw, .i, .const, [0], .counter, false⟩,
  ⟨0x4E020A, 1, 1, 1, 1, 32, false, .rw, .i, .const, [0], .counter, false⟩,
  ⟨0x4E0301, 4, 1, 1, 1, 8, false, .rw, .f, .const, [1], .anyValue, true⟩,
  ⟨0x4F0001, 1, 1, 1, 1, 8, false, .ro, .i, .const, [0], .anyValue, false⟩,
  ⟨0x4F0002, 1, 1, 1, 1, 32, false, .rw, .i, .const, [0], .counter, false⟩,
  ⟨0x4F0003, 1, 1, 1, 1, 32, false, .rw, .i, .const, [0], .counter, false⟩,
  ⟨0x4F0004, 1, 1, 1, 1, 32, false, .rw, .i, .const, [0], .counter, false⟩]

/-- The rows of 5000 to 51FF. -/
def rowsDma : List Row :=
  [
  ⟨0x500001, 8, 8, 8, 1, 32, false, .rw, .i, .const, [0], .anyValue, false⟩,
  ⟨0x500101, 1, 8, 8, 1, 8, false, .wo, .i, .const, [0], .command, false⟩,
  ⟨0x500102, 1, 8, 8, 1, 8, false, .ro, .i, .const, [0], .anyValue, false⟩,
  ⟨0x500103, 1, 8, 8, 1, 8, false, .ro, .i, .const, [0], .anyValue, false⟩,
  ⟨0x500201, 8, 8, 8, 1, 32, false, .ro, .i, .const, [0], .anyValue, false⟩,
  ⟨0x500301, 1, 8, 8, 1, 8, false, .wo, .i, .const, [0], .command, false⟩,
  ⟨0x500302, 1, 8, 8, 1, 8, false, .ro, .i, .const, [0], .anyValue, false⟩,
  ⟨0x500401, 1, 8, 8, 1, 64, false, .rw, .i, .const, [50000000], .range 1000000 0x2540BE400, true⟩,
  ⟨0x500402, 1, 8, 8, 1, 8, false, .rw, .i, .inst, [40, 41, 42, 43, 44, 45, 46, 47], .range 0 63, true⟩,
  ⟨0x500403, 1, 8, 8, 1, 8, false, .rw, .i, .const, [15], .fields 15, true⟩,
  ⟨0x500404, 1, 8, 8, 1, 8, false, .ro, .i, .const, [0], .anyValue, false⟩,
  ⟨0x500405, 1, 8, 8, 1, 8, false, .wo, .i, .const, [0], .command, false⟩,
  ⟨0x500501, 1, 8, 8, 1, 32, false, .rw, .i, .const, [0], .counter, false⟩,
  ⟨0x500502, 1, 8, 8, 1, 32, false, .rw, .i, .const, [0], .counter, false⟩,
  ⟨0x500503, 1, 8, 8, 1, 32, false, .rw, .i, .const, [0], .counter, false⟩,
  ⟨0x500504, 1, 8, 8, 1, 32, false, .rw, .i, .const, [0], .counter, false⟩,
  ⟨0x500505, 1, 8, 8, 1, 32, false, .rw, .i, .const, [0], .counter, false⟩,
  ⟨0x500506, 1, 8, 8, 1, 32, false, .rw, .i, .const, [0], .counter, false⟩,
  ⟨0x504001, 1, 1, 1, 1, 32, false, .rw, .i, .const, [0], .counter, false⟩,
  ⟨0x510001, 1, 16, 4, 1, 8, false, .rw, .s, .const, [0], .oneOf [0, 1, 2, 3], true⟩,
  ⟨0x510002, 1, 16, 4, 1, 64, false, .rw, .s, .const, [0], .anyValue, true⟩,
  ⟨0x510003, 1, 16, 4, 1, 8, false, .rw, .s, .const, [0], .oneOf [0, 1, 3], true⟩,
  ⟨0x510004, 1, 16, 4, 1, 64, false, .rw, .s, .const, [0], .anyValue, true⟩,
  ⟨0x510005, 1, 16, 4, 1, 16, false, .rw, .s, .const, [256], .oneOf [1, 2, 4, 8, 16, 32, 64, 128, 256], true⟩,
  ⟨0x510006, 3, 16, 4, 1, 32, false, .rw, .s, .const, [1], .range 1 0x10000, true⟩,
  ⟨0x510009, 3, 16, 4, 1, 32, true, .rw, .s, .sub, [256, 0, 0], .anyValue, true⟩,
  ⟨0x51000C, 3, 16, 4, 1, 32, true, .rw, .s, .sub, [256, 0, 0], .anyValue, true⟩,
  ⟨0x510101, 1, 16, 4, 1, 8, false, .rw, .i, .inst, [1, 1, 1, 1, 1, 1, 1, 1, 1, 1, 1, 1, 1, 1, 3, 1], .range 0 3, true⟩,
  ⟨0x510102, 1, 16, 4, 1, 8, false, .rw, .s, .const, [0], .oneOf [0, 1, 2, 3, 4, 5, 6, 17, 18, 19, 20, 21, 22], true⟩,
  ⟨0x510103, 1, 16, 4, 1, 8, false, .rw, .s, .const, [0], .oneOf [0, 1, 2], true⟩,
  ⟨0x510104, 1, 16, 4, 1, 8, false, .rw, .s, .const, [0], .bool, true⟩,
  ⟨0x510105, 1, 16, 4, 1, 64, false, .rw, .i, .const, [10000000], .range 10000 0x2540BE400, true⟩,
  ⟨0x510106, 1, 16, 4, 1, 8, false, .wo, .i, .const, [0], .command, false⟩,
  ⟨0x510107, 1, 16, 4, 1, 8, false, .wo, .i, .const, [0], .command, false⟩,
  ⟨0x510108, 1, 16, 4, 1, 8, false, .ro, .i, .const, [0], .anyValue, false⟩,
  ⟨0x510109, 1, 16, 4, 1, 8, false, .rw, .i, .inst, [16, 17, 18, 19, 20, 21, 22, 23, 24, 25, 26, 27, 28, 29, 30, 31], .range 0 63, true⟩,
  ⟨0x51010A, 1, 16, 4, 1, 8, false, .rw, .i, .const, [1], .bool, true⟩,
  ⟨0x51010B, 1, 16, 4, 1, 8, false, .rw, .s, .const, [0], .oneOf [0, 1, 3], true⟩,
  ⟨0x51010C, 1, 16, 4, 1, 64, false, .rw, .s, .const, [0], .aligned 16 [0], true⟩,
  ⟨0x51010D, 1, 16, 4, 1, 8, false, .rws, .i, .const, [0], .oneOf [0, 1], true⟩,
  ⟨0x510201, 1, 16, 4, 1, 8, false, .ro, .i, .const, [0], .anyValue, false⟩,
  ⟨0x510202, 1, 16, 4, 1, 32, false, .ro, .i, .const, [0], .anyValue, false⟩,
  ⟨0x510203, 1, 16, 4, 1, 64, false, .ro, .i, .const, [0], .anyValue, false⟩,
  ⟨0x510204, 1, 16, 4, 1, 64, false, .ro, .i, .const, [0], .anyValue, false⟩,
  ⟨0x510205, 1, 16, 4, 1, 64, false, .ro, .i, .const, [0], .anyValue, false⟩,
  ⟨0x510206, 1, 16, 4, 1, 64, false, .ro, .i, .const, [0], .anyValue, false⟩,
  ⟨0x510301, 1, 16, 4, 1, 32, false, .rw, .i, .const, [0], .counter, false⟩,
  ⟨0x510302, 1, 16, 4, 1, 32, false, .rw, .i, .const, [0], .counter, false⟩,
  ⟨0x510303, 1, 16, 4, 1, 32, false, .rw, .i, .const, [0], .counter, false⟩,
  ⟨0x510304, 1, 16, 4, 1, 32, false, .rw, .i, .const, [0], .counter, false⟩,
  ⟨0x510305, 1, 16, 4, 1, 32, false, .rw, .i, .const, [0], .counter, false⟩,
  ⟨0x518001, 1, 1, 1, 1, 8, false, .ro, .i, .const, [255], .anyValue, false⟩,
  ⟨0x518002, 1, 1, 1, 1, 64, false, .ro, .i, .const, [0], .anyValue, false⟩]

/-- The rows that can hold a key, by the ranges of Table 3.7. -/
def rowsFor (key : Nat) : List Row :=
  if key < 0x200000 then rowsIdentity
  else if key < 0x240000 then rowsChip
  else if key < 0x280000 then rowsHeads
  else if key < 0x2C0000 then rowsConversion
  else if key < 0x300000 then rowsThermal
  else if key < 0x340000 then rowsNuc
  else if key < 0x370000 then rowsSolstice
  else if key < 0x380000 then rowsActuators
  else if key < 0x3C0000 then rowsNoise
  else if key < 0x3E0000 then rowsReceivers
  else if key < 0x440000 then rowsStreams
  else if key < 0x460000 then rowsStatistics
  else if key < 0x4C0000 then rowsMemory
  else if key < 0x500000 then rowsLinks
  else if key < 0x520000 then rowsDma
  else []

/-- The copy, second copy and position of a key in a row, if the row holds it. -/
def Row.place (r : Row) (key : Nat) : Option (Nat × Nat × Nat) :=
  if key < r.key then none
  else
    let d := key - r.key
    let off := d % 256
    let q := d / 256
    let i := q / r.step
    let j := q % r.step
    if off < r.count ∧ i < r.copies ∧ j < r.copies2 then some (i, j, off) else none

/-- The row of a key. -/
def rowOf? (key : Nat) : Option Row := (rowsFor key).find? (fun r => (r.place key).isSome)

/-- The value at a position of a default list, the last value serving every later position. -/
def pickFrom (l : List Int) (n : Nat) : Int := l.getD n (l.getLastD 0)

/-- The default of a key in a row. -/
def Row.defaultAt (r : Row) (key : Nat) : Int :=
  match r.place key with
  | none => 0
  | some (i, _, off) =>
    match r.sel with
    | .const => pickFrom r.dflt 0
    | .sub => pickFrom r.dflt off
    | .inst => pickFrom r.dflt i

/-- The default of a sub-index (0 where no object lies). -/
def objDefault (key : Nat) : Int :=
  match rowOf? key with
  | none => 0
  | some r => r.defaultAt key

/-- The least and greatest value of a row's type (R70). -/
def Row.least (r : Row) : Int := if r.signed then - (2 ^ (r.width - 1) : Nat) else 0
/-- The greatest value of a row's type (R70). -/
def Row.most (r : Row) : Int := if r.signed then (2 ^ (r.width - 1) : Nat) - 1 else (2 ^ r.width : Nat) - 1

/-- Whether a slot of a mailbox object is unimplemented: for channels 6 and 7 all of 0x5000 to 0x5003 and 0x5004:02 to 05 (R426). -/
def mbxHidden (key : Nat) : Bool :=
  let idx := key / 256
  decide (0x5030 ≤ idx ∧ idx < 0x5040) &&
  (decide (idx % 8 ≤ 3) || (decide (idx % 8 = 4) && decide (2 ≤ key % 256 ∧ key % 256 ≤ 5)))

/-- The highest sub-index of an index among the rows that `shown` takes. -/
def highestOf (shown : Nat → Bool) (idx : Nat) : Option Nat :=
  (rowsFor (idx * 256)).foldl (fun acc r =>
    let key := idx * 256 + r.key % 256
    if (r.place key).isSome && shown key then some (max (acc.getD 0) (r.key % 256 + r.count - 1)) else acc) none

/-- The highest sub-index in use of an index, if it has any (R68); sub-indices that R426 leaves unimplemented are not in use. -/
def highestSub (idx : Nat) : Option Nat := highestOf (fun key => !mbxHidden key) idx

/-- Whether an index names an object, in use or not. -/
def namesObject (idx : Nat) : Bool := (highestOf (fun _ => true) idx).isSome

end Sys2Proof.Machine
end

