-- ==== Sys2Proof/Machine/State.lean ====
section
/-! DEFINITION. The state of the part: the values of its dictionary objects, the state behind them, its pins and
memories, and the queue of waiting commands. Plain data throughout. -/

namespace Sys2Proof.Machine

/-- Values of objects that differ from their defaults, by rising key (assumption 5). -/
abbrev Dict := List (Nat × Int)

/-- Bytes of a memory that differ from 0, by rising address. -/
abbrev Memory := List Host.Cell

/-! ### Messages leaving the package -/

/-- A pulse of a sync or window output of a head (R115 to R117): the MCLK position in the line at which it begins, its length in
MCLK periods, and the level of the active pulse, which SYNC_POLARITY inverts. -/
structure HeadPulse where
  start : Nat
  length : Nat
  high : Bool
  deriving DecidableEq, Repr, Inhabited

/-- What the FPA timing generator of a head drives in a frame (R115 to R117, Table 4.3): FSYNC with the LSYNC of line 0; LSYNC in every
row line and the flush line; INTL, and INTS where dual, in every row line; and how many lines there are, how long a line lasts in MCLK
periods, and how long an MCLK period in CLK_CONV cycles. -/
structure HeadSignals where
  mclk : Nat
  line : Nat
  rows : Nat
  flush : Bool
  fsync : HeadPulse
  lsync : HeadPulse
  intl : HeadPulse
  ints : Option HeadPulse
  deriving DecidableEq, Repr, Inhabited

/-- What the part sends or answers while it carries out a command. -/
inductive OutMsg
  /-- an MSI-X message of Function 0 or, with `f1`, of Function 1 (R367) -/
  | msix (f1 : Bool) (vector : Nat)
  /-- bytes written to host memory through Function 0 (space 1) or Function 1 (space 3), with or without relaxed ordering -/
  | hostWrite (space addr : Nat) (bytes : List Byte) (relaxed : Bool := false)
  /-- a CAN frame, with whether its data phase switches to CAN_DATA_RATE (R374, R376) -/
  | can (ident : Nat) (data : List Byte) (brs : Bool)
  /-- an answer of the USDO server that carries bytes of an object, with whether they are the last, on its COB-ID (R378) -/
  | usdo (ident : Nat) (bytes : List Byte) (last : Bool)
  /-- an abort of a USDO transfer on the same COB-ID (R84, R378) -/
  | usdoAbort (ident : Nat) (key : Nat) (code : Nat)
  /-- a Psirel message after its start symbol (Table 13.7) -/
  | psirel (start : Nat) (bytes : List Byte)
  /-- a Psirel wake gap -/
  | psirelGap
  /-- the answer to a read of a slot -/
  | slot (m : Master) (key : Nat) (v : Nat)
  /-- the answer to a 32-bit read of a half of a slot -/
  | half (m : Master) (key : Nat) (v : Nat)
  /-- an abort returned to a master (R84) -/
  | abort (m : Master) (key : Nat) (code : Nat)
  /-- bytes answered to a BAR2 read, with the poisoned bit -/
  | bar2 (bytes : List Byte) (poisoned : Bool)
  /-- bytes the serial-port slave shifts out in a frame -/
  | spFrame (bytes : List Byte)
  /-- bytes the serial-port master shifts out, with the select it drives -/
  | flash (select : Nat) (bytes : List Byte)
  /-- a read of the flash: continued, or with its command and address and dummy cycles (R437) -/
  | flashRead (select offset : Nat) (continued : Bool) (command : List Byte) (dummy : Nat)
  /-- sectors of the flash erased by a save, and bytes it writes: offset in the window, and length or bytes -/
  | erased (off len : Nat)
  | saved (off : Nat) (bytes : List Byte)
  /-- a PME message -/
  | pme
  /-- a configuration transaction shifted to a head: head, read, address, data -/
  | config (h : Nat) (read : Bool) (addr data : Nat)
  /-- the FPA timing generator of a head starts a frame, with what it drives in it -/
  | frameSync (h : Nat) (s : HeadSignals)
  deriving DecidableEq, Repr, Inhabited

/-! ### Dictionary machinery -/

/-- A staged F-class write (R77): owner, key, value and instant of acceptance. -/
structure Staged where
  owner : Nat
  key : Nat
  val : Int
  at' : Nat
  deriving DecidableEq, Repr, Inhabited

/-- A low half held for a master (R89), or a high half latched for one (R92). -/
structure Half where
  m : Master
  key : Nat
  word : Nat
  at' : Nat
  deriving DecidableEq, Repr

/-- An error record (Table 3.12) in its slot of a queue, with its acknowledgement. -/
structure ErrRec where
  slot : Nat
  acked : Bool
  time : Nat
  level : Nat
  region : Nat
  block : Nat
  cell : Nat
  code : Nat
  seq : Nat
  count : Nat
  ctx0 : Nat
  ctx1 : Nat
  deriving DecidableEq, Repr, Inhabited

/-- A record of the event log (R448): the log sequence q, which also gives its place, and the record. -/
structure LogRec where
  q : Nat
  entry : ErrRec
  deriving DecidableEq, Repr, Inhabited

/-- An error queue (R108, R109): its records, newest first, at most 16, and the sequence of the newest. -/
structure ErrQ where
  recs : List ErrRec := []
  seq : Nat := 0
  nextSlot : Nat := 0
  deriving DecidableEq, Repr, Inhabited

/-! ### Clock, power, boot and modes -/

/-- The clock, reset and supply supervisor's clock side (R27 to R33). -/
structure Clk where
  /-- time base at the latest CLK_TICK, ns -/
  time : Nat := 0
  /-- fraction of the time base kept by the rate correction and the slew, 10^-6 ns -/
  frac : Int := 0
  /-- CLK_MGT cycles since that tick -/
  sub : Nat := 0
  /-- CLK_TICKs since front-die reset -/
  ticks : Nat := 0
  /-- pixel-die copy less front-die copy, ns -/
  pixSkew : Int := 0
  /-- trimmed span of the monitor window, REFCLK periods -/
  window : Nat := 1000
  /-- consecutive windows outside the loss limits -/
  badRun : Nat := 0
  /-- consecutive windows that satisfy R32 -/
  goodRun : Nat := 0
  lastEdges : Nat := 0
  lostAt : Nat := 0
  /-- restored: the root PLL returns at the next CLK_TICK -/
  rootReturn : Bool := false
  /-- the front die runs from the backup oscillator -/
  onBackup : Bool := true
  /-- divider to switch to at the next line-slot boundary -/
  divNext : Option Nat := none
  deriving DecidableEq, Repr, Inhabited

/-- Pins the part drives or samples as levels. Each Bool is true while the pin is at the level its name says. -/
structure Pins where
  pixPwrEn : Bool := false
  dieLinkIsolated : Bool := true
  canStbyHigh : Bool := true
  alertLow : Bool := false
  wakeLow : Bool := false
  perstLow : Bool := true
  sysRstLow : Bool := false
  spCs0Low : Bool := false
  deriving DecidableEq, Repr, Inhabited

/-- The rail monitor (R49): level and declared fault of each rail, in the order of Table 2.10. -/
structure Rails where
  /-- the six rails of the pixel die are down while PIX_PWR_EN is low (R51) -/
  level : List RailLevel := List.replicate 6 .under ++ List.replicate 5 .inRange
  fault : List Bool := List.replicate 11 false
  /-- faults declared before Gnoner is ready, oldest first: rail and whether above its range (R49, assumption 115) -/
  waiting : List (Nat × Bool) := []
  /-- failed pixel-die starts in a row (R480) -/
  failedStarts : Nat := 0
  deriving DecidableEq, Repr, Inhabited

/-- The phases of the boot ROM (R455, R456). -/
inductive BootPhase | held | verifying | starting | ready | dead
  deriving DecidableEq, Repr, Inhabited

/-- The boot ROM and Gnoner's start. -/
structure Boot where
  phase : BootPhase := .held
  verified : List Bool := [false, false]
  slot : Nat := 0
  /-- consecutive failures of the slot being started -/
  failures : Nat := 0
  /-- slot whose failures led to a fallback -/
  fellFrom : Option Nat := none
  /-- cause of the latest reset (R468) -/
  cause : Nat := 1
  /-- the management controller is restarting (HKP restart, R483) -/
  hkpRestart : Bool := false
  deriving DecidableEq, Repr, Inhabited

/-- Why the pixel die runs (R457, R464). -/
inductive PixelUse | off | full | hostOnly
  deriving DecidableEq, Repr, Inhabited

/-- Modes and transitions (R462 to R466, R472). -/
structure Mode where
  /-- transition in progress: 0 none, 1 to run, 2 to standby, 3 to deep standby -/
  going : Nat := 0
  /-- MODE_REQUEST value held during start-up -/
  heldRequest : Nat := 1
  /-- pixel die start in progress or done, and for what -/
  pixelUse : PixelUse := .off
  /-- PERST_N was deasserted in standby: the pixel die runs for the host link (R464) -/
  hostCall : Bool := false
  /-- channels trained in the start in progress -/
  trained : List Bool := [false, false]
  /-- single-channel mode (R477), and the channel in service -/
  single : Bool := false
  onCh : Nat := 0
  /-- lane groups in service since the latest self-test -/
  lanes : Nat := 0xF
  /-- the safe state was entered after a thermal shutdown (R187) -/
  thermal : Bool := false
  /-- the management controller sleeps (deep standby) -/
  asleep : Bool := false
  /-- a wake is in progress -/
  waking : Bool := false
  deriving DecidableEq, Repr, Inhabited

/-! ### Non-volatile memory -/

/-- A parameter image (R446). -/
structure Image where
  seq : Nat
  marks : Nat
  values : Dict
  domains : List (Nat × List Byte)
  deriving DecidableEq, Repr, Inhabited

/-- An anchor record (R449). -/
structure Anchor where
  factoryCrc : Nat
  temp : Int
  time : Nat
  seq : Nat
  deriving DecidableEq, Repr, Inhabited

/-- The trims of one calibration target: its codes, for a converter also CONV_OFFSET and CONV_GAIN. -/
abbrev TrimCodes := List Int

/-- A trim group pair (R450): target, trim set, the codes of the group with the newer generation and of the other (empty where that group
holds none), and the newer generation. -/
structure TrimPair where
  target : Nat
  set : Nat
  cur : TrimCodes
  prev : TrimCodes
  gen : Nat
  deriving DecidableEq, Repr, Inhabited

/-- Writes to the NVM that can wait (R451, R54). -/
inductive NvmWrite
  | count (counter by' : Nat)
  | log (r : ErrRec)
  | anchor (set : Nat) (a : Anchor)
  /-- new codes of a target in a trim set, which go into the older group -/
  | trim (target set : Nat) (codes : TrimCodes)
  /-- a revert: the older group again with the next generation; `codes` are what it stands for where it holds none -/
  | revert (target set : Nat) (codes : TrimCodes)
  /-- a group of a write that has begun, written again (R443, R469) -/
  | again
  deriving DecidableEq, Repr, Inhabited

/-- A monotonic counter (R447): its two copies, `none` where unreadable. -/
structure NvmCounter where
  num : Nat
  a : Option Nat
  b : Option Nat
  deriving DecidableEq, Repr, Inhabited

/-- A Gnoner slot (Table 16.1): whether its magic stands, its release, the bytes an update has written into it, and which offsets those
are: offset and length of each write, none where the slot is as the factory left it. -/
structure Slot' where
  magic : Bool := true
  release : Nat := 0x0207
  bytes : Memory := []
  written : List (Nat × Nat) := []
  deriving DecidableEq, Repr, Inhabited

/-- A store or restore in progress: the image being written and whether it goes into image B. -/
structure StoreJob where
  image : Image
  intoB : Bool
  /-- its first group write has begun; otherwise it waits for VANA (R54) -/
  begun : Bool := true
  deriving DecidableEq, Repr, Inhabited

/-- What a write replaced, by which it is undone where it had not begun when an interruption came (R444). -/
inductive NvmUndo
  | count (old : NvmCounter)
  /-- sequence of the record, the record its slot held, and the newest sequence before it -/
  | log (q : Nat) (old : Option LogRec) (newest : Nat)
  | anchor (set : Nat) (old : Option Anchor × Option Anchor) (intoB : Bool)
  | trim (target set : Nat) (old : Option TrimPair)
  deriving DecidableEq, Repr, Inhabited

/-- A write that may still be in progress (R444): when it begins and is over at the latest, by the part's own timers, and its groups. -/
structure NvmBusy where
  start : Nat
  ends : Nat
  groups : Nat
  undo : NvmUndo
  deriving DecidableEq, Repr, Inhabited

/-- A mailbox request that writes a Gnoner slot and waits (R54, R461): its channel, and the bytes of an image write or the verdict on the
signature of a commit. -/
inductive SlotRequest
  | image (ch : Nat) (data : List Byte)
  | commit (ch : Nat) (sigOk : Bool)
  deriving DecidableEq, Repr, Inhabited

/-- The non-volatile memory and its controller. -/
structure Nvm where
  imageA : Option Image := none
  imageB : Option Image := none
  counters : List NvmCounter := []
  /-- valid log records, newest first, at most 4096 -/
  log : List LogRec := []
  logSeq : Nat := 0
  /-- two anchor slots per set -/
  anchors : List (Option Anchor × Option Anchor) := List.replicate 32 (none, none)
  trims : List TrimPair := []
  slots : List Slot' := [{}, {}]
  /-- guarded and counter writes that wait for the thermal condition of R451 to end -/
  held : List NvmWrite := []
  /-- writes that wait for VANA to return (R54) -/
  vanaWait : List NvmWrite := []
  /-- group writes that may still be in progress, oldest first (R444) -/
  writing : List NvmBusy := []
  /-- requests of Gnoner that write a slot and wait for VANA (R54) -/
  gnonerWaits : List SlotRequest := []
  job : Option StoreJob := none
  /-- the latest store or restore was lost in a reset (STORE_STATE 2) -/
  storeLost : Bool := false
  /-- the condition of R451 holds -/
  holding : Bool := false
  deriving DecidableEq, Repr, Inhabited

/-! ### Serial port -/

/-- A request the slave carries out (Table 15.2). -/
structure SpRequest where
  alive : Nat
  opcode : Nat
  idx : Nat
  sub : Nat
  count : Nat
  data : List Byte
  deriving DecidableEq, Repr, Inhabited

/-- The serial-port slave (R428 to R434). -/
structure Sps where
  lastAlive : Option Nat := none
  bad : Bool := false
  alive : Bool := false
  dropped : Bool := false
  /-- reply kept: alive counter and payload -/
  reply : Option (Nat × List Byte) := none
  /-- request accepted, not yet carried out -/
  request : Option SpRequest := none
  /-- its answer, not yet ready -/
  answer : Option (Nat × List Byte) := none
  /-- open DOMAIN transfer: key and bytes received -/
  transfer : Option (Nat × List Byte) := none
  /-- change to master waits for SP_CS0_N to rise -/
  toMaster : Bool := false
  deriving DecidableEq, Repr, Inhabited

/-- Who asked for a flash sequence. -/
inductive FlashUser | xip | copy | save (set : Nat)
  deriving DecidableEq, Repr, Inhabited

/-- A program or erase in progress (R438). -/
structure FlashSeq where
  erase : Bool
  off : Nat
  user : FlashUser
  deriving DecidableEq, Repr, Inhabited

/-- The serial-port master (R435 to R439). -/
structure Spm where
  /-- end of the latest window read: offset after it and its instant -/
  lastRead : Option (Nat × Nat) := none
  /-- page buffer: window offset of its first byte and its bytes -/
  page : Option (Nat × List Byte) := none
  seq : Option FlashSeq := none
  /-- pages and reads that wait for a sequence to end -/
  waitPages : List (Nat × List Byte) := []
  waitReads : List (Nat × Nat) := []
  /-- copy in progress: next window offset, next DRAM address, bytes left, and whether the sector is erased -/
  copy : Option (Nat × Nat × Nat × Bool) := none
  deriving DecidableEq, Repr, Inhabited

/-! ### PCIe, CAN FD, Psirel -/

/-- What configuration space of a function reports (R2, R363 to R365, R371): identity, subsystem, whether the device has more than
one function, its BARs as number, size in bytes and whether prefetchable, and its exit latencies as bounds in ns. -/
structure PcieFunction where
  vendor : Nat
  device : Nat := 0x4816
  revision : Nat := 0x21
  classCode : Nat := 0x048000
  subVendor : Nat
  subDevice : Nat
  multi : Bool
  bars : List (Nat × Nat × Bool)
  l0sExit : Nat × Nat := (1000, 2000)
  l1Exit : Nat × Nat := (8000, 16000)
  deriving DecidableEq, Repr, Inhabited

/-- The PCIe endpoint (R363 to R372). -/
structure Pcie where
  /-- configuration space of Functions 0 and 1 since the endpoint last started with it reset; none where there is none -/
  function0 : Option PcieFunction := none
  function1 : Option PcieFunction := none
  /-- link power states that the host has enabled -/
  aspmL0s : Bool := false
  aspmL1 : Bool := false
  aspmL12 : Bool := false
  busMaster0 : Bool := false
  busMaster1 : Bool := false
  d3hot0 : Bool := false
  d3hot1 : Bool := false
  pmeEn : Bool := false
  pmeStatus : Bool := false
  /-- PME_Turn_Off has brought the link to L2 -/
  l2 : Bool := false
  /-- AER uncorrectable and correctable status -/
  aerUnc : Nat := 0
  aerCor : Nat := 0
  /-- mask and pending bits of the MSI-X tables of Functions 0 and 1 -/
  mask0 : Nat := 0xFFFFFFFFFFFFFFFF
  pend0 : Nat := 0
  mask1 : Nat := 0xFF
  pend1 : Nat := 0
  /-- PCIE_SUBSYSTEM_ID as of the latest start of configuration space (R365) -/
  subsystem : Nat := 0x4816
  deriving DecidableEq, Repr, Inhabited

/-- An EMCY message waiting or to send (R379): error code, then region, code and sequence of the record. -/
structure Emcy where
  code : Nat
  reg : Nat
  region : Nat
  recCode : Nat
  seq : Nat
  deriving DecidableEq, Repr, Inhabited

/-- A USDO session (R378). -/
structure Usdo where
  isWrite : Bool
  key : Nat
  len : Nat
  /-- bytes of a download so far, or those of an upload still to answer -/
  data : List Byte
  deriving DecidableEq, Repr, Inhabited

/-- A transmit PDO's inhibit state (R381). -/
structure Tpdo where
  inhibited : Bool := false
  waiting : Bool := false
  deriving DecidableEq, Repr, Inhabited

/-- The CAN FD controller and the CANopen stack (R374 to R385). -/
structure Can where
  emcyQueue : List Emcy := []
  emcyInhibited : Bool := false
  usdo : Option Usdo := none
  tpdo : List Tpdo := List.replicate 4 {}
  /-- transmit error count, counted past the 8 bits its object shows -/
  tec : Nat := 0
  rec' : Nat := 0
  /-- bit times of the latest frames received while calibrating, newest first, at most 4 (R376) -/
  times : List Nat := []
  /-- bus off, until the recovery sequence ends -/
  off : Bool := false
  calibrating : Bool := false
  locked : Bool := false
  deriving DecidableEq, Repr, Inhabited

/-- A trigger waiting for delivery (R397): its target time, and a bit for each head it is still to be delivered to. -/
structure Trigger where
  target : Nat
  heads : Nat
  deriving DecidableEq, Repr, Inhabited

/-- The Psirel link (R388 to R399). -/
structure Psi where
  /-- T of the previous valid mark -/
  lastT : Option Nat := none
  /-- consecutive valid marks within 10 ns -/
  good : Nat := 0
  /-- integral part of the rate correction, 1/1000 ppm -/
  integ : Int := 0
  /-- the latest 64 valid return measurements, newest first -/
  returns : List Nat := []
  /-- last valid C -/
  lastC : Option Nat := none
  stepSeq : Nat := 0
  /-- slew still to apply, 10^-6 ns -/
  slew : Int := 0
  /-- time the next mark instant takes (R396) -/
  setTime : Option Nat := none
  trigSeq : Nat := 0
  waiting : List Trigger := []
  /-- state that the latest return measurement found, kept while PSIREL_RET_ENABLE is 0 -/
  lastRet : Nat := 0
  inputInvalid : Bool := false
  linkOff : Bool := false
  deriving DecidableEq, Repr, Inhabited

/-! ### Mailboxes and DMA -/

/-- A request in Gnoner's store (R409): its words, and its reply once formed. -/
structure MbxRequest where
  words : List Nat
  reply : Option (List Nat)
  deriving DecidableEq, Repr, Inhabited

/-- A mailbox channel's state beside its objects. -/
structure Mbx where
  store : List MbxRequest := []
  /-- instant of the latest take, for R408 -/
  takenAt : Option Nat := none
  timeoutRaised : Bool := false
  d2hTimedOut : Bool := false
  deriving DecidableEq, Repr, Inhabited

/-- A DMA channel's state beside its objects. -/
structure DmaCh where
  row : Nat := 0
  plane : Nat := 0
  moved : Nat := 0
  flags : Nat := 0
  frame : Nat := 0
  /-- frame number announced by the pacing request that is asserted and not used -/
  asserted : Option Nat := none
  /-- bytes overwritten by the transfer in progress, with their values before it (R417) -/
  before : List Host.Cell := []
  deriving DecidableEq, Repr, Inhabited

/-- The grant in progress (R415). -/
structure Grant where
  ch : Nat
  src : List Byte
  withdrawn : Bool
  deriving DecidableEq, Repr, Inhabited

/-- The DMA engine. -/
structure Dma where
  chans : List DmaCh := List.replicate 16 {}
  grant : Option Grant := none
  lastGranted : Nat := 15
  /-- pacing requests asserted, by request number -/
  reqs : List Bool := List.replicate 12 false
  deriving DecidableEq, Repr, Inhabited

/-! ### Actuators -/

/-- Who asked for an operation (R277). -/
inductive ActUser | panel | solstice | park
  deriving DecidableEq, Repr, Inhabited

/-- A profile as latched at boost start (R264). -/
structure Profile where
  peak : Int := 0
  hold : Int := 0
  holdTime : Nat := 0
  boostTimeout : Nat := 0
  tMin : Nat := 0
  tMax : Nat := 0
  motionCheck : Bool := false
  dip : Int := 0
  decayTimeout : Nat := 0
  dwell : Nat := 0
  deriving DecidableEq, Repr, Inhabited

/-- An actuator channel's operation. -/
structure ActCh where
  user : ActUser := .panel
  profile : Profile := {}
  boostAt : Nat := 0
  /-- the operation began in shutter mode -/
  shutter : Bool := false
  tPeak : Nat := 0
  tNorm : Nat := 0
  motion : Nat := 0
  energy : Nat := 0
  /-- result the operation will end with -/
  result : Nat := 1
  /-- the highest of the samples known -/
  highest : Nat := 0
  deriving DecidableEq, Repr, Inhabited

/-- An actuator bank. -/
structure ActBank where
  /-- channels waiting in order of arrival, with who asked, and the instant of the latest panel command that joined them -/
  queue : List (Nat × ActUser) := []
  queuedAt : Nat := 0
  latched : Bool := false
  /-- the latch is for an output switched off for overcurrent (Table 3.11) -/
  overcurrent : Bool := false
  testing : Bool := false
  /-- conditions found in the latest off-state test -/
  found : Nat := 0
  /-- held by clamp energy (R270) -/
  clampHeld : Bool := false
  /-- parking: 0 no, 1 waiting for a running operation, 2 the park operation pends or runs, 3 finished -/
  park : Nat := 0
  /-- what the bank has reported to Solstice: 0 nothing, 1 closed, 2 open, 3 faulty (R277) -/
  report : Nat := 0
  deriving DecidableEq, Repr, Inhabited

/-- The actuator driver. -/
structure Act where
  chans : List ActCh := List.replicate 4 {}
  banks : List ActBank := List.replicate 2 {}
  /-- clamp-energy estimates of the last 1 s: instant and µJ -/
  clamp : List (Nat × Nat) := []
  reversed : Bool := false
  /-- no operation starts until the clamp power has fallen (R270) -/
  holdoff : Bool := false
  /-- a park has begun, and has finished (R278) -/
  parking : Bool := false
  parked : Bool := false
  deriving DecidableEq, Repr, Inhabited

/-! ### Heads and converters -/

/-- Phases of a head's start (Table 4.7): none, the supply settles, the script runs, the biases ramp, the next frame
start begins verification. -/
inductive StartPhase | idle | supply | script | ramp | frame
  deriving DecidableEq, Repr, Inhabited

/-- Whose configuration transaction it is (R127 to R130). -/
inductive CfgUser | request | script | compare | check | tfpa
  deriving DecidableEq, Repr, Inhabited

/-- A configuration transaction. -/
structure CfgTx where
  user : CfgUser
  read : Bool
  addr : Nat
  data : Nat
  deriving DecidableEq, Repr, Inhabited

/-- A head port beside its objects. -/
structure HeadPort where
  /-- the frame timing runs -/
  timing : Bool := false
  phase : StartPhase := .idle
  /-- verification frames begun -/
  verified : Nat := 0
  /-- the next frame start is the first with RUN_STATE 3 after a start or reconnection -/
  firstGood : Bool := false
  /-- the head was lost and has had no good frame since: its frames carry HEAD_LOST -/
  lost : Bool := false
  /-- the head was lost for the overcurrent of a bias output, which is switched off for it (R106) -/
  biasOver : Bool := false
  retrying : Bool := false
  /-- retries failed since the head last ran -/
  failed : Nat := 0
  /-- a stop waits for the current frame to end; then the biases ramp down -/
  lastFrame : Bool := false
  /-- a write of 1 was accepted while stopping -/
  restart : Bool := false
  /-- MCLK runs -/
  mclk : Bool := false
  /-- instant of the latest frame start -/
  startAt : Nat := 0
  /-- instant of the frame start that an accepted trigger brings, in 1/6 ns -/
  trigAt : Option Nat := none
  /-- runs free after a missed trigger (R121) -/
  freeRun : Bool := false
  /-- the frame is in its leap line or blanking -/
  gap : Bool := false
  /-- row lines delivered in the current frame -/
  rows : Nat := 0
  /-- script bytes still to run, and whether a wait entry runs -/
  script : List Byte := []
  scriptWait : Bool := false
  queue : List CfgTx := []
  active : Option CfgTx := none
  cfgSeq : Nat := 0
  checkRun : Nat := 0
  /-- a value of TFPA_REGISTER read since the latest housekeeping round, which the next round reports (R130) -/
  tfpaReg : Option Int := none
  /-- bias outputs now, and their targets, in 2^-16 µV -/
  bias : List Nat := List.replicate 8 0
  target : List Nat := List.replicate 8 0
  /-- code of each target -/
  codes : List Nat := List.replicate 8 0
  /-- bias codes of the band as last applied, before BIAS_LIMIT (R123) -/
  raw : List Nat := List.replicate 8 0
  /-- a bit for each bias output in current limit -/
  biasLimited : Nat := 0
  /-- completed rounds in a row below SUP_MIN_CURRENT, and below BIAS_MIN_CURRENT of each output -/
  supLow : Nat := 0
  biasLow : List Nat := List.replicate 8 0
  /-- taps whose latest test found them open, and pairs (tested, other) whose latest test found a short -/
  opens : List Nat := []
  shorts : List (Nat × Nat) := []
  /-- per tap, sum and count of sample less reference over the verification frame, and frames in a row that found the
  tap reversed -/
  vSum : List Int := List.replicate 16 0
  vCount : List Nat := List.replicate 16 0
  vRun : List Nat := List.replicate 16 0
  /-- the next frame is marked CAL_GAP -/
  calGap : Bool := false
  /-- a trim revert applies at the next frame start -/
  revert : Bool := false
  /-- coefficient set in force -/
  set : Option Nat := none
  /-- the set that R191 has counted as missing -/
  missing : Option Nat := none
  /-- throttle level in force for the head's frames (R182), and L3 pacing's latest processed frame start -/
  level : Nat := 0
  pacedAt : Option Nat := none
  deriving DecidableEq, Repr, Inhabited

/-- Trims of one converter in one trim set (R200): analogue offset and gain codes, CONV_OFFSET and CONV_GAIN. -/
structure Trim where
  off : Int
  gain : Int
  oc : Int
  gc : Int
  deriving DecidableEq, Repr, Inhabited

/-- Trims kept for a converter in a trim set: the set that is not in force, or the previous trims. -/
structure KeptTrim where
  conv : Nat
  set : Nat
  trim : Trim
  deriving DecidableEq, Repr, Inhabited

/-- How far a calibration substitution has come (R154). -/
inductive SubPhase | waiting | joined | standing | rejoined
  deriving DecidableEq, Repr, Inhabited

/-- A calibration substitution: converter, slot and spare. -/
structure Subst where
  conv : Nat
  slot : Nat
  spare : Nat
  phase : SubPhase
  deriving DecidableEq, Repr, Inhabited

/-- A reset of a converter, or of its whole bank (converter 0xFF), as samples meet it (R158): from the start of the conversion that did not
end to the end of the reset, in 1/6 ns; open while the reset lasts. -/
structure ConvGap where
  conv : Nat
  since : Nat
  upTo : Option Nat := none
  deriving DecidableEq, Repr, Inhabited

/-- A converter bank beside its objects. -/
structure ConvBank where
  /-- trim set in force -/
  set : Nat := 0
  /-- trims of the sets not in force, and the previous trims of each set -/
  kept : List KeptTrim := []
  prev : List KeptTrim := []
  sub : Option Subst := none
  /-- instants of the watchdog resets of each converter, and converters in reset -/
  resets : List (Nat × Nat) := []
  inReset : List Nat := []
  /-- resets of the current frame, whose samples carry MISS -/
  gaps : List ConvGap := []
  /-- retired converters whose slot waits for a spare, with the slot -/
  retiring : List (Nat × Nat) := []
  /-- new trims that the converter under calibration takes with its slot -/
  fresh : Option (Nat × Trim) := none
  deriving DecidableEq, Repr, Inhabited

/-- A leap-line target: a tap's AFE offset or a bias DAC. -/
inductive LeapTarget | afe (tap : Nat) | bias (b : Nat)
  deriving DecidableEq, Repr, Inhabited

/-- The calibration unit (R193 to R200). -/
structure Cal where
  /-- converters still to calibrate in each bank, in order; the head of the list is under calibration -/
  conv : List (List Nat) := List.replicate 4 []
  /-- leap-line steps still to make at each head -/
  leap : List (List LeapTarget) := List.replicate 4 []
  /-- reference buffers still to compare -/
  refbuf : List Nat := []
  running : Bool := false
  /-- the run stops after its current target -/
  stopping : Bool := false
  held : Bool := false
  /-- a round has judged VREF_EXT since the management controller became ready or woke (R193) -/
  judged : Bool := false
  /-- trims before the latest change, for CAL_REVERT: AFE codes and bias codes per head, and buffer codes -/
  prevAfe : List (List (Option Int)) := List.replicate 4 (List.replicate 16 none)
  prevBias : List (List (Option Int)) := List.replicate 4 (List.replicate 8 none)
  prevRef : List (Option Int) := [none, none]
  /-- reference-buffer codes that a revert brings at the next leap line -/
  refRevert : List (Option Int) := [none, none]
  deriving DecidableEq, Repr, Inhabited

/-! ### Housekeeping and temperature -/

/-- An urgent conversion (R166): channel, member, the instant at which it samples its input, and its sequence. -/
structure Urgent where
  ch : Nat
  member : Nat
  time : Nat
  seq : Nat
  deriving DecidableEq, Repr, Inhabited

/-- The housekeeping converters (R162 to R169). -/
structure Hk where
  /-- rounds run -/
  on : Bool := false
  /-- a round is in progress, its time base instant, and A and HK_SETTLE as it started -/
  round : Bool := false
  roundTime : Nat := 0
  average : Nat := 16
  settle : Nat := 4000
  /-- HK0 and HK1 work on the round; they wait for an urgent conversion before they start it -/
  busy : List Bool := [false, false]
  waits : List Bool := [false, false]
  /-- when the latest watchdog reset of HK0 and HK1 began, by the part's own timers -/
  reset : List (Option Nat) := [none, none]
  /-- when HK0 and HK1 began their parts of the round, by the part's own timers -/
  starts : List Nat := [0, 0]
  /-- members of the round whose slot has come, as `hkMember` numbers them, and whether they could be measured in it (R163) -/
  judged : List (Nat × Bool) := []
  /-- urgent conversion running on HK0 and HK1 -/
  urgent : List (Option Urgent) := [none, none]
  urgentSeq : Nat := 0
  deriving DecidableEq, Repr, Inhabited

/-- A completed round as R176 needs it: its HK_ROUND_TIME and the readings of the valid sensors. -/
structure RoundTemps where
  time : Nat
  temps : List (Option Int)
  deriving DecidableEq, Repr, Inhabited

/-- The thermal manager (R172 to R187). -/
structure Thermal where
  rounds : List RoundTemps := []
  /-- rounds in a row beyond the spread, and within it, of each die sensor -/
  beyond : List Nat := List.replicate 11 0
  within' : List Nat := List.replicate 11 0
  /-- pixel-die sensors that were failed when the pixel die stopped -/
  wasFailed : List Nat := []
  /-- floors of R181 by sensor entries: sensor and level -/
  floors : List (Nat × Nat) := []
  /-- instant at which a die sensor last exceeded its rate limit (R177) -/
  rateAt : Option Nat := none
  /-- a round has completed since PIXEL_DIE_STATE read 2 -/
  pixelRound : Bool := false
  /-- the latest round was below the threshold of R180 -/
  below : Bool := false
  /-- band of DRAM_REFRESH_BOUND in which each channel's reading lies (R192) -/
  refBand : List Nat := [0, 0]
  /-- no front-die sensor was valid in the latest round -/
  blind : Bool := false
  /-- a valid die sensor read at or above THERMAL_SHUTDOWN in the latest round -/
  tripped : Bool := false
  /-- v_trip of the comparators of the front die and the pixel die, µV; none before front-die start (R186) -/
  vTrip : List (Option Int) := [none, none]
  deriving DecidableEq, Repr, Inhabited

/-! ### The Onion store and Solstice -/

/-- The layers of a resident set (Table 8.1) and where they lie in DRAM. -/
structure SetData where
  view : List Nat
  shadow : List Int
  base : Nat
  factoryCrc : Nat
  /-- anchors that belong to the shadow -/
  shadowTemp : Int := 0
  shadowTime : Nat := 0
  deriving DecidableEq, Repr, Inhabited

/-- What a pass writes (R235). -/
inductive PassKind | revert | commit
  deriving DecidableEq, Repr, Inhabited

/-- A pass over a set; `waits` until its owner's next frame start. -/
structure Pass where
  set : Nat
  kind : PassKind
  waits : Bool
  deriving DecidableEq, Repr, Inhabited

/-- A load in progress (R234). -/
structure SetLoad where
  set : Nat
  host : Bool
  zero : Bool
  /-- first byte of the image, in the XIP window or in host memory -/
  src : Nat := 0
  /-- the DMA channel that carries it -/
  ch : Nat := 0
  deriving DecidableEq, Repr, Inhabited

/-- The Onion store. -/
structure Onion where
  sets : List (Option SetData) := List.replicate 32 none
  passes : List Pass := []
  load : Option SetLoad := none
  /-- boot loads still to begin (R240) -/
  boot : List Nat := []
  loadSeq : Nat := 0
  /-- save in progress: set and field sequence at its start -/
  save : Option (Nat × Nat) := none
  saves : List Nat := []
  deriving DecidableEq, Repr, Inhabited

/-- An event of Solstice (R249). -/
structure SolEvent where
  n : Nat
  close : Nat
  settle : Nat
  reopen : Nat
  set : Nat
  restarts : Nat := 0
  /-- a close has been commanded -/
  shut : Bool := false
  /-- an open is due at the next frame start -/
  opening : Bool := false
  /-- the commit pass has completed -/
  done : Bool := false
  /-- the band changed during the event -/
  band : Bool := false
  /-- the event has been abandoned -/
  abandoned : Bool := false
  /-- reopening frames that had passed when the shutter was found stuck -/
  passed : Nat := 0
  deriving DecidableEq, Repr, Inhabited

/-- Solstice of a head beside its objects. -/
structure Solstice where
  ev : Option SolEvent := none
  /-- averaging frames begun -/
  frames : Nat := 0
  acc : List Accum := []
  /-- sum and count of the blind samples of each column, long and short -/
  sums : List (List (Int × Nat)) := [[], []]
  temp : Int := 0
  cap : Nat := 0
  /-- set under the commit pass and what the pass writes: E by record, counts P, mean, kept and clamped -/
  pass : Option Nat := none
  newE : List Int := []
  result : List Int := []
  /-- Equinox anchors of the event, which the first frame after reopening takes -/
  anchors : List (List (Option Int)) := []
  handOver : Bool := false
  /-- end of the latest event, and whether it was abandoned -/
  lastEnd : Option Nat := none
  lastAbandoned : Bool := false
  deriving DecidableEq, Repr, Inhabited

/-! ### Sources, the pixel path and statistics -/

/-- A line in a source's FIFO (R311). A thermal line carries the samples of one or two integrations; a visible line
carries stored values. `row` counts the lines of the readout. -/
structure Line where
  frame : Nat
  row : Nat
  samples : List (List Sample)
  pixels : List Nat
  tapsOut : Nat
  deadline : Nat
  /-- it has been processed by its grant -/
  done : Bool
  deriving DecidableEq, Repr, Inhabited

/-- A sample after step 5. -/
structure Sample5 where
  y : Int
  code : Nat
  ovr : Bool
  rec' : Bool
  miss : Bool
  tapOut : Bool
  deriving DecidableEq, Repr, Inhabited

/-- A row of a frame in progress: its samples by integration, and the columns whose record, state word or accumulator
the DRAM controller reported uncorrectable. -/
structure RowWork where
  row : Nat
  samples : List (List Sample5)
  pixels : List Nat
  badRec : List Nat
  badState : List Nat
  badAcc : List Nat
  deriving DecidableEq, Repr, Inhabited

/-- The stored frame of a source (R20), or the image of a stream frame. `alarmOf` names the source and frame whose record
gives the alarm state. -/
structure Stored where
  rows : Rows
  y16f : Bool
  number : Nat
  cap : Nat
  marks : Nat
  band : Nat
  sat : Nat
  ovr : Nat
  alarmOf : Option (Nat × Nat)
  /-- ALARM_STATE after the statistics of that frame, once its record is complete -/
  alarm : Option Nat := none
  deriving DecidableEq, Repr, Inhabited

/-- A fusion channel for one visible frame: the thermal frame latched, the palette copy and the objects (R319). -/
structure Fusion where
  latched : Option Stored := none
  colours : List Nat := []
  par : Dict := []
  deriving DecidableEq, Repr, Inhabited

/-- A frame of a source in progress: what it is, the parameter set formed at its start (R206, R281), and its rows. -/
structure Work where
  id : Nat
  number : Nat
  cap : Nat
  marks : Nat := 0
  band : Nat := 0xFF
  /-- a real frame: the start of a substitute frame triggers no rule but its own (R307) -/
  real : Bool := true
  /-- steps 4 to 8 run -/
  front : Bool := false
  /-- steps 9 to 12 run as well; otherwise the frame repeats the stored frame -/
  process : Bool := false
  /-- an averaging frame of Solstice: its samples are accumulated -/
  average : Bool := false
  /-- the frame is not delivered at all -/
  silent : Bool := false
  /-- objects of the source as its frame start left them -/
  par : Dict := []
  records : List Nat := []
  /-- first byte in DRAM of the view they were read from -/
  recBase : Nat := 0
  dT : Int := 0
  tFpa : Int := 0
  tRef : Int := 0
  /-- R encoding rho, 0 for a single integration -/
  rho : Nat := 0
  resp : Nat := 0
  lin : List Int := []
  temp : List Nat := []
  rad : List Int := []
  tnrSeed : Bool := false
  bypassSnr : Bool := false
  eqxSeed : Bool := false
  /-- Equinox anchors that the frame takes from a Solstice; none when empty -/
  anchors : List (List (Option Int)) := []
  /-- C and K of the compensation sets in use -/
  comp : List (Option (Int × Nat)) := []
  /-- the fusion channel of a visible source -/
  fuse : Option Fusion := none
  rows : List RowWork := []
  /-- lines still in the FIFO, and whether no more will come -/
  left : Nat := 0
  closed : Bool := false
  sat : Nat := 0
  ovr : Nat := 0
  deriving DecidableEq, Repr, Inhabited

/-- An ROI entry of a record (Table 12.5). -/
structure RoiEntry where
  r : RoiResult
  alarms : Nat
  enabled : Bool
  deriving DecidableEq, Repr, Inhabited

/-- A statistics record (R356). -/
structure StatRec where
  source : Nat
  flags : Nat
  number : Nat
  seq : Nat
  cap : Nat
  marks : Nat
  band : Nat
  values : Nat
  hist : Hist
  below : Nat
  above : Nat
  under : Nat
  beyond : Nat
  alarm : Nat
  rois : List RoiEntry
  deriving DecidableEq, Repr, Inhabited

/-- A record whose values are formed and that is not complete yet, with the objects of its frame. -/
structure StatDue where
  rec' : StatRec
  par : Dict
  deriving DecidableEq, Repr, Inhabited

/-- A source's state on the pixel die. -/
structure Source where
  works : List Work := []
  nextId : Nat := 0
  /-- frame number of the next frame (R12, R484) -/
  nextNumber : Nat := 0
  fifo : List Line := []
  /-- deadline of the previous line of the frame -/
  deadline : Option (Nat × Nat) := none
  stored : Option Stored := none
  /-- lanes' copies of the tables; to be copied at the next frame start -/
  lin : List Int := []
  temp : List Nat := []
  rad : List Int := []
  linLoad : Bool := true
  radLoad : Bool := true
  /-- Equinox state of the long and the short integration -/
  eqx : List (List EqxCol) := [[], []]
  eqxSeed : Bool := true
  /-- Equinox is seeded at the next frame start, whether or not that frame is processed (R245) -/
  eqxNow : Bool := false
  /-- the state as the latest frame start found it (image of EQX_STATE) -/
  eqxShown : List (List EqxCol) := [[], []]
  tnr : List TnrWord := []
  /-- the next processed frame is a seed frame -/
  tnrSeed : Bool := true
  /-- the next frame is a seed frame, whether or not it is processed (TNR_ENABLE, TNR_RESEED; Table 10.2) -/
  tnrNow : Bool := false
  /-- a Solstice has ended, and the first frame not marked FROZEN is a seed frame (Table 10.2) -/
  tnrThaw : Bool := false
  /-- marks of the latest frame delivered -/
  lastMarks : Nat := 0
  /-- statistics: the latest eight records, values of the last processed frame, consecutive set conditions -/
  due : List StatDue := []
  records : List StatRec := []
  last : Option StatRec := none
  persist : List Nat := List.replicate 32 0
  /-- CSI-2: a frame is open, lines received of it, sender's frame number, an uncorrectable header since the last
  close, and whether the source has been re-opened after a loss -/
  isOpen : Bool := false
  lines : Nat := 0
  sender : Option Nat := none
  ecc : Bool := false
  /-- a line beyond SRC_HEIGHT has arrived in the open frame -/
  beyond : Bool := false
  deriving DecidableEq, Repr, Inhabited

/-- A stream frame in progress. -/
structure Job where
  /-- id of the source frame it waits for -/
  frame : Nat
  seq : Nat
  par : Dict
  throttled : Bool
  repeated : Bool := false
  /-- the image once the source frame is complete -/
  img : Option Stored := none
  window : Option (Nat × Nat) := none
  /-- number of the source frame before it, whose record AGC uses, and whether AGC has no damping state from it on -/
  agcFrom : Option Nat := none
  agcReset : Bool := false
  chTable : List Int
  cvTable : List Int
  colours : List Nat
  /-- next output line, whether the first line has looked at the ring, and the slot -/
  line : Nat := 0
  slot : Option Nat := none
  dropped : Bool := false
  deriving DecidableEq, Repr, Inhabited

/-- A stream beside its objects. -/
structure Stream where
  acceptedAt : Nat := 0
  nextSeq : Nat := 0
  count : Nat := 0
  /-- selected frames since throttling began, while it halves the stream -/
  halved : Option Nat := none
  agc : Option AgcState := none
  /-- ids of the source frames at which WINDOW_MODE went from 0 to 1 and no damping state was left (R340), until a frame from there on is
  windowed -/
  resets : List Nat := []
  window : Option (Nat × Nat) := none
  mode : Nat := 0
  chTable : List Int := []
  cvTable : List Int := []
  tableLoad : Bool := true
  full : Bool := false
  jobs : List Job := []
  deriving DecidableEq, Repr, Inhabited

/-- A copy of a statistics record to host memory that waits (R357, R424): source and record sequence. -/
structure StatCopy where
  source : Nat
  seq : Nat
  started : Bool := false
  slot : Nat := 0
  /-- the record as the copy found it when it started -/
  data : Option StatRec := none
  deriving DecidableEq, Repr, Inhabited

/-- The pixel path. -/
structure Pixel where
  sources : List Source := List.replicate 6 {}
  streams : List Stream := List.replicate 8 {}
  /-- source whose line holds the NUC lanes, and the frame-store write path -/
  grants : List (Option Nat) := [none, none]
  /-- the lane group of the granted line resets -/
  laneReset : Bool := false
  /-- on-chip palette copies, and copies in progress -/
  palettes : List (List Nat) := []
  palLoads : List (Nat × List Nat) := []
  copies : List StatCopy := []
  admitSeq : Nat := 0
  deriving DecidableEq, Repr, Inhabited

/-! ### Recovery -/

/-- A block's watchdog and reset history (R469 to R471). -/
structure BlockHist where
  block : Nat
  /-- cell resets that count, newest first: instant and cell -/
  cells : List (Nat × Nat)
  /-- instants of block resets, newest first -/
  resets : List Nat
  resetting : Bool
  /-- latest cell code and cell -/
  code : Nat
  cell : Nat
  deriving DecidableEq, Repr, Inhabited

/-- A region's recovery state (R471, R472, R474). -/
structure RegionHist where
  blocks : List BlockHist := []
  /-- scheduled restart: block that led to it (0xFF none), and 1 escalation or 2 REGION_RESET, with 2 added where it begins afresh -/
  scheduled : Option (Nat × Nat) := none
  restarting : Bool := false
  /-- block and cause of the restart in progress or latest -/
  reason : Nat × Nat := (0xFF, 2)
  /-- instants of counted restarts, newest first -/
  restarts : List Nat := []
  /-- when a restart of the region, or a reset of one of its blocks, last ended (R474) -/
  endedAt : Option Nat := none
  deriving DecidableEq, Repr, Inhabited

/-- A hardware update of an object in the CLK_MGT cycle `at'` (R82): a counter that counted `amount`, or the status bits `amount`. -/
structure Happening where
  key : Nat
  amount : Nat
  at' : Nat
  deriving DecidableEq, Repr, Inhabited

/-- Reasons a step can stop for good: none. Every command of the table has an effect the spec gives. -/
inductive Fault
  deriving DecidableEq, Repr

/-- Reasons a command has no meaning yet. -/
inductive Refusal
  /-- Raised by the arm of a command that is not modelled yet: the model stops where the part goes on (safe). -/
  | notModelled (mnemonic : String)
  deriving DecidableEq, Repr


/-- Everything but the queue of waiting commands. -/
structure Chip where
  /-- object values that differ from their defaults -/
  dict : Dict := []
  /-- F-class writes not yet applied, oldest first -/
  staged : List Staged := []
  /-- P-class values not yet applied -/
  pendingP : List (Nat × Int) := []
  /-- commands kept for a pixel-die block that is powered down (R93) -/
  kept : List (Nat × Int) := []
  /-- low halves held (R89) and high halves latched (R92) -/
  halves : List Half := []
  latches : List Half := []
  errq : List ErrQ := List.replicate 5 {}
  /-- records at block level or above entered so far (model's own, for R368) -/
  entered : Nat := 0
  clk : Clk := {}
  pins : Pins := {}
  rails : Rails := {}
  boot : Boot := {}
  mode : Mode := {}
  nvm : Nvm := {}
  /-- images of DOMAIN objects, by key; one not listed reads as its default image -/
  domains : List (Nat × List Byte) := []
  dram : Memory := []
  sps : Sps := {}
  spm : Spm := {}
  pcie : Pcie := {}
  can : Can := {}
  psi : Psi := {}
  mbx : List Mbx := List.replicate 8 {}
  dma : Dma := {}
  act : Act := {}
  heads : List HeadPort := List.replicate 4 {}
  banks : List ConvBank := List.replicate 4 {}
  cal : Cal := {}
  hk : Hk := {}
  thermal : Thermal := {}
  onion : Onion := {}
  sol : List Solstice := List.replicate 4 {}
  pix : Pixel := {}
  regions : List RegionHist := List.replicate 5 {}
  /-- hardware updates of the current CLK_MGT cycle, which a write in that cycle does not undo (R82) -/
  happened : List Happening := []
  /-- occurrences of open values so far (model's own, see `Config.freeValue`) -/
  free : Nat := 0
  /-- messages of the latest command -/
  out : List OutMsg := []
  deriving DecidableEq, Repr, Inhabited

/-- The state of the block: the part and the commands that wait, first in, first out. -/
structure State where
  chip : Chip
  pending : List Instr
  deriving DecidableEq, Repr, Inhabited

/-- The part right after front-die reset is released has begun nothing: every object at its default, nothing staged,
no record, the boot ROM waiting for its first event. -/
def Chip.reset : Chip := {}

/-- The machine right after reset, with no command waiting. -/
def State.reset : State := { chip := Chip.reset, pending := [] }

end Sys2Proof.Machine
end

