-- ==== Sys2Proof/Machine/Ops.lean ====
section
/-! DEFINITION. The named operations on the state: reading and writing objects, time, free values, memory, messages,
NVM writes, CAN and MSI-X messages, and raising an error record. Every meaning goes through these. -/

namespace Sys2Proof.Machine

/-! ### The object values -/

/-- The value listed for a key, if any. -/
def Dict.find : Dict → Nat → Option Int
  | [], _ => none
  | (k, v) :: d, key => if k = key then some v else Dict.find d key

/-- The list without an entry for a key. -/
def Dict.erase : Dict → Nat → Dict
  | [], _ => []
  | (k, v) :: d, key => if k = key then Dict.erase d key else (k, v) :: Dict.erase d key

/-- The list with a value for a key. -/
def Dict.insert : Dict → Nat → Int → Dict
  | [], key, v => [(key, v)]
  | (k, w) :: d, key, v =>
    if k = key then (key, v) :: d else if key < k then (key, v) :: (k, w) :: d else (k, w) :: Dict.insert d key v

/-- The value of a key: the one listed, or its default. -/
def Dict.get (d : Dict) (key : Nat) : Int := (d.find key).getD (objDefault key)

/-- Give a key a value; the default is not listed. -/
def Dict.put (d : Dict) (key : Nat) (v : Int) : Dict :=
  if v = objDefault key then d.erase key else d.insert key v

/-- The keys of a list rise. -/
def Dict.rising : Dict → Bool
  | [] => true
  | [_] => true
  | (k, _) :: (k', v') :: d => decide (k < k') && Dict.rising ((k', v') :: d)

/-- The canonical form: rising keys, and no entry equal to the default. -/
def Dict.wf (d : Dict) : Bool := d.rising && d.all (fun e => decide (e.2 ≠ objDefault e.1))

/-- The value of an object now in force. -/
def Chip.get (c : Chip) (key : Nat) : Int := c.dict.get key

/-- The value of an unsigned object. -/
def Chip.nat (c : Chip) (key : Nat) : Nat := (c.get key).toNat

/-- Whether a BOOL or a 0-or-1 object reads 1. -/
def Chip.on (c : Chip) (key : Nat) : Bool := decide (c.get key = 1)

/-- Give an object a value. -/
def Chip.set (c : Chip) (key : Nat) (v : Int) : Chip := { c with dict := c.dict.put key v }

/-- Give several objects values, in order. -/
def Chip.setAll (c : Chip) (l : List (Nat × Int)) : Chip := l.foldl (fun c e => c.set e.1 e.2) c

/-- A 64-bit running total counts n more and wraps (R73). -/
def Chip.total (c : Chip) (key n : Nat) : Chip := c.set key ((c.get key + n) % (2 ^ 64 : Nat))

/-- The next sequence number after `s` in a field whose largest value is `most` (R484): 0 never follows. -/
def nextSeq (s most : Nat) : Nat := if s ≥ most then 1 else s + 1

/-! ### Time, free values, messages -/

/-- CLK_MGT period in ns: 5, or 50 from the backup oscillator (R29, R30, R31). -/
def Clk.cycle (k : Clk) : Nat := if k.onBackup then 50 else 5

/-- A timestamp (R29): the time base at the latest tick and the CLK_MGT cycles since. -/
def Chip.now (c : Chip) : Nat := (c.clk.time + c.clk.cycle * c.clk.sub) % 2 ^ 64

/-- Time since front-die reset as the part's own timers count it, in CLK_TICKs and CLK_MGT cycles: a step, a slew or a
rate correction of the time base does not move it. -/
def Chip.mono (c : Chip) : Nat := c.clk.ticks * 1000 + c.clk.cycle * c.clk.sub

/-! ### Hardware updates of a cycle (R82) -/

/-- Note a hardware update; those of earlier cycles are over. -/
def Chip.note (c : Chip) (key amount : Nat) : Chip :=
  { c with happened := c.happened.filter (fun (h : Happening) => decide (h.at' = c.mono)) ++ [{ key := key, amount := amount, at' := c.mono }] }

/-- What hardware has counted of a key in this cycle. -/
def Chip.counted (c : Chip) (key : Nat) : Nat :=
  sumN ((c.happened.filter (fun (h : Happening) => decide (h.key = key ∧ h.at' = c.mono))).map (·.amount))

/-- The status bits of a key that hardware has set in this cycle. -/
def Chip.raisedBits (c : Chip) (key : Nat) : Nat :=
  (c.happened.filter (fun (h : Happening) => decide (h.key = key ∧ h.at' = c.mono))).foldl (fun (v : Nat) (h : Happening) => Nat.lor v h.amount) 0

/-- An event counter counts n more and stops at the largest value of a U32 (R73). -/
def Chip.bumpBy (c : Chip) (key n : Nat) : Chip := (c.note key n).set key (min (c.get key + n) 0xFFFFFFFF)

/-- An event counter counts one more. -/
def Chip.bump (c : Chip) (key : Nat) : Chip := c.bumpBy key 1

/-- A write of 0 to a counter (R73): an event of the same cycle is counted after it (R82). -/
def Chip.clearCount (c : Chip) (key : Nat) : Chip := c.set key (min (c.counted key) 0xFFFFFFFF : Nat)

/-- Note a status bit that hardware sets; `rises` where it goes from 0 to 1. -/
def Chip.noteBit (c : Chip) (key b : Nat) (rises : Bool) : Chip := c.note key (2 ^ b + if rises then 2 ^ (b + 32) else 0)

/-- The bits that an acknowledgement clears and that rise again in its cycle (R82, R412): those that hardware has set in it and that stood at
1 before. -/
def Chip.risesAgain (c : Chip) (key mask : Nat) : Nat :=
  clearBits (Nat.land (Nat.land mask (c.nat key)) (c.raisedBits key)) (c.raisedBits key / 2 ^ 32)

/-- The bits of a status object that a write clears: those that hardware has set in the same cycle stand after it (R82). -/
def Chip.ackBits (c : Chip) (key mask : Nat) : Chip :=
  c.set key (Nat.lor (clearBits (c.nat key) mask) (Nat.land (c.nat key) (c.raisedBits key)) : Nat)

/-- The next open value, as a natural below `2^w`. -/
def Chip.freeNat (c : Chip) (w : Nat) : Nat × Chip :=
  ((Config.freeValue c.free).toNat % 2 ^ w, { c with free := c.free + 1 })

/-- The next open bit. -/
def Chip.freeBit (c : Chip) : Bool × Chip :=
  (decide ((Config.freeValue c.free).toNat % 2 = 1), { c with free := c.free + 1 })

/-- Send or answer a message. -/
def Chip.emit (c : Chip) (m : OutMsg) : Chip := { c with out := c.out ++ [m] }

/-- Whether the pixel die runs (PIXEL_DIE_STATE 2). -/
def Chip.pixelRuns (c : Chip) : Bool := decide (c.get K.pixelDieState = 2)

/-- Whether the pixel die starts: it powers up, or its rails were present and it is isolated still (PIXEL_DIE_STATE 1 or 4, R52). -/
def Chip.pixelStarts (c : Chip) : Bool := decide (c.get K.pixelDieState = 1 ∨ c.get K.pixelDieState = 4)

/-- Whether the pixel die has its supply: it starts or runs. The PCIe endpoint works before DRAM is initialised (Table 16.2). -/
def Chip.pixelOn (c : Chip) : Bool := c.pixelStarts || c.pixelRuns

/-- Whether the pixel path and the CSI-2 receivers, the scalers and the egress unit work: the pixel die runs, and not for the host link
alone (R464). -/
def Chip.pathRuns (c : Chip) : Bool := c.pixelRuns && decide (c.mode.pixelUse = .full)

/-! ### Memory -/

/-- The byte at an address (0 where nothing is listed: DRAM is initialised to zero, R457). -/
def Memory.byte : Memory → Nat → Byte
  | [], _ => 0
  | (k, v) :: m, a => if k = a then v else Memory.byte m a

/-- The list without an entry for an address. -/
def Memory.erase : Memory → Nat → Memory
  | [], _ => []
  | (k, v) :: m, a => if k = a then Memory.erase m a else (k, v) :: Memory.erase m a

/-- The list with a byte at an address. -/
def Memory.insert : Memory → Nat → Byte → Memory
  | [], a, b => [(a, b)]
  | (k, v) :: m, a, b =>
    if k = a then (a, b) :: m else if a < k then (a, b) :: (k, v) :: m else (k, v) :: Memory.insert m a b

/-- Write one byte; a 0 is not listed. -/
def Memory.put (m : Memory) (a : Nat) (b : Byte) : Memory := if b = 0 then m.erase a else m.insert a b

/-- The addresses of a memory rise. -/
def Memory.rising : Memory → Bool
  | [] => true
  | [_] => true
  | (k, _) :: (k', v') :: m => decide (k < k') && Memory.rising ((k', v') :: m)

/-- The canonical form of a memory: rising addresses, no byte equal to 0. -/
def Memory.wf (m : Memory) : Bool := m.rising && m.all (fun e => decide (e.2 ≠ 0))

/-- n bytes from an address. -/
def Memory.read (m : Memory) : Nat → Nat → List Byte
  | _, 0 => []
  | a, n + 1 => m.byte a :: Memory.read m (a + 1) n

/-- Write bytes from an address upwards. -/
def Memory.write (m : Memory) : Nat → List Byte → Memory
  | _, [] => m
  | a, b :: bs => Memory.write (m.put a b) (a + 1) bs

/-- The image of a DOMAIN object, if one has been written. -/
def Chip.domainImage? (c : Chip) (key : Nat) : Option (List Byte) := (c.domains.find? (·.1 = key)).map (·.2)

/-- Keep an image for a DOMAIN object. -/
def Chip.putDomain (c : Chip) (key : Nat) (l : List Byte) : Chip :=
  { c with domains := c.domains.filter (fun (x : Nat × List Byte) => x.1 ≠ key) ++ [(key, l)] }

/-! ### MSI-X (R367, R371, R413) -/

/-- Whether Function 0 may send messages now: the link is up, Bus Master Enable is 1 and the function is in D0. -/
def Chip.canSend0 (c : Chip) : Bool :=
  let l := c.get K.pcieLinkState
  decide (2 ≤ l ∧ l ≤ 5) && c.pcie.busMaster0 && !c.pcie.d3hot0

/-- The same of Function 1. -/
def Chip.canSend1 (c : Chip) : Bool :=
  let l := c.get K.pcieLinkState
  decide (2 ≤ l ∧ l ≤ 5) && c.pcie.busMaster1 && !c.pcie.d3hot1

/-- Raise an MSI-X message of Function 0: sent, or kept as a pending bit while its vector is masked (R367) or the
link or the function cannot carry it (R413). The unit that raises it is on the pixel die. -/
def Chip.msix0 (c : Chip) (vec : Nat) : Chip :=
  if bitOf c.pcie.mask0 vec || !c.canSend0 then { c with pcie := { c.pcie with pend0 := putBit c.pcie.pend0 vec true } }
  else c.emit (.msix false vec)

/-- Raise an MSI-X message of Function 1. -/
def Chip.msix1 (c : Chip) (vec : Nat) : Chip :=
  if bitOf c.pcie.mask1 vec || !c.canSend1 then { c with pcie := { c.pcie with pend1 := putBit c.pcie.pend1 vec true } }
  else c.emit (.msix true vec)

/-- A wake cause (R371): in D3hot it sets PME_Status, with a PME message if PME_En is 1; in L2 it drives WAKE_N
low. -/
def Chip.wakeCause (c : Chip) : Chip :=
  let c := if c.pcie.d3hot0 then
      let c := { c with pcie := { c.pcie with pmeStatus := true } }
      if c.pcie.pmeEn then c.emit .pme else c
    else c
  if c.pcie.l2 then { c with pins := { c.pins with wakeLow := true } } else c

/-! ### NVM writes (R444 to R451, R54) -/

/-- The value of a counter: the larger of its readable copies, 0 when neither is. -/
def NvmCounter.value (n : NvmCounter) : Nat := max (n.a.getD 0) (n.b.getD 0)

/-- Add to a counter: one group write of the copy that holds the smaller value, copy A when equal (R447). -/
def NvmCounter.add (n : NvmCounter) (by' : Nat) : NvmCounter :=
  let v := (n.value + by') % 2 ^ 48
  if (n.b.getD 0) < (n.a.getD 0) then { n with b := some v } else { n with a := some v }

/-- The counter of a number (0 in both copies where nothing has been written). -/
def Nvm.counter (n : Nvm) (num : Nat) : NvmCounter :=
  (n.counters.find? (·.num = num)).getD { num := num, a := some 0, b := some 0 }

/-- What a counter object reports (R447). -/
def Nvm.reported (n : Nvm) (num : Nat) : Nat := min (n.counter num).value 0xFFFFFFFF

/-- The groups of a write are written one after another, each in at most 1.2 µs and after those of the writes before it (R444). -/
def Chip.nvmBusy (c : Chip) (groups : Nat) (undo : NvmUndo) : Chip :=
  let live := c.nvm.writing.filter (fun (b : NvmBusy) => decide (c.mono < b.ends))
  let start := (live.getLast?.map (·.ends)).getD c.mono
  let busy : NvmBusy := { start := start, ends := start + 1200 * groups, groups := groups, undo := undo }
  ({ c with nvm := { c.nvm with writing := live ++ [busy] } } : Chip).total K.nvmGroupWrites groups

/-- The trim pair of a target and a trim set. -/
def Nvm.trimPair (n : Nvm) (target set : Nat) : Option TrimPair :=
  n.trims.find? (fun (p : TrimPair) => decide (p.target = target ∧ p.set = set))

/-- The pairs with one of them replaced, or taken out. -/
def Nvm.putPair (n : Nvm) (target set : Nat) (p : Option TrimPair) : Nvm :=
  { n with trims := n.trims.filter (fun (q : TrimPair) => q.target ≠ target ∨ q.set ≠ set) ++ p.toList }

/-- A trim group is written (R450): codes go into the older group with the next generation, and the other group stays as it is. -/
def Chip.writeTrim (c : Chip) (target set : Nat) (codes : Option TrimPair → TrimCodes) : Chip :=
  let old := c.nvm.trimPair target set
  let p : TrimPair := { target := target, set := set, cur := codes old, prev := (old.map (·.cur)).getD []
                        gen := ((old.map (·.gen)).getD 0 + 1) % 16 }
  ({ c with nvm := c.nvm.putPair target set (some p) } : Chip).nvmBusy 1 (.trim target set old)

/-- The anchor slot that is written: the other than the newer (R449). -/
def anchorIntoB (pair : Option Anchor × Option Anchor) : Bool :=
  match pair with
  | (some x, some y) => decide ((x.seq + 2 ^ 32 - y.seq) % 2 ^ 32 < 2 ^ 31)
  | (some _, none) => true
  | _ => false

/-- Write one entry now. A guarded write of a log record or an anchor writes its validity group twice (R445). A log record takes the
place of the record 4096 before it (R448). -/
def Chip.nvmApply (c : Chip) (w : NvmWrite) : Chip :=
  match w with
  | .count num by' =>
    let old := c.nvm.counter num
    let l := c.nvm.counters.filter (fun (x : NvmCounter) => x.num ≠ num) ++ [old.add by']
    ({ c with nvm := { c.nvm with counters := l } } : Chip).nvmBusy 1 (.count old)
  | .log r =>
    let q := nextSeq c.nvm.logSeq 0xFFFFFFFF
    let here := fun (x : LogRec) => decide (x.q % 4096 = q % 4096)
    let old := c.nvm.log.find? here
    let n := c.nvm.logSeq
    let c := { c with nvm := { c.nvm with logSeq := q, log := LogRec.mk q r :: c.nvm.log.filter (fun x => !here x) } }
    ((c.set K.nvmLogNewest q).set K.nvmLogValid c.nvm.log.length).nvmBusy 5 (.log q old n)
  | .anchor set a =>
    let old := at' c.nvm.anchors set
    let intoB := anchorIntoB old
    let pair := if intoB then (old.1, some a) else (some a, old.2)
    ({ c with nvm := { c.nvm with anchors := modAt c.nvm.anchors set (fun _ => pair) } } : Chip).nvmBusy 5 (.anchor set old intoB)
  | .trim target set codes => c.writeTrim target set (fun _ => codes)
  | .revert target set codes => c.writeTrim target set (fun old => match old with
    | some p => if p.prev.isEmpty then codes else p.prev
    | none => codes)
  | .again => c.total K.nvmGroupWrites 1

/-- Put a write into the queue of R451; a counter increment that finds it full joins the newest queued increment of
its counter, and any other entry is discarded. -/
def Chip.nvmHold (c : Chip) (w : NvmWrite) : Chip :=
  let h := c.nvm.held
  let c := if h.length < 16 then { c with nvm := { c.nvm with held := h ++ [w] } }
    else match w with
    | .count num by' =>
      if h.any (fun x => match x with | .count n _ => decide (n = num) | _ => false) then
        let go := fun (acc : Bool × List NvmWrite) (x : NvmWrite) => match x, acc.1 with
          | .count n b, false => if n = num then (true, .count n (b + by') :: acc.2) else (false, x :: acc.2)
          | _, _ => (acc.1, x :: acc.2)
        { c with nvm := { c.nvm with held := (h.reverse.foldl go (false, [])).2 } }
      else c.bump K.nvmHeldDropped
    | _ => c.bump K.nvmHeldDropped
  c.set K.nvmHeld c.nvm.held.length

/-- Whether VANA lies below its undervoltage trip, so that no group write starts (R54). -/
def Chip.vanaLow (c : Chip) : Bool := decide (c.rails.level.getD 8 .inRange = RailLevel.under)

/-- A sensor is valid while its state reads 0 (Table 6.6). -/
def Chip.sensorValid (c : Chip) (j : Nat) : Bool := decide (c.get (K.sensorState j) = 0)

/-- The condition of R451: a valid front-die sensor above 9600, or none valid, as before the first round (Table 6.6); a MEM restart holds
the writes in the same way (Table 16.6). -/
def Chip.nvmHot (c : Chip) : Bool :=
  let front := (List.range 3).filter (fun j => c.sensorValid j)
  (at' c.regions 2).restarting || front.isEmpty || front.any (fun j => decide (9600 < c.get (K.sensorTemp j)))

/-- Whether guarded and counter writes are held (R451): the condition holds, or the queue of its time is not written yet. -/
def Chip.nvmHolds (c : Chip) : Bool := c.nvm.holding || c.nvmHot

/-- The hold begins. -/
def Chip.nvmEnterHold (c : Chip) : Chip :=
  if c.nvm.holding then c
  else
    let c := { c with nvm := { c.nvm with holding := true } }
    if c.nvm.job.isSome then c else c.set K.nvmState 2

/-- Request a guarded write or a counter write: it waits while R451 or R54 holds, and is written otherwise. -/
def Chip.nvmWrite (c : Chip) (w : NvmWrite) : Chip :=
  if c.nvmHolds then c.nvmEnterHold.nvmHold w
  else if c.vanaLow then
    { c with nvm := { c.nvm with vanaWait := c.nvm.vanaWait ++ [w] } }
  else c.nvmApply w

/-- A group of a write that has begun is written again; it waits for VANA only (R54). -/
def Chip.nvmAgain (c : Chip) : Chip :=
  if c.vanaLow then { c with nvm := { c.nvm with vanaWait := c.nvm.vanaWait ++ [.again] } } else c.nvmApply .again

/-- VANA is back above its trip: what waited for it starts (R54). -/
def Chip.nvmVanaBack (c : Chip) : Chip :=
  c.nvm.vanaWait.foldl (fun (c : Chip) (w : NvmWrite) => if w = .again then c.nvmApply w else c.nvmWrite w)
    { c with nvm := { c.nvm with vanaWait := [] } }

/-! ### Interrupted writes (R444, R445, Table 15.6) -/

/-- A write that had not begun leaves everything as it was. -/
def Nvm.undone (n : Nvm) (u : NvmUndo) : Nvm :=
  match u with
  | .count old => { n with counters := n.counters.filter (fun (x : NvmCounter) => x.num ≠ old.num) ++ [old] }
  | .log q old newest => { n with logSeq := newest, log := n.log.filter (fun (x : LogRec) => x.q ≠ q) ++ old.toList }
  | .anchor set old _ => { n with anchors := modAt n.anchors set (fun _ => old) }
  | .trim target set old => n.putPair target set old

/-- A guarded write that had begun and is not complete leaves its record invalid; what is one group is atomic. -/
def Nvm.spoilt (n : Nvm) (u : NvmUndo) : Nvm :=
  match u with
  | .log q _ newest => { n with logSeq := newest, log := n.log.filter (fun (x : LogRec) => x.q ≠ q) }
  | .anchor set old intoB => { n with anchors := modAt n.anchors set (fun _ => if intoB then (old.1, none) else (none, old.2)) }
  | _ => n

/-- An interruption now finds writes in progress, oldest first: how many groups of one have been written is open between those whose time
has passed and all of them; no later write has begun then. -/
def Chip.nvmCut (c : Chip) : List NvmBusy → Chip
  | [] => c
  | b :: rest =>
    if b.ends ≤ c.mono then c.nvmCut rest
    else
      let least := (c.mono - b.start) / 1200
      let (n, c) := c.freeNat 64
      let done := least + n % (b.groups + 1 - least)
      if done = b.groups then c.nvmCut rest
      else
        let c := rest.foldr (fun (x : NvmBusy) (c : Chip) => { c with nvm := c.nvm.undone x.undo }) c
        { c with nvm := if done = 0 then c.nvm.undone b.undo else c.nvm.spoilt b.undo }

/-- Whether any queue holds an unacknowledged record at or above a level. -/
def Chip.unacked (c : Chip) (level : Nat) : Bool :=
  c.errq.any (fun q => q.recs.any (fun r => !r.acked && decide (level ≤ r.level)))

/-! ### ERROR_REGISTER (Table 3.11) -/

/-- Bit 7: a degraded mode is in force. -/
def Chip.degraded (c : Chip) : Bool :=
  c.mode.single || decide (c.mode.lanes ≠ 0xF) || (List.range 4).any (fun b => decide (c.get (K.bankSparesFree b) = 0))

/-- A member of a Psirel chain that is not locked: its frames are marked SYNC_LOST (R395). -/
def Chip.syncLost (c : Chip) : Bool := decide (c.get K.psirelRole = 2 ∧ c.get K.psirelState ≠ 4)

/-- Bit 4: CAN FD error passive or bus off, Psirel SYNC_LOST, or an uncorrectable PCIe error logged. -/
def Chip.commError (c : Chip) : Bool :=
  decide (c.get K.canState = 2 ∨ c.get K.canState = 3) ||
  c.syncLost || decide (c.pcie.aerUnc ≠ 0)

/-- Bit 3: throttle level L1 or above, or a limit exceeded. -/
def Chip.tempError (c : Chip) : Bool := decide (0 < c.get K.throttleLevel) || decide (c.get K.limitFlags ≠ 0)

/-- Bit 2: a rail fault, or VREF_EXT out of range. -/
def Chip.voltError (c : Chip) : Bool := c.rails.fault.any id || decide (c.get K.vrefState ≠ 0)

/-- Bit 1: an actuator, head supply or bias output in current limit or switched off for overcurrent. -/
def Chip.currentError (c : Chip) : Bool :=
  (List.range 4).any (fun h => decide (c.get (K.supState h) = 3 ∨ c.get (K.supState h) = 4)) ||
  c.heads.any (fun (p : HeadPort) => decide (p.biasLimited ≠ 0) || p.biasOver) || c.act.banks.any (fun (b : ActBank) => b.latched && b.overcurrent)

/-- ERROR_REGISTER as its conditions stand (R106). -/
def Chip.errorRegisterOf (c : Chip) : Nat :=
  (if c.unacked 1 then 1 else 0) + (if c.currentError then 2 else 0) + (if c.voltError then 4 else 0) +
  (if c.tempError then 8 else 0) + (if c.commError then 16 else 0) + (if c.degraded then 128 else 0)

/-- ALERT_N is low in the safe state, while a record at region or chip level is unacknowledged (R473), and when no
slot starts (R456). -/
def Chip.alertOf (c : Chip) : Bool :=
  decide (c.get K.chipMode = 4) || c.unacked 2 || decide (c.boot.phase = .dead)

/-! ### CAN messages and EMCY (R374, R377, R379) -/

/-- Whether the CAN controller may transmit: not bus off, not in standby, not calibrating. -/
def Chip.canMayTransmit (c : Chip) : Bool :=
  !c.pins.canStbyHigh && decide (c.get K.canState ≠ 3) && !c.can.calibrating

/-- What the error counts stand for in CAN_STATE: passive from 128, warning from 96 (ISO 11898-1, assumption 14). -/
def Can.level (n : Can) : Int :=
  if 128 ≤ n.tec ∨ 128 ≤ n.rec' then 2 else if 96 ≤ n.tec ∨ 96 ≤ n.rec' then 1 else 0

/-- Transmit a message in a CAN frame (nothing while the controller may not); a frame sent well lowers the transmit error count, as
ISO 11898-1 has it (assumption 14). -/
def Chip.canTransmit (c : Chip) (o : OutMsg) : Chip :=
  if c.canMayTransmit then
    let c := { c with can := { c.can with tec := c.can.tec - 1 } }
    (c.set K.canTec (min c.can.tec 255)).emit o
  else c

/-- Whether a frame switches its bit rate: CAN_DATA_RATE is not 0 (R374), and the controller does not run on the time quantum it has
trimmed while REFCLK is lost (R376). -/
def Chip.canSwitches (c : Chip) : Bool := decide (c.get K.canDataRate ≠ 0) && !c.can.locked

/-- Transmit a CAN frame of an identifier and data. -/
def Chip.canSend (c : Chip) (ident : Nat) (data : List Byte) : Chip := c.canTransmit (.can ident data c.canSwitches)

/-- The bytes of an EMCY message: code, error register, then region, code and sequence of the record. -/
def Emcy.bytes (e : Emcy) : List Byte :=
  leBytes 2 e.code ++ leBytes 1 e.reg ++ leBytes 1 e.region ++ leBytes 2 e.recCode ++ leBytes 2 e.seq

/-- Send an EMCY message now and begin its inhibit time. -/
def Chip.emcyTransmit (c : Chip) (e : Emcy) : Chip :=
  let c := c.canSend (c.nat K.emcyCobId % 2048) e.bytes
  if c.get K.emcyInhibit = 0 then c else { c with can := { c.can with emcyInhibited := true } }

/-- Whether EMCY messages are sent: in pre-operational and operational, while bit 31 of EMCY_COB_ID is 0 (R377, R379). -/
def Chip.emcyAllowed (c : Chip) : Bool :=
  decide (c.get K.nmtState = 0x7F ∨ c.get K.nmtState = 5) && decide (c.nat K.emcyCobId < 0x80000000)

/-- An EMCY cause (Table 13.5): sent in pre-operational and operational while bit 31 of EMCY_COB_ID is 0, or queued
during the inhibit time, the oldest of 8 giving way (R379). -/
def Chip.emcy (c : Chip) (e : Emcy) : Chip :=
  if c.emcyAllowed then
    if c.can.emcyInhibited then
      if c.can.emcyQueue.length < 8 then { c with can := { c.can with emcyQueue := c.can.emcyQueue ++ [e] } }
      else ({ c with can := { c.can with emcyQueue := c.can.emcyQueue.drop 1 ++ [e] } } : Chip).bump K.emcyDropped
    else c.emcyTransmit e
  else c

/-! ### Error records (R108, R109, R448, R475) -/

/-- The record a new one coalesces with. -/
def ErrRec.same (r s : ErrRec) : Bool :=
  decide (r.level = s.level ∧ r.block = s.block ∧ r.cell = s.cell ∧ r.code = s.code)

/-- A queue with one more occurrence (R109), and whether an unacknowledged record was overwritten. -/
def ErrQ.enter (q : ErrQ) (r : ErrRec) : ErrQ × Bool :=
  let fresh : ErrQ × Bool :=
    let s := nextSeq q.seq 0xFFFF
    let lost := q.recs.getD 15 { (default : ErrRec) with acked := true }
    ({ recs := ({ r with slot := q.nextSlot, seq := s, acked := false, count := 1 } :: q.recs).take 16
       seq := s, nextSlot := (q.nextSlot + 1) % 16 }, decide (q.recs.length ≥ 16) && !lost.acked)
  match q.recs with
  | [] => fresh
  | n :: rest =>
    if n.same r then
      if n.acked then
        let s := nextSeq q.seq 0xFFFF
        ({ q with recs := { n with count := min (n.count + 1) 0xFFFFFFFF, time := r.time, seq := s, acked := false } :: rest, seq := s }, false)
      else ({ q with recs := { n with count := min (n.count + 1) 0xFFFFFFFF, time := r.time } :: rest }, false)
    else fresh

/-- The newest sequence of a region's queue, 1 to 5 (chip level, region 0, takes the HKP queue). -/
def Chip.queueOf (region : Nat) : Nat := if region = 0 then 4 else region - 1

/-- A record as detected now (Table 3.12). -/
def newRecord (c : Chip) (level region block cell code ctx0 ctx1 : Nat) : ErrRec := {
  slot := 0, acked := false, time := c.now, level := level, region := region, block := block
  cell := cell, code := code, seq := 0, count := 1, ctx0 := ctx0 % 2 ^ 32, ctx1 := ctx1 % 2 ^ 32 }

/-- Raise an error record (R109): it enters its queue; a chip-level record is also logged (R448) and, unless Table
13.5 lists it otherwise, sends EMCY 0xFF00. -/
def Chip.raise (c : Chip) (level region block cell code ctx0 ctx1 : Nat) : Chip :=
  let qi := Chip.queueOf region
  let r := newRecord c level region block cell code ctx0 ctx1
  let (q, above) := (at' c.errq qi).enter r
  let c := { c with errq := modAt c.errq qi (fun _ => q) }
  let c := if above then c.bump (K.errqOverflow qi) else c
  let c := if level ≥ 1 then { c with entered := c.entered + 1 } else c
  if level = 3 then
    let c := c.nvmWrite (.log (q.recs.headD r))
    if code = 0x0003 then c
    else c.emcy { code := 0xFF00, reg := c.errorRegisterOf, region := region, recCode := code, seq := q.seq }
  else c

/-- Send an EMCY that names the newest record of a region. -/
def Chip.emcyFor (c : Chip) (code region recCode : Nat) : Chip :=
  let q := at' c.errq (Chip.queueOf region)
  c.emcy { code := code, reg := c.errorRegisterOf, region := region, recCode := recCode, seq := q.seq }

/-- An EMCY for which no record is raised (R379). -/
def Chip.emcyBare (c : Chip) (code : Nat) : Chip :=
  c.emcy { code := code, reg := c.errorRegisterOf, region := 0, recCode := 0, seq := 0 }

/-- Write an entry that is only logged (R448). Its sequence within a region is open, since it enters no queue. -/
def Chip.logOnly (c : Chip) (region block cell code ctx0 ctx1 : Nat) : Chip :=
  let (s, c) := c.freeNat 16
  c.nvmWrite (.log { newRecord c 0 region block cell code ctx0 ctx1 with seq := s })

/-- Log a copy of the newest record of a region (R448). -/
def Chip.logCopy (c : Chip) (region : Nat) : Chip :=
  c.nvmWrite (.log ((at' c.errq (Chip.queueOf region)).recs.headD default))

/-! ### Refusals -/

/-- An abort code (Table 3.5). -/
abbrev Abort := Nat

/-- Codes of Table 3.5. -/
abbrev Abort.unsupported : Abort := 0x06010000
/-- attempt to write a read-only object -/
abbrev Abort.readOnly : Abort := 0x06010002
/-- object does not exist -/
abbrev Abort.noObject : Abort := 0x06020000
/-- general parameter incompatibility -/
abbrev Abort.incompatible : Abort := 0x06040043
/-- access failed due to hardware error -/
abbrev Abort.hardware : Abort := 0x06060000
/-- data type does not match -/
abbrev Abort.length : Abort := 0x06070010
/-- sub-index does not exist -/
abbrev Abort.noSub : Abort := 0x06090011
/-- invalid value -/
abbrev Abort.invalid : Abort := 0x06090030
/-- value too high -/
abbrev Abort.tooHigh : Abort := 0x06090031
/-- value too low -/
abbrev Abort.tooLow : Abort := 0x06090032
/-- data cannot be stored -/
abbrev Abort.notStored : Abort := 0x08000020
/-- local control -/
abbrev Abort.localControl : Abort := 0x08000021
/-- present device state -/
abbrev Abort.deviceState : Abort := 0x08000022
/-- no data available -/
abbrev Abort.noData : Abort := 0x08000024

/-- The place of a master in 0x2008 and 0x2009; the management controller has none. -/
def abortPlace : Master → Option Nat
  | .f0 => some 0
  | .f1 => some 1
  | .sp => some 2
  | .can => some 3
  | .mc => none

/-- Record a refusal and count it for the four masters of 0x2008 and 0x2009. -/
def Chip.noteAbort (c : Chip) (m : Master) (key : Nat) (code : Abort) : Chip :=
  match abortPlace m with
  | none => c
  | some j => (c.set (K.abortLast j) (code * 2 ^ 32 + key * 2 ^ 8 : Nat)).bump (K.abortCount j)

/-- Return a refusal to its master (R84): it is recorded, and the transports other than BAR0 carry it in their answer. -/
def Chip.refuse (c : Chip) (m : Master) (key : Nat) (code : Abort) : Chip :=
  let c := c.noteAbort m key code
  if m = .f0 then c else c.emit (.abort m key code)

/-- Carry out an access that may be refused: a refusal leaves the part as it was and is returned. -/
def Chip.attempt (c : Chip) (m : Master) (key : Nat) (r : Except Abort Chip) : Chip :=
  match r with
  | .ok c' => c'
  | .error code => c.refuse m key code

/-- Refuse with a code when a condition holds. -/
def guardNot (b : Bool) (code : Abort) (k : Except Abort Chip) : Except Abort Chip := if b then .error code else k

end Sys2Proof.Machine
end

