-- ==== Sys2Proof/Machine/Operands.lean ====
section
/-! DEFINITION. Slot values: what a slot reads (R70, R76, R94), which written values an object takes (R71, R72), who
may write it (R74, R75), on which die it lies, who owns it, and whether its block is stopped (R77, R79). -/

namespace Sys2Proof.Machine

/-- The key of an index and sub-index. -/
def keyOf (idx : BitVec 16) (sub : BitVec 8) : Nat := idx.toNat * 256 + sub.toNat

/-- The value of width w that a 64-bit slot value holds: none unless bits [63:w] are its extension, or the value of a
BOOL is 0 or 1 (R70, R71). -/
def Row.valueOf? (r : Row) (v : Slot) : Option Int :=
  let u : Int := if r.signed then v.toInt else v.toNat
  if r.least ≤ u ∧ u ≤ r.most then
    if r.chk = .bool ∧ u ≠ 0 ∧ u ≠ 1 then none else some u
  else none

/-- The value that a 32-bit write to the low half holds for an object of at most 32 bits: bits [31:w] are checked
only (R71). -/
def Row.lowValueOf? (r : Row) (v : BitVec 32) : Option Int :=
  r.valueOf? (if r.signed then v.signExtend 64 else v.zeroExtend 64)

/-- Range, set, alignment and field rules of R72 and the counter rule of R73. `custom` and `command` values pass
here. -/
def Check.abort? (k : Check) (v : Int) : Option Abort :=
  match k with
  | .anyValue | .bool | .command | .custom => none
  | .counter => if v = 0 then none else some Abort.invalid
  | .nonZero => if v = 0 then some Abort.invalid else none
  | .range lo hi => if hi < v then some Abort.tooHigh else if v < lo then some Abort.tooLow else none
  | .oneOf l => if v ∈ l then none else some Abort.invalid
  | .rangeOr sp lo hi => if v = sp ∨ (lo ≤ v ∧ v ≤ hi) then none else some Abort.invalid
  | .aligned n sps => if v ∈ sps ∨ v % n = 0 then none else some Abort.invalid
  | .fields mask => if clearBits v.toNat mask = 0 then none else some Abort.invalid

/-- The checks of values that are neither a range nor a set: entries 01 of the spatial and range weights are 1 to
255 (R288). -/
def customAbort? (key : Nat) (v : Int) : Option Abort :=
  let idx := key / 256
  if key % 256 = 1 ∧ (idx / 256 = 0x38 ∨ idx / 256 = 0x39) ∧ (idx % 0x40 = 9 ∨ idx % 0x40 = 10) then
    if v = 0 then some Abort.tooLow else none
  else none

/-! ### Objects -/

/-- The row of an implemented sub-index; MBX_TIMEOUT of channels 6 and 7 is RWS (R426). -/
def rowAt? (key : Nat) : Option Row :=
  match rowOf? key with
  | none => none
  | some r => if mbxHidden key then none else if key = K.mbxTimeout 6 ∨ key = K.mbxTimeout 7 then some { r with acc := .rws } else some r

/-- Whether a sub-index 00 gives the highest sub-index of a multi-value object (R68). -/
def countAt? (key : Nat) : Option Nat := if key % 256 = 0 ∧ (rowAt? key).isNone then highestSub (key / 256) else none

/-- The code for a slot that holds no value (Table 3.5). -/
def absence (key : Nat) : Abort := if namesObject (key / 256) then Abort.noSub else Abort.noObject

/-! ### Dies, owners, blocks -/

/-- Whether an object is held on the pixel die (R225, R258, R299, R325 to R327, R358 to R362, R373, R426, R427, R452); every other one
is held on the front die. -/
def onPixelDie (key : Nat) : Bool :=
  let p := key / 65536
  decide (0x30 ≤ p ∧ p ≤ 0x33) || decide (0x348000 ≤ key ∧ key < 0x350000) || decide (0x38 ≤ p ∧ p ≤ 0x45) ||
  decide (0x480000 ≤ key ∧ key < 0x484000) || decide (p = 0x4C) || decide (0x50 ≤ p ∧ p ≤ 0x51)

/-- Index ranges of F-class objects and their owners: first index, how many owners, indices per owner, first owner. -/
def ownerRanges : List (Nat × Nat × Nat × Nat) :=
  [(0x2400, 4, 0x40, 0), (0x2818, 4, 1, 0), (0x281C, 4, 1, 0), (0x2C40, 4, 1, 0), (0x2C80, 4, 16, 0),
   (0x3000, 6, 0x40, 0), (0x3480, 4, 0x10, 0), (0x3800, 6, 0x40, 0), (0x3C40, 2, 0x10, 4), (0x3D40, 2, 0x10, 4),
   (0x4000, 8, 0x10, 8), (0x4400, 6, 0x10, 0), (0x4480, 6, 0x10, 0)]

/-- The owner of an F-class object: sources 0 to 5 (heads 0 to 3, CSI-2 sources 4 and 5) and streams as 8 + n
(R77, Table 3.10). -/
def ownerOf (key : Nat) : Option Nat :=
  let idx := key / 256
  if idx = 0x4E03 then some (key % 256 - 1)
  else ownerRanges.findSome? (fun (lo, n, step, first) =>
    if lo ≤ idx ∧ idx < lo + n * step then some (first + (idx - lo) / step) else none)

/-- Whether an owner is stopped (R77): a head in RUN_STATE 0, a CSI-2 source in SRC_STATE 0, a stream in
STREAM_STATE 0 or 4. -/
def Chip.ownerStopped (c : Chip) (o : Nat) : Bool :=
  if o < 4 then decide (c.get (K.runState o) = 0)
  else if o < 6 then decide (c.get (K.srcState (o - 4)) = 0)
  else
    let s := c.get (K.streamState (o - 8))
    decide (s = 0 ∨ s = 4)

/-- Whether the writes of an owner are held (R78). -/
def Chip.ownerHeld (c : Chip) (o : Nat) : Bool := bitOf (c.nat K.stageHold) o

/-- Whether the block that an S-class object belongs to is stopped (R79). -/
def Chip.blockStopped (c : Chip) (key : Nat) : Bool :=
  let idx := key / 256
  if 0x2400 ≤ idx ∧ idx < 0x2500 then decide (c.get (K.runState ((idx - 0x2400) / 0x40)) = 0)
  else if 0x3400 ≤ idx ∧ idx < 0x3440 then decide (c.get (K.runState ((idx - 0x3400) / 0x10)) = 0)
  else if 0x3704 ≤ idx ∧ idx < 0x3706 then decide (c.get (K.bankRun (idx - 0x3704)) = 0)
  else if 0x3C00 ≤ idx ∧ idx < 0x3C20 then decide (c.get (K.rxRun ((idx - 0x3C00) / 0x10)) = 0)
  else if 0x3C40 ≤ idx ∧ idx < 0x3C60 then decide (c.get (K.srcState ((idx - 0x3C40) / 0x10)) = 0)
  else if 0x4000 ≤ idx ∧ idx < 0x4080 then
    decide (c.get (K.streamState ((idx - 0x4000) / 0x10)) = 0)
  else if 0x4400 ≤ idx ∧ idx < 0x4460 then decide (c.get (K.statState ((idx - 0x4400) / 0x10)) = 0)
  else if 0x4880 ≤ idx ∧ idx < 0x4890 then decide (c.get K.spmState = 0 ∨ c.get K.spmState = 1)
  else if 0x5100 ≤ idx ∧ idx < 0x5140 then
    let s := c.get (K.dmaState ((idx - 0x5100) / 4))
    decide (s = 0 ∨ s = 4 ∨ s = 5 ∨ s = 6)
  else true

/-- Whether an object is held by a block of a region that has failed (REGION_STATE 4, Table 3.5), on the front die by Table 1.1: heads
and converters of ACQ; the NVM and the serial-port master of MEM; CAN FD controller, Psirel link and serial-port slave of HOST, whose
locks no restart touches (Table 16.6); housekeeping, thermal management, calibration and actuators of HKP. Blocks of the pixel die
are then powered down (R93). -/
def Chip.blockFailed (c : Chip) (key : Nat) : Bool :=
  let idx := key / 256
  (decide (c.get (K.regionState 0) = 4) && (decide (0x2400 ≤ idx ∧ idx < 0x2500) || decide (0x2800 ≤ idx ∧ idx < 0x2880))) ||
  (decide (c.get (K.regionState 2) = 4) && decide (0x4840 ≤ idx ∧ idx < 0x4C00)) ||
  (decide (c.get (K.regionState 3) = 4) && decide (0x4D00 ≤ idx ∧ idx < 0x5000)) ||
  (decide (c.get (K.regionState 4) = 4) && (decide (0x2880 ≤ idx ∧ idx < 0x3000) || decide (0x3700 ≤ idx ∧ idx < 0x3800)))

/-! ### Views: objects whose value another part of the state holds -/

/-- STAGE_PENDING (R78): a bit for each owner with staged or held writes not yet applied. -/
def Chip.stagePending (c : Chip) : Nat :=
  (List.range 16).foldl (fun acc o => if c.staged.any (fun s => decide (s.owner = o)) then acc + 2 ^ o else acc) 0

/-- Bytes [8j+7:8j] of an error record (Table 3.12). -/
def ErrRec.word (r : ErrRec) (j : Nat) : Nat :=
  match j with
  | 0 => r.time
  | 1 => r.level + r.region * 2 ^ 8 + r.block * 2 ^ 16 + r.cell * 2 ^ 24 + r.code * 2 ^ 32 + r.seq * 2 ^ 48
  | 2 => r.count
  | _ => r.ctx0 + r.ctx1 * 2 ^ 32

/-- Sub-index 4k + 1 + j of an error queue (R108). -/
def ErrQ.slotWord (q : ErrQ) (n : Nat) : Nat :=
  match q.recs.find? (fun r => r.slot = n / 4) with
  | none => 0
  | some r => r.word (n % 4)

/-- ERRQ_STATUS of a queue (Table 3.10). -/
def ErrQ.status (q : ErrQ) : Nat :=
  q.seq * 2 ^ 16 + ((q.recs.headD default).slot) * 2 ^ 12 + (q.recs.filter (fun r => !r.acked)).length

/-- CLAMP_POWER_AVG (R270): the clamp-energy estimates of the last 1 s, in µW. -/
def Chip.clampPower (c : Chip) : Nat := sumN ((c.act.clamp.filter (fun e => decide (c.mono < e.1 + 1000000000))).map (·.2))

/-- SRC_FIFO_LINES (R311): the lines of a CSI-2 source that its 64 KiB FIFO holds. -/
def Chip.fifoLines (c : Chip) (i : Nat) : Nat :=
  let bytes := if c.get (K.srcRole i) ≠ 1 ∧ c.get (K.srcDataType i) = 0x24 then 3 else 2
  65536 / max 1 (c.nat (K.srcWidth i) * bytes)

/-- Whether a key is TAP_STATE of a tap at or above TAP_COUNT of its head, which is disconnected and reads 1 (R114). -/
def Chip.tapAbove (c : Chip) (key : Nat) : Bool :=
  let h := (key / 256 - 0x2406) / 0x40
  decide (0x240601 ≤ key ∧ key / 256 = 0x2406 + 0x40 * h ∧ h < 4 ∧ 1 ≤ key % 256 ∧ c.nat (K.tapCount h) < key % 256)

/-- The value of an object as hardware and the write rules leave it: views first, then a value staged or pending
(Table 3.3), then the value in force. -/
def Chip.val (c : Chip) (key : Nat) : Int :=
  if key = K.systemTime then c.now
  else if key = K.stagePending then c.stagePending
  else if 0x210001 ≤ key ∧ key ≤ 0x210440 then (at' c.errq ((key / 256) % 256)).slotWord (key % 256 - 1)
  else if 0x210801 ≤ key ∧ key ≤ 0x210805 then (at' c.errq (key % 256 - 1)).status
  else if key = K.nvmPowerOns then c.nvm.reported 0
  else if key = K.nvmStores then c.nvm.reported 1
  else if key = K.solsticeCount 0 then c.nvm.reported 16
  else if key = K.solsticeCount 1 then c.nvm.reported 17
  else if key = K.solsticeCount 2 then c.nvm.reported 18
  else if key = K.solsticeCount 3 then c.nvm.reported 19
  else if key = K.operations 0 then c.nvm.reported 32
  else if key = K.operations 1 then c.nvm.reported 33
  else if key = K.operations 2 then c.nvm.reported 34
  else if key = K.operations 3 then c.nvm.reported 35
  else if c.tapAbove key then 1
  else if key = K.clampPowerAvg then (c.clampPower : Int)
  else if key = K.srcFifoLines 0 then c.fifoLines 0
  else if key = K.srcFifoLines 1 then c.fifoLines 1
  else match c.staged.reverse.find? (fun s => decide (s.key = key)) with
    | some s => s.val
    | none =>
      match c.pendingP.find? (fun p => decide (p.1 = key)) with
      | some p => p.2
      | none => c.get key

/-- What a sub-index reads: its value, or the highest sub-index at sub-index 00 of a multi-value object (R68). -/
def Chip.shown (c : Chip) (key : Nat) : Int :=
  match countAt? key with
  | some n => n
  | none => c.val key

/-! ### DOMAIN objects (R94) -/

/-- The knots of a piecewise-linear table as signed 32-bit little-endian values. -/
def bytesOfI32 (l : List Int) : List Byte := (l.map (leInt 4)).flatten

/-- A default scaler phase: bilinear weights of two neighbouring taps, sQ1.14. -/
def bilinearTaps (taps first p : Nat) : List Int :=
  tab taps (fun t => if t = first then 16384 - 256 * p else if t = first + 1 then 256 * p else 0)

/-- The default image of a DOMAIN object (R94 and the object tables): empty, identity, all 0, bilinear or grey. -/
def defaultImage (key : Nat) : List Byte :=
  let idx := key / 256
  let o := idx % 0x40
  if 0x3000 ≤ idx ∧ idx < 0x3180 ∧ (o = 1 ∨ o = 2) then
    bytesOfI32 (tab 257 (fun n => (n : Int) * 65536))
  else if 0x3800 ≤ idx ∧ idx < 0x3980 ∧ (o = 0x11 ∨ o = 0x12) then List.replicate 2050 0
  else if 0x3800 ≤ idx ∧ idx < 0x3980 ∧ (o = 0x13 ∨ o = 0x14) then List.replicate 1028 0
  else if 0x4000 ≤ idx ∧ idx < 0x4080 ∧ idx % 0x10 = 5 then
    ((tab 64 (fun p => ((bilinearTaps 8 3 p).map (leInt 2)).flatten)).flatten)
  else if 0x4000 ≤ idx ∧ idx < 0x4080 ∧ idx % 0x10 = 6 then
    ((tab 64 (fun p => ((bilinearTaps 4 1 p).map (leInt 2)).flatten)).flatten)
  else if 0x4200 ≤ idx ∧ idx < 0x4208 then
    ((tab 256 (fun i => [BitVec.ofNat 8 i, BitVec.ofNat 8 i, BitVec.ofNat 8 i, 0])).flatten)
  else []

/-- The length in bytes of the image of a log record of the NVM log ring. -/
def nvmLogBytes : Nat := 131072

/-- The image of the NVM log (R448): record q at 32 x (q mod 4096), 0 where no valid record lies. -/
def Chip.nvmLogImage (c : Chip) (off n : Nat) : List Byte :=
  tab (min n (nvmLogBytes - off)) (fun i =>
    let a := off + i
    match c.nvm.log.find? (fun (r : LogRec) => decide (r.q % 4096 = a / 32)) with
    | none => 0
    | some r =>
      let w := if (a % 32) / 8 = 2 then r.entry.count + r.q * 2 ^ 32 else r.entry.word ((a % 32) / 8)
      BitVec.ofNat 8 (w / 2 ^ (8 * (a % 8))))

/-- The image of a DOMAIN object now: the one written, or its default. -/
def Chip.domainImage (c : Chip) (key : Nat) : List Byte := (c.domainImage? key).getD (defaultImage key)

end Sys2Proof.Machine
end

