-- ==== Sys2Proof/Machine/Flags.lean ====
section
/-! DEFINITION. The status the part derives from the rest of its state after every command: ERROR_REGISTER (R106),
ALERT_N (R473), the events of PCIE_EVENT_STATUS (R368), the EMCY for ERROR_REGISTER returning to 0 (R379) and the event
transmit PDOs (R381). Every meaning ends in `run`, which settles them. -/

namespace Sys2Proof.Machine

/-- The outcome of a command. -/
abbrev Res := Host.Outcome State Fault Refusal

/-! ### PCIe events (R368) -/

/-- The events a command has raised, as bits of PCIE_EVENT_STATUS. -/
def eventsBetween (a b : Chip) : Nat :=
  let ch := fun (k : Nat) => decide (a.get k ≠ b.get k)
  (if a.entered < b.entered then 1 else 0) + (if ch K.errorRegister then 2 else 0) +
  (if ch K.throttleLevel then 4 else 0) + (if ch K.chipMode || ch K.pixelDieState then 8 else 0) +
  (if (List.range 6).any (fun s => ch (K.alarmState s)) then 16 else 0) + (if ch K.psirelState then 32 else 0) +
  (if ch K.canState || ch K.nmtState then 64 else 0)

/-- Set one bit of PCIE_EVENT_STATUS: a message when it rises while unmasked, and a wake cause when its bit of
PCIE_WAKE_MASK is 1 (R368, R371). -/
def Chip.eventBit (c : Chip) (b : Nat) : Chip :=
  let st := c.nat K.pcieEventStatus
  let c := (if bitOf (c.nat K.pcieWakeMask) b then c.wakeCause else c).noteBit K.pcieEventStatus b (!bitOf st b)
  if bitOf st b then c
  else
    let c := c.set K.pcieEventStatus (st + 2 ^ b : Nat)
    if bitOf (c.nat K.pcieEventMask) b then c.msix0 (c.nat K.pcieEventVector) else c

/-- Set the bits of PCIE_EVENT_STATUS that events raise; the unit is on the pixel die. -/
def Chip.pcieEvents (c : Chip) (ev : Nat) : Chip :=
  if c.pixelRuns || decide (2 ≤ c.get K.pcieLinkState) then (List.range 7).foldl (fun c b => if bitOf ev b then c.eventBit b else c) c else c

/-! ### Transmit PDOs (R380, R381) -/

/-- The mapping entries of transmit PDO n. -/
def tpdoMapKey (n j : Nat) : Nat :=
  match n with
  | 0 => K.tpdoMap1 j
  | 1 => K.tpdoMap2 j
  | 2 => K.tpdoMap3 j
  | _ => K.tpdoMap4 j

/-- Entries in force: from entry 01 to the entry before the first 0 (R380). -/
def Chip.tpdoEntries (c : Chip) (n : Nat) : List Nat :=
  ((tab 16 (fun j => c.nat (tpdoMapKey n j))).takeWhile (· ≠ 0))

/-- The key a mapping entry names. -/
def entryKey (e : Nat) : Nat := e / 256

/-- Values packed bit after bit, each with its length in bits, and the bits they take. -/
def packBits : List (Int × Nat) → Nat × Nat
  | [] => (0, 0)
  | (v, w) :: l => let (x, n) := packBits l; (lowBits v w + x * 2 ^ w, w + n)

/-- The bytes of a transmit PDO, read at one instant (R381). -/
def Chip.tpdoData (c : Chip) (n : Nat) : List Byte :=
  let (x, w) := packBits ((c.tpdoEntries n).map (fun e => (c.shown (entryKey e), e % 256)))
  leBytes ((w + 7) / 8) x

/-- Whether transmit PDO n exists (bit 31 of its COB-ID is 0). -/
def Chip.tpdoValid (c : Chip) (n : Nat) : Bool := decide (c.nat (K.tpdoCobId n) < 0x80000000)

/-- Send transmit PDO n now and begin its inhibit time. -/
def Chip.tpdoSend (c : Chip) (n : Nat) : Chip :=
  let c := c.canSend (c.nat (K.tpdoCobId n) % 2048) (c.tpdoData n)
  let inh := decide (c.get (K.tpdoInhibit n) ≠ 0)
  { c with can := { c.can with tpdo := modAt c.can.tpdo n (fun t => { t with inhibited := inh, waiting := false }) } }

/-- An event of transmit PDO n (R381): sent, merged during the inhibit time, or lost outside operational and in bus
off. During an HKP restart none is sent (R483). -/
def Chip.tpdoEvent (c : Chip) (n : Nat) : Chip :=
  if !c.tpdoValid n || c.boot.hkpRestart then c
  else if c.get K.nmtState ≠ 5 ∨ c.get K.canState = 3 then c.bump K.tpdoLost
  else if (at' c.can.tpdo n).inhibited then
    ({ c with can := { c.can with tpdo := modAt c.can.tpdo n (fun t => { t with waiting := true }) } } : Chip).bump
      K.tpdoCoalesced
  else c.tpdoSend n

/-- The objects whose change is an event of a type 254 transmit PDO (R381). -/
def tpdoEventKeys : List Nat :=
  tab 6 (fun s => K.alarmState s) ++ [K.errorRegister, K.chipMode, K.throttleLevel, K.psirelState] ++
  tab 4 (fun h => K.solsticeState h) ++ tab 2 (fun b => K.shutterPosition b)

/-- The event transmit PDOs of a command. -/
def Chip.tpdoEvents (a c : Chip) : Chip :=
  let changed := tpdoEventKeys.filter (fun k => decide (a.get k ≠ c.get k))
  if changed.isEmpty then c
  else (List.range 4).foldl (fun c n =>
    if c.get (K.tpdoType n) = 254 ∧ (c.tpdoEntries n).any (fun e => decide (entryKey e ∈ changed)) then c.tpdoEvent n
    else c) c

/-! ### After every command -/

/-- CAN_STATE after frames sent well have lowered the transmit error count (R374). -/
def Chip.canRecovers (c : Chip) : Chip :=
  if c.get K.canState = 1 ∨ c.get K.canState = 2 then c.set K.canState c.can.level else c

/-- CAN_STATE, ERROR_REGISTER and ALERT_N brought up to date. -/
def Chip.withStatus (c : Chip) : Chip :=
  let c := c.canRecovers
  let c := c.set K.errorRegister c.errorRegisterOf
  { c with pins := { c.pins with alertLow := c.alertOf } }

/-- The messages and event bits that the change from `a` to `c` calls for. -/
def Chip.announce (a c : Chip) : Chip :=
  if c.boot.phase = .ready then
    let c := if a.get K.errorRegister ≠ 0 ∧ c.get K.errorRegister = 0 then c.emcyBare 0 else c
    let c := c.pcieEvents (eventsBetween a c)
    Chip.tpdoEvents a c
  else c

/-- What the part derives after every command that took it from `a` to `c`. -/
def settle (a c : Chip) : Chip := Chip.announce a c.withStatus

/-- Carry out the effect of a command on the part and settle; the queue is untouched. -/
def run (s : State) (f : Chip → Chip) : Res :=
  .next { s with chip := settle s.chip (f { s.chip with out := [] }) }

/-! ### Who is answered -/

/-- Whether an access of a master reaches the dictionary: the management controller serves it, and its transport is
up (R456, R463, Table 13.3, Table 14.5). -/
def Chip.reaches (c : Chip) (m : Master) : Bool :=
  decide (c.boot.phase = .ready) && !c.mode.asleep &&
  (match m with
   | .mc => true
   | .can => decide (c.get K.nmtState = 5 ∨ c.get K.nmtState = 0x7F)
   | .sp => decide (c.get K.spRole = 1)
   | .f0 => c.pixelOn && decide (2 ≤ c.get K.pcieLinkState ∧ c.get K.pcieLinkState ≤ 5)
   | .f1 => c.pixelOn && decide (2 ≤ c.get K.pcieLinkState ∧ c.get K.pcieLinkState ≤ 5) && bitOf (c.nat K.straps) 0)

/-- What Function 1 writes directly: its page holds the registers of channels 6 and 7 and the lock mirror, and no window of the
dictionary (R75, R95, R411). -/
def f1Page (key : Nat) : Bool := mbxHidden key || decide (0x202001 ≤ key ∧ key ≤ 0x202020)

/-- Whether an access of a master to an object reaches it: every object for the others, its page for Function 1, whose other accesses
travel as requests of its mailboxes (R75). -/
def Chip.reachesKey (c : Chip) (m : Master) (key : Nat) : Bool := c.reaches m && (decide (m ≠ .f1) || f1Page key)

/-- Whether a refusal of R483 applies: the management controller restarts and the access needs it. -/
def Chip.needsController (c : Chip) (m : Master) (key : Nat) : Bool :=
  c.boot.hkpRestart &&
  (match m with
   | .f0 => !onPixelDie key && decide (key / 256 ≠ 0x2020 ∧ key / 256 ≠ 0x2008 ∧ key / 256 ≠ 0x2009)
   | .mc => false
   | .f1 => decide (key / 65536 ≠ 0x50 ∧ key / 256 ≠ 0x2020)
   | _ => true)

/-- Whether an access of a master fails for hardware reasons (Table 3.5): it needs the management controller during its restart, or
the object is held by a block that has failed. -/
def Chip.accessFails (c : Chip) (m : Master) (key : Nat) : Bool := c.needsController m key || c.blockFailed key

/-- Whether a master is secure (R75). -/
def secure : Master → Bool
  | .mc => true
  | .f1 => true
  | _ => false

/-- Carry out a write that has a row of its own: refused during an HKP restart (R483), else as its operation
decides; nothing happens when the access does not reach the dictionary. -/
def Chip.command (c : Chip) (m : Master) (key : Nat) (op : Chip → Except Abort Chip) : Chip :=
  if c.reachesKey m key then
    if c.accessFails m key then c.refuse m key Abort.hardware else c.attempt m key (op c)
  else c

end Sys2Proof.Machine
end

