-- ==== Sys2Proof/Machine/Watchdog.lean ====
section
/-! DEFINITION. Cell watchdogs and their escalation to a block reset and to a region's restart (R469 to R471, R474).
What a restart does is in the file of regions. -/

namespace Sys2Proof.Machine

/-- A region's recovery state, regions 1 to 5. -/
def Chip.regionOf (c : Chip) (region : Nat) : RegionHist := at' c.regions (region - 1)

/-- Change a region's recovery state. -/
def Chip.modRegion (c : Chip) (region : Nat) (f : RegionHist → RegionHist) : Chip :=
  { c with regions := modAt c.regions (region - 1) f }

/-- The history of a block, empty where nothing has happened. -/
def RegionHist.block (r : RegionHist) (b : Nat) : BlockHist :=
  (r.blocks.find? (fun (x : BlockHist) => decide (x.block = b))).getD
    { block := b, cells := [], resets := [], resetting := false, code := 0, cell := 0 }

/-- Replace the history of a block. -/
def RegionHist.putBlock (r : RegionHist) (h : BlockHist) : RegionHist :=
  { r with blocks := r.blocks.filter (fun (x : BlockHist) => decide (x.block ≠ h.block)) ++ [h] }

/-- Change the history of a block. -/
def Chip.modBlock (c : Chip) (region b : Nat) (f : BlockHist → BlockHist) : Chip :=
  c.modRegion region (fun r => r.putBlock (f (r.block b)))

/-- Whether a block is resetting. -/
def Chip.blockResetting (c : Chip) (region b : Nat) : Bool := ((c.regionOf region).block b).resetting

/-- Whether a region is restarting. -/
def Chip.regionRestarting (c : Chip) (region : Nat) : Bool := (c.regionOf region).restarting

/-- Schedule a region's restart (R471): a block that cannot recover is absorbed into a restart that is already due
(R474); `why` is 1 for escalation and 2 for REGION_RESET. An escalation joins a requested restart and counts. -/
def Chip.schedule (c : Chip) (region block why : Nat) : Chip :=
  c.modRegion region (fun r =>
    if r.restarting then r
    else match r.scheduled with
      | none => { r with scheduled := some (block, why) }
      | some (_, 2) => if why = 1 then { r with scheduled := some (block, 1) } else r
      | some _ => r)

/-- A block resets itself, unless it cannot recover (R470, R471). -/
def Chip.blockReset (c : Chip) (region b : Nat) : Chip :=
  let h := (c.regionOf region).block b
  let recent := h.resets.filter (fun (t : Nat) => decide (c.mono < t + 10000000000))
  let c := c.modBlock region b (fun h => { h with cells := [], resets := recent })
  if 2 ≤ recent.length then c.schedule region b 1
  else
    let c := c.modBlock region b (fun h => { h with resets := c.mono :: recent, resetting := true })
    c.raise 1 region b 0xFF 0x00F0 h.code h.cell

/-- Count a cell reset towards its block's reset (R470). -/
def Chip.countCell (c : Chip) (region b cell code : Nat) : Chip :=
  let h := (c.regionOf region).block b
  let recent := (c.mono, cell) :: h.cells.filter (fun (t : Nat × Nat) => decide (c.mono < t.1 + 1000000000))
  let c := c.modBlock region b (fun h => { h with cells := recent, code := code, cell := cell })
  if 3 ≤ recent.length then c.blockReset region b else c

/-- Whether a cell error starts no reset and counts towards no threshold: its block resets or its region restarts (R474). -/
def Chip.cellHeld (c : Chip) (region b : Nat) : Bool := c.blockResetting region b || c.regionRestarting region

/-- The regions on whose blocks a cell of a block waits (R474, assumption 117): the NUC lane groups, the stream writers and the DMA
channels on MEM, the stream writers on PIX too, and a mailbox channel on HKP. -/
def waitsOn (region b : Nat) : List Nat :=
  if region = 2 ∧ (b = 1 ∨ b = 6) then [3]
  else if region = 4 ∧ b = 1 then [2, 3]
  else if region = 4 ∧ b = 2 then [3]
  else if region = 4 ∧ b = 3 then [5]
  else []

/-- Whether the watchdog of a cell is suspended: what it waits on is under reset, or was within the last 1 ms (R474). -/
def Chip.suspended (c : Chip) (region b : Nat) : Bool :=
  (waitsOn region b).any (fun r =>
    let x := c.regionOf r
    x.restarting || x.blocks.any (·.resetting) ||
      (match x.endedAt with
       | some t => decide (c.mono < t + 1000000)
       | none => false))

/-- A reset of a region or of one of its blocks ends. -/
def Chip.resetEnded (c : Chip) (region : Nat) : Chip := c.modRegion region (fun r => { r with endedAt := some c.mono })

/-- A cell's watchdog expires (R469): a cell-level record (none for the NVM, which Table 16.8 gives no code), and a
reset that counts unless its block is resetting or its region restarts (R474). -/
def Chip.cellExpired (c : Chip) (region b cell code ctx0 ctx1 : Nat) : Chip :=
  let held := c.cellHeld region b
  let c := if code = 0 then c else c.raise 0 region b cell code ctx0 ctx1
  if held then c else c.countCell region b cell code

/-- A watchdog expires: nothing while it is suspended, a record alone while the block resets or the region restarts, else what the cell's
reset does and what it counts for (R469, R474). -/
def Chip.watchdog (c : Chip) (region b cell code ctx0 ctx1 : Nat) (reset : Chip → Chip) : Chip :=
  if c.suspended region b then c
  else if c.cellHeld region b then c.cellExpired region b cell code ctx0 ctx1
  else reset (c.cellExpired region b cell code ctx0 ctx1)

end Sys2Proof.Machine
end

