-- ==== Sys2Proof/Machine/Rounds.lean ====
section
/-! DEFINITION. The channels of the housekeeping round (Table 5.4) and which of them can be measured in their slot (R163). -/

namespace Sys2Proof.Machine

/-! ### Channels and members (Table 5.4) -/

/-- Members of a channel. -/
def hkCount (ch : Nat) : Nat :=
  if ch = 14 ∨ ch = 15 ∨ ch = 30 ∨ ch = 31 then 8 else if ch = 28 then 5 else if ch = 29 then 6 else 1

/-- Full scale of a member, in µV or µA. -/
def hkFull (ch m : Nat) : Nat :=
  if ch = 9 then 3125000
  else if 10 ≤ ch ∧ ch ≤ 13 then 1000000
  else if ch = 14 ∨ ch = 15 ∨ ch = 30 ∨ ch = 31 then 40000
  else if 24 ≤ ch ∧ ch ≤ 27 then 4000000
  else if ch = 28 then [2500000, 4000000, 4000000, 6250000, 40000000].getD m 0
  else if ch = 29 then 1250000
  else 2500000

/-- The head whose bias currents a channel measures. -/
def hkBiasHead (ch : Nat) : Nat := if ch = 14 then 0 else if ch = 15 then 1 else if ch = 30 then 2 else 3

/-- The members of a housekeeping converter, in the order in which it takes them (R163). -/
def hkPlaces (k : Nat) : List (Nat × Nat) :=
  ((List.range 16).map (fun i => (tab (hkCount (16 * k + i)) (fun m => (16 * k + i, m))))).flatten

/-- The objects in which a member is reported. -/
def hkObjects (ch m : Nat) : List Nat :=
  if ch = 14 ∨ ch = 15 ∨ ch = 30 ∨ ch = 31 then [K.biasCurrent (hkBiasHead ch) m]
  else if ch = 28 then [K.hkRail (6 + m)]
  else if ch = 29 then [K.hkRail m]
  else K.hkResult ch ::
    (if 3 ≤ ch ∧ ch ≤ 6 then [K.tfpaRaw (ch - 3)]
     else if 10 ≤ ch ∧ ch ≤ 13 then [K.supCurrent (ch - 10)]
     else if 16 ≤ ch ∧ ch ≤ 23 then [K.hkPixelSensor (ch - 16)]
     else [])

/-- The value of a member from the sum of its A codes (R163). -/
def hkValue (sum a fs : Nat) : Int := satS (rne (rne sum (Nat.log2 a) * fs) 16) 32

/-- A member's input in nV or nA as a code: the nominal unipolar transfer, rounded to even, from 0 to 65 535 (R163). -/
def hkCode (input : Int) (fs : Nat) : Nat := (max 0 (min 65535 (rneDiv (input * 65536) (1000 * fs)))).toNat

/-- The sums of the codes of a converter's members, from the inputs at the starts of their conversions. -/
def hkSums (k a : Nat) (inputs : List (List Int)) : List Nat :=
  (hkPlaces k).zipIdx.map (fun ((ch, m), i) => sumN (((inputs.getD i []).take a).map (fun x => hkCode x (hkFull ch m))))

/-- Whether a housekeeping converter is in the 10 µs of a watchdog reset (R469). -/
def Chip.hkInReset (c : Chip) (k : Nat) : Bool :=
  match at' c.hk.reset k with
  | some t => decide (c.mono < t + 10000)
  | none => false

/-- Whether a watchdog reset of a converter touches its part of the round in progress (R163). -/
def Chip.hkWasReset (c : Chip) (k : Nat) : Bool :=
  match at' c.hk.reset k with
  | some t => decide (at' c.hk.starts k < t + 10000)
  | none => false

/-- Whether a member can be measured now (R163, R169). The members of the pixel die are while it runs, in standby for the host link too
(R464, assumption 92). -/
def Chip.hkMeasures (c : Chip) (ch : Nat) : Bool :=
  !c.hkInReset (ch / 16) &&
  (if 3 ≤ ch ∧ ch ≤ 6 then decide (c.get (K.tfpaSource (ch - 3)) = 0)
   else if ch = 7 ∨ ch = 8 then bitOf (c.nat K.ntcEnable) (ch - 7)
   else if (16 ≤ ch ∧ ch ≤ 23) ∨ ch = 29 then c.pixelRuns
   else true)

/-! ### Slots of a round -/

/-- Change the round's state. -/
def Chip.modHk (c : Chip) (f : Hk → Hk) : Chip := { c with hk := f c.hk }

/-- The place of a channel's first member among those of its converter. -/
def hkFirst (ch : Nat) : Nat := sumN ((List.range (ch % 16)).map (fun i => hkCount (16 * (ch / 16) + i)))

/-- The number of a member among those of all channels, for the record of its slot. -/
def hkMember (ch m : Nat) : Nat := 8 * ch + m

/-- Whether a channel's members are sampled together at its start (Table 5.4). -/
def hkTogether (ch : Nat) : Bool := decide (ch = 14 ∨ ch = 15 ∨ ch = 30 ∨ ch = 31)

/-- The instant at which a member of the round in progress first samples its input, by the part's own timers: its converter has begun
its part of the round, and the slots before it and its own HK_SETTLE have passed (R163). -/
def Chip.hkSamplesAt (c : Chip) (ch m : Nat) : Nat :=
  at' c.hk.starts (ch / 16) + (hkFirst ch + if hkTogether ch then 0 else m) * (c.hk.settle + 1000 * c.hk.average) + c.hk.settle

/-- The members of the round in progress whose slot has come are judged: whether they could be measured then. What changes that
calls this first. -/
def Chip.hkJudge (c : Chip) : Chip :=
  let due := fun (l : List (Nat × Bool)) (ch m : Nat) =>
    !l.any (fun e => decide (e.1 = hkMember ch m)) && at' c.hk.busy (ch / 16) && decide (c.hkSamplesAt ch m ≤ c.mono)
  let l := (hkPlaces 0 ++ hkPlaces 1).foldl (fun (l : List (Nat × Bool)) ((ch, m) : Nat × Nat) =>
    if due l ch m then l ++ [(hkMember ch m, c.hkMeasures ch)] else l) c.hk.judged
  if c.hk.round then c.modHk (fun (x : Hk) => { x with judged := l }) else c

/-- Whether a member of the round in progress is valid: as its slot found it, and never on a converter that was reset in the round. -/
def Chip.hkMemberValid (c : Chip) (ch m : Nat) : Bool :=
  !c.hkWasReset (ch / 16) &&
  (match c.hk.judged.find? (fun e => decide (e.1 = hkMember ch m)) with
   | some e => e.2
   | none => c.hkMeasures ch)

/-- Whether a channel of the round in progress is valid: every member of it is (assumption 92). -/
def Chip.hkValid (c : Chip) (ch : Nat) : Bool := (List.range (hkCount ch)).all (fun m => c.hkMemberValid ch m)

end Sys2Proof.Machine
end

