-- ==== Sys2Proof/Machine/TrimSets.lean ====
section
/-! DEFINITION. Converter trims and trim sets (R196, R199, R200): the set in force of a bank, and the sets and previous trims kept
beside it. -/

namespace Sys2Proof.Machine

/-- A converter bank. -/
def Chip.bank (c : Chip) (b : Nat) : ConvBank := at' c.banks b

/-- Change a converter bank. -/
def Chip.modBank (c : Chip) (b : Nat) (f : ConvBank → ConvBank) : Chip := { c with banks := modAt c.banks b f }

/-! ### Trims (R196, R199, R200) -/

/-- The trims of a converter in the set in force. -/
def Chip.trimOf (c : Chip) (b j : Nat) : Trim := {
  off := c.get (K.convTrimOffset b j), gain := c.get (K.convTrimGain b j), oc := c.get (K.convOffset b j), gc := c.get (K.convGain b j) }

/-- Give a converter trims in the set in force. -/
def Chip.putTrim (c : Chip) (b j : Nat) (t : Trim) : Chip :=
  c.setAll [(K.convTrimOffset b j, t.off), (K.convTrimGain b j, t.gain), (K.convOffset b j, t.oc), (K.convGain b j, t.gc)]

/-- The trims that a converter has at the factory (assumption 2). -/
def factoryTrim (b j : Nat) : Trim := {
  off := objDefault (K.convTrimOffset b j), gain := objDefault (K.convTrimGain b j), oc := objDefault (K.convOffset b j)
  gc := objDefault (K.convGain b j) }

/-- Trims kept for a converter and a set, or the factory's. -/
def keptTrim (l : List KeptTrim) (b j set : Nat) : Trim :=
  ((l.find? (fun (k : KeptTrim) => decide (k.conv = j ∧ k.set = set))).map (·.trim)).getD (factoryTrim b j)

/-- Keep trims for a converter and a set. -/
def keepTrim (l : List KeptTrim) (j set : Nat) (t : Trim) : List KeptTrim :=
  l.filter (fun (k : KeptTrim) => !decide (k.conv = j ∧ k.set = set)) ++ [{ conv := j, set := set, trim := t }]

/-- New codes of a target go to the NVM; a revert writes the older group again (R450). -/
def Chip.nvmTrim (c : Chip) (target set : Nat) (codes : TrimCodes) (back : Bool) : Chip :=
  c.nvmWrite (if back then .revert target set codes else .trim target set codes)

/-- The codes of a trim. -/
def Trim.codes (t : Trim) : TrimCodes := [t.off, t.gain, t.oc, t.gc]

/-- A converter takes new trims, of a calibration or of a revert; the ones it had become the previous ones. -/
def Chip.newTrim (c : Chip) (b j : Nat) (t : Trim) (back : Bool := false) : Chip :=
  let set := (c.bank b).set
  let old := c.trimOf b j
  let c := c.modBank b (fun (k : ConvBank) => { k with prev := keepTrim k.prev j set old })
  (c.putTrim b j t).nvmTrim (34 * b + j) set t.codes back

/-- A band selects a trim set (R200): the values of its converters come into force, the others are kept. -/
def Chip.selectTrims (c : Chip) (b set : Nat) : Chip :=
  let k := c.bank b
  if k.set = set then c
  else
    let kept := (List.range 34).foldl (fun (l : List KeptTrim) (j : Nat) => keepTrim l j k.set (c.trimOf b j)) k.kept
    let c := c.modBank b (fun (x : ConvBank) => { x with set := set, kept := kept })
    (List.range 34).foldl (fun (c : Chip) (j : Nat) => c.putTrim b j (keptTrim kept b j set)) c

/-- Exchange current and previous trims of every converter of a bank, in the set in force (R199). -/
def Chip.revertTrims (c : Chip) (b : Nat) : Chip :=
  (List.range 34).foldl (fun (c : Chip) (j : Nat) => c.newTrim b j (keptTrim (c.bank b).prev b j (c.bank b).set) true) c

end Sys2Proof.Machine
end

