-- ==== Sys2Proof/Machine/Update.lean ====
section
/-! DEFINITION. When accepted writes take effect (R76 to R80), which locks a reset releases (R98) and how the
management controller wakes (R463). -/

namespace Sys2Proof.Machine

/-! ### F-class values -/

/-- Change the pixel-die state of a source. -/
def Chip.modSource (c : Chip) (s : Nat) (f : Source → Source) : Chip :=
  { c with pix := { c.pix with sources := modAt c.pix.sources s f } }

/-- Change the state of a stream. -/
def Chip.modStream (c : Chip) (n : Nat) (f : Stream → Stream) : Chip :=
  { c with pix := { c.pix with streams := modAt c.pix.streams n f } }

/-- What the application of a value asks for beside the value itself: a table to copy (R209, R281, R337), a seed of the
temporal filter (Table 10.2) or of Equinox (R245), or a count to restart (R334). -/
def Chip.onApplied (c : Chip) (key : Nat) (v : Int) : Chip :=
  let c := (List.range 6).foldl (fun (c : Chip) (s : Nat) =>
    if key = K.linSelect s then c.modSource s (fun (x : Source) => { x with linLoad := true })
    else if key = K.radioSelect s then c.modSource s (fun (x : Source) => { x with radLoad := true })
    else if key = K.tnrEnable s ∧ c.get key = 0 ∧ v = 1 then c.modSource s (fun (x : Source) => { x with tnrNow := true })
    else if s < 4 ∧ key = K.eqxEnable s ∧ c.get key = 0 ∧ v = 1 then
      c.modSource s (fun (x : Source) => { x with eqxNow := true })
    else c) c
  (List.range 8).foldl (fun (c : Chip) (n : Nat) =>
    if key = K.scaleKernel n then c.modStream n (fun (x : Stream) => { x with tableLoad := true })
    else if key = K.streamDecimate n then c.modStream n (fun (x : Stream) => { x with count := 0 })
    else c) c

/-- TRIM_SET of the current band of a stopped head selects the trim set in force at once (R200); that of a running head does so in
step 3 of its frame start. -/
def Chip.trimApplied (c : Chip) (key : Nat) (v : Int) : Chip :=
  (List.range 4).foldl (fun (c : Chip) (h : Nat) =>
    if c.ownerStopped h ∧ key = K.trimSet (16 * h + c.nat (K.currentBand h)) then c.selectTrims h v.toNat else c) c

/-- Put an F-class value in force. -/
def Chip.applyF (c : Chip) (key : Nat) (v : Int) : Chip := ((c.onApplied key v).set key v).trimApplied key v

/-- The last write to each object of a list. -/
def lastWrites : List Staged → List Staged
  | [] => []
  | w :: l => if l.any (fun x => decide (x.key = w.key)) then lastWrites l else w :: lastWrites l

/-- Put the last value written to each object in force. -/
def Chip.applyWrites (c : Chip) (l : List Staged) : Chip := (lastWrites l).foldl (fun c w => c.applyF w.key w.val) c

/-- At a frame start of an owner, the writes accepted more than 2 µs before it are applied together, unless STAGE_HOLD
holds them (R77, R78). -/
def Chip.applyStaged (c : Chip) (owner : Nat) : Chip :=
  if c.ownerHeld owner then c
  else
    let due := fun (w : Staged) => decide (w.owner = owner ∧ w.at' + 2000 < c.mono)
    let l := c.staged.filter due
    ({ c with staged := c.staged.filter (fun (w : Staged) => !due w) } : Chip).applyWrites l

/-- While an owner is stopped its staged writes take effect at once, unless STAGE_HOLD holds them. -/
def Chip.applyStopped (c : Chip) (owner : Nat) : Chip :=
  if c.ownerHeld owner || !c.ownerStopped owner then c
  else
    let l := c.staged.filter (fun (w : Staged) => decide (w.owner = owner))
    ({ c with staged := c.staged.filter (fun (w : Staged) => decide (w.owner ≠ owner)) } : Chip).applyWrites l

/-! ### P-class values (R80) -/

/-- Put the pending values of some objects in force. -/
def Chip.applyPending (c : Chip) (p : Nat → Bool) : Chip :=
  let l := c.pendingP.filter (fun (e : Nat × Int) => p e.1)
  ({ c with pendingP := c.pendingP.filter (fun (e : Nat × Int) => !p e.1) } : Chip).setAll l

/-- PCIe endpoint values, applied when it starts with its configuration space reset. -/
def pcieP (key : Nat) : Bool := decide (key = K.pcieSpeedLimit ∨ key = K.pcieSubsystemId)

/-- CAN values, applied at a chip reset, a front-die reset and an NMT reset. -/
def canP (key : Nat) : Bool := decide (key = K.canNodeId ∨ key = K.canNominalRate ∨ key = K.canDataRate)

/-- Psirel values, applied at a restart of HOST. -/
def psirelP (key : Nat) : Bool := decide (key = K.psirelRole ∨ key = K.psirelNode)

/-- DRAM and serial-port master values, applied at a restart of MEM. -/
def memP (key : Nat) : Bool := decide (key = K.dramRate ∨ key = K.dramLinkEcc ∨ key = K.spmAutoConfig)

/-! ### Locks (Table 3.6, R98) -/

/-- The owner code of a master. -/
def ownerCode : Master → Nat
  | .mc => 1
  | .f1 => 2
  | .f0 => 3
  | .sp => 4
  | .can => 5

/-- Release every lock that an owner holds, counting each. -/
def Chip.releaseLocks (c : Chip) (code : Nat) : Chip :=
  (List.range 32).foldl (fun c j =>
    if c.get (K.lock j) = code then (c.set (K.lock j) 0).bump K.lockForced else c) c

/-! ### Waking (R463) -/

/-- A wake cause in deep standby: the management controller wakes, unless it is already waking. -/
def Chip.wake (c : Chip) : Chip :=
  if c.mode.asleep ∧ c.boot.phase = .ready then { c with mode := { c.mode with waking := true } } else c

end Sys2Proof.Machine
end

