-- ==== Sys2Proof/Machine/Nvm.lean ====
section
/-! DEFINITION. Storing and restoring parameters (R100 to R102, R446, R482), the NVM's write watchdog and its hold at
the thermal limit (R451). -/

namespace Sys2Proof.Machine

/-! ### Parameter images -/

/-- The store group of a key as a bit: 1 for group 2, 2 for group 3, 4 for group 4 (Table 3.8). -/
def groupBit (key : Nat) : Nat :=
  if key < 0x200000 then 1 else if key < 0x240000 then 4 else 2

/-- The groups that a sub-index of STORE or RESTORE names: all, communication, application, chip. -/
def groupMask (g : Nat) : Nat := match g with | 0 => 7 | 1 => 1 | 2 => 2 | _ => 4

/-- Whether a set of groups holds a key. -/
def inGroups (mask key : Nat) : Bool := decide (Nat.land mask (groupBit key) ≠ 0)

/-- Whether a sub-index is stored (R482). -/
def isStored (key : Nat) : Bool :=
  match rowOf? key with
  | some r => r.kept
  | none => false

/-- The image in force: the newer of the valid ones, and whether it is image B (R446). -/
def Nvm.newest (n : Nvm) : Option (Image × Bool) :=
  match n.imageA, n.imageB with
  | some a, some b => if (a.seq + 2 ^ 32 - b.seq) % 2 ^ 32 < 2 ^ 31 then some (a, false) else some (b, true)
  | some a, none => some (a, false)
  | none, some b => some (b, true)
  | none, none => none

/-- NVM_IMAGE_IN_FORCE: 0 image A, 1 image B, 0xFF none. -/
def Nvm.inForce (n : Nvm) : Nat :=
  match n.newest with
  | some (_, false) => 0
  | some (_, true) => 1
  | none => 0xFF

/-- The sequences and the image in force as the NVM objects report them. -/
def Chip.reportImages (c : Chip) : Chip :=
  c.setAll [(K.nvmImageSequence 0, (c.nvm.imageA.map (·.seq)).getD 0), (K.nvmImageSequence 1, (c.nvm.imageB.map (·.seq)).getD 0),
    (K.nvmImageInForce, c.nvm.inForce)]

/-- Objects whose default follows the node number (R384), with the base of each. -/
def nodeDefaults : List (Nat × Nat) :=
  [(K.emcyCobId, 0x80), (K.rpdoCobId 0, 0x200), (K.rpdoCobId 1, 0x300), (K.tpdoCobId 0, 0x180), (K.tpdoCobId 1, 0x280),
   (K.tpdoCobId 2, 0x80000380), (K.tpdoCobId 3, 0x80000480)]

/-- The CFG_INIT domains, the only stored ones (R482). -/
def storedDomains : List Nat := tab 4 (fun h => K.cfgInit h)

/-- The values last written of the stored sub-indices of some groups, applied or not (R100). One whose value is its
default needs no entry, but one whose default follows the node number always has one. -/
def Chip.captured (c : Chip) (mask : Nat) : Dict :=
  let keys := c.dict.map (·.1) ++ c.staged.map (·.key) ++ c.pendingP.map (·.1) ++ nodeDefaults.map (·.1)
  let keys := keys.foldl (fun (l : List Nat) k => if k ∈ l then l else l ++ [k]) []
  (keys.filter (fun k => inGroups mask k && isStored k)).map (fun k => (k, c.val k))

/-- The image that a store of some groups writes (R100). -/
def Chip.storeImage (c : Chip) (mask : Nat) : Image :=
  let old := c.nvm.newest.map (·.1)
  let doms := (storedDomains.filter (inGroups mask)).filterMap (fun k => (c.domainImage? k).map (fun l => (k, l)))
  { seq := nextSeq ((old.map (·.seq)).getD 0) 0xFFFFFFFF
    marks := clearBits ((old.map (·.marks)).getD 0) mask
    values := ((old.map (·.values)).getD []).filter (fun e => !inGroups mask e.1) ++ c.captured mask
    domains := ((old.map (·.domains)).getD []).filter (fun e => !inGroups mask e.1) ++ doms }

/-- The image that a restore mark writes (R101). -/
def Chip.restoreImage (c : Chip) (mask : Nat) : Image :=
  let old := c.nvm.newest.map (·.1)
  { seq := nextSeq ((old.map (·.seq)).getD 0) 0xFFFFFFFF
    marks := Nat.lor ((old.map (·.marks)).getD 0) mask
    values := (old.map (·.values)).getD []
    domains := (old.map (·.domains)).getD [] }

/-- The guarded write of an image begins: its first step marks the image it writes invalid (R445, R446). -/
def Chip.beginImage (c : Chip) : Chip :=
  match c.nvm.job with
  | none => c
  | some j =>
    if j.begun then c
    else
      let c := { c with nvm := { c.nvm with job := some { j with begun := true } } }
      (if j.intoB then { c with nvm := { c.nvm with imageB := none } } else { c with nvm := { c.nvm with imageA := none } } : Chip).reportImages

/-- Request the guarded write of an image into the older image, or image A when neither is valid; it begins at once unless it waits for
VANA (R54). -/
def Chip.startImage (c : Chip) (img : Image) : Chip :=
  let c := { c with nvm := { c.nvm with job := some { image := img, intoB := decide (c.nvm.inForce = 0), begun := false }, storeLost := false } }
  ((if c.vanaLow then c else c.beginImage).set K.storeState 1).set K.nvmState 1

/-- Refusals common to store and restore: a wrong signature, one running, the hold of R451. -/
def Chip.storeRefused (c : Chip) (v sig : Nat) : Bool := decide (v ≠ sig) || c.nvm.job.isSome || c.nvmHolds

/-- A write to a sub-index of STORE (R100). -/
def storeOp (g v : Nat) (c : Chip) : Except Abort Chip :=
  guardNot (c.storeRefused v 0x65766173) Abort.notStored (.ok (c.startImage (c.storeImage (groupMask g))))

/-- A write to a sub-index of RESTORE (R101). -/
def restoreOp (g v : Nat) (c : Chip) : Except Abort Chip :=
  guardNot (c.storeRefused v 0x64616F6C) Abort.notStored (.ok (c.startImage (c.restoreImage (groupMask g))))

/-- NVM_STATE once no image is being written. -/
def Chip.nvmRest (c : Chip) : Chip := c.set K.nvmState (if c.nvm.holding then 2 else 0)

/-! ### What an image holds (R446) -/

/-- The rows of every range of Table 3.7. -/
def allRows : List Row :=
  rowsIdentity ++ rowsChip ++ rowsHeads ++ rowsConversion ++ rowsThermal ++ rowsNuc ++ rowsSolstice ++ rowsActuators ++ rowsNoise ++
  rowsReceivers ++ rowsStreams ++ rowsStatistics ++ rowsMemory ++ rowsLinks ++ rowsDma

/-- The mailbox slots of stored rows that R426 leaves unimplemented. -/
def hiddenStored : List Nat :=
  ([0x5034, 0x503C].map (fun idx => tab 4 (fun j => idx * 256 + 2 + j))).flatten.filter isStored

/-- How many sub-indices are stored: each has an entry of 16 bytes in the body of an image. -/
def storedCount : Nat :=
  sumN ((allRows.filter (·.kept)).map (fun (r : Row) => r.count * r.copies * r.copies2)) - hiddenStored.length

/-- The length of a body in bytes, at most 128 KiB: the entries, then each stored DOMAIN object as its length, in `width` bytes, and its
bytes. -/
def Image.bodyLength (i : Image) (width : Nat) : Nat :=
  min 0x20000 (16 * storedCount + sumN (storedDomains.map (fun k => width + ((i.domains.find? (·.1 = k)).map (·.2.length)).getD 0)))

/-- Group writes of an image (R445, R446): the header page with its validity group written twice, and the body. -/
def Image.groups (i : Image) (width : Nat) : Nat := 9 + (i.bodyLength width + 7) / 8

/-- A store or restore ends, its sequence number written last. The width of a DOMAIN's length in the body is open. It does not end while
its groups wait for VANA. -/
def storeComplete (c : Chip) : Chip :=
  match c.nvm.job with
  | none => c
  | some j =>
    if !j.begun || c.vanaLow then c
    else
    let c := { c with nvm := { c.nvm with job := none } }
    let c := if j.intoB then { c with nvm := { c.nvm with imageB := some j.image } }
      else { c with nvm := { c.nvm with imageA := some j.image } }
    let (n, c) := c.freeNat 3
    let c := c.total K.nvmGroupWrites (j.image.groups (n + 1))
    (c.reportImages.set K.storeState 0).nvmRest.nvmWrite (.count 1 1)

/-! ### What the NVM's reads find (R443) -/

/-- A counter loses copy A or copy B; the other groups of its page hold none (R447). -/
def Chip.loseCount (c : Chip) (num g : Nat) : Chip :=
  let n := c.nvm.counter num
  let n := if g = 0 then { n with a := none } else if g = 4 then { n with b := none } else n
  { c with nvm := { c.nvm with counters := c.nvm.counters.filter (fun (x : NvmCounter) => x.num ≠ num) ++ [n] } }

/-- A log record is lost; the newest valid one is where the log goes on (R448). -/
def Chip.loseLog (c : Chip) (slot : Nat) : Chip :=
  let l := c.nvm.log.filter (fun (r : LogRec) => decide (r.q % 4096 ≠ slot))
  { c with nvm := { c.nvm with log := l, logSeq := (l.head?.map (·.q)).getD 0 } }

/-- An anchor slot of a set is lost (R449). -/
def Chip.loseAnchor (c : Chip) (set slot : Nat) : Chip :=
  { c with nvm := { c.nvm with anchors := modAt c.nvm.anchors set (fun p => if slot = 0 then (none, p.2) else (p.1, none)) } }

/-- A trim group is lost. A target's generation of a parity lies in its group of that parity (assumption 113): without the current group
the previous trims are the current ones, and without the previous group there are none (R450). -/
def TrimPair.lose (p : TrimPair) (g : Nat) : TrimPair :=
  if p.gen % 2 = g then { p with cur := p.prev, prev := [], gen := (p.gen + 15) % 16 } else { p with prev := [] }

/-- A target of which no group is left has no trims in the NVM. -/
def Chip.loseTrim (c : Chip) (target set g : Nat) : Chip :=
  let l := c.nvm.trims.map (fun (p : TrimPair) => if p.target = target ∧ p.set = set then p.lose g else p)
  { c with nvm := { c.nvm with trims := l.filter (fun (p : TrimPair) => !p.cur.isEmpty) } }

/-- An uncorrectable group is invalid to the structure that reads it (Table 15.5); factory data and the Gnoner slots name no effect here. -/
def Chip.nvmLose (c : Chip) (g : Nat) : Chip :=
  let off := 8 * g
  if off < 0x040000 then c
  else if off < 0x0C0000 then { c with nvm := { c.nvm with imageA := none } }
  else if off < 0x140000 then { c with nvm := { c.nvm with imageB := none } }
  else if off < 0x150000 then c.loseCount ((off - 0x140000) / 64) (g % 8)
  else if off < 0x170000 then c.loseLog ((off - 0x150000) / 32)
  else if off < 0x180000 then c.loseAnchor ((off - 0x170000) / 64) (off / 32 % 2)
  else if off < 0x1C0000 then
    let n := g - 0x030000
    c.loseTrim (n / 8) (n / 2 % 4) (n % 2)
  else c

/-- What reads of the NVM find (R443): a corrected group counts and is written back, an uncorrectable one counts, raises record
0x3005 and is invalid. -/
def Chip.nvmFound (c : Chip) (found : List NvmFind) : Chip :=
  found.foldl (fun (c : Chip) (f : NvmFind) =>
    if f.uncorrectable then
      ((c.bump K.nvmUncorrectable).nvmLose f.group.toNat).raise 0 3 2 0 0x3005 f.group.toNat 0
    else (c.bump K.nvmCorrected).nvmAgain) c

/-- What a reload of the parameter image finds: groups of the two images (Table 15.5). -/
def Chip.imageFound (c : Chip) (found : List NvmFind) : Chip :=
  c.nvmFound (found.filter (fun f => decide (0x040000 ≤ 8 * f.group.toNat ∧ 8 * f.group.toNat < 0x140000)))

/-- What a read of NVM_LOG finds: groups of the log, whose records leave NVM_LOG_VALID and NVM_LOG_NEWEST. -/
def Chip.logFound (c : Chip) (found : List NvmFind) : Chip :=
  let l := found.filter (fun f => decide (0x150000 ≤ 8 * f.group.toNat ∧ 8 * f.group.toNat < 0x170000))
  if l.isEmpty then c
  else
    let c := c.nvmFound l
    c.setAll [(K.nvmLogNewest, (c.nvm.logSeq : Int)), (K.nvmLogValid, (c.nvm.log.length : Int))]

/-! ### Applying stored values (R102, R384) -/

/-- The defaults that follow the node number, for the objects of a list that have no stored value. -/
def Chip.formNodeDefaults (c : Chip) (stored : List Nat) : Chip :=
  nodeDefaults.foldl (fun c e => if e.1 ∈ stored then c else c.set e.1 (e.2 + c.nat K.canNodeId : Nat)) c

/-- The entries of the newest image that apply: stored sub-indices of groups not marked for restore. -/
def Chip.applicable (c : Chip) (mask : Nat) : Dict :=
  match c.nvm.newest with
  | none => []
  | some (i, _) => i.values.filter (fun e => inGroups mask e.1 && !inGroups i.marks e.1 && isStored e.1)

/-- At a chip restart stored sub-indices take the values of the newest image (R102), then pending P-class values take effect (R80), and
the defaults that follow the node number are formed from the one then in force (R384). Every object holds its default before. -/
def Chip.applyStored (c : Chip) : Chip :=
  let l := c.applicable 7
  let c := ((c.setAll l).applyPending (fun _ => true)).formNodeDefaults (l.map (·.1))
  match c.nvm.newest with
  | none => c
  | some (i, _) => { c with domains := i.domains.filter (fun e => !inGroups i.marks e.1) }

/-- Reset communication reloads store group 2 from the newest image (R377). -/
def Chip.reloadComm (c : Chip) : Chip :=
  let l := c.applicable 1
  let keys := c.dict.map (·.1)
  let c := (keys.filter (fun k => decide (k < 0x200000) && isStored k)).foldl (fun c k => c.set k (objDefault k)) c
  (c.setAll l).formNodeDefaults (l.map (·.1))

/-! ### The hold at the thermal limit (R451) -/

/-- Write every queued entry in arrival order. -/
def Chip.writeHeld (c : Chip) : Chip :=
  let l := c.nvm.held
  let c := { c with nvm := { c.nvm with held := [] } }
  l.foldl Chip.nvmWrite (c.set K.nvmHeld 0)

/-- Enter the hold when its condition begins. -/
def Chip.nvmHoldCheck (c : Chip) : Chip := if c.nvmHot then c.nvmEnterHold else c

/-- The hold ends: the queue is written. -/
def nvmHoldRelease (c : Chip) : Chip :=
  if c.nvm.holding ∧ !c.nvmHot then
    let c := { c with nvm := { c.nvm with holding := false } }
    (if c.nvm.job.isSome then c else c.set K.nvmState 0).writeHeld
  else c

/-- A group write that did not complete is written again (R469): the cell resets, and the group counts once more. While the NVM
controller resets or MEM restarts no reset starts (R474). -/
def nvmWriteWatchdog (c : Chip) : Chip := if c.cellHeld 3 2 then c else c.nvmAgain.cellExpired 3 2 0 0 0 0

/-! ### Meanings -/

/-- STORE -/
def execStore (m : Master) (g : Fin 4) (v : BitVec 32) (s : State) : Res :=
  run s (fun c => c.command m (K.storeAll + g.val) (storeOp g.val v.toNat))

/-- RESTORE -/
def execRestore (m : Master) (g : Fin 4) (v : BitVec 32) (s : State) : Res :=
  run s (fun c => c.command m (K.restore g.val) (restoreOp g.val v.toNat))

/-- STORE_COMPLETE -/
def execStoreComplete (s : State) : Res := run s storeComplete

/-- NVM_WRITE_WATCHDOG -/
def execNvmWriteWatchdog (s : State) : Res := run s nvmWriteWatchdog

/-- NVM_HOLD_RELEASE -/
def execNvmHoldRelease (s : State) : Res := run s nvmHoldRelease

end Sys2Proof.Machine
end

