-- ==== Sys2Proof/Machine/Fieldbus.lean ====
section
/-! DEFINITION. The CAN FD controller and the NMT slave (R374 to R377, R379, R381): states, errors, boot-up, NMT
commands and the timers of the heartbeat, the EMCY messages and the transmit PDOs. -/

namespace Sys2Proof.Machine

/-- Change the CAN state. -/
def Chip.modCan (c : Chip) (f : Can → Can) : Chip := { c with can := f c.can }

/-- CAN_STATE, CAN_TEC and CAN_REC as they stand; the limits 96, 128 and 256 are those of ISO 11898-1
(assumption 14). -/
def Chip.canStatus (c : Chip) : Chip :=
  let st : Int := if c.pins.canStbyHigh then 4 else if c.can.calibrating then 5 else if c.can.off then 3 else c.can.level
  c.setAll [(K.canState, st), (K.canTec, min c.can.tec 255), (K.canRec, min c.can.rec' 255)]

/-- Whether the controller takes part in the bus. -/
def Chip.canOnBus (c : Chip) : Bool := decide (c.boot.phase = .ready) && !c.pins.canStbyHigh && !c.can.off

/-- Whether NMT commands act: the node has sent its boot-up message and its controller is on the bus. -/
def Chip.nmtListens (c : Chip) : Bool := c.canOnBus && decide (c.get K.nmtState ≠ 0)

/-- The boot-up message, then pre-operational (R377). -/
def Chip.canBootUp (c : Chip) : Chip :=
  (c.canSend (0x700 + c.nat K.canNodeId) [0]).set K.nmtState 0x7F

/-- A restarted controller: no error, nothing queued, calibrating anew while REFCLK is lost (R376). -/
def Chip.canRestart (c : Chip) : Chip :=
  (c.modCan (fun _ => { calibrating := decide (c.get K.refclkState ≠ 0) })).canStatus

/-- Reset communication (R377): the controller restarts, its P-class values apply (R80), store group 2 is reloaded and
the CAN client's locks are released. -/
def Chip.resetCommunication (c : Chip) (found : List NvmFind := []) : Chip :=
  let c := (((c.imageFound found).set K.nmtState 0).applyPending canP).reloadComm
  (c.canRestart.releaseLocks 5).canBootUp

/-- An NMT command that changes the state. -/
def Chip.nmtEnter (c : Chip) (st : Int) : Chip := if c.nmtListens then c.set K.nmtState st else c

/-- Reset communication as an NMT command. -/
def nmtResetCommunication (c : Chip) (found : List NvmFind := []) : Chip := if c.nmtListens then c.resetCommunication found else c

/-- A bus error (R374): the error count of the direction grows by its weight; past 127 the controller is error
passive (EMCY 0x8120), and a transmit count past 255 takes it off the bus. -/
def canErrorDetected (tx : Bool) (weight : Nat) (c : Chip) : Chip :=
  if !c.canOnBus then c
  else
    let was := c.get K.canState
    let c := c.modCan (fun n => if tx then { n with tec := n.tec + weight } else { n with rec' := min (n.rec' + weight) 255 })
    let c := if 256 ≤ c.can.tec then (c.modCan (fun n => { n with off := true })).bump K.canBusOffs else c
    let c := c.canStatus
    if c.get K.canState = 2 ∧ was ≠ 2 then c.emcyBare 0x8120 else c

/-- Recovery from bus off (R379). -/
def canBusOffRecovery (c : Chip) : Chip :=
  if c.can.off then
    ((c.modCan (fun n => { n with off := false, tec := 0, rec' := 0 })).canStatus).emcyBare 0x8140
  else c

/-- A frame received well lowers the receive error count (assumption 14). -/
def Chip.canReceivedWell (c : Chip) : Chip :=
  (c.modCan (fun n => { n with rec' := if 127 < n.rec' then 127 else n.rec' - 1 })).canStatus

/-- While REFCLK is lost, four consecutive frames whose bit times agree within 0.3 % lock the controller (R376). -/
def Chip.canCalibrate (c : Chip) (bitTime : Nat) : Chip :=
  if !c.can.calibrating then c
  else
    let l := (bitTime :: c.can.times).take 4
    let hi := l.foldl max 0
    let lo := l.foldl min bitTime
    if l.length = 4 ∧ (hi - lo) * 1000 ≤ 3 * lo then
      (c.modCan (fun n => { n with times := [], calibrating := false, locked := true })).canStatus
    else c.modCan (fun n => { n with times := l })

/-- The heartbeat: the NMT state, every HEARTBEAT_TIME unless it is 0. -/
def heartbeat (c : Chip) : Chip :=
  if c.nmtListens ∧ c.get K.heartbeatTime ≠ 0 then
    c.canSend (0x700 + c.nat K.canNodeId) [BitVec.ofNat 8 (c.nat K.nmtState)]
  else c

/-- A transmit PDO's event timer expires. -/
def tpdoEventTimer (n : Nat) (c : Chip) : Chip :=
  if c.get (K.tpdoEventTimer n) ≠ 0 ∧ c.boot.phase = .ready ∧ !c.mode.asleep then c.tpdoEvent n else c

/-- A transmit PDO's inhibit time ends: one merged PDO is sent. -/
def tpdoInhibitEnd (n : Nat) (c : Chip) : Chip :=
  let t := at' c.can.tpdo n
  let c := c.modCan (fun k => { k with tpdo := modAt k.tpdo n (fun t => { t with inhibited := false, waiting := false }) })
  if t.inhibited ∧ t.waiting then
    if c.get K.nmtState ≠ 5 ∨ c.get K.canState = 3 then c.bump K.tpdoLost
    else if c.boot.hkpRestart then c
    else c.tpdoSend n
  else c

/-- The EMCY inhibit time ends: the next queued message is sent; while EMCY is not allowed, the queue waits (R377, R379). -/
def emcyInhibitEnd (c : Chip) : Chip :=
  if !c.emcyAllowed ∧ c.can.emcyQueue ≠ [] then c
  else
  let c := c.modCan (fun k => { k with emcyInhibited := false })
  match c.can.emcyQueue with
  | [] => c
  | e :: rest => (c.modCan (fun k => { k with emcyQueue := rest })).emcyTransmit e

/-! ### Meanings -/

/-- CAN_WAKE -/
def execCanWake (s : State) : Res := run s Chip.wake

/-- NMT_START_REMOTE -/
def execNmtStartRemote (s : State) : Res := run s (fun c => c.nmtEnter 5)

/-- NMT_STOP_REMOTE -/
def execNmtStopRemote (s : State) : Res := run s (fun c => c.nmtEnter 4)

/-- NMT_ENTER_PRE_OPERATIONAL -/
def execNmtEnterPreOperational (s : State) : Res := run s (fun c => c.nmtEnter 0x7F)

/-- NMT_RESET_COMMUNICATION -/
def execNmtResetCommunication (s : State) (found : List NvmFind := []) : Res := run s (fun c => nmtResetCommunication c found)

/-- TPDO_EVENT_TIMER -/
def execTpdoEventTimer (n : Fin 4) (s : State) : Res := run s (tpdoEventTimer n)

/-- TPDO_INHIBIT_END -/
def execTpdoInhibitEnd (n : Fin 4) (s : State) : Res := run s (tpdoInhibitEnd n)

/-- EMCY_INHIBIT_END -/
def execEmcyInhibitEnd (s : State) : Res := run s emcyInhibitEnd

/-- HEARTBEAT -/
def execHeartbeat (s : State) : Res := run s heartbeat

/-- CAN_ERROR_DETECTED -/
def execCanErrorDetected (tx : Bool) (weight : BitVec 8) (s : State) : Res := run s (canErrorDetected tx weight.toNat)

/-- CAN_BUS_OFF_RECOVERY -/
def execCanBusOffRecovery (s : State) : Res := run s canBusOffRecovery

end Sys2Proof.Machine
end

