-- ==== Sys2Proof/Machine/Actuators.lean ====
section
/-! DEFINITION. The shutter and valve drive (R260 to R280): operations, banks, clamp energy, diagnostics, off-state
tests, latching shutters and parking. -/

namespace Sys2Proof.Machine

/-! ### Access to the driver's state -/

/-- Change the state of an actuator channel. -/
def Chip.modActCh (c : Chip) (ch : Nat) (f : ActCh → ActCh) : Chip :=
  { c with act := { c.act with chans := modAt c.act.chans ch f } }

/-- Change the state of an actuator bank. -/
def Chip.modActBank (c : Chip) (b : Nat) (f : ActBank → ActBank) : Chip :=
  { c with act := { c.act with banks := modAt c.act.banks b f } }

/-- A bank. -/
def Chip.actBank (c : Chip) (b : Nat) : ActBank := at' c.act.banks b

/-- A channel. -/
def Chip.actCh (c : Chip) (ch : Nat) : ActCh := at' c.act.chans ch

/-- Whether a channel carries out an operation, boost to dwell. -/
def Chip.chActive (c : Chip) (ch : Nat) : Bool := decide (2 ≤ c.get (K.chState ch) ∧ c.get (K.chState ch) ≤ 5)

/-- Whether a channel of a bank carries out an operation. -/
def Chip.bankActive (c : Chip) (b : Nat) : Bool := c.chActive (2 * b) || c.chActive (2 * b + 1)

/-- BANK_STATE as its conditions stand (Table 9.6). -/
def Chip.bankStateOf (c : Chip) (b : Nat) : Int :=
  let k := c.actBank b
  if k.latched then 6
  else if c.act.parked ∧ k.park = 3 then 5
  else if k.park ≠ 0 then 4
  else if c.get (K.bankRun b) = 0 then 0
  else if c.act.holdoff ∧ k.queue.any (fun q => decide (q.2 ≠ .park)) then 3
  else if c.bankActive b then 2
  else 1

/-- Bring BANK_STATE of both banks up to date. -/
def Chip.refreshBanks (c : Chip) : Chip := (c.set (K.bankState 0) (c.bankStateOf 0)).set (K.bankState 1) (c.bankStateOf 1)

/-- Remove a channel's request from its bank's queue; with no other start pending there is nothing left to hold. -/
def Chip.dropRequest (c : Chip) (ch : Nat) : Chip :=
  let keep := fun (k : ActBank) => k.queue.filter (fun q => decide (q.1 ≠ ch))
  let c := c.modActBank (ch / 2) (fun k => { k with queue := keep k, clampHeld := k.clampHeld && !(keep k).isEmpty })
  if c.get (K.chState ch) = 1 then c.set (K.chState ch) 0 else c

/-- Discard every queued request of a bank. -/
def Chip.discardQueue (c : Chip) (b : Nat) : Chip :=
  let c := (c.actBank b).queue.foldl (fun c q => if c.get (K.chState q.1) = 1 then c.set (K.chState q.1) 0 else c) c
  c.modActBank b (fun k => { k with queue := [], clampHeld := false })

/-! ### Clamp energy (R270) -/

/-- The highest code of a sample: of 12 bits for each switch, in parallel mode the sum of two (R263, R264). -/
def Chip.sampleTop (c : Chip) (ch : Nat) : Nat := if c.get (K.bankMode (ch / 2)) = 2 then 8190 else 4095

/-- The µA that a code stands for: 4095 is 4.0 A (assumption 122). -/
def sampleValue (code : Nat) : Nat := (code * 4000000 + 2047) / 4095

/-- A sample in µA as the driver takes it: the nearest code of 12 bits over 0 to 4.0 A for each switch (R264, assumption 122). -/
def Chip.sample (c : Chip) (ch x : Nat) : Nat := sampleValue (min (c.sampleTop ch) ((x * 4095 + 2000000) / 4000000))

/-- The samples of a channel in µA as the driver takes them. -/
def Chip.samples (c : Chip) (ch : Nat) (l : List (BitVec 32)) : List Nat := l.map (fun x => c.sample ch x.toNat)

/-- The clamp-energy estimate of decay samples in µA, in µJ: 45 V x current x 1 µs each. -/
def clampEnergy (samples : List Nat) : Nat := sumN (samples.map (fun s => 45 * s)) / 1000000

/-- Samples reach a channel: CURRENT_NOW is the latest, and the highest so far is kept. -/
def Chip.sensed (c : Chip) (ch : Nat) (l : List Nat) : Chip :=
  let c := c.modActCh ch (fun a => { a with highest := l.foldl max a.highest })
  match l.getLast? with
  | some x => c.set (K.currentNow ch) x
  | none => c

/-- The estimates of the last 1 s. -/
def Chip.clampRecent (c : Chip) : List (Nat × Nat) := c.act.clamp.filter (fun e => c.mono < e.1 + 1000000000)

/-- Hold a bank whose pending start the clamp power forbids, counting the hold once. -/
def Chip.clampHold (c : Chip) (b : Nat) : Chip :=
  let k := c.actBank b
  if c.act.holdoff ∧ !k.clampHeld ∧ k.queue.any (fun q => decide (q.2 ≠ .park)) then
    (c.modActBank b (fun k => { k with clampHeld := true })).bump K.clampHoldoffs
  else c

/-- The clamp power of the last 1 s is judged: from 600 000 µW no operation starts, and a bank with a pending start is held. -/
def Chip.clampUpdate (c : Chip) : Chip :=
  let l := c.clampRecent
  let total := sumN (l.map (·.2))
  let c := { c with act := { c.act with clamp := l, holdoff := c.act.holdoff || decide (600000 ≤ total) } }
  (c.clampHold 0).clampHold 1

/-- Add the estimate of one decay. -/
def Chip.clampAdd (c : Chip) (e : Nat) : Chip :=
  Chip.clampUpdate { c with act := { c.act with clamp := (c.mono, e) :: c.act.clamp } }

/-! ### Ending an operation (R267, R273) -/

/-- Whether a result is a fault: every result but done, done early and peak late. -/
def resultFault (r : Nat) : Bool := decide (r ≠ 1 ∧ r ≠ 2 ∧ r ≠ 3)

/-- The shutter position after an operation that began in shutter mode. -/
def Chip.shutterAfter (c : Chip) (ch r : Nat) : Chip :=
  if (c.actCh ch).shutter then
    c.set (K.shutterPosition (ch / 2)) (if resultFault r then 4 else if ch % 2 = 0 then 1 else 2)
  else c

/-- What the bank reports to Solstice when an operation that Solstice asked for ends (R277). -/
def Chip.reportAfter (c : Chip) (ch r : Nat) : Chip :=
  if (c.actCh ch).user = .solstice then
    c.modActBank (ch / 2) (fun k => { k with report := if resultFault r then 3 else if ch % 2 = 0 then 1 else 2 })
  else c

/-- Publish the results of an operation together (R267): the LAST_ values, OPERATIONS in the NVM and, for a fault, a
cell-level record. The channel is then off, or queued where a request of it waits. -/
def Chip.publish (c : Chip) (ch r : Nat) (highest : Int) : Chip :=
  let a := c.actCh ch
  let waits : Int := if (c.actBank (ch / 2)).queue.any (fun q => decide (q.1 = ch)) then 1 else 0
  let c := c.setAll [(K.lastResult ch, r), (K.lastTpeak ch, a.tPeak), (K.lastTpeakNorm ch, a.tNorm),
    (K.lastMotionTime ch, a.motion), (K.lastPeakCurrent ch, highest), (K.lastClampEnergy ch, a.energy),
    (K.lastEndTime ch, c.now), (K.chState ch, waits)]
  let c := c.nvmWrite (.count (32 + ch) 1)
  let c := (c.shutterAfter ch r).reportAfter ch r
  if resultFault r then (c.bump (K.faults ch)).raise 0 5 4 ch 0x5004 ch r else c

/-- Pass a running operation to fast decay, to end with a result (R264). -/
def Chip.toDecay (c : Chip) (ch r : Nat) : Chip :=
  (c.modActCh ch (fun a => { a with result := r })).set (K.chState ch) 4

/-- A stop, a park or a VSOL fault ends a running operation with a result: in boost and hold by fast decay, in decay and dwell as it goes on. A
peak that came early keeps its result, which latches (R271). -/
def Chip.cutOff (c : Chip) (r ch : Nat) : Chip :=
  let st := c.get (K.chState ch)
  if st = 2 ∨ st = 3 then c.toDecay ch r
  else if (st = 4 ∨ st = 5) ∧ (c.actCh ch).result ≠ 4 then c.modActCh ch (fun a => { a with result := r })
  else c

/-- End an operation at once with a result: its highest sample is one that the step does not name, or the highest known (assumption 105). -/
def Chip.endNow (c : Chip) (ch r : Nat) : Chip :=
  let (x, c) := c.freeNat 13
  c.publish ch r (max (c.actCh ch).highest (sampleValue (min (c.sampleTop ch) x)) : Nat)

/-- A park fault of a bank: position 4 and a block-level record. -/
def Chip.parkFault (c : Chip) (b : Nat) : Chip :=
  ((c.set (K.shutterPosition b) 4).modActBank b (fun k => { k with park := 3 })).raise 1 5 4 0xFF 0x5006 b 4

/-- Latch a bank (R273): its channels are switched off, queued requests discarded, a block-level record and an EMCY.
The operation of the other channel ends with a result the spec does not state, an open value. -/
def Chip.latchBank (c : Chip) (b ctx : Nat) : Chip :=
  let endOpen := fun (c : Chip) (ch : Nat) =>
    if c.chActive ch then
      let (n, c) := c.freeNat 4
      c.endNow ch (n % 14)
    else c
  let c := endOpen (endOpen c (2 * b)) (2 * b + 1)
  let c := (c.discardQueue b).modActBank b (fun k => { k with latched := true, clampHeld := false, overcurrent := decide (ctx = 7 ∨ ctx = 8) })
  let c := (c.set (K.chState (2 * b)) 6).set (K.chState (2 * b + 1)) 6
  let c := (c.refreshBanks.raise 1 5 4 0xFF 0x5005 b ctx).emcyFor 0x2310 5 0x5005
  if (c.actBank b).park = 1 ∨ (c.actBank b).park = 2 then c.parkFault b else c

/-- End an operation with a latching result. -/
def Chip.endLatching (c : Chip) (ch r : Nat) : Chip := (c.endNow ch r).latchBank (ch / 2) r

/-! ### Parking (R278, R279) -/

/-- The channel whose operation moves a shutter to a position: 1 closed on the lower, 2 open on the upper. -/
def shutterChannel (b : Nat) (pos : Int) : Nat := if pos = 1 then 2 * b else 2 * b + 1

/-- Let a request take the slot of a bank, discarding a panel request in it (R277). -/
def Chip.takeSlot (c : Chip) (ch : Nat) (u : ActUser) : Chip :=
  let c := c.discardQueue (ch / 2)
  let c := c.modActBank (ch / 2) (fun k => { k with queue := [(ch, u)] })
  if c.chActive ch then c else c.set (K.chState ch) 1

/-- Step 2 of a park in a bank whose running operation has ended. -/
def Chip.parkNext (c : Chip) (b : Nat) : Chip :=
  let k := c.actBank b
  let p := c.get (K.parkPosition b)
  if k.latched then c.parkFault b
  else if c.get (K.bankMode b) = 3 ∧ c.get (K.bankRun b) = 1 ∧ p ≠ 0 ∧ c.get (K.shutterPosition b) ≠ p then
    if c.get K.vsolState = 0 then
      (c.takeSlot (shutterChannel b p) .park).modActBank b (fun k => { k with park := 2 })
    else c.parkFault b
  else (c.discardQueue b).modActBank b (fun k => { k with park := 3 })

/-- Begin a park of one bank. -/
def Chip.parkBank (c : Chip) (b : Nat) : Chip :=
  let c := c.modActBank b (fun k => { k with park := 1 })
  let c := if c.get (K.bankMode b) = 3 then c else ((c.discardQueue b).cutOff 13 (2 * b)).cutOff 13 (2 * b + 1)
  if c.bankActive b then c else c.parkNext b

/-- Begin a park (R278). A driver that is not fitted has nothing to park. -/
def Chip.startPark (c : Chip) : Chip :=
  if c.act.parking ∨ c.act.parked then c
  else
    let c := { c with act := { c.act with parking := true } }
    let c := if c.on K.actuatorFitted then (c.parkBank 0).parkBank 1
      else (c.modActBank 0 (fun k => { k with park := 3 })).modActBank 1 (fun k => { k with park := 3 })
    c.refreshBanks

/-- Leave the parked state on exit from standby: the banks return to BANK_STATE 0 or 1. -/
def Chip.unpark (c : Chip) : Chip :=
  let c := (c.modActBank 0 (fun k => { k with park := 0 })).modActBank 1 (fun k => { k with park := 0 })
  Chip.refreshBanks { c with act := { c.act with parking := false, parked := false } }

/-- At chip start each bank in shutter mode that runs moves its shutter to the park position (R279). -/
def Chip.chipStartPark (c : Chip) : Chip :=
  let one := fun (c : Chip) (b : Nat) =>
    let p := c.get (K.parkPosition b)
    if c.on K.actuatorFitted ∧ c.get (K.bankMode b) = 3 ∧ c.get (K.bankRun b) = 1 ∧ p ≠ 0 ∧ c.get K.vsolState = 0 then
      c.takeSlot (shutterChannel b p) .park
    else c
  (one (one c 0) 1).refreshBanks

/-- After an operation has ended: the park of its bank goes on. -/
def Chip.afterOperation (c : Chip) (b : Nat) (r : Nat) : Chip :=
  let k := c.actBank b
  let c := if k.park = 1 ∧ !c.bankActive b then c.parkNext b
    else if k.park = 2 ∧ k.queue = [] ∧ !c.bankActive b then
      if resultFault r then c.parkFault b else c.modActBank b (fun k => { k with park := 3 })
    else c
  (c.clampHold b).refreshBanks

/-! ### Requests -/

/-- Refusals common to commands of a bank: not fitted, latched, VSOL not in order. -/
def Chip.actAbort? (c : Chip) (b : Nat) : Option Abort :=
  if !c.on K.actuatorFitted then some Abort.incompatible
  else if (c.actBank b).latched then some Abort.hardware
  else if c.get K.vsolState ≠ 0 then some Abort.deviceState
  else none

/-- Whether a head whose Solstice runs names a bank (R262, R277). -/
def Chip.solsticeHolds (c : Chip) (b : Nat) : Bool :=
  (List.range 4).any (fun h => decide (c.get (K.solsticeShutter h) = b + 1 ∧ 2 ≤ c.get (K.solsticeState h) ∧
    c.get (K.solsticeState h) ≤ 7))

/-- Refusals of CH_COMMAND for a channel (R262, R263, R266). -/
def Chip.chAbort? (c : Chip) (ch : Nat) : Option Abort :=
  match c.actAbort? (ch / 2) with
  | some a => some a
  | none =>
    if !bitOf (c.nat (K.channelMask (ch / 2))) (ch % 2) then some Abort.incompatible
    else if c.get (K.bankMode (ch / 2)) = 3 then some Abort.incompatible
    else if c.get (K.bankMode (ch / 2)) = 2 ∧ ch % 2 = 1 then some Abort.incompatible
    else none

/-- A panel request joins the queue of its bank, the lower channel's before the upper's where both come in one cycle (R268). -/
def Chip.enqueuePanel (c : Chip) (ch : Nat) : Chip :=
  let k := c.actBank (ch / 2)
  let q := if ch % 2 = 0 ∧ k.queue = [(ch + 1, .panel)] ∧ k.queuedAt = c.mono then (ch, .panel) :: k.queue else k.queue ++ [(ch, ActUser.panel)]
  (c.modActBank (ch / 2) (fun k => { k with queue := q, queuedAt := c.mono })).set (K.chState ch) 1

/-- Requests that a new BANK_MODE cannot carry leave the queue (assumption 103): those of the upper channel in parallel mode, and those of
CH_COMMAND in shutter mode. -/
def Chip.bankModeSet (c : Chip) (b : Nat) : Chip :=
  let c := if c.get (K.bankMode b) = 2 then c.dropRequest (2 * b + 1) else if c.get (K.bankMode b) = 3 then c.discardQueue b else c
  c.refreshBanks

/-- A write of 1 to CH_COMMAND (R264, R268): the operation waits in its bank's queue for BOOST_START. -/
def chEnergise (ch : Nat) (c : Chip) : Except Abort Chip :=
  match c.chAbort? ch with
  | some a => .error a
  | none =>
    guardNot (decide (c.get (K.chState ch) ≠ 0)) Abort.localControl <|
    .ok ((c.enqueuePanel ch).clampUpdate.refreshBanks)

/-- A write of 2 to CH_COMMAND (R266): fast decay with result 2, or out of the queue; an idle channel ignores it. -/
def chRelease (ch : Nat) (c : Chip) : Except Abort Chip :=
  match c.chAbort? ch with
  | some a => .error a
  | none =>
    let st := c.get (K.chState ch)
    .ok (if st = 2 ∨ st = 3 then c.toDecay ch 2 else if st = 1 then (c.dropRequest ch).refreshBanks else c)

/-- A panel write to SHUTTER_COMMAND (R276, R277): 1 closes on the lower channel, 2 opens on the upper. Outside
shutter mode there is no such operation (assumption 11); a masked channel cannot be commanded (R262). -/
def shutterCommand (b : Nat) (pos : Int) (c : Chip) : Except Abort Chip :=
  match c.actAbort? b with
  | some a => .error a
  | none =>
    guardNot (decide (c.get (K.bankMode b) ≠ 3) || !bitOf (c.nat (K.channelMask b)) (shutterChannel b pos % 2)) Abort.incompatible <|
    guardNot (c.bankActive b || !(c.actBank b).queue.isEmpty || c.solsticeHolds b) Abort.localControl <|
    .ok ((c.takeSlot (shutterChannel b pos) .panel).clampUpdate.refreshBanks)

/-- A close or open that Solstice asks for (R277): it takes the slot, or the bank reports faulty while latched. -/
def Chip.solsticeRequest (c : Chip) (b : Nat) (pos : Int) : Chip :=
  let ch := shutterChannel b pos
  if (c.actBank b).latched then
    (c.modActBank b (fun k => { k with report := 3 })).bump (K.refused ch)
  else
    let c := c.modActBank b (fun k => { k with report := 0 })
    (c.takeSlot ch .solstice).clampUpdate.refreshBanks

/-- Whether a bank is free of faults in the sense of R248 (R277). -/
def Chip.bankFree (c : Chip) (b : Nat) : Bool :=
  decide (c.get (K.bankMode b) = 3 ∧ c.get (K.bankRun b) = 1 ∧ c.get (K.bankState b) ≠ 6 ∧ c.get K.vsolState = 0 ∧
    c.get (K.offstateResult b) = 0)

/-- A write of 1 to BANK_RUN (R262). -/
def bankRunStart (b : Nat) (c : Chip) : Except Abort Chip :=
  guardNot (!c.on K.actuatorFitted) Abort.incompatible <|
  guardNot (c.actBank b).latched Abort.hardware <|
  .ok ((c.set (K.bankRun b) 1).refreshBanks)

/-- A write of 0 to BANK_RUN (R262): running operations end with result 13, queued requests are discarded. A park whose operation has not
begun is done with the bank (assumption 123). -/
def bankStop (b : Nat) (c : Chip) : Except Abort Chip :=
  guardNot (!c.on K.actuatorFitted) Abort.incompatible <|
  guardNot (c.actBank b).latched Abort.hardware <|
  guardNot (c.solsticeHolds b) Abort.localControl <|
  let c := ((c.discardQueue b).cutOff 13 (2 * b)).cutOff 13 (2 * b + 1)
  let c := if (c.actBank b).park = 2 ∧ !c.bankActive b then c.modActBank b (fun k => { k with park := 3 }) else c
  .ok ((c.set (K.bankRun b) 0).refreshBanks)

/-- A write of 1 to BANK_FAULT_CLEAR (R273). -/
def bankFaultClear (b : Nat) (c : Chip) : Except Abort Chip :=
  guardNot (!c.on K.actuatorFitted) Abort.incompatible <|
  if (c.actBank b).latched then
    let c := c.modActBank b (fun k => { k with latched := false, overcurrent := false, found := 0 })
    let c := c.set (K.offstateResult b) (c.nat (K.offstateResult b) % 4 : Nat)
    .ok (((c.set (K.chState (2 * b)) 0).set (K.chState (2 * b + 1)) 0).refreshBanks)
  else .ok c

/-! ### The phases -/

/-- The channel that carries a switch's operation: in parallel mode the lower one (R263). -/
def Chip.actOf (c : Chip) (ch : Nat) : Nat := if c.get (K.bankMode (ch / 2)) = 2 then 2 * (ch / 2) else ch

/-- The profile of a channel as its objects stand (R263, R264). -/
def Chip.profileOf (c : Chip) (ch : Nat) : Profile := {
  peak := c.get (K.peakCurrent ch), hold := c.get (K.holdCurrent ch), holdTime := c.nat (K.holdTime ch)
  boostTimeout := c.nat (K.boostTimeout ch), tMin := c.nat (K.tpeakMin ch), tMax := c.nat (K.tpeakMax ch)
  motionCheck := c.on (K.motionCheck ch), dip := c.get (K.dipMin ch), decayTimeout := c.nat (K.decayTimeout ch)
  dwell := c.nat (K.dwell ch) }

/-- Whether the boost of a queued request may begin (R262, R263, R268, R269, R270, R274, R275); in a park, only that of the park (R278). -/
def Chip.mayBoost (c : Chip) (ch : Nat) : Bool :=
  let k := c.actBank (ch / 2)
  let shared := decide (c.get (K.bankMode (ch / 2)) = 1)
  let mine := k.queue.find? (fun q => decide (q.1 = ch))
  let first := match k.queue with
    | [] => false
    | q :: _ => decide (q.1 = ch)
  mine.isSome && (first || shared) && (decide (k.park = 0) || decide (mine.map (·.2) = some .park)) && decide (c.actOf ch = ch) && !k.latched && !k.testing && decide (c.get (K.bankRun (ch / 2)) = 1) &&
  decide (c.get K.vsolState = 0) && (if shared then !c.chActive ch else !c.bankActive (ch / 2)) &&
  (!c.act.holdoff || decide (mine.map (·.2) = some .park))

/-- The boost of a queued operation begins, with the profile values current now (R264). -/
def boostStart (ch : Nat) (c : Chip) : Chip :=
  if c.mayBoost ch then
    let u := (((c.actBank (ch / 2)).queue.find? (fun q => decide (q.1 = ch))).map (·.2)).getD .panel
    let c := c.modActBank (ch / 2) (fun k => { k with queue := k.queue.filter (fun q => q.1 ≠ ch), clampHeld := false })
    let shutter := decide (c.get (K.bankMode (ch / 2)) = 3)
    let c := c.modActCh ch (fun _ => { user := u, profile := c.profileOf ch, boostAt := c.mono, shutter := shutter })
    let c := c.set (K.chState ch) 2
    let c := if shutter then c.set (K.shutterPosition (ch / 2)) 3 else c
    c.refreshBanks
  else c

/-- Time from boost start, in ns with a resolution of 1 µs (R264). -/
def Chip.phaseTime (c : Chip) (ch : Nat) : Nat := (c.mono - (c.actCh ch).boostAt) / 1000 * 1000

/-- The first sample at or above PEAK_CURRENT (R271, R272): boost ends and the time to peak is judged, normalised to
24 V by the VSOL value of the latest housekeeping round. A peak that comes early passes to fast decay, at whose end the bank latches
(assumption 104). -/
def peakReached (ch : Nat) (current : Nat) (c : Chip) : Chip :=
  if c.get (K.chState ch) = 2 then
    let a := c.actCh ch
    let t := c.phaseTime ch
    let norm := (rneDiv (t * c.get (K.hkRail 10)) 24000000).toNat
    let c := (c.sensed ch [c.sample ch current]).modActCh ch (fun a => { a with tPeak := t, tNorm := norm })
    if norm < a.profile.tMin then c.toDecay ch 4
    else
      let late := decide (a.profile.tMax < norm)
      let still := a.profile.motionCheck && decide (a.motion = 0)
      let c := if late then c.bump (K.tpeakWarnings ch) else c
      let c := c.modActCh ch (fun a => { a with result := if still then 6 else if late then 3 else 1 })
      c.set (K.chState ch) (if a.profile.hold = 0 then 4 else 3)
  else c

/-- The peak is not reached within BOOST_TIMEOUT: fast decay, result 5 (R271). -/
def boostTimeout (ch : Nat) (c : Chip) : Chip := if c.get (K.chState ch) = 2 then c.toDecay ch 5 else c

/-- The current has fallen DIP_MIN below its running maximum: LAST_MOTION_TIME takes the time from boost start
(R272). -/
def motionDetected (ch : Nat) (current : Nat) (c : Chip) : Chip :=
  let a := c.actCh ch
  if c.get (K.chState ch) = 2 ∧ a.profile.motionCheck ∧ a.motion = 0 then
    (c.sensed ch [c.sample ch current]).modActCh ch (fun a => { a with motion := c.phaseTime ch })
  else c

/-- HOLD_TIME after boost end: fast decay (R264). A HOLD_TIME of 0 holds until a release. -/
def holdEnd (ch : Nat) (c : Chip) : Chip :=
  if c.get (K.chState ch) = 3 ∧ (c.actCh ch).profile.holdTime ≠ 0 then c.toDecay ch (c.actCh ch).result else c

/-- Hold over limit in shared mode: result 8, which latches (R265). -/
def holdOvercurrent (ch : Nat) (c : Chip) : Chip :=
  if c.get (K.chState ch) = 3 ∧ c.get (K.bankMode (ch / 2)) = 1 then c.endLatching ch 8 else c

/-- The result of a decay that has timed out: 9, unless the operation had already failed. -/
def decayResult (r : Nat) : Nat := if resultFault r then r else 9

/-- Decay ends (R264, R270): the clamp energy is published with the results at the end of dwell; over 30 mJ the bank
latches with result 10, and after an early peak with result 4. -/
def decayEnd (ch : Nat) (samples : List (BitVec 32)) (timedOut : Bool) (c : Chip) : Chip :=
  if c.get (K.chState ch) = 4 then
    let l := c.samples ch samples
    let e := clampEnergy l
    let c := (c.sensed ch l).modActCh ch (fun a => { a with energy := e, result := if timedOut then decayResult a.result else a.result })
    let c := c.clampAdd e
    if 30000 < e then c.endLatching ch 10
    else if (c.actCh ch).result = 4 then c.endLatching ch 4
    else (c.set (K.chState ch) 5).refreshBanks
  else c

/-- The clamp-energy estimate passes 30 mJ during a decay: result 10, which latches (R270). -/
def clampExceeded (ch : Nat) (samples : List (BitVec 32)) (c : Chip) : Chip :=
  if c.get (K.chState ch) = 4 then
    let l := c.samples ch samples
    let e := clampEnergy l
    (((c.sensed ch l).modActCh ch (fun a => { a with energy := e })).clampAdd e).endLatching ch 10
  else c

/-- The clamp power of the last 1 s has fallen to 500 000 µW or below: held starts resume (R270). -/
def clampHoldoffEnd (c : Chip) : Chip :=
  if sumN (c.clampRecent.map (·.2)) ≤ 500000 then
    let c := { c with act := { c.act with holdoff := false, clamp := c.clampRecent } }
    Chip.refreshBanks ((c.modActBank 0 (fun k => { k with clampHeld := false })).modActBank 1
      (fun k => { k with clampHeld := false }))
  else c

/-- Dwell ends: the results are published together (R267). -/
def operationComplete (ch : Nat) (highest : Nat) (c : Chip) : Chip :=
  if c.get (K.chState ch) = 5 then
    let r := (c.actCh ch).result
    (c.publish ch r (max (c.actCh ch).highest (c.sample ch highest) : Nat)).afterOperation (ch / 2) r
  else c

/-- A switch above 6.0 A (R273): the operation it carries ends with result 7, which latches. -/
def switchOvercurrent (ch : Nat) (c : Chip) : Chip :=
  if c.chActive (c.actOf ch) then c.endLatching (c.actOf ch) 7 else c

/-- Over 100 mA for 10 µs in a channel that is not operating, outside shared mode (R273): the operation of the bank
ends with result 11 and the bank latches. -/
def crossCurrent (ch : Nat) (c : Chip) : Chip :=
  let b := ch / 2
  let other := 2 * b + (1 - ch % 2)
  if c.get (K.bankMode b) ≠ 1 ∧ !c.chActive (c.actOf ch) ∧ !(c.actBank b).latched then
    if c.chActive other then c.endLatching other 11 else c.latchBank b 11
  else c

/-! ### Off-state tests (R274) -/

/-- An off-state test starts on each bank with nothing running, queued or dwelling while VSOL_STATE reads 0. -/
def offstateTest (c : Chip) : Chip :=
  let one := fun (c : Chip) (b : Nat) =>
    if c.get K.vsolState = 0 ∧ !c.bankActive b ∧ (c.actBank b).queue.isEmpty then
      c.modActBank b (fun k => { k with testing := true })
    else c
  one (one c 0) 1

/-- An off-state test ends with the conditions found. Conditions of channels outside CHANNEL_MASK are not tested;
those found in two consecutive tests are reported, and shorts latch the bank. -/
def offstateTestEnd (b : Nat) (found : Nat) (c : Chip) : Chip :=
  let k := c.actBank b
  if k.testing then
    let mask := c.nat (K.channelMask b)
    let f := Nat.land found (Nat.lor 0xC (mask % 4))
    let twice := Nat.land f k.found
    let was := c.nat (K.offstateResult b)
    let now' := Nat.lor (Nat.land (Nat.lor was twice) f % 4) (Nat.lor (was / 4) (twice / 4) * 4)
    let fresh := clearBits now' was
    let c := c.modActBank b (fun k => { k with testing := false, found := f })
    let c := (c.set (K.offstateResult b) now').bumpBy (K.bankFaults b) (popCount 4 fresh)
    if twice / 4 ≠ 0 ∧ !k.latched then c.latchBank b (0x100 + now') else c
  else c

/-! ### VSOL (R275) -/

/-- VSOL_STATE as its conditions stand. -/
def Chip.vsolStateOf (c : Chip) : Int :=
  if !c.on K.actuatorFitted then 4
  else if c.act.reversed then 3
  else if c.rails.fault.getD 10 false then (if c.rails.level.getD 10 .inRange = RailLevel.above then 2 else 1)
  else 0

/-- Bring VSOL_STATE up to date: when it leaves 0, running operations end with result 12 and queues are emptied. -/
def Chip.vsolUpdate (c : Chip) : Chip :=
  let was := c.get K.vsolState
  let c := c.set K.vsolState c.vsolStateOf
  if was = 0 ∧ c.get K.vsolState ≠ 0 then
    let c := (List.range 4).foldl (fun (c : Chip) (ch : Nat) => c.cutOff 12 ch) c
    let c := (c.discardQueue 0).discardQueue 1
    let lost := fun (c : Chip) (b : Nat) => if (c.actBank b).park = 2 ∧ !c.bankActive b then c.parkFault b else c
    (lost (lost c 0) 1).refreshBanks
  else c

/-- Writes to actuator objects other than commands and counters (R262, R263, R276, Table 9.6): why one is refused. -/
def Chip.actWriteAbort? (c : Chip) (key : Nat) (v : Int) : Option Abort :=
  if !c.on K.actuatorFitted then some Abort.incompatible
  else
    let inBank := (List.range 2).findSome? (fun b =>
      if key = K.bankMode b then
        let big := (List.range 2).any (fun j =>
          decide (2000000 < c.get (K.peakCurrent (2 * b + j)) ∨ 1000000 < c.get (K.holdCurrent (2 * b + j))))
        let endless := (List.range 2).any (fun j => decide (c.get (K.holdTime (2 * b + j)) = 0))
        if (v ≠ 2 ∧ big) ∨ (v = 3 ∧ endless) then some Abort.incompatible else none
      else none)
    match inBank with
    | some a => some a
    | none => (List.range 4).findSome? (fun ch =>
        let mode := c.get (K.bankMode (ch / 2))
        if key = K.peakCurrent ch ∧ 2000000 < v ∧ mode ≠ 2 then some Abort.incompatible
        else if key = K.holdCurrent ch ∧ 1000000 < v ∧ mode ≠ 2 then some Abort.incompatible
        else if key = K.holdTime ch ∧ v = 0 ∧ mode = 3 then some Abort.incompatible
        else if key = K.tpeakMax ch ∧ v < c.get (K.tpeakMin ch) then some Abort.incompatible
        else none)

/-! ### Meanings -/

/-- CH_ENERGISE -/
def execChEnergise (m : Master) (ch : Fin 4) (s : State) : Res :=
  run s (fun c => c.command m (K.chCommand ch) (chEnergise ch))

/-- CH_RELEASE -/
def execChRelease (m : Master) (ch : Fin 4) (s : State) : Res :=
  run s (fun c => c.command m (K.chCommand ch) (chRelease ch))

/-- SHUTTER_CLOSE -/
def execShutterClose (m : Master) (b : Fin 2) (s : State) : Res :=
  run s (fun c => c.command m (K.shutterCommand b) (shutterCommand b 1))

/-- SHUTTER_OPEN -/
def execShutterOpen (m : Master) (b : Fin 2) (s : State) : Res :=
  run s (fun c => c.command m (K.shutterCommand b) (shutterCommand b 2))

/-- BANK_RUN_START -/
def execBankRunStart (m : Master) (b : Fin 2) (s : State) : Res :=
  run s (fun c => c.command m (K.bankRun b) (bankRunStart b))

/-- BANK_STOP -/
def execBankStop (m : Master) (b : Fin 2) (s : State) : Res :=
  run s (fun c => c.command m (K.bankRun b) (bankStop b))

/-- BANK_FAULT_CLEAR -/
def execBankFaultClear (m : Master) (b : Fin 2) (s : State) : Res :=
  run s (fun c => c.command m (K.bankFaultClear b) (bankFaultClear b))

/-- BOOST_START -/
def execBoostStart (ch : Fin 4) (s : State) : Res := run s (boostStart ch)

/-- PEAK_REACHED -/
def execPeakReached (ch : Fin 4) (current : BitVec 32) (s : State) : Res :=
  run s (fun c => (peakReached ch current.toNat c).refreshBanks)

/-- BOOST_TIMEOUT -/
def execBoostTimeout (ch : Fin 4) (s : State) : Res := run s (boostTimeout ch)

/-- MOTION_DETECTED -/
def execMotionDetected (ch : Fin 4) (current : BitVec 32) (s : State) : Res := run s (motionDetected ch current.toNat)

/-- HOLD_END -/
def execHoldEnd (ch : Fin 4) (s : State) : Res := run s (holdEnd ch)

/-- HOLD_OVERCURRENT -/
def execHoldOvercurrent (ch : Fin 4) (s : State) : Res := run s (holdOvercurrent ch)

/-- DECAY_END -/
def execDecayEnd (ch : Fin 4) (samples : List (BitVec 32)) (s : State) : Res := run s (decayEnd ch samples false)

/-- DECAY_TIMEOUT -/
def execDecayTimeout (ch : Fin 4) (samples : List (BitVec 32)) (s : State) : Res := run s (decayEnd ch samples true)

/-- CLAMP_ENERGY_EXCEEDED -/
def execClampEnergyExceeded (ch : Fin 4) (samples : List (BitVec 32)) (s : State) : Res :=
  run s (clampExceeded ch samples)

/-- CLAMP_HOLDOFF_END -/
def execClampHoldoffEnd (s : State) : Res := run s clampHoldoffEnd

/-- OPERATION_COMPLETE -/
def execOperationComplete (ch : Fin 4) (highest : BitVec 32) (s : State) : Res :=
  run s (operationComplete ch highest.toNat)

/-- SWITCH_OVERCURRENT -/
def execSwitchOvercurrent (ch : Fin 4) (s : State) : Res := run s (switchOvercurrent ch)

/-- CROSS_CURRENT -/
def execCrossCurrent (ch : Fin 4) (s : State) : Res := run s (crossCurrent ch)

/-- OFFSTATE_TEST -/
def execOffstateTest (s : State) : Res := run s offstateTest

/-- OFFSTATE_TEST_END -/
def execOffstateTestEnd (b : Fin 2) (found : BitVec 4) (s : State) : Res := run s (offstateTestEnd b found.toNat)

/-- VSOL_REVERSED: the comparator finds VSOL below −1.0 V. -/
def execVsolReversed (s : State) : Res :=
  run s (fun c => Chip.vsolUpdate { c with act := { c.act with reversed := true } })

/-- VSOL is no longer below -1.0 V; with `inRange` it is back between its trips, and the rail monitor's fault ends too. -/
def vsolRecovered (inRange : Bool) (c : Chip) : Chip :=
  let rails := if inRange then
      { c.rails with fault := modAt c.rails.fault 10 (fun _ => false), level := modAt c.rails.level 10 (fun _ => .inRange) }
    else c.rails
  Chip.vsolUpdate { c with act := { c.act with reversed := false }, rails := rails }

/-- VSOL_RECOVERED: the comparator or the rail monitor finds VSOL back; at VSOL_STATE 0 the driver resumes without a command. -/
def execVsolRecovered (s : State) (inRange : Bool := true) : Res := run s (vsolRecovered inRange)

/-- PARK_COMPLETE: every bank has finished its park. -/
def execParkComplete (s : State) : Res :=
  run s (fun c =>
    if c.act.parking ∧ c.act.banks.all (fun k => decide (k.park = 3)) then
      Chip.refreshBanks { c with act := { c.act with parking := false, parked := true } }
    else c)

end Sys2Proof.Machine
end

