-- ==== Sys2Proof/Machine/Onion.lean ====
section
/-! DEFINITION. The Onion store: sets and their layers, loading, passes, revert, requests for saves, and eviction (R231 to R240, R486). -/

namespace Sys2Proof.Machine

/-! ### Places and errors of device DRAM (R441, R442, R486) -/

/-- The first byte of the reserved area (R486). -/
def Chip.reservedBase (c : Chip) : Nat := c.nat K.dramCapacity - 0x20000000

/-- The first byte of the image of an object of the reserved area. -/
def Chip.domainHome (c : Chip) (key : Nat) : Nat := c.reservedBase / 4096 * 4096 + 4096 * ((Config.domainPage key).toNat % 0x20000)

/-- The DRAM channel of an address (R441): 4 KiB pages alternate, or all lie on channel 0. -/
def Chip.dramChannel (c : Chip) (a : Nat) : Nat := if c.get K.dramChannels = 1 then 0 else a / 4096 % 2

/-- A client or the scrubber has met errors in a DRAM channel: corrections and uncorrectable blocks are counted, and
each uncorrectable one raises a cell-level record. -/
def Chip.dramFinds (c : Chip) (ch cell : Nat) (corrected uncorrectable : List Nat) : Chip :=
  let c := (c.bumpBy (K.dramCorrected ch) corrected.length).bumpBy (K.dramUncorrectable ch) uncorrectable.length
  uncorrectable.foldl (fun c a => c.raise 0 3 ch cell 0x3001 ch (a / 64)) c

/-- A client's read meets uncorrectable blocks: each 64-byte block that holds one of the addresses counts once, and its record names the
client port as the cell (R108). -/
def Chip.dramMeets (c : Chip) (client : Nat) (addrs : List Nat) : Chip :=
  let cell := (Config.dramPort client).toNat % 6
  ((addrs.map (· / 64)).eraseDups).foldl (fun (c : Chip) (x : Nat) => c.dramFinds (c.dramChannel (64 * x)) cell [] [64 * x]) c

/-- Client reads meet single-bit errors, which the controller corrects: each 64-byte block that holds one of the addresses counts (R442). -/
def Chip.dramFixed (c : Chip) (addrs : List (BitVec 40)) : Chip :=
  ((addrs.map (fun a => a.toNat / 64)).eraseDups).foldl (fun (c : Chip) (x : Nat) =>
    if c.pixelRuns then c.dramFinds (c.dramChannel (64 * x)) 0 [64 * x] [] else c) c

/-! ### Sets -/

/-- The layers of a set, none when it is not in DRAM. -/
def Chip.setData (c : Chip) (s : Nat) : Option SetData := at' c.onion.sets s

/-- Put or drop the layers of a set. -/
def Chip.putSet (c : Chip) (s : Nat) (d : Option SetData) : Chip :=
  { c with onion := { c.onion with sets := modAt c.onion.sets s (fun _ => d) } }

/-- W and H of a set, from SET_GEOMETRY. -/
def Chip.setSize (c : Chip) (s : Nat) : Nat × Nat := let g := c.nat (K.setGeometry s); (bits g 15 0, bits g 31 16)

/-- The geometry of a head in the form of SET_GEOMETRY (Table 8.11). -/
def Chip.headGeometry (c : Chip) (h : Nat) : Nat :=
  (c.nat (K.activeWidth h) + c.nat (K.blindColumns h)) + (c.nat (K.activeHeight h) + c.nat (K.blindRows h)) * 2 ^ 16 +
  c.nat (K.blindRows h) * 2 ^ 32 + c.nat (K.blindColumns h) * 2 ^ 40 +
  (c.nat (K.blindRowPlace h) + 2 * c.nat (K.blindColumnPlace h)) * 2 ^ 48

/-- Whether SET_STATE reads 2, 3 or 4. -/
def Chip.inDram (c : Chip) (s : Nat) : Bool := decide (2 ≤ c.get (K.setState s) ∧ c.get (K.setState s) ≤ 4)

/-- Whether a set is resident for a head (R232). -/
def Chip.residentHead (c : Chip) (s h : Nat) : Bool :=
  decide (s < 32) && c.inDram s && decide (c.nat (K.setOwner s) = h) && decide (c.nat (K.setGeometry s) = c.headGeometry h)

/-- Whether a set is resident for a CSI-2 source (R310). -/
def Chip.residentSrc (c : Chip) (s i : Nat) : Bool :=
  decide (s < 32) && c.inDram s && decide (c.get (K.setOwner s) = 0xFF) &&
  decide (c.nat (K.setGeometry s) % 2 ^ 48 = c.nat (K.srcWidth i) + c.nat (K.srcHeight i) * 2 ^ 16)

/-- The sources a set is in force for: running heads whose band's set it is, and running CSI-2 sources that name it, visible ones where it is
resident for them (R232, R310). -/
def Chip.setUsers (c : Chip) (s : Nat) : List Nat :=
  (List.range 4).filter (fun h => decide (c.get (K.runState h) ≠ 0 ∧ (at' c.heads h).set = some s)) ++
  ((List.range 2).filter (fun i => decide (c.get (K.srcState i) ≠ 0 ∧
    c.get (K.srcCoefSet (4 + i)) = s) && (decide (c.get (K.srcRole i) = 1) || c.residentSrc s i))).map (· + 4)

/-- Whether a pass of a commit or a revert runs on a set. -/
def Chip.passOn (c : Chip) (s : Nat) : Bool := c.onion.passes.any (fun p => decide (p.set = s) && !p.waits)

/-- Whether a pass runs or waits on a set. -/
def Chip.passDue (c : Chip) (s : Nat) : Bool := c.onion.passes.any (fun p => decide (p.set = s))

/-- A revert pass that waits for a frame start runs at once where its set is no longer in force (R237). -/
def Chip.freePasses (c : Chip) : Chip :=
  let go := fun (p : Pass) => { p with waits := p.waits && !(c.setUsers p.set).isEmpty }
  { c with onion := { c.onion with passes := c.onion.passes.map go } }

/-- SET_STATE of the sets in DRAM and ONION_RESIDENT brought up to date, and the passes of sets that are not in force begin. -/
def Chip.refreshSets (c : Chip) : Chip :=
  let c := c.freePasses
  let c := (List.range 32).foldl (fun c s =>
    if c.inDram s then
      c.set (K.setState s) (if c.passOn s then 4 else if (c.setUsers s).isEmpty then 2 else 3)
    else c) c
  c.set K.onionResident ((List.range 32).foldl (fun a s => if c.inDram s then a + 2 ^ s else a) 0)

/-! ### The set area (R486) -/

/-- Bytes in whole pages. -/
def pages (n : Nat) : Nat := (n + 4095) / 4096 * 4096

/-- Bytes of a set's range: the records, then on the next page the shadow, in whole pages. -/
def setBytes (w h : Nat) : Nat := pages (16 * w * h) + pages (2 * w * h)

/-- Bytes of the active view. -/
def SetData.viewBytes (d : SetData) : List Byte := (d.view.map (leBytes 16)).flatten

/-- Bytes of the shadow. -/
def SetData.shadowBytes (d : SetData) : List Byte := (d.shadow.map (leInt 2)).flatten

/-- A set leaves DRAM: its range is free, and its bytes stay there. -/
def Chip.dropSet (c : Chip) (s : Nat) : Chip :=
  match c.setData s with
  | none => c
  | some d =>
    let m := (c.dram.write d.base d.viewBytes).write (d.base + pages (16 * d.view.length)) d.shadowBytes
    ({ c with dram := m } : Chip).putSet s none

/-- Ranges taken in the set area. -/
def Chip.setRanges (c : Chip) : List (Nat × Nat) :=
  (c.onion.sets.zipIdx).filterMap (fun (d, s) =>
    d.map (fun x => let g := c.setSize s; (x.base, setBytes g.1 g.2)))

/-- The lowest free range of a size in the set area. -/
def Chip.setPlace (c : Chip) (size : Nat) : Option Nat :=
  let taken := c.setRanges
  let limit := c.nat K.dramCapacity - 0x20000000
  let starts := 0 :: taken.map (fun (r : Nat × Nat) => r.1 + r.2)
  let ok := starts.filter (fun (a : Nat) => decide (a + size ≤ limit) &&
    taken.all (fun (r : Nat × Nat) => decide (a + size ≤ r.1 ∨ r.1 + r.2 ≤ a)))
  match ok with
  | [] => none
  | a :: l => some (l.foldl min a)

/-! ### Loading (R233, R234, R240) -/

/-- A set value that names no set is out of range. -/
def setRange (v : Nat) (k : Except Abort Chip) : Except Abort Chip := guardNot (decide (31 < v)) Abort.tooHigh k

/-- ONION_LOAD_STATUS. -/
def Chip.loadStatus (c : Chip) (s st : Nat) : Chip := c.set K.onionLoadStatus (c.onion.loadSeq * 2 ^ 16 + s * 2 ^ 8 + st : Nat)

/-- Whether statistics copies use a channel (R423). -/
def Chip.dmaCopies (c : Chip) (ch : Nat) : Bool :=
  (List.range 6).any (fun s => decide (c.get (K.statHostBase s) ≠ 0 ∧ c.nat (K.statDmaChannel s) = ch))

/-- Whether the Solstice of some head runs on a set: its latched set stays its own to the end of the event (Table 8.7). -/
def Chip.solsticeOwns (c : Chip) (s : Nat) : Bool :=
  c.sol.any (fun (x : Solstice) => match x.ev with
    | some e => decide (e.set = s)
    | none => false)

/-- A little-endian field of n bytes at an offset. -/
def fieldAt (l : List Byte) (off n : Nat) : Nat := leNat ((l.drop off).take n)

/-- Whether the header of a set image passes the checks of R234. -/
def headerOk (h : List Byte) : Bool :=
  decide (fieldAt h 0 4 = 0x5343545A) && decide (fieldAt h 4 2 = 1) && decide (fieldAt h 60 4 = crc32 (h.take 60)) &&
  decide (fieldAt h 13 1 = 1 ∨ fieldAt h 13 1 = 2) && decide (fieldAt h 10 1 ≤ 8) && decide (fieldAt h 11 1 ≤ 32)

/-- Whether a field slot is valid for an image of n records (R233). -/
def slotOk (h slot : List Byte) (n : Nat) : Bool :=
  decide (fieldAt slot 0 4 = 0x4C46545A) && decide (fieldAt slot 60 4 = crc32 (slot.take 60)) &&
  decide (fieldAt slot 28 4 = crc32 ((slot.drop 64).take (2 * n))) && decide (fieldAt slot 4 4 ≠ 0) &&
  decide (fieldAt slot 24 4 = fieldAt h 16 4)

/-- The field slot a load takes: the valid one with the higher sequence. -/
def chooseSlot (h a b : List Byte) (n : Nat) : Option (List Byte) :=
  let b := if fieldAt h 13 1 = 2 then b else []
  match slotOk h a n, slotOk h b n with
  | true, true => if fieldAt a 4 4 < fieldAt b 4 4 then some b else some a
  | true, false => some a
  | false, true => some b
  | false, false => none

/-- Split bytes into records of 16 bytes. -/
def recordsOf (l : List Byte) (n : Nat) : List Nat := tab n (fun i => fieldAt l (16 * i) 16)

/-- The anchor record of a set: the newer of its slots (R449). -/
def Chip.anchorOf (c : Chip) (s : Nat) : Option Anchor :=
  match at' c.nvm.anchors s with
  | (some x, some y) => if (x.seq + 2 ^ 32 - y.seq) % 2 ^ 32 < 2 ^ 31 then some x else some y
  | (some x, none) => some x
  | (none, y) => y

/-- A load ends in failure: the set reads 5, its range is free and a record names the outcome. -/
def Chip.loadFailed (c : Chip) (s st : Nat) : Chip :=
  let c := (c.dropSet s).set (K.setState s) 5
  let c := (c.loadStatus s st).refreshSets
  c.raise 0 2 1 0xFF 0x2004 s (c.nat K.onionLoadStatus)

/-- Every set is lost with the pixel die; a load in progress ends as interrupted, a save ends in an error (R234). -/
def Chip.loseSets (c : Chip) : Chip :=
  let c := match c.onion.load with
    | some l => c.loadStatus l.set 7
    | none => c
  let c := match c.onion.save with
    | some (s, _) => c.set K.onionSaveStatus (s * 256 + 5 : Nat)
    | none => c
  let c := (List.range 32).foldl (fun c s => (c.set (K.setState s) 0).set (K.setShadowValid s) 0) c
  let c := { c with
    onion := { c.onion with sets := List.replicate 32 none, passes := [], load := none, boot := [], save := none, saves := [] }
    heads := c.heads.map (fun (h : HeadPort) => { h with set := none, missing := if h.missing.isSome then h.missing else h.set }) }
  c.refreshSets

/-! ### Saving (R238) -/

/-- ONION_SAVE_STATUS. -/
def Chip.saveStatus (c : Chip) (s st : Nat) : Chip := c.set K.onionSaveStatus (s * 256 + st : Nat)

/-- The E array of a set as a save writes it. -/
def SetData.fieldBytes (d : SetData) : List Byte := (d.view.map (fun r => leInt 2 (recE r))).flatten

/-- The header of a field slot as a save writes it (Table 8.4). -/
def Chip.slotHeader (c : Chip) (s seq : Nat) (d : SetData) : List Byte :=
  let e := d.fieldBytes
  let hd := leBytes 4 0x4C46545A ++ leBytes 4 seq ++ leInt 2 (c.get (K.setAnchorTemp s)) ++ List.replicate 6 0 ++
    leBytes 8 (c.nat (K.setAnchorTime s)) ++ leBytes 4 d.factoryCrc ++ leBytes 4 (crc32 e) ++ List.replicate 28 0
  hd ++ leBytes 4 (crc32 hd)

/-- A length padded as the parts of a set image are (Table 8.2). -/
def up64k (n : Nat) : Nat := (n + 65535) / 65536 * 65536

/-- The offset of a field slot in its image (Table 8.2). -/
def Chip.slotOffset (c : Chip) (s : Nat) (second : Bool) : Nat :=
  let g := c.setSize s
  c.nat (K.setFlashOffset s) + 65536 + up64k (16 * g.1 * g.2) + (if second then up64k (64 + 2 * g.1 * g.2) else 0)

/-- Whether a save takes the second slot: the target is one that is not valid, or the one with the lower sequence (R238). -/
def saveSecond (h a b : List Byte) (n : Nat) : Bool := slotOk h a n && (!slotOk h b n || decide (fieldAt b 4 4 ≤ fieldAt a 4 4))

/-- A save works on the port, or waits until the port's sequence ends: its sectors are erased first (R238, R438, assumption 119). While the port
is slave it sends nothing (R428). -/
def Chip.saveRuns (c : Chip) : Chip :=
  match c.onion.save with
  | none => c
  | some (s, _) =>
    if c.spm.seq.isSome ∨ c.get K.spRole ≠ 0 then c
    else
      let q : FlashSeq := { erase := true, off := c.slotOffset s false, user := .save s }
      ({ c with spm := { c.spm with seq := some q, lastRead := none } } : Chip).set K.spmState 4

/-- Begin the next save that waits, and let the save at hand have the port. -/
def Chip.nextSave (c : Chip) : Chip :=
  match c.onion.save, c.onion.saves with
  | none, s :: rest =>
    let c := { c with onion := { c.onion with save := some (s, c.nat (K.setFieldSequence s)), saves := rest } }
    (c.saveStatus s 1).saveRuns
  | _, _ => c.saveRuns

/-- Ask for a save of a set. -/
def Chip.wantSave (c : Chip) (s : Nat) : Chip :=
  let c := if s ∈ c.onion.saves then c else { c with onion := { c.onion with saves := c.onion.saves ++ [s] } }
  c.nextSave

/-- The autosave of a commit or a revert. -/
def Chip.autosave (c : Chip) (s : Nat) : Chip :=
  if c.on K.onionAutosave ∧ c.get (K.setFlashOffset s) ≠ 0xFFFFFFFF then c.wantSave s else c

/-- A write of ONION_SAVE. A set that is not in DRAM while the pixel die runs is refused as with the die off: the spec names no refusal for it
(assumption 119). -/
def onionSave (v : Nat) (c : Chip) : Except Abort Chip :=
  setRange v <| guardNot (!c.pixelRuns || !c.inDram v) Abort.deviceState <| .ok (c.wantSave v)

/-! ### Revert and passes (R235, R237, R239) -/

/-- Write the anchor record of a set to the NVM (R239). -/
def Chip.writeAnchor (c : Chip) (s : Nat) : Chip :=
  match c.setData s with
  | none => c
  | some d =>
    let a : Anchor := {
      factoryCrc := d.factoryCrc, temp := c.get (K.setAnchorTemp s)
      time := c.nat (K.setAnchorTime s), seq := c.nat (K.setFieldSequence s) }
    c.nvmWrite (.anchor s a)

/-- A write of ONION_REVERT. -/
def onionRevert (v : Nat) (c : Chip) : Except Abort Chip :=
  let owner := c.nat (K.setOwner v)
  setRange v <|
  guardNot (!c.pixelRuns) Abort.deviceState <|
  guardNot (!c.on (K.setShadowValid v)) Abort.incompatible <|
  guardNot (c.passOn v || (decide (owner < 4) && decide (2 ≤ c.get (K.solsticeState owner) ∧ c.get (K.solsticeState owner) ≤ 7)))
    Abort.localControl <|
  .ok
    (let p : Pass := { set := v, kind := .revert, waits := !(c.setUsers v).isEmpty }
     ({ c with onion := { c.onion with passes := c.onion.passes ++ [p] } } : Chip).bump K.onionReverts).refreshSets

/-- At a source's frame start the passes that wait for it begin. -/
def Chip.startPasses (c : Chip) (src : Nat) : Chip :=
  let go := fun (p : Pass) => if p.waits && decide (src ∈ c.setUsers p.set) then { p with waits := false } else p
  ({ c with onion := { c.onion with passes := c.onion.passes.map go } } : Chip).refreshSets

/-- Equinox of the sources that use a set is seeded at their next frame start (R245). -/
def Chip.seedUsers (c : Chip) (s : Nat) : Chip :=
  ((c.setUsers s).filter (fun src => decide (src < 4 ∨ c.get (K.srcRole (src - 4)) = 1))).foldl (fun (c : Chip) (src : Nat) =>
    { c with pix := { c.pix with sources := modAt c.pix.sources src (fun (x : Source) => { x with eqxNow := true }) } }) c

/-- A revert pass ends: field layer and shadow are exchanged with their anchors. -/
def onionPassComplete (s : Nat) (c : Chip) : Chip :=
  match c.onion.passes.find? (fun p => decide (p.set = s ∧ p.kind = .revert) && !p.waits), c.setData s with
  | some p, some d =>
    let c := { c with onion := { c.onion with passes := c.onion.passes.erase p } }
    let old := d.view.map recE
    let view := (d.view.zip d.shadow).map (fun (r, e) => withE r e)
    let c := c.putSet s (some { d with view := view, shadow := old, shadowTemp := c.get (K.setAnchorTemp s), shadowTime := c.nat (K.setAnchorTime s) })
    let c := c.setAll [(K.setAnchorTemp s, d.shadowTemp), (K.setAnchorTime s, d.shadowTime),
      (K.setFieldSequence s, nextSeq (c.nat (K.setFieldSequence s)) 0xFFFFFFFF)]
    (((c.writeAnchor s).autosave s).seedUsers s).refreshSets
  | _, _ => c

/-- A write of ONION_EVICT (R259). -/
def onionEvict (v : Nat) (c : Chip) : Except Abort Chip :=
  setRange v <| guardNot (!c.pixelRuns) Abort.deviceState <|
  guardNot (decide (c.get (K.setState v) = 1) || c.passDue v || !(c.setUsers v).isEmpty) Abort.localControl <|
  .ok (((c.dropSet v).set (K.setState v) 0).set (K.setShadowValid v) 0).refreshSets

/-! ### Meanings -/

/-- ONION_PASS_COMPLETE -/
def execOnionPassComplete (set : Fin 32) (s : State) : Res := run s (onionPassComplete set.val)

/-- ONION_REVERT -/
def execOnionRevert (m : Master) (v : BitVec 8) (s : State) : Res := run s (fun c => c.command m K.onionRevert (onionRevert v.toNat))

/-- ONION_SAVE -/
def execOnionSave (m : Master) (v : BitVec 8) (s : State) : Res := run s (fun c => c.command m K.onionSave (onionSave v.toNat))

/-- ONION_EVICT -/
def execOnionEvict (m : Master) (v : BitVec 8) (s : State) : Res := run s (fun c => c.command m K.onionEvict (onionEvict v.toNat))

end Sys2Proof.Machine
end

