-- ==== Sys2Proof/Machine/Frames.lean ====
section
/-! DEFINITION. What the pixel path shares: marks, sources and streams and their geometry, and the objects captured at a
frame start. -/

namespace Sys2Proof.Machine

/-! ### Marks (Table 12.3) -/

/-- SHORT -/
abbrev markShort : Nat := 0x1
/-- LONG -/
abbrev markLong : Nat := 0x2
/-- CRC -/
abbrev markCrc : Nat := 0x4
/-- ECC -/
abbrev markEcc : Nat := 0x8
/-- OVERRUN -/
abbrev markOverrun : Nat := 0x10
/-- OVR -/
abbrev markOvr : Nat := 0x20
/-- SUBST -/
abbrev markSubst : Nat := 0x40
/-- FROZEN -/
abbrev markFrozen : Nat := 0x80
/-- REPEATED -/
abbrev markRepeated : Nat := 0x100
/-- THROTTLED -/
abbrev markThrottled : Nat := 0x200
/-- BAND_CHANGE -/
abbrev markBandChange : Nat := 0x400
/-- HEAD_LOST -/
abbrev markHeadLost : Nat := 0x800
/-- SAT -/
abbrev markSat : Nat := 0x1000
/-- CAL_GAP -/
abbrev markCalGap : Nat := 0x2000
/-- SYNC_LOST -/
abbrev markSyncLost : Nat := 0x4000

/-- A frame with more marks. -/
def Work.mark (w : Work) (m : Nat) : Work := { w with marks := Nat.lor w.marks m }

/-- Whether a frame carries a mark. -/
def Work.marked (w : Work) (m : Nat) : Bool := decide (Nat.land w.marks m ≠ 0)

/-- A frame with a mark when a condition holds. -/
def Work.markIf (w : Work) (b : Bool) (m : Nat) : Work := if b then w.mark m else w

/-- A frame with n more clamps, which mark it SAT (R223). -/
def Work.clamps (w : Work) (n : Nat) : Work := { w with sat := w.sat + n, marks := if n = 0 then w.marks else Nat.lor w.marks markSat }

/-! ### Sources, streams -/

/-- A source. -/
def Chip.source (c : Chip) (s : Nat) : Source := at' c.pix.sources s

/-- A stream. -/
def Chip.stream (c : Chip) (n : Nat) : Stream := at' c.pix.streams n

/-- A head port. -/
def Chip.head (c : Chip) (h : Nat) : HeadPort := at' c.heads h

/-- Change a head port. -/
def Chip.modHead (c : Chip) (h : Nat) (f : HeadPort → HeadPort) : Chip := { c with heads := modAt c.heads h f }

/-- Change a frame in progress. -/
def Chip.modWork (c : Chip) (s id : Nat) (f : Work → Work) : Chip :=
  c.modSource s (fun (x : Source) => { x with works := x.works.map (fun w => if w.id = id then f w else w) })

/-- A frame in progress. -/
def Chip.work? (c : Chip) (s id : Nat) : Option Work := (c.source s).works.find? (fun w => w.id = id)

/-- The frame of a head that its latest frame start began, up to the next one, if it is not finished. -/
def Chip.currentWork? (c : Chip) (h : Nat) : Option Work := (c.source h).works.find? (fun w => decide (w.number = c.nat (K.frameNumber h)))

/-- Whether a source is thermal: a head, or a CSI-2 source with the thermal-core role. -/
def Chip.isThermal (c : Chip) (s : Nat) : Bool := decide (s < 4) || decide (c.get (K.srcRole (s - 4)) = 1)

/-- Width and height of a source's geometry (R330). -/
def Chip.sourceSize (c : Chip) (s : Nat) : Nat × Nat :=
  if s < 4 then (c.nat (K.activeWidth s), c.nat (K.activeHeight s))
  else (c.nat (K.srcWidth (s - 4)), c.nat (K.srcHeight (s - 4)))

/-- Whether a source runs. -/
def Chip.sourceRuns (c : Chip) (s : Nat) : Bool :=
  if s < 4 then decide (c.get (K.runState s) ≠ 0) else decide (c.get (K.srcState (s - 4)) ≠ 0)

/-- Whether a source's run request reads 1. -/
def Chip.sourceWanted (c : Chip) (s : Nat) : Bool :=
  if s < 4 then decide (c.get (K.runRequest s) = 1) else decide (c.get (K.srcRun (s - 4)) = 1)

/-- The source whose frame starts a stream follows: the visible one of a fusion channel. -/
def streamSourceOf (v : Nat) : Nat := if 16 ≤ v then 4 + (v - 16) else v

/-- The lowest-numbered running source (R471). -/
def Chip.lowestRunning (c : Chip) : Option Nat := (List.range 6).find? (fun s => c.sourceRuns s)

/-! ### Objects captured at a frame start (R206, R281) -/

/-- Whether an object belongs to a source. -/
def sourceKey (s key : Nat) : Bool :=
  let i := key / 256
  let within := fun (lo n : Nat) => decide (lo ≤ i ∧ i < lo + n)
  within (0x3000 + 0x40 * s) 0x40 || within (0x3800 + 0x40 * s) 0x40 || within (0x4400 + 0x10 * s) 0x10 ||
  within (0x4480 + 0x10 * s) 0x10 ||
  (if s < 4 then within (0x2400 + 0x40 * s) 0x40 || within (0x3480 + 0x10 * s) 0x10 else within (0x3C40 + 0x10 * (s - 4)) 0x10)

/-- The objects of a source now. -/
def Chip.sourcePar (c : Chip) (s : Nat) : Dict := c.dict.filter (fun e => sourceKey s e.1)

/-- The objects of a stream now. -/
def Chip.streamPar (c : Chip) (n : Nat) : Dict :=
  c.dict.filter (fun e => decide (0x4000 + 0x10 * n ≤ e.1 / 256 ∧ e.1 / 256 < 0x4010 + 0x10 * n))

/-- The objects of a fusion channel now. -/
def Chip.fusePar (c : Chip) (i : Nat) : Dict :=
  c.dict.filter (fun e => decide (0x3D40 + 0x10 * i ≤ e.1 / 256 ∧ e.1 / 256 < 0x3D50 + 0x10 * i))

/-- The value of an unsigned object of a captured set. -/
def Dict.natAt (d : Dict) (key : Nat) : Nat := (d.get key).toNat

/-- Whether a 0-or-1 object of a captured set reads 1. -/
def Dict.onAt (d : Dict) (key : Nat) : Bool := decide (d.get key = 1)

/-- The readout of a frame: total size, blind rows and columns and their place, integrations, taps (0 for a CSI-2
source). -/
structure Geo where
  w : Nat
  h : Nat
  blindRows : Nat
  blindCols : Nat
  rowsLast : Bool
  colsLast : Bool
  n : Nat
  taps : Nat
  deriving DecidableEq, Repr

/-- The readout of a source from a set of objects (R111, R117, R309). -/
def geoOf (d : Dict) (s : Nat) : Geo :=
  if s < 4 then
    { w := d.natAt (K.activeWidth s) + d.natAt (K.blindColumns s), h := d.natAt (K.activeHeight s) + d.natAt (K.blindRows s)
      blindRows := d.natAt (K.blindRows s), blindCols := d.natAt (K.blindColumns s), rowsLast := d.onAt (K.blindRowPlace s)
      colsLast := d.onAt (K.blindColumnPlace s), n := d.natAt (K.integrations s), taps := d.natAt (K.tapCount s) }
  else
    { w := d.natAt (K.srcWidth (s - 4)), h := d.natAt (K.srcHeight (s - 4)), blindRows := 0, blindCols := 0
      rowsLast := false, colsLast := false, n := 1, taps := 0 }

/-- The readout of a frame. -/
def Work.geo (w : Work) (s : Nat) : Geo := geoOf w.par s

/-- Whether a readout row is blind. -/
def Geo.blindRow (g : Geo) (r : Nat) : Bool := if g.rowsLast then decide (g.h - g.blindRows ≤ r) else decide (r < g.blindRows)

/-- The readout row of the first active row. -/
def Geo.firstRow (g : Geo) : Nat := if g.rowsLast then 0 else g.blindRows

/-- The readout column of the first active column. -/
def Geo.firstCol (g : Geo) : Nat := if g.colsLast then 0 else g.blindCols

/-- Active rows and columns. -/
def Geo.aw (g : Geo) : Nat := g.w - g.blindCols
/-- Active rows. -/
def Geo.ah (g : Geo) : Nat := g.h - g.blindRows

/-- The part of a readout row that belongs to the active columns. -/
def Geo.active {α : Type} (g : Geo) (l : List α) : List α := (l.drop g.firstCol).take g.aw

end Sys2Proof.Machine
end

