-- ==== Sys2Proof/Machine/Front.lean ====
section
/-! DEFINITION. Steps 4 to 8 of a frame of a thermal source, over its rows (R205 to R227, R241 to R245, R251). -/

namespace Sys2Proof.Machine

/-! ### Steps 4 and 5, line by line -/

/-- The record of a pixel of a row, unusable where the DRAM controller could not read it (R226). -/
def rowRecords (w : Work) (g : Geo) (row : Nat) (bad : List Nat) : List Nat :=
  (((w.records.drop (row * g.w)).take g.w).zipIdx).map (fun (r, col) => if col ∈ bad then unusableRecord else r)

/-- A sample through steps 4 and 5, with the clamps of each. -/
def sample45 (w : Work) (bypass short : Bool) (r : Nat) (tapOut : Bool) (x : Sample) : Sample5 × Nat × Nat :=
  let (f, b1) := linearise w.lin x.code
  let (y, b2) := if bypass then (f, false) else correct r w.dT (rhoInv (max w.rho 1)) short f
  ({ y := y, code := x.code, ovr := x.ovr, rec' := x.rec', miss := x.miss, tapOut := tapOut },
    (if b1 then 1 else 0), (if b2 then 1 else 0))

/-- A line through steps 4 and 5: its samples by integration, and the clamps of step 4 and of step 5. -/
def line45 (w : Work) (s : Nat) (l : Line) (bad : List Nat) : List (List Sample5) × Nat × Nat :=
  let g := w.geo s
  let recs := rowRecords w g l.row bad
  let bypass := w.par.onAt (K.nucBypass s)
  let out := l.samples.zipIdx.map (fun (smp, i) =>
    ((smp.zip recs).zipIdx).map (fun ((x, r), col) =>
      sample45 w bypass (i = 1) r (0 < g.taps && bitOf l.tapsOut (col % g.taps)) x))
  (out.map (·.map (·.1)), sumN (out.flatten.map (·.2.1)), sumN (out.flatten.map (·.2.2)))

/-! ### Step 6: Equinox -/

/-- Sum and count of the blind samples of an active column that contribute (R242). -/
def blindSum (w : Work) (g : Geo) (blind : List RowWork) (i col : Nat) : Int × Nat :=
  let c := g.firstCol + col
  let hits := blind.filterMap (fun r =>
    let rc := if c ∈ r.badRec then unusableRecord else w.records.getD (r.row * g.w + c) 0
    match (r.samples.getD i [])[c]? with
    | some x => if recBlind rc && !recDead rc && !x.ovr && !x.rec' && !x.miss && !x.tapOut then some x.y else none
    | none => none)
  (sumI hits, hits.length)

/-- The sums and counts of every integration and active column. -/
def blindSums (w : Work) (g : Geo) : List (List (Int × Nat)) :=
  let blind := w.rows.filter (fun r => g.blindRow r.row)
  tab g.n (fun i => tab g.aw (blindSum w g blind i))

/-- The column state that a frame starts from: seeded, or with the anchors of a Solstice (R245, R253). -/
def eqxStart (w : Work) (g : Geo) (st : List (List EqxCol)) : List (List EqxCol) :=
  tab g.n (fun i => tab g.aw (fun c =>
    let e := at' (at' st i) c
    if !w.anchors.isEmpty then
      match at' (at' w.anchors i) c with
      | some a => { a := a, z := 0, seed := false }
      | none => e.seeded
    else if w.eqxSeed then e.seeded else e))

/-- Whether step 6 corrects a frame (R241). -/
def eqxOn (w : Work) (s : Nat) (g : Geo) : Bool := decide (s < 4) && decide (0 < g.blindRows) && w.par.onAt (K.eqxEnable s)

/-- Whether an active sample is passed uncorrected. -/
def eqxSkips (corr : List EqxCol) (row : List Sample5) : Nat :=
  ((row.zip corr).filter (fun (x, e) => (e.apply x.y).2)).length

/-- The active samples of a row of one integration with their step 6 outputs. -/
def eqxRow (on : Bool) (corr : List EqxCol) (row : List Sample5) : List (Sample5 × Int) :=
  if on then (row.zip corr).map (fun (x, e) => (x, (e.apply x.y).1)) else row.map (fun x => (x, x.y))

/-! ### Steps 7 and 8 -/

/-- An active sample as step 7 takes it (Table 7.3). -/
def cellOf (bypass noisy : Bool) (r : Nat) (bad : Bool) (x : Sample5) (v : Int) : Cell :=
  let meth := methodFor x.tapOut bad x.miss bypass noisy r
  { v := v, code := x.code, ovr := x.ovr, rec' := x.rec', meth := meth, forMiss := x.miss && !x.tapOut && !bad }

/-- Whether a sample uses a BP_METHOD of 5 to 7 (R211). -/
def usesInvalid (bypass : Bool) (r : Nat) (bad : Bool) (x : Sample5) : Bool :=
  decide (5 ≤ recMethod r) && !x.tapOut && !bad && (x.miss || !bypass)

/-- An active row of a frame: its records and its samples after step 6, none for a row that is missing. -/
structure ARow where
  recs : List Nat
  bad : List Bool
  samples : List (List (Sample5 × Int))
  badState : List Nat
  badAcc : List Nat
  deriving DecidableEq, Repr, Inhabited

/-- The active rows after step 6. -/
def activeRows (w : Work) (g : Geo) (on : Bool) (corr : List (List EqxCol)) : List (Option ARow) :=
  tab g.ah (fun k =>
    let row := g.firstRow + k
    (w.rows.find? (fun r => r.row = row)).map (fun r =>
      { recs := g.active (rowRecords w g row r.badRec)
        bad := tab g.aw (fun c => decide (g.firstCol + c ∈ r.badRec))
        samples := r.samples.zipIdx.map (fun (l, i) => eqxRow on (at' corr i) (g.active l))
        badState := r.badState, badAcc := r.badAcc }))

/-- The image of one integration as step 7 takes it. -/
def planeOf (bypass noisy : Bool) (rows : List (Option ARow)) (i : Nat) : Plane Cell :=
  rows.map (fun r => match r with
    | none => []
    | some r => ((at' r.samples i).zip (r.recs.zip r.bad)).map (fun (x, rc, b) => cellOf bypass noisy rc b x.1 x.2))

/-- What steps 6 to 8 give: the column state, the sums of blind samples, the merged rows, step 5 outputs for
accumulation, and counts. -/
structure FrontOut where
  eqx : List (List EqxCol)
  sums : List (List (Int × Nat))
  rows : List (Option (List Merged))
  active : List (Option ARow)
  held : Nat
  unseeded : Nat
  skips : Nat
  corrMax : Int
  replaced : Nat
  miss : Nat
  fallbacks : Nat
  unreplaced : Nat
  invalid : Nat
  sat : Nat
  short : Nat
  blend : Nat
  redirects : Nat
  deriving DecidableEq, Repr

/-- Steps 6 to 8 of a frame, from the column state left by the frame before. -/
def front (w : Work) (s : Nat) (st : List (List EqxCol)) : FrontOut :=
  let g := w.geo s
  let on := eqxOn w s g
  let sums := blindSums w g
  let st0 := eqxStart w g st
  let gain := w.par.natAt (K.eqxGainLog2 s)
  let st1 := if on then tab g.n (fun i => tab g.aw (fun c =>
      let m := at' (at' sums i) c
      (at' (at' st0 i) c).update gain m.1 m.2)) else st0
  let corr := if g.rowsLast then st0 else st1
  let rows := activeRows w g on corr
  let bypass := w.par.onAt (K.bpBypass s)
  let noisy := w.par.onAt (K.bpReplaceNoisy s)
  let span := w.par.natAt (K.bpFallbackSpan s)
  let planes := tab g.n (planeOf bypass noisy rows)
  let done := planes.map (fun p => replacePlane p span)
  let cells := (done.map (·.flatten)).flatten
  let inCells := (planes.map (·.flatten)).flatten
  let mode := w.par.natAt (K.hdrMode s)
  let knee := w.par.natAt (K.hdrKnee s)
  let width := w.par.natAt (K.hdrWidthLog2 s)
  let merged := rows.zipIdx.map (fun (r, k) => r.map (fun r =>
    let l := at' (at' done 0) k
    if g.n = 2 then
      (r.recs.zip (l.zip (at' (at' done 1) k))).map (fun (rc, a, b) => mergePixel mode knee width w.rho rc a b)
    else (r.recs.zip l).map (fun (rc, a) => passPixel rc a)))
  let ms := (merged.filterMap id).flatten
  let invalid := sumN (rows.filterMap (fun r => r.map (fun r =>
    ((r.recs.zip r.bad).zipIdx.filter (fun ((rc, b), c) =>
      r.samples.any (fun smp => usesInvalid bypass rc b (at' smp c).1))).length)))
  let activeBlind := rows.filterMap id
  { eqx := st1, sums := sums, rows := merged, active := rows
    held := if on then (sums.flatten.filter (fun m => m.2 = 0)).length else 0
    unseeded := if on then (st1.flatten.filter (·.seed)).length else 0
    skips := if on then sumN (activeBlind.map (fun r => sumN (r.samples.zipIdx.map (fun (l, i) => eqxSkips (at' corr i) (l.map (·.1)))))) else 0
    corrMax := if on then (corr.flatten.map (fun e => (e.corr.natAbs : Int))).foldl max 0 else 0
    replaced := (cells.filter (·.replaced)).length
    miss := ((inCells.zip cells).filter (fun (a, b) => a.forMiss && b.replaced)).length
    fallbacks := (cells.filter (·.fellBack)).length
    unreplaced := (cells.filter (·.unreplaced)).length
    invalid := invalid
    sat := (ms.filter (·.sat)).length
    short := (ms.filter (fun m => m.k = 256)).length
    blend := (ms.filter (fun m => decide (0 < m.k ∧ m.k < 256))).length
    redirects := (ms.filter (·.redirect)).length }

/-- The step 5 output of the long sample of each active pixel, with the conditions that make its accumulator invalid
(R251); a row that is missing gives none. -/
def accInput (g : Geo) (rows : List (Option ARow)) : List (Int × Bool) :=
  (rows.map (fun r => match r with
    | none => List.replicate g.aw ((0 : Int), true)
    | some r => ((at' r.samples 0).zip r.bad).zipIdx.map (fun ((x, b), c) =>
        (x.1.y, x.1.ovr || x.1.rec' || x.1.miss || x.1.tapOut || b || decide (g.firstCol + c ∈ r.badAcc))))).flatten

/-- The accumulators with one more averaging frame. -/
def accAdd (acc : List Accum) (l : List (Int × Bool)) : List Accum :=
  l.zipIdx.map (fun (x, p) =>
    let a := acc.getD p { s := 0, bad := false }
    { s := a.s + x.1, bad := a.bad || x.2 })

/-- The blind sums with one more averaging frame. -/
def sumsAdd (sums more : List (List (Int × Nat))) : List (List (Int × Nat)) :=
  more.zipIdx.map (fun (l, i) => l.zipIdx.map (fun (m, c) =>
    let a := (sums.getD i []).getD c (0, 0)
    (a.1 + m.1, a.2 + m.2)))

end Sys2Proof.Machine
end

