-- ==== Sys2Proof/Machine/Stats.lean ====
section
/-! DEFINITION. Statistics records, alarms and their copies to the host (R350 to R357, R424). -/

namespace Sys2Proof.Machine

/-! ### Forming a record -/

/-- The values of a record from the pixels of a frame (R350 to R352). -/
def statValues (par : Dict) (s : Nat) (y16r y16f : Bool) (img : List (List StatPix)) (r : StatRec) : StatRec :=
  let low := par.natAt (K.histLow s)
  let shift := par.natAt (K.histShift s)
  let h := histOf y16r low shift img
  let roi := fun (k : Nat) =>
    let i := 16 * s + k
    if par.onAt (K.roiEnable i) then
      ({ r := roiOf y16r img (par.natAt (K.roiX i)) (par.natAt (K.roiY i)) (par.natAt (K.roiWidth i)) (par.natAt (K.roiHeight i))
         alarms := 0, enabled := true } : RoiEntry)
    else { r := {}, alarms := 0, enabled := false }
  { r with
    hist := { n := sumN h.bins, low := low, shift := shift, bins := h.bins, y16f := y16f }
    below := h.below, above := h.above, under := h.under, beyond := h.beyond, rois := tab 16 roi }

/-- A record with nothing but what names its frame. -/
def Work.blankRec (w : Work) (s : Nat) : StatRec := {
  source := s, flags := 0, number := w.number, seq := 0, cap := w.cap, marks := w.marks, band := w.band, values := 0
  hist := {}, below := 0, above := 0, under := 0, beyond := 0, alarm := 0, rois := List.replicate 16 { r := {}, alarms := 0, enabled := false } }

/-- The values of the last processed frame of a source, whether or not its record is complete. -/
def Source.lastValues (x : Source) : Option StatRec :=
  match (x.due.filter (fun (d : StatDue) => bitOf d.rec'.flags 0)).getLast? with
  | some d => some d.rec'
  | none => x.last

/-- The record of a frame that steps 9 to 12 did not process: the values of the last processed frame (R353). -/
def Work.copiedRec (w : Work) (s : Nat) (last : Option StatRec) : StatRec :=
  match last with
  | none => w.blankRec s
  | some l => { l with
      source := s, flags := Nat.land l.flags 4, number := w.number, cap := w.cap, marks := w.marks, band := w.band
      rois := l.rois.map (fun e => { e with alarms := 0 }) }

/-! ### Alarms (R354, R355) -/

/-- Parameters of one threshold of an ROI. -/
structure AlarmPar where
  quantity : Nat
  below : Bool
  level : Int
  hyst : Int
  frames : Nat
  deriving DecidableEq, Repr

/-- Threshold A, or B with `b`, of ROI `i`. -/
def alarmPar (par : Dict) (i : Nat) (b : Bool) : AlarmPar :=
  if b then { quantity := par.natAt (K.alarmBQuantity i), below := par.onAt (K.alarmBDir i), level := par.get (K.alarmBLevel i)
              hyst := par.get (K.alarmBHyst i), frames := par.natAt (K.alarmBFrames i) }
  else { quantity := par.natAt (K.alarmAQuantity i), below := par.onAt (K.alarmADir i), level := par.get (K.alarmALevel i)
         hyst := par.get (K.alarmAHyst i), frames := par.natAt (K.alarmAFrames i) }

/-- One evaluation of a threshold: its state and its count of frames with the set condition, before and after. -/
def alarmStep (p : AlarmPar) (r : RoiResult) (active : Bool) (count : Nat) : Bool × Nat :=
  let q : Int := ((if p.quantity = 0 then r.max else if p.quantity = 1 then r.min else r.mean : Nat) : Int)
  let set := if p.below then decide (q < p.level) else decide (p.level < q)
  let clear := if p.below then decide (p.level + p.hyst ≤ q) else decide (q ≤ p.level - p.hyst)
  let n := if set then count + 1 else 0
  if active then (!clear, n) else (set && decide (p.frames ≤ n), n)

/-- The alarm state, the counts, and the entries of a record after its evaluation; ROI_ENABLE is that of the frame evaluated. -/
def alarmsOf (par : Dict) (s : Nat) (rois : List RoiEntry) (state : Nat) (persist : List Nat) :
    Nat × List Nat × List RoiEntry :=
  let step := fun (acc : Nat × List Nat × List RoiEntry) (x : RoiEntry × Nat) =>
    let (e, k) := x
    let (st, ps, out) := acc
    if !par.onAt (K.roiEnable (16 * s + k)) || e.r.empty then
      (st, ps, out ++ [{ e with alarms := (if bitOf st (2 * k) then 1 else 0) + (if bitOf st (2 * k + 1) then 2 else 0) }])
    else
      let (a, na) := alarmStep (alarmPar par (16 * s + k) false) e.r (bitOf st (2 * k)) (at' ps (2 * k))
      let (b, nb) := alarmStep (alarmPar par (16 * s + k) true) e.r (bitOf st (2 * k + 1)) (at' ps (2 * k + 1))
      let wasA := bitOf st (2 * k)
      let wasB := bitOf st (2 * k + 1)
      let bit := fun (c : Bool) (v : Nat) => if c then v else 0
      let al := bit a 1 + bit b 2 + bit (a && !wasA) 4 + bit (b && !wasB) 8 + bit (wasA && !a) 16 + bit (wasB && !b) 32
      (putBit (putBit st (2 * k) a) (2 * k + 1) b, modAt (modAt ps (2 * k) (fun _ => na)) (2 * k + 1) (fun _ => nb),
        out ++ [{ e with alarms := al }])
  rois.zipIdx.foldl step (state, persist, [])

/-! ### The record of R356 as bytes -/

/-- The 32 bytes of an ROI entry (Table 12.5). -/
def RoiEntry.bytes (e : RoiEntry) : List Byte :=
  leBytes 2 e.r.min ++ leBytes 2 e.r.max ++ leBytes 2 e.r.maxX ++ leBytes 2 e.r.maxY ++ leBytes 4 e.r.count ++
  leBytes 4 e.r.below ++ leBytes 4 e.r.above ++ leBytes 2 e.r.mean ++ leBytes 1 e.alarms ++
  leBytes 1 ((if e.enabled then 1 else 0) + (if e.enabled && e.r.empty then 2 else 0)) ++ leBytes 8 e.r.sum

/-- Bytes 0 to 59 of a record (Table 12.4). -/
def StatRec.head (r : StatRec) : List Byte :=
  leBytes 4 0x5453545A ++ leBytes 2 1 ++ leBytes 1 r.source ++ leBytes 1 r.flags ++ leBytes 4 r.number ++ leBytes 4 r.seq ++
  leBytes 8 r.cap ++ leBytes 2 r.marks ++ leBytes 1 r.band ++ leBytes 1 r.hist.shift ++ leBytes 4 r.values ++
  leBytes 4 r.hist.n ++ leBytes 4 r.below ++ leBytes 4 r.above ++ leBytes 4 r.under ++ leBytes 4 r.beyond ++
  leBytes 4 r.alarm ++ leBytes 2 r.hist.low ++ leBytes 2 0

/-- The 4672 bytes of a record. -/
def StatRec.bytes (r : StatRec) : List Byte :=
  let body := ((tab 16 (fun k => (at' r.rois k).bytes)).flatten) ++ ((tab 1024 (fun k => leBytes 4 (at' r.hist.bins k))).flatten)
  r.head ++ leBytes 4 (crc32 (r.head ++ body)) ++ body

/-- The image of STAT_RECORDS: record q at 4672 x (q mod 8). -/
def Source.recordBytes (x : Source) : List Byte :=
  (tab 8 (fun k => match x.records.find? (fun r => r.seq % 8 = k) with
    | some r => r.bytes
    | none => List.replicate 4672 0)).flatten

/-! ### Completing a record -/

/-- Whether a frame's ROIs are evaluated for alarms (R354). -/
def evaluated (r : StatRec) (par : Dict) (s : Nat) : Bool :=
  bitOf r.flags 0 || (par.onAt (K.statIncludeFrozen s) && decide (Nat.land r.marks markFrozen ≠ 0) &&
    decide (Nat.land r.marks markHeadLost = 0))

/-- The ROI objects of a source take the results of a record. -/
def Chip.roiObjects (c : Chip) (s : Nat) (r : StatRec) : Chip :=
  (r.rois.zipIdx).foldl (fun c (e, k) =>
    let i := 16 * s + k
    c.setAll [(K.roiMin i, e.r.min), (K.roiMax i, e.r.max), (K.roiMaxPos i, (e.r.maxY * 65536 + e.r.maxX : Nat)),
      (K.roiMean i, e.r.mean), (K.roiSum i, e.r.sum), (K.roiCount i, e.r.count), (K.roiBelow i, e.r.below),
      (K.roiAbove i, e.r.above), (K.roiFrameNumber i, r.number)]) c

/-- The frames that still wait for it take ALARM_STATE after their statistics: the stored frame, frames latched for fusion, and stream frames
(R348, R355). -/
def Chip.alarmKnown (c : Chip) (s number st : Nat) : Chip :=
  let know := fun (f : Stored) => if f.alarmOf = some (s, number) then { f with alarm := some st } else f
  { c with pix := { c.pix with
    sources := c.pix.sources.map (fun (x : Source) => { x with
      stored := x.stored.map know
      works := x.works.map (fun (w : Work) => { w with fuse := w.fuse.map (fun (z : Fusion) => { z with latched := z.latched.map know }) }) })
    streams := c.pix.streams.map (fun (x : Stream) => { x with jobs := x.jobs.map (fun (j : Job) => { j with img := j.img.map know }) }) } }

/-- Queue the copy of a record to the host (R357, R424): dropped while the link cannot carry it, or on a full queue. -/
def Chip.queueCopy (c : Chip) (s seq : Nat) : Chip :=
  if c.get (K.statHostBase s) = 0 then c
  else
    let ch := c.get (K.statDmaChannel s)
    let queued := c.pix.copies.filter (fun x => c.get (K.statDmaChannel x.source) = ch)
    if !c.canSend0 ∨ 16 ≤ queued.length then c.bump (K.statHostDrops s)
    else { c with pix := { c.pix with copies := c.pix.copies ++ [{ source := s, seq := seq }] } }

/-- STAT_RECORD_COMPLETE: the oldest record of a source is complete (R354 to R357). -/
def statRecordComplete (s : Nat) (c : Chip) : Chip :=
  match (c.source s).due with
  | [] => c
  | d :: rest =>
    let x := c.source s
    let seq := nextSeq (c.nat (K.statSequence s)) 0xFFFFFFFF
    let was := c.nat (K.alarmState s)
    let ev := evaluated d.rec' d.par s
    let (st, ps, rois) := if ev then alarmsOf d.par s d.rec'.rois was x.persist
      else (was, x.persist, d.rec'.rois.zipIdx.map (fun (e, k) =>
        ({ e with alarms := (if bitOf was (2 * k) then 1 else 0) + (if bitOf was (2 * k + 1) then 2 else 0) } : RoiEntry)))
    let r := { d.rec' with seq := seq, alarm := st, rois := rois, flags := d.rec'.flags + (if ev then 2 else 0) }
    let rises := popCount 32 (clearBits st was)
    let c := c.modSource s (fun (x : Source) => { x with
      due := rest, persist := ps, records := (r :: x.records).take 8, last := if bitOf r.flags 0 then some r else x.last })
    let c := ((c.set (K.statSequence s) seq).set (K.alarmState s) st).alarmKnown s r.number st
    let c := if st = was then c else c.setAll [(K.canEventSource, s), (K.canEventFrame, r.number), (K.canEventTime, r.cap)]
    ((c.bumpBy (K.alarmEvents s) rises).roiObjects s r).queueCopy s seq

/-! ### Meanings -/

/-- STAT_RECORD_COMPLETE -/
def execStatRecordComplete (src : Fin 6) (s : State) : Res := run s (statRecordComplete src.val)

end Sys2Proof.Machine
end

