-- ==== Sys2Proof/Machine/Streams.lean ====
section
/-! DEFINITION. Streams: which source frames they take, scaling and formats, and egress to the host ring (R328 to
R349). -/

namespace Sys2Proof.Machine

/-! ### Palettes (R341) -/

/-- The grey palette of the default. -/
def greyPalette : List Nat := tab 256 (fun i => i * 0x010101)

/-- The on-chip copy of a palette. -/
def Chip.palette (c : Chip) (p : Nat) : List Nat :=
  match at' c.pix.palettes p with
  | [] => greyPalette
  | l => l

/-- The entries of a palette image. -/
def paletteOf (l : List Byte) : List Nat := tab 256 (fun i => leNat ((l.drop (4 * i)).take 4))

/-- A write of PALETTE_LOAD: the copy begins. -/
def paletteLoad (v : Nat) (c : Chip) : Except Abort Chip :=
  guardNot (decide (7 < v)) Abort.tooHigh <|
  .ok ({ c with pix := { c.pix with palLoads := c.pix.palLoads ++ [(v, paletteOf (c.domainImage (K.paletteImage v)))] } })

/-- The copy of a palette is in place; its users take it at their next frame start. -/
def paletteCopyComplete (p : Nat) (c : Chip) : Chip :=
  match c.pix.palLoads.find? (fun x => x.1 = p) with
  | none => c
  | some x =>
    let all := tab 8 (fun i => at' c.pix.palettes i)
    ({ c with pix := { c.pix with palLoads := c.pix.palLoads.erase x, palettes := modAt all p (fun _ => x.2) } } : Chip).bump
      (K.paletteLoads p)

/-! ### Taking source frames (R331 to R335) -/

/-- The kernels of R337: bilinear, or the tables of the stream. -/
def Chip.kernels (c : Chip) (n : Nat) : List Int × List Int :=
  let i16 := fun (l : List Byte) (m : Nat) => tab m (fun k => sx (leNat ((l.drop (2 * k)).take 2)) 16)
  if c.get (K.scaleKernel n) = 0 then
    ((tab 64 (fun p => bilinearTaps 8 3 p)).flatten, (tab 64 (fun p => bilinearTaps 4 1 p)).flatten)
  else (i16 (c.domainImage (K.scaleHTable n)) 512, i16 (c.domainImage (K.scaleVTable n)) 256)

/-- A stream that is stopping and has no frame left reads stopped. -/
def Chip.streamSettle (c : Chip) (n : Nat) : Chip :=
  if c.get (K.streamState n) = 3 ∧ (c.stream n).jobs = [] then (c.set (K.streamState n) 0).applyStopped (8 + n)
  else if (c.get (K.streamState n) = 1 ∨ c.get (K.streamState n) = 2) ∧ (c.stream n).jobs = [] ∧ !c.sourceRuns (streamSourceOf (c.nat (K.streamSource n))) then
    (c.set (K.streamState n) 4).applyStopped (8 + n)
  else c

/-- A selected frame that cannot be written: it is counted, and its sequence has advanced. -/
def Chip.discardFrame (c : Chip) (n : Nat) : Chip := c.bump (K.egressDiscards n)

/-- Whether a selected frame is omitted by throttling, and the new count (R334). -/
def halving (level : Nat) (yields : Bool) (h : Option Nat) : Bool × Option Nat :=
  if 1 ≤ level ∧ yields then
    let k := h.getD 0
    (decide (k % 2 = 1), some (k + 1))
  else (false, none)

/-- What the start of a source frame applies to a stream (R25, R335, R337, R340): its staged writes, the kernel tables that a write asked for,
and WINDOW_MODE, whose change from 0 to 1 leaves AGC without damping state from this frame on. -/
def Chip.streamApply (c : Chip) (n frame : Nat) : Chip :=
  let c := c.applyStaged (8 + n)
  let x := c.stream n
  let k := if x.tableLoad then c.kernels n else (x.chTable, x.cvTable)
  let mode := c.nat (K.windowMode n)
  let resets := if mode = 1 ∧ x.mode = 0 then x.resets ++ [frame] else x.resets
  c.modStream n (fun (x : Stream) => { x with chTable := k.1, cvTable := k.2, tableLoad := false, mode := mode, resets := resets })

/-- The frame start of a stream at the start of a source frame (R25, R332, R334). A stream that is stopping has its writes applied and takes
no frame; the start of a substitute frame (`real` false) applies nothing (R307). -/
def Chip.streamFrameStart (c : Chip) (n frame prev : Nat) (first real : Bool) : Chip :=
  let st := c.get (K.streamState n)
  if st = 0 then c
  else
    let c := if real then c.streamApply n frame else c
    let x := c.stream n
    let early := decide (st = 1 ∧ c.mono ≤ x.acceptedAt + 2000)
    if early ∨ st = 3 then c
    else
      let count := if st = 1 then 0 else x.count
      let c := c.set (K.streamState n) 2
      let sel := decide (count % max 1 (c.nat (K.streamDecimate n)) = 0)
      let c := c.modStream n (fun (x : Stream) => { x with count := count + 1 })
      if !sel then c
      else
        let (skipped, halved) := halving (c.nat K.throttleLevel) (c.on (K.streamYieldable n)) x.halved
        let c := c.modStream n (fun (x : Stream) => { x with halved := halved })
        if skipped then c.bump (K.throttledOmitted n)
        else
          let seq := x.nextSeq
          let c := c.set (K.deliverySequence n) seq
          let c := c.modStream n (fun (x : Stream) => { x with nextSeq := (seq + 1) % 2 ^ 32 })
          if !c.canSend0 ∨ c.regionRestarting 3 then c.discardFrame n
          else
            let j : Job := {
              frame := frame, seq := seq, par := c.streamPar n, throttled := halved.isSome
              agcFrom := if first then none else some prev, agcReset := decide (st = 1)
              chTable := x.chTable, cvTable := x.cvTable, colours := c.palette (c.nat (K.palette n)) }
            c.modStream n (fun (x : Stream) => { x with jobs := x.jobs ++ [j] })

/-- The frame start of every stream that follows a source; `first` when the source has had no frame before. -/
def Chip.streamsFrameStart (c : Chip) (s frame prev : Nat) (first real : Bool) : Chip :=
  (List.range 8).foldl (fun c n =>
    if streamSourceOf (c.nat (K.streamSource n)) = s then c.streamFrameStart n frame prev first real else c) c

/-- The image of a finished source frame reaches the streams that wait for it. -/
def Chip.attach (c : Chip) (s frame : Nat) (plain : Stored) (fused : Option Stored) : Chip :=
  (List.range 8).foldl (fun c n =>
    let v := c.nat (K.streamSource n)
    if streamSourceOf v = s then
      c.modStream n (fun (x : Stream) => { x with jobs := x.jobs.map (fun j =>
        if j.frame = frame then { j with img := if 16 ≤ v then fused else some plain } else j) })
    else c) c

/-- Frames of a source that will not be produced are discarded. -/
def Chip.discardJobs (c : Chip) (n : Nat) (p : Job → Bool) : Chip :=
  let gone := ((c.stream n).jobs.filter p).length
  let c := c.modStream n (fun (x : Stream) => { x with jobs := x.jobs.filter (fun j => !p j) })
  (c.bumpBy (K.egressDiscards n) gone).streamSettle n

/-- A stream stops at once, its frames abandoned and counted (R369). -/
def Chip.stopStream (c : Chip) (n : Nat) : Chip :=
  let c := c.discardJobs n (fun _ => true)
  ((c.set (K.streamRun n) 0).set (K.streamState n) 0).applyStopped (8 + n)

/-! ### Windows (R339, R340) -/

/-- Whether a stream windows a thermal source: Y8, RGB888 and YUV422. -/
def windowed (format : Nat) : Bool := decide (format = 1 ∨ format = 2 ∨ format = 4)

/-- The window of a thermal frame, decided at its first output line. -/
def Chip.frameWindow (c : Chip) (n : Nat) (j : Job) (s : Nat) : Chip × Nat × Nat :=
  let x := c.stream n
  let fixed := (j.par.natAt (K.windowLow n), j.par.natAt (K.windowHigh n))
  let resets := x.resets.filter (fun k => decide (j.frame < k))
  let put := fun (c : Chip) (agc : Option AgcState) (w : Nat × Nat) =>
    ((c.modStream n (fun (x : Stream) => { x with agc := agc, window := some w, resets := resets })).set (K.windowInForce n)
      (w.2 * 65536 + w.1 : Nat), w.1, w.2)
  let st := if j.agcReset || decide (resets.length ≠ x.resets.length) then none else x.agc
  if j.par.natAt (K.windowMode n) = 0 then put c st fixed
  else
    let last := x.window.getD fixed
    match j.agcFrom.bind (fun k => (c.source s).records.find? (fun r => r.number = k)) with
    | some r =>
      if r.hist.n = 0 then put c st last
      else
        let (a, lo, hi) := agcStep (j.par.natAt (K.agcClipLow n)) (j.par.natAt (K.agcClipHigh n))
          (j.par.natAt (K.agcDampLog2 n)) (j.par.natAt (K.agcMinSpan n)) st r.hist
        put c (some a) (lo, hi)
    | none => put c st last

/-! ### Scaling and formats (R336 to R343) -/

/-- What a stream's frames are made from. -/
inductive PixKind
  | thermal | visible (dt : Nat) | fused
  deriving DecidableEq, Repr

/-- The kind of source a stream names. -/
def Chip.kindOf (c : Chip) (v : Nat) : PixKind :=
  if 16 ≤ v then .fused else if c.isThermal v then .thermal else .visible (c.nat (K.srcDataType (v - 4)))

/-- A packed colour of a fused frame. -/
def unpackColour (v : Nat) : Rgba := { r := v % 256, g := v / 256 % 256, b := v / 65536 % 256, a := v / 16777216 }

/-- A colour packed. -/
def packColour (c : Rgba) : Nat := c.r + c.g * 256 + c.b * 65536 + c.a * 16777216

/-- Bytes per pixel of a stored frame. -/
def storedBytes (k : PixKind) : Nat := match k with | .visible dt => (if dt = 0x24 then 3 else 2) | _ => 2

/-- The crop window of an image: its values by row. -/
def cropRows (par : Dict) (n : Nat) (rows : List (List Nat)) : List (List Nat) :=
  let x0 := par.natAt (K.cropX n)
  let y0 := par.natAt (K.cropY n)
  tab (par.natAt (K.cropHeight n)) (fun y => tab (par.natAt (K.cropWidth n)) (fun x => Rows.at rows (x0 + x) (y0 + y)))

/-- The components that a format scales, each an image of the whole source: values, and whether range codes are special. -/
def components (k : PixKind) (format : Nat) (img : Stored) : List (Rows × Bool × Nat) :=
  match k with
  | .thermal => [(img.rows, !img.y16f, 16)]
  | .visible dt =>
    let colours := img.rows.map (fun r => tab r.length (visColour dt r))
    if format = 1 then [(colours.map (·.map (fun p => (luma p).toNat)), false, 8)]
    else [(colours.map (·.map (·.r)), false, 8), (colours.map (·.map (·.g)), false, 8), (colours.map (·.map (·.b)), false, 8)]
  | .fused =>
    let colours := img.rows.map (·.map unpackColour)
    [(colours.map (·.map (·.r)), false, 8), (colours.map (·.map (·.g)), false, 8), (colours.map (·.map (·.b)), false, 8)] ++
    (if format = 3 then [(colours.map (·.map (·.a)), false, 8)] else [])

/-- One output line of one component. -/
def componentLine (j : Job) (n k : Nat) (comp : Rows × Bool × Nat) : List Nat × Nat :=
  let (rows, special, width) := comp
  let taps := (cropRows j.par n rows).map (·.map (fun (v : Nat) =>
    if special && decide (v = 0 ∨ v = 0xFFFF) then Tap.special (v : Nat) else Tap.num (v : Nat)))
  scaleLine j.chTable j.cvTable taps (j.par.natAt (K.cropWidth n)) (j.par.natAt (K.cropHeight n))
    (j.par.natAt (K.outWidth n)) (j.par.natAt (K.outHeight n)) k width

/-- The bytes of a line of colours in RGB888, RGBA8888 or YUV422. -/
def colourBytes (format : Nat) : List Rgba → List Byte
  | [] => []
  | [p] => if format = 4 then [] else [BitVec.ofNat 8 p.r, BitVec.ofNat 8 p.g, BitVec.ofNat 8 p.b] ++
      (if format = 3 then [BitVec.ofNat 8 p.a] else [])
  | p :: q :: l =>
    if format = 4 then yuvPair p q ++ colourBytes format l
    else [BitVec.ofNat 8 p.r, BitVec.ofNat 8 p.g, BitVec.ofNat 8 p.b] ++
      (if format = 3 then [BitVec.ofNat 8 p.a] else []) ++ colourBytes format (q :: l)

/-- Output line k of a frame and the clamps of the scaler. -/
def outLine (j : Job) (n k : Nat) (kind : PixKind) (img : Stored) (win : Nat × Nat) : List Byte × Nat :=
  let format := j.par.natAt (K.streamFormat n)
  if format = 5 then
    (((at' (cropRows j.par n img.rows) k).map (fun v => leBytes (storedBytes kind) v)).flatten, 0)
  else
    let lines := (components kind format img).map (componentLine j n k)
    let clamps := sumN (lines.map (·.2))
    let at3 := fun (i x : Nat) => ((lines.getD i ([], 0)).1).getD x 0
    let width := j.par.natAt (K.outWidth n)
    let bytes := match kind with
      | .thermal =>
        if format = 0 then (tab width (fun x => leBytes 2 (at3 0 x))).flatten
        else
          let idx := tab width (fun x => windowIndex win.1 win.2 (at3 0 x))
          if format = 1 then idx.map (fun v => BitVec.ofNat 8 v) else colourBytes format (idx.map (paletteEntry j.colours))
      | _ =>
        if format = 1 then tab width (fun x => BitVec.ofNat 8 (at3 0 x))
        else colourBytes format (tab width (fun x => { r := at3 0 x, g := at3 1 x, b := at3 2 x, a := at3 3 x }))
    (bytes, clamps)

/-! ### Egress (R344 to R348) -/

/-- The byte of the header that names the format (Table 12.2). -/
def headerFormat (format : Nat) (y16f : Bool) : Nat := if format = 0 then (if y16f then 1 else 0) else format + 1

/-- ALARM_STATE after the statistics of a frame; where its record is not complete, ALARM_STATE as it is. -/
def Chip.alarmAfter (c : Chip) (f : Stored) : Nat :=
  match f.alarmOf with
  | none => 0
  | some (s, _) => f.alarm.getD (c.nat (K.alarmState s))

/-- The marks a stream frame carries (R349). -/
def Job.marks (j : Job) (img : Stored) : Nat :=
  let m := if j.throttled then Nat.lor img.marks markThrottled else img.marks
  if j.repeated then Nat.lor m markRepeated else m

/-- The frame header (Table 12.2). -/
def Chip.frameHeader (c : Chip) (n : Nat) (j : Job) (img : Stored) : List Byte :=
  let p := fun (k : Nat) => j.par.natAt k
  let format := p (K.streamFormat n)
  let h := leBytes 4 0x4846545A ++ leBytes 2 1 ++ leBytes 1 n ++ leBytes 1 (p (K.streamSource n)) ++ leBytes 4 img.number ++
    leBytes 4 j.seq ++ leBytes 8 img.cap ++ leBytes 2 (j.marks img) ++ leBytes 1 img.band ++
    leBytes 1 (headerFormat format img.y16f) ++ leBytes 2 (p (K.outWidth n)) ++ leBytes 2 (p (K.outHeight n)) ++
    leBytes 4 (p (K.lineStride n)) ++ leBytes 4 img.sat ++ leBytes 4 img.ovr ++ leBytes 4 (c.alarmAfter img) ++
    leBytes 2 (p (K.cropX n)) ++ leBytes 2 (p (K.cropY n)) ++ leBytes 2 (p (K.cropWidth n)) ++ leBytes 2 (p (K.cropHeight n)) ++
    leBytes 4 0
  h ++ leBytes 4 (crc32 h)

/-- The writeback word (R346). -/
def Chip.writeback (c : Chip) (n : Nat) (j : Job) (lines slot : Nat) (done : Bool) : Chip :=
  let a := c.nat (K.wbAddress n)
  if a = 0 then c
  else c.emit (.hostWrite 1 a (leBytes 8 (j.seq * 2 ^ 32 + (if done then 2 ^ 31 else 0) + lines * 2 ^ 16 + slot)))

/-- Replace the first job of a stream. -/
def Chip.putJob (c : Chip) (n : Nat) (j : Job) : Chip := c.modStream n (fun (x : Stream) => { x with jobs := j :: x.jobs.drop 1 })

/-- Remove the first job of a stream. -/
def Chip.popJob (c : Chip) (n : Nat) : Chip := (c.modStream n (fun (x : Stream) => { x with jobs := x.jobs.drop 1 })).streamSettle n

/-- The slot of a frame at its first output line: none when the ring is full (R345, R346). -/
def Chip.claimSlot (c : Chip) (n : Nat) : Option Nat :=
  let w := c.nat (K.ringWrite n)
  if (w + 1) % max 1 (c.nat (K.ringSlots n)) = c.nat (K.ringRead n) then none else some w

/-- The start of a slot. -/
def Chip.slotBase (c : Chip) (n slot : Nat) : Nat := c.nat (K.ringBase n) + slot * c.nat (K.slotSize n)

/-- One output line into a slot. -/
def Chip.writeLine (c : Chip) (n : Nat) (j : Job) (img : Stored) (slot : Nat) (win : Nat × Nat) : Chip :=
  let v := c.nat (K.streamSource n)
  let (bytes, clamps) := outLine j n j.line (c.kindOf v) img win
  let c := c.bumpBy (K.scaleClamps n) clamps
  let c := c.emit (.hostWrite 1 (c.slotBase n slot + 64 + j.line * j.par.natAt (K.lineStride n)) bytes (j.par.onAt (K.relaxedOrdering n)))
  let j := { j with line := j.line + 1, slot := some slot, window := some win }
  let p := j.par.natAt (K.progressLines n)
  let c := if p ≠ 0 ∧ j.line % p = 0 then c.writeback n j j.line slot false else c
  c.putJob n j

/-- STREAM_LINE_OUTPUT: the next line of the stream's oldest frame. -/
def streamLineOutput (n : Nat) (c : Chip) : Chip :=
  match (c.stream n).jobs with
  | [] => c
  | j :: _ =>
    match j.img with
    | none => c
    | some img =>
      if j.par.natAt (K.outHeight n) ≤ j.line then c
      else if !c.canSend0 then (c.discardFrame n).popJob n
      else
        let v := c.nat (K.streamSource n)
        let (c, w0, w1) := match j.window with
          | some w => (c, w.1, w.2)
          | none => if c.kindOf v = PixKind.thermal ∧ windowed (j.par.natAt (K.streamFormat n)) then c.frameWindow n j v else (c, 0, 1)
        match j.slot with
        | some slot => c.writeLine n j img slot (w0, w1)
        | none =>
          match c.claimSlot n with
          | some slot => c.writeLine n j img slot (w0, w1)
          | none =>
            let c := c.bump (K.ringFullDrops n)
            let c := if (c.stream n).full then c else c.msix0 (c.nat (K.msixVector n))
            (c.modStream n (fun (x : Stream) => { x with full := true })).popJob n

/-- STREAM_FRAME_COMPLETE: after the last line the header, the writeback word and the message; then RING_WRITE advances. -/
def streamFrameComplete (n : Nat) (c : Chip) : Chip :=
  match (c.stream n).jobs with
  | [] => c
  | j :: _ =>
    match j.img, j.slot with
    | some img, some slot =>
      if j.line < j.par.natAt (K.outHeight n) then c
      else
        let c := c.emit (.hostWrite 1 (c.slotBase n slot) (c.frameHeader n j img) (j.par.onAt (K.relaxedOrdering n)))
        let c := c.writeback n j j.line slot true
        let every := j.par.natAt (K.irqEvery n)
        let c := if every ≠ 0 ∧ j.seq % every = 0 then c.msix0 (c.nat (K.msixVector n)) else c
        let c := if (c.stream n).full then c.msix0 (c.nat (K.msixVector n)) else c
        let c := c.modStream n (fun (x : Stream) => { x with full := false })
        let c := c.setAll [(K.ringWrite n, ((slot + 1) % max 1 (c.nat (K.ringSlots n)) : Nat)), (K.lastFrameNumber n, img.number),
          (K.lastCaptureTime n, img.cap), (K.lastMarks n, (j.marks img : Nat))]
        let c := c.bump (K.framesWritten n)
        let c := if Nat.land (j.marks img) markRepeated ≠ 0 then c.bump (K.repeatedFrames n) else c
        c.popJob n
    | _, _ => c

/-- STREAM_WATCHDOG: a reset of the scaler, or of the stream writer, writes the frame again from its first line, or abandons
it when that could not end before the next frame start (R347). -/
def streamWatchdog (n : Nat) (writer fits : Bool) (c : Chip) : Chip :=
  let number := match (c.stream n).jobs with
    | j :: _ => (j.img.map (·.number)).getD 0
    | [] => 0
  let again := fun (c : Chip) => match (c.stream n).jobs with
    | [] => c
    | j :: _ =>
      if j.slot = none then c
      else if fits then c.putJob n { j with line := 0, repeated := true }
      else (c.discardFrame n).popJob n
  if writer then c.watchdog 4 1 n 0x4001 n number again else c.watchdog 2 6 n 0x2012 n number again

/-! ### Meanings -/

/-- A write to PALETTE_LOAD; while the pixel die is off it is kept (R93). -/
def paletteWrite (v : Nat) (c : Chip) : Except Abort Chip :=
  if c.pixelRuns then paletteLoad v c
  else guardNot (decide (7 < v)) Abort.tooHigh (.ok { c with kept := c.kept ++ [(K.paletteLoad, (v : Int))] })

/-- PALETTE_LOAD -/
def execPaletteLoad (m : Master) (v : BitVec 8) (s : State) : Res :=
  run s (fun c => c.command m K.paletteLoad (paletteWrite v.toNat))

/-- PALETTE_COPY_COMPLETE -/
def execPaletteCopyComplete (p : Fin 8) (s : State) : Res := run s (paletteCopyComplete p.val)

/-- STREAM_LINE_OUTPUT -/
def execStreamLineOutput (n : Fin 8) (s : State) : Res := run s (streamLineOutput n.val)

/-- STREAM_FRAME_COMPLETE -/
def execStreamFrameComplete (n : Fin 8) (s : State) : Res := run s (streamFrameComplete n.val)

/-- STREAM_WATCHDOG -/
def execStreamWatchdog (n : Fin 8) (writer fits : Bool) (s : State) : Res := run s (streamWatchdog n.val writer fits)

end Sys2Proof.Machine
end

