-- ==== Sys2Proof/Machine/Finish.lean ====
section
/-! DEFINITION. Steps 9 to 13 of a frame, its end, and its start at a source's frame start (R17 to R20, R281 to R297, R305,
R318 to R323). -/

namespace Sys2Proof.Machine

/-! ### Step 9 -/

/-- A merged pixel as steps 9 to 11 carry it. -/
def pixOf (m : Merged) : Pix := {
  v := m.y, ovr := m.ovr, rec' := m.rec', replaced := m.replaced, unreplaced := m.unreplaced, exclude := m.exclude }

/-- One row through step 9: its pixels, its new state words, and its pixels reset by motion. -/
def tnrRow (p : TnrPar) (seed : Bool) (badState : List Nat) (first : Nat) (row : List Merged) (st : List TnrWord) :
    List Pix × List TnrWord × Nat :=
  let out := row.zipIdx.map (fun (m, c) =>
    let fresh := seed || m.ovr || m.rec' || decide (first + c ∈ badState)
    let (y, t, reset) := tnrPixel p fresh m.y (at' st c)
    ({ pixOf m with v := y }, t, reset))
  (out.map (·.1), out.map (·.2.1), (out.filter (·.2.2)).length)

/-- Step 9 of a frame (R284, R287): the rows, the state words and the pixels reset by motion. -/
def step9 (w : Work) (s : Nat) (o : FrontOut) (st : List TnrWord) : List (Option (List Pix)) × List TnrWord × Nat :=
  if !w.par.onAt (K.tnrEnable s) then (o.rows.map (·.map (·.map pixOf)), st, 0)
  else
    let g := w.geo s
    let p : TnrPar := {
      shift := w.par.natAt (K.tnrMotionShift s), resetClass := w.par.natAt (K.tnrResetClass s)
      alpha := tab 16 (fun k => w.par.natAt (K.tnrAlpha s k)) }
    let rows := (o.rows.zip o.active).zipIdx.map (fun ((r, a), k) =>
      let old := tab g.aw (fun c => at' st (k * g.aw + c))
      match r, a with
      | some r, some a =>
        let (y, t, n) := tnrRow p w.tnrSeed a.badState g.firstCol r old
        (some y, t, n)
      | _, _ => (none, old, 0))
    (rows.map (·.1), (rows.map (·.2.1)).flatten, sumN (rows.map (·.2.2)))

/-! ### Step 11 -/

/-- The rectangles of ROIs with a compensation set of their own: ROI, first column and row, and the ones after the last. -/
def ownRois (d : Dict) (s : Nat) (w h : Nat) : List (Nat × Nat × Nat × Nat × Nat) :=
  (List.range 16).filterMap (fun r =>
    let i := 16 * s + r
    let x := d.natAt (K.roiX i)
    let y := d.natAt (K.roiY i)
    if d.onAt (K.roiRadioOwn s r) ∧ x < w ∧ y < h then
      some (r, x, y, min w (x + d.natAt (K.roiWidth i)), min h (y + d.natAt (K.roiHeight i)))
    else none)

/-- The set a pixel uses (R292). -/
def compSetOf (own : List (Nat × Nat × Nat × Nat × Nat)) (x y : Nat) : Nat :=
  match own.find? (fun (_, x0, y0, x1, y1) => decide (x0 ≤ x ∧ x < x1 ∧ y0 ≤ y ∧ y < y1)) with
  | some (r, _) => r + 1
  | none => 0

/-- Whether some pixel of the active array uses a set. It is enough to look at the corners that rectangles form. -/
def compUsed (own : List (Nat × Nat × Nat × Nat × Nat)) (w h k : Nat) : Bool :=
  let xs := 0 :: own.flatMap (fun (_, x0, _, x1, _) => [x0, x1])
  let ys := 0 :: own.flatMap (fun (_, _, y0, _, y1) => [y0, y1])
  xs.any (fun x => ys.any (fun y => decide (x < w ∧ y < h) && decide (compSetOf own x y = k)))

/-- The parameters of a compensation set. -/
def compSetPar (d : Dict) (s k : Nat) : CompSet :=
  if k = 0 then
    { eps := d.natAt (K.emissivity s), tau := d.natAt (K.transmission s), tRefl := d.get (K.tReflected s), tAtm := d.get (K.tAtmosphere s) }
  else
    { eps := d.natAt (K.roiEmissivity s (k - 1)), tau := d.natAt (K.roiTransmission s (k - 1))
      tRefl := d.get (K.roiTReflected s (k - 1)), tAtm := d.get (K.roiTAtmosphere s (k - 1)) }

/-- C and K of every set in use, and the clamps that formed them (R293). -/
def compConstants (d : Dict) (s w h : Nat) (rad : List Int) : List (Option (Int × Nat)) × Nat :=
  let own := ownRois d s w h
  let l := tab 17 (fun k =>
    if compUsed own w h k then
      let p := compSetPar d s k
      let (c, n) := compC rad p
      (some (c, compK p), n)
    else (none, 0))
  (l.map (·.1), sumN (l.map (·.2)))

/-- A pixel through step 11: its stored value, and its clamps of R291 and R294 and of R296. -/
def radioPixel (w : Work) (s : Nat) (own : List (Nat × Nat × Nat × Nat × Nat)) (x y : Nat) (p : Pix) : Nat × Nat × Nat :=
  let b := fun (c : Bool) => if c then 1 else 0
  if w.par.natAt (K.radioOutput s) = 1 then
    let (v, c) := y16f (w.par.get (K.y16fOffset s)) (w.par.natAt (K.y16fShift s)) p.v
    (v, 0, b c)
  else
    let (l, c1) := radiance (w.par.natAt (K.respGain s w.resp)) (w.par.get (K.respOffset s w.resp)) p.v
    let (cc, k) := (at' w.comp (compSetOf own x y)).getD (0, 65536)
    let (lo, c2) := objectRadiance cc k l
    (temperature w.temp (w.par.get (K.tempOrigin s)) (w.par.natAt (K.tempShift s)) lo, b c1 + b c2, 0)

/-! ### The end of a thermal frame -/

/-- The statistics image: pixels excluded by STAT_PIXEL_MASK (R350); a line from the stored frame excludes nothing. -/
def statImage (mask : Nat) (rows : List (Option (List (Nat × Pix)))) (stored : Rows) (w : Nat) : List (List StatPix) :=
  rows.zipIdx.map (fun (r, k) => match r with
    | none => tab w (fun x => { v := Rows.at stored x k, out := false })
    | some l => l.map (fun (v, p) => { v := v
                                       out := (bitOf mask 0 && p.exclude) || (bitOf mask 1 && p.ovr) || (bitOf mask 2 && p.rec') ||
                                         (bitOf mask 3 && p.replaced) || (bitOf mask 4 && p.unreplaced) }))

/-- The objects of the latest frame that its start forms, whether or not the frame is processed (R207, R208, Table 7.7). The spec gives no
instant at which they change; they do when the frame is finished (assumption 118). -/
def Chip.startObjects (c : Chip) (s : Nat) (w : Work) : Chip :=
  let c := c.setAll [(K.linInForce s, w.par.get (K.linSelect s)), (K.deltaT s, w.dT), (K.tFpaUsed s, w.tFpa), (K.tRefUsed s, w.tRef)]
  if 4 ≤ s then c
  else
    let c := if (w.geo s).n = 2 then c.set (K.rhoInv s) (rhoInv (max w.rho 1)) else c
    c.set (K.hdrRhoInForce s) w.rho

/-- The counters and latest-frame objects of steps 4 to 8; a frame of one integration has no pixel with a weight (R222). -/
def Chip.frontObjects (c : Chip) (s : Nat) (w : Work) (o : FrontOut) : Chip :=
  let g := w.geo s
  let c := c.setAll [(K.bpReplacedFrame s, o.replaced), (K.bpMissFrame s, o.miss)]
  let c := ((c.bumpBy (K.bpFallbacks s) o.fallbacks).bumpBy (K.bpUnreplaced s) o.unreplaced).bumpBy (K.bpMethodInvalid s) o.invalid
  if 4 ≤ s then c
  else
    let c := if g.n = 2 then
        (((c.setAll [(K.hdrShortFrame s, o.short), (K.hdrBlendFrame s, o.blend)]).bumpBy
          (K.hdrSatCount s) o.sat).bumpBy (K.hdrRedirects s) o.redirects)
      else c.setAll [(K.hdrShortFrame s, 0), (K.hdrBlendFrame s, 0)]
    if eqxOn w s g then
      (c.setAll [(K.eqxColumnsHeld s, o.held), (K.eqxUnseeded s, o.unseeded), (K.eqxCorrMax s, o.corrMax)]).bumpBy
        (K.eqxRangeSkips s) o.skips
    else c

/-- An averaging frame reaches the accumulators (R251). -/
def Chip.accumulate (c : Chip) (s : Nat) (w : Work) (o : FrontOut) : Chip :=
  if w.average then
    { c with sol := modAt c.sol s (fun (x : Solstice) => { x with
        acc := accAdd x.acc (accInput (w.geo s) o.active), sums := sumsAdd x.sums o.sums
        temp := w.tFpa, cap := w.cap }) }
  else c

/-- Compensation constants as objects; a set not in use reads 0. -/
def Chip.compObjects (c : Chip) (s : Nat) (l : List (Option (Int × Nat))) : Chip :=
  l.zipIdx.foldl (fun c (e, k) =>
    let v := e.getD (0, 0)
    if k = 0 then c.setAll [(K.compC s, v.1), (K.compK s, v.2)]
    else c.setAll [(K.roiCompC s (k - 1), v.1), (K.roiCompK s (k - 1), v.2)]) c

/-- A record joins those to be completed; a frame that started in a restart of MEM has none (Table 16.6). -/
def Chip.pushDue (c : Chip) (s : Nat) (w : Work) (r : StatRec) : Chip :=
  if c.on (K.statState s) && !w.silent then c.modSource s (fun (x : Source) => { x with due := x.due ++ [{ rec' := r, par := w.par }] }) else c

/-- Statistics of a processed frame. -/
def processedRec (w : Work) (s : Nat) (y16r y16f' : Bool) (img : List (List StatPix)) : StatRec :=
  statValues w.par s y16r y16f' img { w.blankRec s with flags := 1 + (if y16f' then 4 else 0), values := w.number }

/-- What a frame that is not processed shows: the stored frame with its own number and marks. -/
def repeatImage (w : Work) (s : Nat) (stored : Option Stored) : Stored := {
  rows := (stored.map (·.rows)).getD [], y16f := (stored.map (·.y16f)).getD false, number := w.number, cap := w.cap
  marks := w.marks, band := w.band, sat := w.sat, ovr := w.ovr, alarmOf := some (s, w.number) }

/-- Steps 9 to 12 of a thermal frame: the chip with its counts, the frame with its clamps, and the stored frame. -/
def Chip.thermalEnd (c : Chip) (s : Nat) (w : Work) (o : FrontOut) : Chip × Work × Stored :=
  let g := w.geo s
  let x := c.source s
  let (rows9, st, resets) := step9 w s o x.tnr
  let rows10 := if !w.par.onAt (K.snrEnable s) || w.bypassSnr then rows9
    else snrRows rows9 (tab 6 (fun k => w.par.natAt (K.snrSpatial s k))) (tab 32 (fun k => w.par.natAt (K.snrRange s k)))
      (w.par.natAt (K.snrRangeShift s))
  let own := ownRois w.par s g.aw g.ah
  let rows11 := rows10.zipIdx.map (fun (r, y) => r.map (fun l => l.zipIdx.map (fun (p, xx) => (radioPixel w s own xx y p, p))))
  let all := (rows11.filterMap id).flatten
  let sat11 := sumN (all.map (fun v => v.1.2.1))
  let satF := sumN (all.map (fun v => v.1.2.2))
  let isF := w.par.natAt (K.radioOutput s) = 1
  let stored := (x.stored.map (·.rows)).getD []
  let rows := rows11.zipIdx.map (fun (r, y) => match r with
    | none => tab g.aw (fun xx => Rows.at stored xx y)
    | some l => l.map (fun v => v.1.1))
  let w := (w.clamps (o.sat + sat11 + satF))
  let img := statImage (w.par.natAt (K.statPixelMask s)) (rows11.map (·.map (·.map (fun v => (v.1.1, v.2))))) stored g.aw
  let c := c.setAll [(K.tnrResetPixels s, if w.tnrSeed then 0 else resets), (K.radioInForce s, w.par.get (K.radioSelect s)), (K.respIndexUsed s, w.resp),
    (K.belowRangeFrame s, if isF then 0 else (all.filter (fun v => v.1.1 = 0)).length),
    (K.aboveRangeFrame s, if isF then 0 else (all.filter (fun v => v.1.1 = 0xFFFF)).length)]
  let c := ((c.bumpBy (K.radioSatCount s) sat11).bumpBy (K.y16fSatCount s) satF).compObjects s w.comp
  let f : Stored := {
    rows := rows, y16f := isF, number := w.number, cap := w.cap, marks := w.marks, band := w.band, sat := w.sat, ovr := w.ovr
    alarmOf := some (s, w.number) }
  let c := c.modSource s (fun (x : Source) => { x with tnr := st, stored := some f })
  (c.pushDue s w (processedRec w s (!isF) isF img), w, f)

/-- A frame that steps 4 to 8 do not process still seeds Equinox where its start is named by R245, and takes the anchors of a Solstice where
it is the first after reopening (R253). -/
def Chip.seedOnly (c : Chip) (s : Nat) (w : Work) : Chip :=
  if w.eqxSeed ∨ !w.anchors.isEmpty then c.modSource s (fun (x : Source) => { x with eqx := eqxStart w (w.geo s) x.eqx }) else c

/-- The end of a frame of a thermal source. -/
def Chip.finishThermal (c : Chip) (s : Nat) (w : Work) : Chip :=
  let c := if w.real then c.startObjects s w else c
  if !w.front then
    let c := c.seedOnly s w
    let c := c.pushDue s w (w.copiedRec s (c.source s).lastValues)
    if w.silent then c else c.attach s w.id (repeatImage w s (c.source s).stored) none
  else
    let o := front w s (c.source s).eqx
    let c := c.modSource s (fun (x : Source) => { x with eqx := o.eqx })
    let c := (c.frontObjects s w o).accumulate s w o
    if w.process then
      let (c, _, f) := c.thermalEnd s w o
      c.attach s w.id f none
    else
      let w := w.clamps o.sat
      let c := c.pushDue s w (w.copiedRec s (c.source s).lastValues)
      c.attach s w.id (repeatImage w s (c.source s).stored) none

/-! ### Visible frames and fusion -/

/-- A fused frame and its overlaid pixels (R319 to R323). -/
def fuseFrame (w : Work) (i dt : Nat) (fz : Fusion) (rows : Rows) : Stored × Nat :=
  let p : FusePar := {
    low := fz.par.get (K.fuseLow i), high := fz.par.get (K.fuseHigh i), showLow := fz.par.natAt (K.fuseShowLow i)
    showHigh := fz.par.natAt (K.fuseShowHigh i), alpha := fz.par.natAt (K.fuseAlpha i), palette := fz.colours
    h := tab 9 (fun k => fz.par.get (K.fuseH i k)) }
  let t := (fz.latched.map (·.rows)).getD []
  let wt := (t.headD []).length
  let px := rows.zipIdx.map (fun (r, v) => tab r.length (fun u =>
    let vis := visColour dt r u
    if fz.latched.isNone then ({ vis with a := 0 }, false) else fusePixel p (fuseMap p.h t wt t.length u v) vis))
  let overlaid := ((px.flatten).filter (·.2)).length
  let base : Stored := {
    rows := px.map (·.map (fun q => packColour q.1)), y16f := false, number := w.number, cap := w.cap
    marks := Nat.lor w.marks markHeadLost, band := 0xFF, sat := 0, ovr := 0, alarmOf := none }
  match fz.latched with
  | none => (base, overlaid)
  | some l => ({ base with
      marks := Nat.lor w.marks l.marks, band := l.band, sat := l.sat, ovr := l.ovr, alarmOf := l.alarmOf
      alarm := l.alarm }, overlaid)

/-- The end of a frame of a visible source: missing content, all of it in a repeat, from the stored frame, which holds 0 before the first frame
has closed (R305); statistics, the frame store, fusion. -/
def Chip.finishVisible (c : Chip) (s : Nat) (w : Work) : Chip :=
  let i := s - 4
  let dt := w.par.natAt (K.srcDataType i)
  let x := c.source s
  let stored := (x.stored.map (·.rows)).getD []
  let whole := w.front
  let rows : Rows := tab (w.par.natAt (K.srcHeight i)) (fun y =>
    let got := match w.rows.find? (fun r => r.row = y) with
      | some r => if whole then r.pixels else []
      | none => []
    tab (w.par.natAt (K.srcWidth i)) (fun xx => got.getD xx (Rows.at stored xx y)))
  let f : Stored := { (repeatImage w s x.stored) with rows := rows, y16f := false }
  let img := rows.map (fun r => tab r.length (fun xx =>
    let v := r.getD xx 0
    ({ v := if dt = 0x1E then v / 256 else if dt = 0x24 then (luma (visColour dt r xx)).toNat else v, out := false } : StatPix)))
  let c := if whole then c.modSource s (fun (x : Source) => { x with stored := some f }) else c
  let c := if whole then c.pushDue s w (processedRec w s false false img) else c.pushDue s w (w.copiedRec s x.lastValues)
  let (c, fused) := match w.fuse with
    | none => (c, none)
    | some fz =>
      let (g, n) := fuseFrame w i dt fz rows
      let age : Int := match fz.latched with
        | some l => (((w.cap : Int) - l.cap) % (2 ^ 64 : Nat))
        | none => 0xFFFFFFFFFFFFFFFF
      ((c.set (K.fuseOverlaid i) n).set (K.fuseThermalAge i) age, some g)
  if w.silent then c else c.attach s w.id f fused

/-- A finished frame leaves its source. -/
def Chip.finish (c : Chip) (s : Nat) (w : Work) : Chip :=
  let c := c.modSource s (fun (x : Source) => { x with works := x.works.filter (fun v => v.id ≠ w.id), lastMarks := w.marks })
  if c.isThermal s then c.finishThermal s w else c.finishVisible s w

/-- Finish the frames of a source that are closed and have no line left, oldest first; `fuel` bounds them. -/
def Chip.finishDue : Nat → Chip → Nat → Chip
  | 0, c, _ => c
  | fuel + 1, c, s =>
    match (c.source s).works with
    | [] => c
    | w :: _ => if w.closed && decide (w.left = 0) then Chip.finishDue fuel (c.finish s w) s else c

/-- Finish what is due of a source. -/
def Chip.finishAll (c : Chip) (s : Nat) : Chip := Chip.finishDue (c.source s).works.length c s

/-- No more lines come for the open frame of a source. -/
def Chip.closeWorks (c : Chip) (s : Nat) : Chip :=
  (c.modSource s (fun (x : Source) => { x with works := x.works.map (fun w => { w with closed := true }) })).finishAll s

/-! ### The start of a frame (R206, R209, R281) -/

/-- Knots of a table image: n values of 4 bytes. -/
def knotsI32 (l : List Byte) (n : Nat) : List Int := tab n (fun k => sx (leNat ((l.drop (4 * k)).take 4)) 32)

/-- Knots of a TEMP_TABLE image. -/
def knotsU16 (l : List Byte) : List Nat := tab 1025 (fun k => leNat ((l.drop (2 * k)).take 2))

/-- Copy the selected tables into the lanes when a write asked for it. -/
def Chip.loadTables (c : Chip) (s : Nat) : Chip :=
  let x := c.source s
  let c := if x.linLoad then
      let key := if c.get (K.linSelect s) = 0 then K.linTableA s else K.linTableB s
      c.modSource s (fun (x : Source) => { x with linLoad := false, lin := knotsI32 (c.domainImage key) 257 })
    else c
  if x.radLoad then
    let b := c.get (K.radioSelect s) ≠ 0
    let t := c.domainImage (if b then K.tempTableB s else K.tempTableA s)
    let r := c.domainImage (if b then K.radTableB s else K.radTableA s)
    c.modSource s (fun (x : Source) => { x with radLoad := false, temp := knotsU16 t, rad := knotsI32 r 257 })
  else c

/-- Whether a frame is a seed frame of the temporal filter (R285): by its own frame start, as the first not marked FROZEN after a Solstice, or
as the first that step 9 processes. Each seed frame counts; the seed of one that is not processed is due at the next that is (assumption 102). -/
def Chip.formTnr (c : Chip) (s : Nat) (w : Work) : Chip × Work :=
  let x := c.source s
  let thaws := x.tnrThaw && !w.marked markFrozen
  let named := w.tnrSeed || x.tnrNow || thaws
  let seed := named || (w.process && x.tnrSeed)
  let c := if seed then c.bump (K.tnrSeeds s) else c
  (c.modSource s (fun (x : Source) => { x with
    tnrNow := false, tnrThaw := x.tnrThaw && !thaws, tnrSeed := (x.tnrSeed || named) && !w.process }), { w with tnrSeed := seed })

/-- The per-frame quantities of a frame: its parameters and tables, Delta T (R207), seeds, and the compensation of a processed frame. -/
def Chip.formWork (c : Chip) (s : Nat) (w : Work) : Chip × Work :=
  let x := c.source s
  let w := { w with par := c.sourcePar s, lin := x.lin, temp := x.temp, rad := x.rad }
  if !w.real || !c.isThermal s then (c, w)
  else
    let (dT, clamped) := deltaT w.tFpa w.tRef
    let c := if clamped then c.bump (K.deltaTSatCount s) else c
    let w := { w with dT := dT }.clamps (if clamped then 1 else 0)
    let (c, w) := c.formTnr s w
    if !w.process then (c, w)
    else
      let g := w.geo s
      let (comp, n) := if w.par.natAt (K.radioOutput s) = 1 then (List.replicate 17 none, 0) else compConstants w.par s g.aw g.ah x.rad
      let c := c.bumpBy (K.radioSatCount s) n
      let c := if w.bypassSnr then c.bump (K.snrThrottledFrames s) else c
      (c, { w with comp := comp }.clamps n)

/-- Seeding of Equinox at a frame start (R245): at the frames it names whether or not they are processed, and at the first processed one after
the state was lost or with no set before it (R459); a head to which R241 applies no Equinox is not seeded. -/
def Chip.formSeed (c : Chip) (s : Nat) (w : Work) : Chip × Work :=
  let x := c.source s
  if !w.real then (c, w)
  else
    let due := w.eqxSeed || ((x.eqxNow || (w.front && x.eqxSeed)) && w.anchors.isEmpty)
    let c := c.modSource s (fun (x : Source) => { x with eqxNow := false, eqxSeed := x.eqxSeed && !due && !w.front })
    ((if due && eqxOn w s (w.geo s) then c.bump (K.eqxSeeds s) else c), { w with eqxSeed := due })

/-- Whether a source that runs is lost (R140, R307). -/
def Chip.sourceLost (c : Chip) (s : Nat) : Bool := if s < 4 then (c.head s).lost else decide (c.get (K.srcState (s - 4)) = 3)

/-- The stored frame of a thermal source as fusion latches it: that of a lost source carries the marks of its latest frame (R320). -/
def Chip.latchable (c : Chip) (t : Nat) : Option Stored :=
  let x := c.source t
  if c.sourceLost t then x.stored.map (fun f => { f with marks := x.lastMarks }) else x.stored

/-- The fusion channel at a visible frame start (R319, R320). -/
def Chip.latchFusion (c : Chip) (s : Nat) : Option Fusion :=
  if s < 4 || c.isThermal s then none
  else
    let i := s - 4
    let t := c.nat (K.fuseThermal i)
    let ok := decide (t < 6) && c.sourceRuns t && c.isThermal t
    some { latched := if ok then c.latchable t else none
           colours := c.palette (c.nat (K.fusePalette i)), par := c.fusePar i }

/-- A frame of a source begins: what went before is closed, its parameters are formed, and the streams that follow the source
have their frame start. `lines` says whether lines of it will come. A substitute frame loads no table and begins no statistics (R307). -/
def Chip.beginFrame (c : Chip) (s : Nat) (w : Work) (lines : Bool) : Chip :=
  let c := c.closeWorks s
  let c := if w.real then (c.loadTables s).set (K.statState s) (c.get (K.statEnable s)) else c
  let id := (c.source s).nextId
  let first := decide (id = 0)
  let (c, w) := c.formWork s { w with id := id, closed := !lines }
  let (c, w) := c.formSeed s w
  let w := { w with fuse := c.latchFusion s }
  let c := c.modSource s (fun (x : Source) => { x with
    nextId := id + 1, works := x.works ++ [w], eqxShown := x.eqx, deadline := none })
  let c := c.streamsFrameStart s id ((w.number + 2 ^ 32 - 1) % 2 ^ 32) first w.real
  c.finishAll s

/-- The number of a source's next frame, and the source with it used (R12). -/
def Chip.takeNumber (c : Chip) (s : Nat) : Nat × Chip :=
  let n := (c.source s).nextNumber
  (n, c.modSource s (fun (x : Source) => { x with nextNumber := (n + 1) % 2 ^ 32 }))

end Sys2Proof.Machine
end

