-- ==== Sys2Proof/Machine/Solstice.lean ====
section
/-! DEFINITION. Solstice (R246 to R257): the due bits, the phases of an event at each frame start, the commit, abandonment and
a shutter that is stuck; and the command that seeds the temporal filter (R285). -/

namespace Sys2Proof.Machine

/-- What a frame start brings to Solstice: its capture time, whether step 2 applied a write of the head, whether step 3
changed the band or switched the set, whether the frame is marked BAND_CHANGE, and whether a retirement marks it SUBST. -/
structure SolFrame where
  cap : Nat
  applied : Bool
  band : Bool
  marked : Bool
  retires : Bool
  deriving DecidableEq, Repr

/-- Solstice of a head. -/
def Chip.solstice (c : Chip) (h : Nat) : Solstice := at' c.sol h

/-- Change the Solstice of a head. -/
def Chip.modSol (c : Chip) (h : Nat) (f : Solstice → Solstice) : Chip := { c with sol := modAt c.sol h f }

/-- Change the event of a head. -/
def Chip.modEvent (c : Chip) (h : Nat) (f : SolEvent → SolEvent) : Chip :=
  c.modSol h (fun (x : Solstice) => { x with ev := x.ev.map f })

/-- The bank that a head's SOLSTICE_SHUTTER names. -/
def Chip.shutterBank (c : Chip) (h : Nat) : Option Nat :=
  let v := c.get (K.solsticeShutter h)
  if v = 1 then some 0 else if v = 2 then some 1 else none

/-- Whether SOLSTICE_MIN_INTERVAL has passed since the end of the latest event; with no event yet there is nothing to
wait for. -/
def Chip.solsticeRested (c : Chip) (h : Nat) : Bool :=
  match (c.solstice h).lastEnd with
  | none => true
  | some t => decide (t + c.nat (K.solsticeMinInterval h) ≤ c.mono)

/-- Whether a Solstice is pending (R247). -/
def Chip.solsticePending (c : Chip) (h : Nat) : Bool :=
  let x := c.solstice h
  let due := c.nat (K.solsticeDue h)
  !x.ev.isSome &&
  ((bitOf due 2 && (!x.lastAbandoned || c.solsticeRested h)) ||
   (decide (Nat.land due 0xB ≠ 0) && (c.shutterBank h).isSome && !c.on (K.solsticeInhibit h) && c.solsticeRested h))

/-- SOLSTICE_STATE while no event runs. -/
def Chip.solsticeIdle (c : Chip) (h : Nat) : Chip :=
  if (c.solstice h).ev.isSome then c
  else (c.set (K.solsticeState h) (if c.solsticePending h then 1 else 0)).set (K.solsticePhaseFrame h) 0

/-- The due bits at a frame start of a running head (R247); with no set in force there is no anchor to compare with. -/
def Chip.solsticeDueBits (c : Chip) (h cap : Nat) : Chip :=
  let command := if bitOf (c.nat (K.solsticeDue h)) 2 then 4 else 0
  match (c.head h).set with
  | none => c.set (K.solsticeDue h) command
  | some s =>
    let dT := (c.get (K.tfpaTemperature h) - c.get (K.setAnchorTemp s)).natAbs
    let most := c.nat (K.solsticeMaxInterval h)
    c.set (K.solsticeDue h)
      (command + (if c.nat (K.solsticeDelta h) < dT then 1 else 0) +
        (if most ≠ 0 ∧ c.nat (K.setAnchorTime s) + most < cap then 2 else 0) + (if c.on (K.setStale s) then 8 else 0))

/-- Whether a pending Solstice may begin at this frame start (R248). -/
def Chip.solsticeMayBegin (c : Chip) (h : Nat) (f : SolFrame) : Bool :=
  let s := c.nat (K.coefSet (16 * h + c.nat (K.currentBand h)))
  decide (c.get (K.runState h) = 3) && !f.marked && decide (c.get K.throttleLevel ≤ 2) && !c.on (K.nucBypass h) &&
  decide ((c.head h).set = some s) && c.residentHead s h && !c.passOn s &&
  (match c.shutterBank h with
   | some b => c.on K.actuatorFitted && c.bankFree b
   | none => decide (c.get (K.solsticeShutter h) = 3))

/-- Clear what averaging has gathered (R251). -/
def Chip.clearAverage (c : Chip) (h : Nat) : Chip :=
  let c := c.modSol h (fun (x : Solstice) => { x with frames := 0, acc := [], sums := [[], []] })
  c.modSource h (fun (x : Source) => { x with works := x.works.map (fun (w : Work) => { w with average := false }) })

/-- Set the phase of an event; its frames are counted from 0. -/
def Chip.solsticePhase (c : Chip) (h st : Nat) : Chip := (c.set (K.solsticeState h) st).set (K.solsticePhaseFrame h) 0

/-- An event begins (R249): what it latches, and the close command. -/
def Chip.solsticeBegin (c : Chip) (h : Nat) : Chip :=
  let ev : SolEvent := {
    n := c.nat (K.solsticeFrames h), close := c.nat (K.solsticeCloseFrames h), settle := c.nat (K.solsticeSettleFrames h)
    reopen := c.nat (K.solsticeReopenFrames h), set := ((c.head h).set).getD 0, shut := (c.shutterBank h).isSome }
  let c := c.modSol h (fun (x : Solstice) => { x with ev := some ev, handOver := false, anchors := [] })
  let c := (c.clearAverage h).solsticePhase h 2
  match c.shutterBank h with
  | some b => c.solsticeRequest b 1
  | none => c

/-- An event ends: the temporal filter is seeded, and Equinox is seeded where the band changed to another set or takes the
anchors of a commit (R253, R254, Table 10.2). -/
def Chip.solsticeEnd (c : Chip) (h : Nat) (ev : SolEvent) : Chip :=
  let other := ev.band && decide ((c.head h).set ≠ some ev.set)
  let c := c.modSol h (fun (x : Solstice) => { x with
    ev := none, handOver := ev.done && !other, lastEnd := some c.mono, lastAbandoned := ev.abandoned })
  let c := c.modSource h (fun (x : Source) => { x with tnrThaw := true, eqxNow := x.eqxNow || other })
  (c.clearAverage h).solsticeIdle h

/-- Command the open that an event owes. -/
def Chip.solsticeOpen (c : Chip) (h : Nat) : Chip :=
  let c := c.modEvent h (fun (e : SolEvent) => { e with opening := false })
  match c.shutterBank h with
  | some b => c.solsticeRequest b 2
  | none => c

/-- The commit pass of an event that is abandoned stops: the field layer and the anchors stay (R255). -/
def Chip.dropCommit (c : Chip) (h : Nat) : Chip :=
  match (c.solstice h).pass with
  | none => c
  | some s =>
    let gone := fun (q : Pass) => decide (q.set = s ∧ q.kind = PassKind.commit)
    let c := { c with onion := { c.onion with passes := c.onion.passes.filter (fun (q : Pass) => !gone q) } }
    (c.modSol h (fun (x : Solstice) => { x with pass := none, newE := [], anchors := [], handOver := false })).refreshSets

/-- An event is abandoned (R255). With a close commanded the shutter opens, at the next frame start unless `now`, and the state
reads 6; an open already commanded in reopening stands. -/
def Chip.solsticeAbandon (c : Chip) (h cause : Nat) (now : Bool) : Chip :=
  match (c.solstice h).ev with
  | none => c
  | some e =>
    let c := (c.bump (K.solsticeAbandoned h)).set (K.solsticeAbandonCause h) cause
    let c := (c.raise 0 2 1 0xFF 0x2005 h cause).logCopy 2
    let c := if cause = 1 then c.set (K.solsticeDue h) (putBit (c.nat (K.solsticeDue h)) 2 false) else c
    let reopening := decide (c.get (K.solsticeState h) = 5)
    let c := (c.dropCommit h).clearAverage h
    if !e.shut then c.solsticeEnd h { e with abandoned := true }
    else
      let c := c.modEvent h (fun (e : SolEvent) => { e with abandoned := true, opening := !reopening })
      if reopening then c.set (K.solsticeState h) 6
      else
        let c := c.solsticePhase h 6
        if now then c.solsticeOpen h else c

/-- An event ends with the pixel die down or the heads stopped: the driver parks the shutter, so no open follows. -/
def Chip.solsticeStandby (c : Chip) (h : Nat) : Chip :=
  match (c.solstice h).ev with
  | none => c
  | some e =>
    let c := if e.abandoned then c else c.solsticeAbandon h 5 false
    match (c.solstice h).ev with
    | none => c
    | some e => c.solsticeEnd h e

/-- A head is lost or stopped (Table 8.7): before reopening the event is abandoned with cause 2. -/
def Chip.solsticeHeadGone (c : Chip) (h : Nat) (now : Bool) : Chip :=
  if 2 ≤ c.get (K.solsticeState h) ∧ c.get (K.solsticeState h) ≤ 4 then c.solsticeAbandon h 2 now else c

/-! ### The commit (R252, R253) -/

/-- Places of the active pixels in readout order. -/
def activePlaces (g : Geo) : List Nat :=
  (tab g.ah (fun r => tab g.aw (fun k => (g.firstRow + r) * g.w + g.firstCol + k))).flatten

/-- The new E of every record, with the pixels kept and clamped. -/
def commitField (view : List Nat) (places : List Nat) (acc : List Accum) (n : Nat) (mu16 : Int) : List Int × Nat × Nat :=
  let out := places.zipIdx.map (fun (p, k) => (p, commitE n mu16 (view.getD p 0) (acc.getD k { s := 0, bad := true })))
  let e := out.foldl (fun (l : List Int) (x : Nat × Int × Bool × Bool) => l.set x.1 x.2.1) (view.map recE)
  (e, (out.filter (fun x => x.2.2.1)).length, (out.filter (fun x => x.2.2.2)).length)

/-- Averaging ends: the new field layer and the anchors are formed, the commit pass and the open begin; with no contributing
pixel, or with the latched set gone, the event is abandoned with cause 6. -/
def Chip.solsticeReopen (c : Chip) (h : Nat) (e : SolEvent) : Chip :=
  let x := c.solstice h
  let g := geoOf c.dict h
  match c.setData e.set with
  | none => c.solsticeAbandon h 6 true
  | some d =>
    let places := activePlaces g
    let (m, p) := commitSums (places.zipIdx.map (fun (q, k) => (d.view.getD q 0, x.acc.getD k { s := 0, bad := true })))
    if p = 0 then c.solsticeAbandon h 6 true
    else
      let mu16 := commitMean e.n m p
      let (newE, kept, clamped) := commitField d.view places x.acc e.n mu16
      let anchors := x.sums.map (·.map (fun (s, n) => if n = 0 then none else some (rneDiv s n)))
      let c := c.modSol h (fun (x : Solstice) => { x with
        pass := some e.set, newE := newE, result := [(p : Int), rne mu16 8, kept, clamped], anchors := anchors })
      let pass : Pass := { set := e.set, kind := .commit, waits := false }
      let c := ({ c with onion := { c.onion with passes := c.onion.passes ++ [pass] } } : Chip).refreshSets
      (c.solsticePhase h 5).solsticeOpen h

/-- The commit pass completes (R253). -/
def solsticeCommitComplete (h : Nat) (c : Chip) : Chip :=
  match (c.solstice h).pass with
  | none => c
  | some s =>
    match c.setData s with
    | none => c
    | some d =>
      let x := c.solstice h
      let c := { c with onion := { c.onion with
        passes := c.onion.passes.filter (fun (q : Pass) => !(decide (q.set = s ∧ q.kind = PassKind.commit))) } }
      let view := (d.view.zip x.newE).map (fun (r, e) => withE r e)
      let c := c.putSet s (some { d with
        view := view, shadow := d.view.map recE, shadowTemp := c.get (K.setAnchorTemp s), shadowTime := c.nat (K.setAnchorTime s) })
      let c := c.setAll [(K.setShadowValid s, 1), (K.setFieldSequence s, nextSeq (c.nat (K.setFieldSequence s)) 0xFFFFFFFF),
        (K.setAnchorTemp s, x.temp), (K.setAnchorTime s, x.cap)]
      let c := (c.nvmWrite (.count (16 + h) 1)).set (K.solsticeLastTime h) c.now
      let c := (c.writeAnchor s).logOnly 2 1 0xFF 0x2006 h (c.nat (K.setFieldSequence s))
      let c := c.setAll [(K.solsticeDue h, 0), (K.setStale s, 0), (K.solsticePixels h, at' x.result 0), (K.solsticeMean h, at' x.result 1),
        (K.solsticeEKept h, at' x.result 2), (K.solsticeEClamped h, at' x.result 3)]
      let c := c.modSol h (fun (x : Solstice) => { x with pass := none, newE := [], ev := x.ev.map (fun (e : SolEvent) => { e with done := true }) })
      ((c.autosave s).refreshSets).solsticeIdle h

/-- The pixel die is lost: so is a commit pass that runs. -/
def Chip.loseCommits (c : Chip) : Chip :=
  { c with sol := c.sol.map (fun (x : Solstice) => { x with pass := none, newE := [], handOver := false }) }

/-! ### Step 4 of a frame start -/

/-- Whether the bank has reported a position, or no bank is used. -/
def Chip.shutterIs (c : Chip) (h r : Nat) : Bool :=
  match c.shutterBank h with
  | some b => decide ((c.actBank b).report = r)
  | none => true

/-- Whether the bank has reported the close faulty. -/
def Chip.closeFaulty (c : Chip) (h : Nat) : Bool :=
  match c.shutterBank h with
  | some b => decide ((c.actBank b).report = 3)
  | none => false

/-- Frames passed in the phase. -/
def Chip.phaseFrames (c : Chip) (h : Nat) : Nat := c.nat (K.solsticePhaseFrame h)

/-- Settling restarts, or the fourth restart abandons the event (R254). -/
def Chip.solsticeRestart (c : Chip) (h : Nat) (e : SolEvent) : Chip :=
  if 3 ≤ e.restarts then c.solsticeAbandon h 4 true
  else
    let c := (c.modEvent h (fun (e : SolEvent) => { e with restarts := e.restarts + 1 })).bump (K.solsticeRestarts h)
    (c.clearAverage h).solsticePhase h 3

/-- Settling that has lasted long enough becomes averaging. -/
def Chip.solsticeSettled (c : Chip) (h : Nat) (e : SolEvent) : Chip :=
  if c.get (K.solsticeState h) = 3 ∧ e.settle ≤ c.phaseFrames h then (c.clearAverage h).solsticePhase h 4 else c

/-- Averaging whose N frames have been accumulated becomes reopening. -/
def Chip.solsticeAveraged (c : Chip) (h : Nat) (e : SolEvent) : Chip :=
  if c.get (K.solsticeState h) = 4 ∧ e.n ≤ (c.solstice h).frames ∧ !(c.source h).works.any (·.average) then c.solsticeReopen h e
  else c

/-- Closing, settling and averaging at a frame start. -/
def Chip.solsticeClosed (c : Chip) (h : Nat) (e : SolEvent) (f : SolFrame) : Chip :=
  let st := c.get (K.solsticeState h)
  if 3 ≤ c.get K.throttleLevel then c.solsticeAbandon h 5 true
  else if c.on (K.nucBypass h) then c.solsticeAbandon h 7 true
  else if st = 2 then
    if c.closeFaulty h then c.solsticeAbandon h 3 true
    else if e.close ≤ c.phaseFrames h ∧ c.shutterIs h 1 then (c.solsticePhase h 3).solsticeSettled h e
    else c
  else if f.applied || f.band || f.retires then
    let c := c.solsticeRestart h e
    c.solsticeSettled h e
  else (c.solsticeSettled h e).solsticeAveraged h e

/-- Reopening and a stuck shutter at a frame start. -/
def Chip.solsticeReopening (c : Chip) (h : Nat) (e : SolEvent) : Chip :=
  let st := c.get (K.solsticeState h)
  if st = 5 ∧ 3 ≤ c.get K.throttleLevel then c.solsticeAbandon h 5 true
  else if st = 7 then
    if c.shutterIs h 2 then
      let c := (c.set (K.solsticeState h) (if e.abandoned then 6 else 5)).set (K.solsticePhaseFrame h) e.passed
      if e.reopen ≤ e.passed ∧ (e.abandoned ∨ e.done) then c.solsticeEnd h e else c
    else c
  else if st = 6 ∧ e.opening then (c.solsticePhase h 6).solsticeOpen h
  else if e.reopen ≤ c.phaseFrames h ∧ (e.abandoned ∨ e.done) ∧ c.shutterIs h 2 then c.solsticeEnd h e
  else c

/-- Step 4 of R22. -/
def Chip.solsticeStep (c : Chip) (h : Nat) (f : SolFrame) : Chip :=
  let c := if c.get (K.runState h) = 3 then c.solsticeDueBits h f.cap else c
  match (c.solstice h).ev with
  | none =>
    let c := c.solsticeIdle h
    if c.solsticePending h && c.solsticeMayBegin h f then c.solsticeBegin h else c
  | some e =>
    let c := c.set (K.solsticePhaseFrame h) (min (c.get (K.solsticePhaseFrame h) + 1) 255)
    let e := { e with band := e.band || f.band }
    let c := c.modEvent h (fun _ => e)
    if c.get (K.solsticeState h) ≤ 4 then c.solsticeClosed h e f else c.solsticeReopening h e

/-- Whether the frame that begins is an averaging frame. -/
def Chip.solsticeAverages (c : Chip) (h : Nat) : Bool :=
  match (c.solstice h).ev with
  | some e => decide (c.get (K.solsticeState h) = 4) && decide ((c.solstice h).frames < e.n)
  | none => false

/-! ### Commands and events -/

/-- A write of 1 to SOLSTICE_COMMAND (R247, R248). -/
def solsticeCommand (h : Nat) (c : Chip) : Except Abort Chip :=
  guardNot (decide (c.get (K.solsticeShutter h) = 0) || ((c.shutterBank h).isSome && !c.on K.actuatorFitted)) Abort.incompatible <|
  guardNot (c.solstice h).ev.isSome Abort.localControl <|
  .ok ((c.set (K.solsticeDue h) (putBit (c.nat (K.solsticeDue h)) 2 true)).solsticeIdle h)

/-- A write of 2 to SOLSTICE_COMMAND: it abandons an event that has not begun to reopen, or withdraws the request. -/
def solsticeWithdraw (h : Nat) (c : Chip) : Except Abort Chip :=
  guardNot (decide (5 ≤ c.get (K.solsticeState h))) Abort.localControl <|
  .ok (if (c.solstice h).ev.isSome then c.solsticeAbandon h 1 false
    else (c.set (K.solsticeDue h) (putBit (c.nat (K.solsticeDue h)) 2 false)).solsticeIdle h)

/-- The close has not been reported within 30 frames. -/
def solsticeCloseTimeout (h : Nat) (c : Chip) : Chip :=
  if c.get (K.solsticeState h) = 2 ∧ !c.shutterIs h 1 ∧ 30 ≤ c.phaseFrames h then c.solsticeAbandon h 3 true else c

/-- The open is faulty or has not been reported within 30 frames of its command (R256). -/
def shutterStuck (h : Nat) (c : Chip) : Chip :=
  match (c.solstice h).ev, c.shutterBank h with
  | some e, some b =>
    let st := c.get (K.solsticeState h)
    if (st = 5 ∨ st = 6) ∧ !e.opening ∧ (c.closeFaulty h ∨ (!c.shutterIs h 2 ∧ 30 ≤ c.phaseFrames h)) then
      let c := c.modEvent h (fun (e : SolEvent) => { e with passed := c.phaseFrames h })
      let c := (c.solsticePhase h 7).bump (K.shutterStuck h)
      (c.raise 1 2 1 0xFF 0x2007 h b).emcyFor 0xFF01 2 0x2007
    else c
  | _, _ => c

/-- While stuck closed, an open is commanded again every 1 s. -/
def shutterReopenRetry (h : Nat) (c : Chip) : Chip := if c.get (K.solsticeState h) = 7 then c.solsticeOpen h else c

/-- A write of 1 to TNR_RESEED (R285); while the pixel die is off the write is kept (R93). -/
def tnrReseed (s : Nat) (c : Chip) : Except Abort Chip :=
  if c.pixelRuns then .ok (c.modSource s (fun (x : Source) => { x with tnrNow := true }))
  else .ok { c with kept := c.kept.filter (fun (e : Nat × Int) => decide (e.1 ≠ K.tnrReseed s)) ++ [(K.tnrReseed s, 1)] }

/-- SOLSTICE_REQUEST -/
def execSolsticeRequest (m : Master) (h : Fin 4) (s : State) : Res :=
  run s (fun c => c.command m (K.solsticeCommand h) (solsticeCommand h.val))

/-- SOLSTICE_ABANDON_COMMAND -/
def execSolsticeAbandonCommand (m : Master) (h : Fin 4) (s : State) : Res :=
  run s (fun c => c.command m (K.solsticeCommand h) (solsticeWithdraw h.val))

/-- SOLSTICE_COMMIT_COMPLETE -/
def execSolsticeCommitComplete (h : Fin 4) (s : State) : Res := run s (solsticeCommitComplete h.val)

/-- SOLSTICE_CLOSE_TIMEOUT -/
def execSolsticeCloseTimeout (h : Fin 4) (s : State) : Res := run s (solsticeCloseTimeout h.val)

/-- SHUTTER_STUCK -/
def execShutterStuck (h : Fin 4) (s : State) : Res := run s (shutterStuck h.val)

/-- SHUTTER_REOPEN_RETRY -/
def execShutterReopenRetry (h : Fin 4) (s : State) : Res := run s (shutterReopenRetry h.val)

/-- TNR_RESEED -/
def execTnrReseed (m : Master) (src : Fin 6) (s : State) : Res :=
  run s (fun c => c.command m (K.tnrReseed src) (tnrReseed src.val))

end Sys2Proof.Machine
end

