-- ==== Sys2Proof/Machine/Converters.lean ====
section
/-! DEFINITION. Converter banks (R144 to R161, R200): which converter serves a slot, the digital correction, trims and trim
sets, substitution for calibration, and retirement. -/

namespace Sys2Proof.Machine

/-! ### Who serves a slot -/

/-- The converter that serves a slot. -/
def Chip.server (c : Chip) (b slot : Nat) : Option Nat := (List.range 34).find? (fun j => c.nat (K.convSlot b j) = slot)

/-- Give a slot to a converter, with its new state. -/
def Chip.serve (c : Chip) (b j slot st : Nat) : Chip := (c.set (K.convSlot b j) slot).set (K.convState b j) st

/-- Take a converter off its slot, with its new state. -/
def Chip.offSlot (c : Chip) (b j st : Nat) : Chip := c.serve b j 0xFF st

/-- The state of a converter in its place: its own slot, a half pair when the other side of the tap has lost its converter,
or, for a spare, permanent service. -/
def Chip.servingState (c : Chip) (b j slot : Nat) : Nat :=
  let other := if slot % 2 = 0 then slot + 1 else slot - 1
  let dead := (c.server b other).isNone && !(c.bank b).retiring.any (fun r => r.2 = other) &&
    !(match (c.bank b).sub with
      | some x => decide (x.slot = other)
      | none => false)
  if dead then 6 else if 32 ≤ j then 3 else 0

/-- Idle spares, the lower-numbered first. -/
def Chip.idleSpares (c : Chip) (b : Nat) : List Nat := [32, 33].filter (fun j => c.get (K.convState b j) = 1)

/-- Spares that are neither permanently in service nor retired (R159), the lower-numbered first: idle, standing in, or idle ones under
calibration themselves; one on the calibration node that holds a slot is in service. -/
def Chip.usableSpares (c : Chip) (b : Nat) : List Nat :=
  let under := fun (j : Nat) => match (c.bank b).sub with
    | some x => decide (x.conv = j)
    | none => false
  [32, 33].filter (fun j => c.get (K.convState b j) = 1 ∨ c.get (K.convState b j) = 2 ∨ (c.get (K.convState b j) = 4 ∧ c.get (K.convSlot b j) = 0xFF ∧ !under j))

/-- BANK_SPARES_FREE. -/
def Chip.refreshSpares (c : Chip) (b : Nat) : Chip := c.set (K.bankSparesFree b) (c.usableSpares b).length

/-- Whether both converters of a tap are retired with no spare to come: the tap counts as out of service (R160). -/
def Chip.pairDead (c : Chip) (b t : Nat) : Bool :=
  [2 * t, 2 * t + 1].all (fun slot => (c.server b slot).isNone && !(c.bank b).retiring.any (fun r => r.2 = slot) &&
    !(match (c.bank b).sub with
      | some x => decide (x.slot = slot)
      | none => false))

/-! ### From raw code to CODE -/

/-- R148: CODE, the OVR flag, and whether the correction was clamped. -/
def convCode (raw : Nat) (oc gc : Int) : Nat × Bool × Bool :=
  if raw = 0 ∨ raw = 0xFFFF then (raw, true, false)
  else
    let r := rne (((raw : Int) - oc) * gc) 15
    ((satU r 16).toNat, false, decide (satU r 16 ≠ r))

/-! ### Substitution (R154 to R157) -/

/-- A converter's calibration is counted, with its time (R201). -/
def Chip.calCounted (c : Chip) (b j : Nat) : Chip := (c.bump (K.calCountConv b j)).set (K.calTimeConv b j) c.now

/-- BANK_STANDIN. -/
def Chip.refreshStandin (c : Chip) (b : Nat) : Chip :=
  match (c.bank b).sub with
  | some x => c.set (K.bankStandin b) (if x.phase = .standing ∨ x.phase = .rejoined then x.spare * 256 + x.slot else 0xFFFF : Nat)
  | none => c.set (K.bankStandin b) 0xFFFF

/-- A converter takes its slot back from the spare, with new trims where it has them; with them its calibration is done and counted
(R154, R157, R201). -/
def Chip.endStandin (c : Chip) (b : Nat) (x : Subst) : Chip :=
  let standing := decide (x.phase = .standing ∨ x.phase = .rejoined)
  let spareGone := decide (c.get (K.convState b x.spare) = 5)
  let c := if standing ∧ !spareGone then c.offSlot b x.spare 1 else c
  let c := c.modBank b (fun (k : ConvBank) => { k with sub := none })
  let c := if standing ∧ c.get (K.convState b x.conv) ≠ 5 then c.serve b x.conv x.slot (c.servingState b x.conv x.slot) else c
  let c := match (c.bank b).fresh with
    | some (j, t) => if j = x.conv ∧ standing then 
        let c := ((c.newTrim b j t).calCounted b j).modBank b (fun (k : ConvBank) => { k with fresh := none })
        { c with cal := { c.cal with conv := modAt c.cal.conv b (fun (l : List Nat) => l.drop 1) } }
      else c
    | none => c
  (c.refreshStandin b).refreshSpares b

/-- A substitution is given up: its new trims are dropped. -/
def Chip.cancelStandin (c : Chip) (b : Nat) (x : Subst) : Chip :=
  (c.modBank b (fun (k : ConvBank) => { k with fresh := none })).endStandin b x

/-- A pending substitution is cancelled when its head stops or is lost (R155, R142); one that stands ends at the next frame
start, or at once where none follows, and a result that its converter has comes into force with that (R199). -/
def Chip.headStopsStandin (c : Chip) (b : Nat) (now : Bool) : Chip :=
  match (c.bank b).sub with
  | none => c
  | some x =>
    if x.phase = .waiting ∨ x.phase = .joined then c.cancelStandin b x
    else if now then c.endStandin b x
    else c

/-- The blanking of a frame begins: a waiting substitution connects the lower-numbered idle spare in parallel, or the
converter is connected again in parallel with the spare that stands in. -/
def Chip.blankStandin (c : Chip) (b : Nat) : Chip :=
  match (c.bank b).sub with
  | none => c
  | some x =>
    match x.phase with
    | .waiting =>
      match c.idleSpares b with
      | [] => c
      | sp :: _ => c.modBank b (fun (k : ConvBank) => { k with sub := some { x with spare := sp, phase := .joined } })
    | .standing => c.modBank b (fun (k : ConvBank) => { k with sub := some { x with phase := .rejoined } })
    | _ => c

/-- Step 5 of R22 for a calibration substitution; whether the frame is marked SUBST. -/
def Chip.stepStandin (c : Chip) (b : Nat) (allowed lost : Bool) : Chip × Bool :=
  match (c.bank b).sub with
  | none => (c, false)
  | some x =>
    if x.phase = .standing ∨ x.phase = .rejoined then (c.endStandin b x, false)
    else if x.phase = .joined ∧ allowed ∧ !lost then
      let c := c.modBank b (fun (k : ConvBank) => { k with sub := some { x with phase := .standing } })
      let c := (c.offSlot b x.conv 4).serve b x.spare x.slot 2
      let c := (c.bump (K.convStandinCount b x.conv)).bump (K.convStandinCount b x.spare)
      (c.refreshStandin b, true)
    else (c, false)

/-! ### Calibration on the node and by substitution (R155, R156, R195) -/

/-- Whether a head runs, as calibration takes it. -/
def Chip.headImages (c : Chip) (h : Nat) : Bool := decide (c.get (K.runState h) = 2 ∨ c.get (K.runState h) = 3)

/-- A converter leaves the calibration node: it is idle, or serves its slot again. -/
def Chip.offNode (c : Chip) (b j : Nat) : Chip :=
  let slot := c.nat (K.convSlot b j)
  c.set (K.convState b j) (if slot = 0xFF then 1 else (c.servingState b j slot : Nat))

/-- The converter that a bank calibrates next: requested by substitution where it serves a slot of a running head, on the calibration
node where it is an idle spare or its head does not run; while a stopping head completes its last frame it waits. A converter that is
retired, or that no spare can stand in for, is left out. -/
def Chip.calNextIn : Nat → Chip → Nat → Chip
  | 0, c, _ => c
  | fuel + 1, c, b =>
    match at' c.cal.conv b, (c.bank b).sub with
    | j :: _, none =>
      let slot := c.nat (K.convSlot b j)
      let serves := decide (slot ≠ 0xFF)
      let runs := c.headImages b
      if c.get (K.convState b j) = 5 ∨ (serves && runs && (c.idleSpares b).isEmpty) then
        Chip.calNextIn fuel { c with cal := { c.cal with conv := modAt c.cal.conv b (fun (l : List Nat) => l.drop 1) } } b
      else if serves && runs then
        (c.offNode b j).modBank b (fun (k : ConvBank) => { k with sub := some { conv := j, slot := slot, spare := 0xFF, phase := .waiting }, fresh := none })
      else if serves && decide (c.get (K.runState b) = 5) && (at' c.heads b).timing then c
      else c.set (K.convState b j) 4
    | _, _ => c

/-- Whether VREF_EXT has been judged by a round, and is in order (R193). -/
def Chip.vrefGood (c : Chip) : Bool := decide (c.get K.vrefState = 0) && c.cal.judged

/-- CAL_STATE: 2 while VREF_STATE is not 0, and while a trigger waits for the first judgement of VREF_EXT (R193). -/
def Chip.refreshCal (c : Chip) : Chip :=
  c.set K.calState (if c.get K.vrefState ≠ 0 then 2 else if c.cal.running then 1 else if c.cal.held ∧ !c.vrefGood then 2 else 0)

/-- A run that VREF_EXT stops ends when its current targets are done; it becomes the held trigger (R193). -/
def Chip.calStop (c : Chip) : Chip :=
  if c.cal.running ∧ c.cal.stopping ∧ c.cal.conv.all (·.isEmpty) ∧ c.banks.all (fun k => k.sub.isNone) then
    ({ c with cal := { c.cal with running := false, stopping := false, held := true, leap := List.replicate 4 [] } } : Chip).refreshCal
  else c

/-- The next converter of a bank, once the reference buffers of a run are done; in a run that stops, the current one is all that is left of
the list. The converters stop with REFCLK (R31). -/
def Chip.calNext (c : Chip) (b : Nat) : Chip :=
  if c.cal.running ∧ c.cal.refbuf = [] ∧ c.get K.refclkState = 0 then
    (Chip.calNextIn ((at' c.cal.conv b).length + 1) c b).calStop
  else c

/-! ### Watchdog and retirement (R158 to R161) -/

/-- The spare that will take the slot of a converter that is retired. -/
def Chip.spareFor (c : Chip) (b : Nat) : Option Nat := ((c.usableSpares b).drop (c.bank b).retiring.length).head?

/-- Retire a converter. A spare that was connected in parallel for a substitution is never used again: the substitution waits for the
other. -/
def Chip.retire (c : Chip) (b j : Nat) : Chip :=
  let slot := c.nat (K.convSlot b j)
  let under := match (c.bank b).sub with
    | some x => if x.conv = j then some x.slot else none
    | none => none
  let standing : Bool := match (c.bank b).sub with
    | some x => decide (x.spare = j) && decide (x.phase = .standing ∨ x.phase = .rejoined)
    | none => false
  let takes : Option Nat := if standing then none else if slot ≠ 0xFF then some slot else under
  let c := c.modBank b (fun (k : ConvBank) => { k with sub := k.sub.map (fun (x : Subst) =>
    if x.spare = j ∧ x.phase = .joined then { x with spare := 0xFF, phase := .waiting } else x) })
  let c := c.offSlot b j 5
  let sp := (c.spareFor b).getD 0xFF
  let c := match takes with
    | some s => c.modBank b (fun (k : ConvBank) => { k with retiring := k.retiring ++ [(j, s)] })
    | none => c
  let c := c.modRegion 1 (fun r => let h := r.block (4 + b); r.putBlock { h with cells := h.cells.filter (fun e => e.2 ≠ j) })
  ((c.raise 1 1 (4 + b) 0xFF 0x1021 j sp).refreshSpares b).calNext b

/-- A conversion does not end in time: the converter resets, and its third reset within 1 s retires it. The conversion began 24 CLK_CONV
cycles, 100 ns, before. -/
def converterWatchdog (b j : Nat) (c : Chip) : Chip :=
  if c.get (K.convState b j) = 5 ∨ j ∈ (c.bank b).inReset then c
  else
    let held := c.blockResetting 1 (4 + b) || c.regionRestarting 1
    let slot := c.nat (K.convSlot b j)
    if held then c.raise 0 1 (4 + b) j 0x1020 slot (c.nat (K.convResets b j))
    else
      let c := c.bump (K.convResets b j)
      let c := c.raise 0 1 (4 + b) j 0x1020 slot (c.nat (K.convResets b j))
      let recent := (c.mono, j) :: (c.bank b).resets.filter (fun (e : Nat × Nat) => decide (c.mono < e.1 + 1000000000))
      let c := c.modBank b (fun (k : ConvBank) => { k with
        resets := recent, inReset := k.inReset ++ [j], gaps := k.gaps ++ [{ conv := j, since := c.mono * 6 - 600 }] })
      if 3 ≤ (recent.filter (fun (e : Nat × Nat) => decide (e.2 = j))).length then
        (c.modBank b (fun (k : ConvBank) => { k with
          inReset := k.inReset.erase j, resets := k.resets.filter (fun (e : Nat × Nat) => decide (e.2 ≠ j)) })).retire b j
      else c.countCell 1 (4 + b) j 0x1020

/-- The resets of a converter end now. -/
def ConvBank.closeGap (k : ConvBank) (j now : Nat) : ConvBank :=
  { k with gaps := k.gaps.map (fun (g : ConvGap) => if g.conv = j ∧ g.upTo.isNone then { g with upTo := some now } else g) }

/-- The reset of a converter ends. -/
def converterResetEnd (b j : Nat) (c : Chip) : Chip :=
  c.modBank b (fun (k : ConvBank) => if j ∈ k.inReset then { k.closeGap j (c.mono * 6) with inReset := k.inReset.erase j } else k)

/-- Whether a sample of a converter at an instant, in 1/6 ns, falls into a reset of the converter or of its bank (R158). -/
def Chip.inGap (c : Chip) (b j t : Nat) : Bool :=
  let h := (c.regionOf 1).block (4 + b)
  (h.resetting && decide (h.resets.headD 0 * 6 ≤ t)) ||
  (c.bank b).gaps.any (fun (g : ConvGap) => decide (g.conv = j ∨ g.conv = 0xFF) && decide (g.since ≤ t) &&
    (match g.upTo with
     | some u => decide (t < u)
     | none => true))

/-- A new frame meets the resets that last only. -/
def Chip.pruneGaps (c : Chip) (b : Nat) : Chip :=
  c.modBank b (fun (k : ConvBank) => { k with gaps := k.gaps.filter (fun (g : ConvGap) => decide (g.upTo.isNone ∧ g.conv ∈ k.inReset)) })

/-- The reset of a bank's block ends. -/
def Chip.bankResetEnded (c : Chip) (b : Nat) : Chip :=
  let h := (c.regionOf 1).block (4 + b)
  c.modBank b (fun (k : ConvBank) => { k with gaps := k.gaps ++ [{ conv := 0xFF, since := h.resets.headD 0 * 6, upTo := some (c.mono * 6) }] })

/-- Step 5 of R22 for one retired converter: the spare takes its slot, ending a substitution that holds the spare or the
slot, or the pair becomes a half pair. -/
def Chip.replaceRetired (c : Chip) (b : Nat) (r : Nat × Nat) : Chip :=
  match (c.usableSpares b).head? with
  | some sp =>
    let c := match (c.bank b).sub with
      | some x => if x.slot = r.2 then (c.modBank b (fun (k : ConvBank) => { k with sub := none, fresh := none })).refreshStandin b
          else if x.spare = sp ∧ x.phase ≠ .waiting then c.cancelStandin b x else c
      | none => c
    let c := (List.range 34).foldl (fun (c : Chip) (j : Nat) => if c.nat (K.convSlot b j) = r.2 then c.offSlot b j 1 else c) c
    c.serve b sp r.2 (c.servingState b sp r.2)
  | none => c

/-- A substitution that has lost its spare and finds no idle one is given up; its converter is left out of the run (R156, R195). -/
def Chip.dropWaiting (c : Chip) (b : Nat) : Chip :=
  match (c.bank b).sub with
  | some x => if x.phase = .waiting ∧ (c.idleSpares b).isEmpty then (c.cancelStandin b x).calNext b else c
  | none => c

/-- Step 5 of R22 for retirements; whether one was served. -/
def Chip.stepRetired (c : Chip) (b : Nat) : Chip × Bool :=
  let l := (c.bank b).retiring
  let c := c.modBank b (fun (k : ConvBank) => { k with retiring := [] })
  let c := l.foldl (fun (c : Chip) r => c.replaceRetired b r) c
  let c := l.foldl (fun (c : Chip) r =>
    let other := if r.2 % 2 = 0 then r.2 + 1 else r.2 - 1
    match c.server b r.2, c.server b other with
    | none, some j => c.set (K.convState b j) 6
    | _, _ => c) c
  ((c.refreshSpares b).dropWaiting b, !l.isEmpty)

/-- Whether a slot of a tap in use has no converter: its samples carry MISS in every frame. -/
def Chip.halfPair (c : Chip) (b n : Nat) : Bool := (List.range (2 * n)).any (fun slot => (c.server b slot).isNone)

/-- Step 5 of R22: substitution and retirement; the frame's SUBST mark, counted in BANK_SUBST_FRAMES. -/
def Chip.bankStep (c : Chip) (b : Nat) (allowed lost : Bool) : Chip × Bool :=
  let (c, retired) := (c.pruneGaps b).stepRetired b
  let (c, stood) := c.stepStandin b allowed lost
  let marked := retired || stood || (!lost && c.halfPair b (c.nat (K.tapCount b)))
  (if marked then c.bump (K.bankSubstFrames b) else c, marked)

/-- A chip restart returns every converter to its own slot (R161). -/
def Chip.banksRestart (c : Chip) : Chip :=
  let c := { c with banks := c.banks.map (fun (k : ConvBank) => { k with
    sub := none, resets := [], inReset := [], gaps := [], retiring := [], fresh := none }) }
  (List.range 4).foldl (fun (c : Chip) (b : Nat) =>
    let c := (List.range 34).foldl (fun (c : Chip) (j : Nat) => if j < 32 then c.serve b j j 0 else c.offSlot b j 1) c
    (c.refreshSpares b).refreshStandin b) c

/-- CONVERTER_WATCHDOG -/
def execConverterWatchdog (b : Fin 4) (conv : Fin 34) (s : State) : Res := run s (converterWatchdog b.val conv.val)

/-- CONVERTER_RESET_END -/
def execConverterResetEnd (b : Fin 4) (conv : Fin 34) (s : State) : Res := run s (converterResetEnd b.val conv.val)

end Sys2Proof.Machine
end

