-- ==== Sys2Proof/Machine/Lines.lean ====
section
/-! DEFINITION. Lines: the conversion of a head's row, the line FIFOs, the arbiter's grants and the processing of a granted
line (R145, R148 to R152, R226, R286, R311 to R314, R469). -/

namespace Sys2Proof.Machine

/-! ### The conversion of a row -/

/-- Whether a tap of a head is out of service (R114, R137, R160). -/
def Chip.tapOut (c : Chip) (h t : Nat) : Bool :=
  let st := c.get (K.tapState h t)
  decide (st ≠ 0 ∧ st ≠ 5) || c.pairDead h t

/-- The taps out of service of a head, as bits. -/
def Chip.tapsOut (c : Chip) (h : Nat) : Nat := sumN (tab (c.nat (K.tapCount h)) (fun t => if c.tapOut h t then 2 ^ t else 0))

/-- A sample as its converter gives it: who converted it (or whose slot it missed), and whether it was over range,
clamped or missing. -/
structure Raw where
  conv : Nat
  code : Nat
  ovr : Bool
  sat : Bool
  miss : Bool
  deriving DecidableEq, Repr, Inhabited

/-- The converter of a slot at a sample: the one that serves it, or one that is retired and waits for its replacement. -/
def Chip.converterOf (c : Chip) (h slot : Nat) : Option Nat :=
  match c.server h slot with
  | some j => some j
  | none => ((c.bank h).retiring.find? (fun r => decide (r.2 = slot))).map (·.1)

/-- Sample q of tap t of a head at an instant in 1/6 ns (R145, R148): even q goes to side A, odd q to side B. A sample that falls into the
reset of its converter is MISS (R158), and so is one of a retired converter from then on (R159); MISS of a slot that no converter serves counts
for the converter numbered like the slot (assumption 95). -/
def Chip.convert (c : Chip) (h t q at6 : Nat) (raw : Option (BitVec 16)) : Raw :=
  let slot := 2 * t + q % 2
  match c.converterOf h slot, raw with
  | some j, some v =>
    if c.inGap h j at6 then { conv := j, code := 0, ovr := false, sat := false, miss := true }
    else
      let (code, ovr, sat) := convCode v.toNat (c.get (K.convOffset h j)) (c.get (K.convGain h j))
      { conv := j, code := code, ovr := ovr, sat := sat, miss := false }
  | some j, none => { conv := j, code := 0, ovr := false, sat := false, miss := true }
  | none, _ => { conv := slot, code := 0, ovr := false, sat := false, miss := true }

/-- The instant of sample q of a tap from the start of the line, in CLK_CONV cycles: SAMPLE_PHASE after the edge that begins its pixel
period (R115, R116). -/
def Chip.sampleAt (c : Chip) (h q per n : Nat) : Nat :=
  c.nat (K.samplePhase h) + c.nat (K.mclkDiv h) * (if q < n * per then c.nat (K.readoutStart h) + q * c.nat (K.pixelMclks h) else c.nat (K.refPosition h))

/-- Whether a sample lies less than 200 ns (48 CLK_CONV cycles) after an over-range sample of its tap and line (R152). -/
def Chip.recovering (c : Chip) (h per n : Nat) (l : List Raw) (q : Nat) : Bool :=
  let t := c.sampleAt h q per n
  l.zipIdx.any (fun (r, p) => r.ovr && decide (p < q) && decide (t < c.sampleAt h p per n + 48))

/-- The instant of position 0 of the line in which a row of a head is sampled, in 1/6 ns (R117). -/
def Chip.lineAt (c : Chip) (h row : Nat) : Nat :=
  (c.head h).startAt * 6 + (row + c.nat (K.readLag h)) * c.nat (K.lineLength h) * c.nat (K.mclkDiv h) * 25

/-- The samples of one tap in a line that begins at `line` with their flags. -/
def Chip.tapSamples (c : Chip) (h t per n line : Nat) (raws : List (Option (BitVec 16))) : List (Raw × Sample) :=
  let l := tab (n * per + 1) (fun q => c.convert h t q (line + 25 * c.sampleAt h q per n) ((raws[q]?).getD none))
  l.zipIdx.map (fun (r, q) =>
    (r, { code := r.code, ovr := r.ovr, rec' := !r.ovr && c.recovering h per n l q, miss := r.miss }))

/-- The counts of the converters of a line (Table 5.6). -/
def Chip.countConverters (c : Chip) (b : Nat) (l : List Raw) : Chip :=
  (List.range 34).foldl (fun (c : Chip) (j : Nat) =>
    let mine := l.filter (fun r => decide (r.conv = j))
    let c := c.bumpBy (K.convOvrCount b j) (mine.filter (·.ovr)).length
    let c := c.bumpBy (K.convSatCount b j) (mine.filter (·.sat)).length
    c.bumpBy (K.convMissCount b j) (mine.filter (·.miss)).length) c

/-- Sum and count of sample less reference of a tap over a line (R134). -/
def tapSwing (l : List (Raw × Sample)) : Int × Nat :=
  match l.getLast? with
  | none => (0, 0)
  | some r =>
    let s := (l.dropLast).filter (fun x => !x.1.miss)
    if r.1.miss then (0, 0) else (sumI (s.map (fun x => (x.1.code : Int) - r.1.code)), s.length)

/-- Add a line of a verification frame to the swings. -/
def HeadPort.addSwing (p : HeadPort) (l : List (Int × Nat)) : HeadPort :=
  { p with vSum := p.vSum.zipIdx.map (fun (v, t) => v + (l.getD t (0, 0)).1), vCount := p.vCount.zipIdx.map (fun (v, t) => v + (l.getD t (0, 0)).2) }

/-! ### The line FIFOs -/

/-- The frame of a source whose lines arrive. -/
def Source.open' (x : Source) : Option Work := (x.works.filter (fun w => !w.closed)).getLast?

/-- The interval of deadlines of a source's lines, in 1/6 ns (R312). -/
def Chip.lineInterval (c : Chip) (s : Nat) : Nat :=
  if s < 4 then c.nat (K.lineLength s) * c.nat (K.mclkDiv s) * 25
  else 6000000000000 / max 1 (c.nat (K.srcFrameRate (s - 4)) * c.nat (K.srcHeight (s - 4)))

/-- Lines a source's FIFO holds (R311). -/
def Chip.fifoRoom (c : Chip) (s : Nat) : Nat :=
  if s < 4 then
    let g := geoOf c.dict s
    3 * 4160 / max 1 (g.w * g.n)
  else c.fifoLines (s - 4)

/-- Put a line into its FIFO with its deadline. -/
def Chip.enqueue (c : Chip) (s : Nat) (l : Line) : Chip :=
  let now := c.mono * 6
  let d := c.lineInterval s
  let dl := match (c.source s).deadline with
    | some (f, p) => if f = l.frame then max now p + d else now + d
    | none => now + d
  let c := c.modSource s (fun (x : Source) => { x with fifo := x.fifo ++ [{ l with deadline := dl }], deadline := some (l.frame, dl) })
  let c := c.modWork s l.frame (fun w => { w with left := w.left + 1 })
  c.set (K.fifoPeak s) (max (c.nat (K.fifoPeak s)) (c.source s).fifo.length : Nat)

/-- A row of a head reaches the pixel die: it is counted where steps 4 to 8 do not run, dropped where its FIFO is full, and
queued otherwise (R235, R314). -/
def Chip.headLine (c : Chip) (h row : Nat) (samples : List (List Sample)) (raws : List Raw) (taps : Nat) : Chip :=
  match (c.source h).open' with
  | none => c
  | some w =>
    let ovr := (raws.filter (·.ovr)).length
    let sat := (raws.filter (·.sat)).length
    let c := c.modWork h w.id (fun w => (({ w with ovr := w.ovr + ovr }.markIf (ovr ≠ 0) markOvr).clamps sat).markIf
      (raws.any (·.miss)) markSubst)
    if !w.front then c
    else if (c.source h).fifo.length < c.fifoRoom h then
      c.enqueue h { frame := w.id, row := row, samples := samples, pixels := [], tapsOut := taps, deadline := 0, done := false }
    else (c.modWork h w.id (fun w => w.mark markOverrun)).raise 1 1 h 0xFF 0x1031 h row

/-- LINE_ELIGIBLE: the next row of a head is converted. -/
def lineEligible (h : Nat) (raws : List (List (Option (BitVec 16)))) (c : Chip) : Chip :=
  let p := c.head h
  let g := geoOf c.dict h
  let st := c.get (K.runState h)
  if !p.timing ∨ p.gap ∨ !(st = 2 ∨ st = 3 ∨ st = 5) ∨ g.h ≤ p.rows ∨ c.regionRestarting 1 then c
  else
    let per := g.w / max 1 g.taps
    let taps := tab g.taps (fun t => c.tapSamples h t per g.n (c.lineAt h p.rows) (raws.getD t []))
    let all := taps.flatten.map (·.1)
    let rows := tab g.n (fun i => tab g.w (fun col => (((taps.getD (col % max 1 g.taps) []).map (·.2)).getD (i * per + col / max 1 g.taps) default)))
    let out := c.tapsOut h
    let c := c.countConverters h all
    let c := c.modHead h (fun (p : HeadPort) =>
      let p := { p with rows := p.rows + 1 }
      if st = 2 then p.addSwing (taps.map tapSwing) else p)
    let c := if c.pixelRuns then
        let c := c.modWork h (((c.source h).open'.map (·.id)).getD 0) (fun w => w.markIf (out ≠ 0) markSubst)
        c.headLine h p.rows rows all out
      else c
    if p.rows + 1 = g.h then c.closeWorks h else c

/-! ### Grants (R311 to R313) -/

/-- Whether the blocks that process lines work now. -/
def Chip.lanesWork (c : Chip) (r : Nat) : Bool :=
  c.pathRuns && !c.regionRestarting 2 && !c.blockResetting 2 0 && (r = 1 || (!c.blockResetting 2 1 && !c.pix.laneReset))

/-- The source whose first waiting line has the earliest deadline, in the order of R312 where equal. -/
def Chip.arbitrate (c : Chip) (r : Nat) : Option (Nat × Line) :=
  (List.range 6).foldl (fun (best : Option (Nat × Line)) s =>
    if (r = 0) = c.isThermal s then
      match (c.source s).fifo.head?, best with
      | some l, none => some (s, l)
      | some l, some b => if l.deadline < b.2.deadline then some (s, l) else best
      | none, _ => best
    else best) none

/-- A record that the DRAM controller could not read: counted, recorded for a lane, and the frame marked ECC. -/
def Chip.badRecord (c : Chip) (s id lane idx : Nat) : Chip :=
  ((c.bump (K.coefUncorrectable s)).raise 0 2 1 lane 0x2001 s idx).modWork s id (fun w => w.mark markEcc)

/-- A state word that the DRAM controller could not read. -/
def Chip.badTemporal (c : Chip) (s id lane idx : Nat) : Chip :=
  ((c.bump (K.tnrStateUncorrectable s)).raise 0 2 3 lane 0x2002 s idx).modWork s id (fun w => w.mark markEcc)

/-- An accumulator that the DRAM controller could not read (R442): the spec gives it no place in the reserved area. -/
def Chip.badAccumulator (c : Chip) : Chip :=
  let (n, c) := c.freeNat 29
  c.dramMeets 2 [c.reservedBase + n]

/-- A thermal line goes through steps 4 and 5 in the lanes. -/
def Chip.thermalLine (c : Chip) (s : Nat) (l : Line) (w : Work) (badRec badState badAcc : List Nat) : Chip :=
  let g := w.geo s
  let (smp, n4, n5) := line45 w s l badRec
  let row : RowWork := { row := l.row, samples := smp, pixels := [], badRec := badRec, badState := badState, badAcc := badAcc }
  let c := c.modWork s w.id (fun w => { w with rows := w.rows ++ [row] }.clamps (n4 + n5))
  let c := ((c.bumpBy (K.linSatCount s) n4).bumpBy (K.nucSatCount s) n5).total K.nucSamples (sumN (smp.map List.length))
  let c := c.dramMeets 0 (badRec.map (fun col => w.recBase + 16 * (l.row * g.w + col)))
  let c := badRec.foldl (fun (c : Chip) (col : Nat) =>
    let (lane, c) := c.freeNat 2
    c.badRecord s w.id lane (l.row * g.w + col)) c
  let c := if w.average then badAcc.foldl (fun (c : Chip) _ => c.badAccumulator) c else c
  if w.process ∧ w.par.onAt (K.tnrEnable s) then
    let place := fun (col : Nat) => (l.row - g.firstRow) * g.aw + (col - g.firstCol)
    let c := c.dramMeets 1 (badState.map (fun col => c.domainHome (K.tnrState s) + 6 * place col))
    badState.foldl (fun (c : Chip) (col : Nat) =>
      let (lane, c) := c.freeNat 2
      c.badTemporal s w.id lane (place col)) c
  else c

/-- The columns of a list of column numbers that a row has; for active columns only, those of an active row. -/
def columnsOf (g : Geo) (row : Nat) (active : Bool) (l : List (BitVec 16)) : List Nat :=
  let inActive := fun (c : Nat) => decide (g.firstCol ≤ c ∧ c < g.firstCol + g.aw) && !g.blindRow row
  ((l.map (·.toNat)).filter (fun c => decide (c < g.w) && (!active || inActive c))).eraseDups

/-- A line is processed by its grant, once. -/
def Chip.processLine (c : Chip) (s : Nat) (l : Line) (badRec badState badAcc : List (BitVec 16)) : Chip :=
  match c.work? s l.frame, l.done with
  | some w, false =>
    let g := w.geo s
    if c.isThermal s then
      c.thermalLine s l w (columnsOf g l.row false badRec) (columnsOf g l.row true badState) (columnsOf g l.row true badAcc)
    else
      let row : RowWork := { row := l.row, samples := [], pixels := l.pixels, badRec := [], badState := [], badAcc := [] }
      c.modWork s w.id (fun w => { w with rows := w.rows ++ [row] })
  | _, _ => c

/-- LINE_GRANT -/
def lineGrant (r : Nat) (badRec badState badAcc : List (BitVec 16)) (c : Chip) : Chip :=
  if (at' c.pix.grants r).isSome || !c.lanesWork r then c
  else match c.arbitrate r with
    | none => c
    | some (s, l) =>
      let c := { c with pix := { c.pix with grants := modAt c.pix.grants r (fun _ => some s) } }
      let c := if l.done then c else c.total (K.linesGranted s) 1
      let c := if !l.done && decide (l.deadline < c.mono * 6) then c.bump (K.deadlineMisses s) else c
      let c := c.processLine s l badRec badState badAcc
      c.modSource s (fun (x : Source) => { x with fifo := modAt x.fifo 0 (fun l => { l with done := true }) })

/-- Release a resource. -/
def Chip.release (c : Chip) (r : Nat) : Chip := { c with pix := { c.pix with grants := modAt c.pix.grants r (fun _ => none) } }

/-- LINE_COMPLETE -/
def lineComplete (r : Nat) (c : Chip) : Chip :=
  match at' c.pix.grants r with
  | none => c
  | some s =>
    let c := c.release r
    match (c.source s).fifo with
    | [] => c
    | l :: _ =>
      let c := c.modSource s (fun (x : Source) => { x with fifo := x.fifo.drop 1 })
      (c.modWork s l.frame (fun w => { w with left := w.left - 1 })).finishAll s

/-- The watchdog of the lane group that holds a line (R469): the reset is counted, and the line stays in its FIFO and is granted again after
it. -/
def nucLaneWatchdog (lane : Nat) (c : Chip) : Chip :=
  match at' c.pix.grants 0 with
  | none => c
  | some s => c.watchdog 2 1 lane 0x2010 lane s (fun c =>
      let c := c.bump K.nucLaneResets
      (if c.cellHeld 2 1 then c else { c with pix := { c.pix with laneReset := true } }).release 0)

/-- Every line FIFO is emptied and every grant withdrawn. -/
def Chip.clearLines (c : Chip) : Chip :=
  let c := { c with pix := { c.pix with grants := [none, none], laneReset := false } }
  (List.range 6).foldl (fun (c : Chip) (s : Nat) => c.modSource s (fun (x : Source) => { x with
    fifo := [], works := x.works.map (fun w => { w with left := 0 }) })) c

/-- LINE_ELIGIBLE -/
def execLineEligible (h : Fin 4) (samples : List (List (Option (BitVec 16)))) (s : State) : Res := run s (lineEligible h.val samples)

/-- LINE_GRANT -/
def execLineGrant (res : Fin 2) (badRec badState badAcc : List (BitVec 16)) (s : State) (fixed : List (BitVec 40) := []) : Res :=
  run s (fun c => lineGrant res.val badRec badState badAcc (c.dramFixed fixed))

/-- LINE_COMPLETE -/
def execLineComplete (res : Fin 2) (s : State) : Res := run s (lineComplete res.val)

/-- NUC_LANE_WATCHDOG -/
def execNucLaneWatchdog (lane : Fin 4) (s : State) : Res := run s (nucLaneWatchdog lane.val)

end Sys2Proof.Machine
end

