-- ==== Sys2Proof/Machine/Admission.lean ====
section
/-! DEFINITION. Admission control (R34, R315 to R317, R331, R476), the conditions of a stream (R329, R330, R332) and of a head's
timing (R118), and starting and stopping a stream. -/

namespace Sys2Proof.Machine

/-! ### Exact fractions -/

/-- A demand or a ceiling: numerator and denominator. -/
abbrev Frac := Nat × Nat

/-- The sum of two fractions. -/
def Frac.add (a b : Frac) : Frac := if a.2 = b.2 then (a.1 + b.1, a.2) else (a.1 * b.2 + b.1 * a.2, a.2 * b.2)

/-- A fraction times a / b. -/
def Frac.scale (x : Frac) (a b : Nat) : Frac := (x.1 * a, x.2 * b)

/-- Whether a fraction exceeds another. -/
def Frac.above (a b : Frac) : Bool := decide (b.1 * a.2 < a.1 * b.2)

/-- The larger of two fractions. -/
def Frac.max (a b : Frac) : Frac := if a.above b then a else b

/-- The sum of a list. -/
def sumFrac (l : List Frac) : Frac := l.foldl Frac.add (0, 1)

/-- The value of a fraction as its object reports it: exact when it is a whole number, else one of the two next to it
(assumption 16). -/
def Chip.reportFrac (c : Chip) (x : Frac) : Nat × Chip :=
  if x.1 % x.2 = 0 then (x.1 / x.2, c)
  else
    let (up, c) := c.freeBit
    (x.1 / x.2 + (if up then 1 else 0), c)

/-! ### Demand and ceilings (Table 1.6) -/

/-- The part with a value written to an object, as admission and cross checks evaluate it. -/
def Chip.assume (c : Chip) (key : Nat) (v : Int) : Chip :=
  { c with staged := c.staged.filter (fun (w : Staged) => w.key ≠ key), pendingP := c.pendingP.filter (fun (p : Nat × Int) => p.1 ≠ key)
           dict := c.dict.put key v }

/-- The last written value of an unsigned object. -/
def Chip.nv (c : Chip) (key : Nat) : Nat := (c.val key).toNat

/-- Total width and height of a head as last written. -/
def Chip.totalSize (c : Chip) (h : Nat) : Nat × Nat :=
  (c.nv (K.activeWidth h) + c.nv (K.blindColumns h), c.nv (K.activeHeight h) + c.nv (K.blindRows h))

/-- The frame rate of a source. -/
def Chip.rateOf (c : Chip) (s : Nat) : Frac :=
  if s < 4 then (240000000, max 1 (c.nv (K.mclkDiv s) * c.nv (K.frameLength s))) else (c.nv (K.srcFrameRate (s - 4)), 1000)

/-- Whether a source is thermal by its last written role. -/
def Chip.thermalNow (c : Chip) (s : Nat) : Bool := decide (s < 4) || decide (c.val (K.srcRole (s - 4)) = 1)

/-- Active width and height of a source as last written. -/
def Chip.sizeNow (c : Chip) (s : Nat) : Nat × Nat :=
  if s < 4 then (c.nv (K.activeWidth s), c.nv (K.activeHeight s)) else (c.nv (K.srcWidth (s - 4)), c.nv (K.srcHeight (s - 4)))

/-- Stored bytes per pixel of a source. -/
def Chip.storedNow (c : Chip) (s : Nat) : Nat := if !c.thermalNow s && decide (c.val (K.srcDataType (s - 4)) = 0x24) then 3 else 2

/-- Payload bits per pixel of a data type (Table 11.1). -/
def linkBits (dt : Nat) : Nat :=
  match dt with
  | 0x2A => 8
  | 0x2B => 10
  | 0x2C => 12
  | 0x2D => 14
  | 0x24 => 24
  | _ => 16

/-- Output bytes per pixel of a stream (Table 12.1). -/
def Chip.outBytes (c : Chip) (n : Nat) : Nat :=
  match c.nv (K.streamFormat n) with
  | 0 => 2
  | 1 => 1
  | 2 => 3
  | 3 => 4
  | 4 => 2
  | _ => c.storedNow (streamSourceOf (c.nv (K.streamSource n)))

/-- The items of a configuration: sources and streams. -/
structure Items where
  sources : List Nat
  streams : List Nat
  deriving DecidableEq, Repr

/-- The configuration: heads and CSI-2 sources whose run request reads 1, and running streams (R315). -/
def Chip.items (c : Chip) : Items := {
  sources := (List.range 6).filter (fun s => if s < 4 then decide (c.val (K.runRequest s) = 1) else decide (c.val (K.srcRun (s - 4)) = 1))
  streams := (List.range 8).filter (fun n => (c.pixelOn && decide (c.val (K.streamRun n) = 1)) || decide (c.get (K.streamState n) ≠ 0)) }

/-- Samples or pixels per second of a source. -/
def Chip.pixelRate (c : Chip) (s : Nat) : Frac :=
  let g := if s < 4 then c.totalSize s else c.sizeNow s
  (c.rateOf s).scale (g.1 * g.2) 1

/-- Demand of a head per tap on its converters. -/
def Chip.tapDemand (c : Chip) (h : Nat) : Frac :=
  let g := c.totalSize h
  (c.rateOf h).scale (g.1 * (g.2 + 1) * c.nv (K.integrations h)) (max 1 (c.nv (K.tapCount h)))

/-- Read and egress bytes per second of a stream (R331). -/
def Chip.streamDemand (c : Chip) (n : Nat) : Frac × Frac :=
  let v := c.nv (K.streamSource n)
  let s := streamSourceOf v
  let f := (c.rateOf s).scale 1 (max 1 (c.nv (K.streamDecimate n)))
  let t := if 16 ≤ v then
      let th := c.nv (K.fuseThermal (v - 16))
      let g := c.sizeNow th
      g.1 * g.2 * 2
    else 0
  (f.scale (t + c.nv (K.cropWidth n) * c.nv (K.cropHeight n) * c.storedNow s) 1,
   f.scale (c.nv (K.outWidth n) * c.nv (K.outHeight n) * c.outBytes n + 64) 1)

/-- The six demands in the order of 0x3D01: converters (worst tap), NUC lanes, DRAM, PCIe, links of CSI0 and CSI1. -/
def Chip.demands (c : Chip) (i : Items) : List Frac :=
  let heads := i.sources.filter (· < 4)
  let csi := i.sources.filter (4 ≤ ·)
  let str := i.streams.map (fun n => c.streamDemand n)
  let dram := sumFrac ((i.sources.map (fun s => (c.pixelRate s).scale (if c.thermalNow s then 30 else 2 * c.storedNow s) 1)) ++ str.map (·.1))
  let link := fun (k : Nat) => sumFrac ((csi.filter (fun s => decide (c.nv (K.srcReceiver (s - 4)) = k))).map (fun s =>
    (c.pixelRate s).scale (linkBits (c.nv (K.srcDataType (s - 4)))) 1))
  [(heads.map (fun h => c.tapDemand h)).foldl Frac.max (0, 1),
   sumFrac ((i.sources.filter (fun s => c.thermalNow s)).map (fun s => (c.pixelRate s).scale (if s < 4 then c.nv (K.integrations s) else 1) 1)),
   dram.scale 33 32, sumFrac (str.map (·.2)), link 0, link 1]

/-- Usable upstream bandwidth in kB/s at four lanes for a speed code; below 8 GT/s each rate is half the next (assumption
17). -/
def usableRate (speed : Nat) : Nat :=
  match speed with
  | 5 => 13500000
  | 4 => 6750000
  | 3 => 3375000
  | 2 => 1687500
  | _ => 843750

/-- The six ceilings; with the link down, those of the fastest link that PCIE_SPEED_LIMIT allows (assumption 17). -/
def Chip.ceilings (c : Chip) : List Frac :=
  let rate := match c.nat K.dramRate with
    | 8533 => 34132
    | 7500 => 30000
    | _ => 25600
  let ch := if c.mode.single ∨ c.nat K.dramChannels = 1 then 1 else 2
  let up := decide (2 ≤ c.get K.pcieLinkState ∧ c.get K.pcieLinkState ≤ 5)
  let speed := if up then c.nat K.pcieLinkSpeed else c.nat K.pcieSpeedLimit
  let width := if up then c.nat K.pcieLinkWidth else 4
  let link := fun (k : Nat) => ((9 * c.nv (K.rxLanes k) * c.nv (K.rxLaneRate k) * 1000000, 10) : Frac)
  [(26000000, 1), (600000000 * popCount 4 c.mode.lanes, 1), ((3 * rate * ch - 8000) * 1000000, 4), (9 * usableRate speed * width * 1000, 40),
   link 0, link 1]

/-- The failing checks, as bits. -/
def failBits (d l : List Frac) : Nat := sumN ((d.zip l).zipIdx.map (fun ((x, y), i) => if x.above y then 2 ^ i else 0))

/-! ### Evaluation (R315, R317) -/

/-- Put a list of fractions into an array of objects. -/
def Chip.reportFracs (c : Chip) (key : Nat → Nat) (l : List Frac) : Chip :=
  l.zipIdx.foldl (fun (c : Chip) (x, i) =>
    let (v, c) := c.reportFrac x
    c.set (key i) v) c

/-- Publish an evaluation (R317). -/
def Chip.publishAdmission (c : Chip) (d l : List Frac) (admitted : Bool) : Chip :=
  let s := nextSeq c.pix.admitSeq 0xFFFF
  let c := ({ c with pix := { c.pix with admitSeq := s } } : Chip).set K.admitResult (s * 65536 + failBits d l : Nat)
  let c := c.reportFracs K.admitLastDemand d
  if admitted then (c.reportFracs K.admitDemand d).reportFracs K.admitCeiling l else c

/-- Evaluate the configuration with a write applied: the part with the evaluation published, and whether it is refused. A write
that raises no demand is never refused. -/
def Chip.admitted (c : Chip) (key : Nat) (v : Int) : Chip × Bool :=
  let c' := c.assume key v
  let d := c'.demands c'.items
  let l := c.ceilings
  let base := c.demands c.items
  let raises := (d.zip base).any (fun (x, y) => x.above y)
  let refused := decide (failBits d l ≠ 0) && raises
  let c := c.set K.admitRequest (key / 256 * 65536 + key % 256 * 256 : Nat)
  let c := c.publishAdmission d l (!refused)
  (if refused then c.bump K.admitRefusals else c, refused)

/-! ### Streams (R329, R330, R332, R333) -/

/-- Whether a format is allowed for a kind of source (Table 12.1). -/
def formatAllowed (format : Nat) (fused thermal : Bool) : Bool :=
  match format with
  | 0 => thermal && !fused
  | 1 => !fused
  | 2 => true
  | 3 => fused
  | 4 => true
  | _ => !fused

/-- Whether the crop window of a stream lies inside a geometry. -/
def Chip.cropInside (c : Chip) (n : Nat) (g : Nat × Nat) : Bool :=
  decide (c.nv (K.cropX n) + c.nv (K.cropWidth n) ≤ g.1) && decide (c.nv (K.cropY n) + c.nv (K.cropHeight n) ≤ g.2)

/-- R330 for the last written values of a stream. -/
def Chip.streamShape (c : Chip) (n : Nat) : Bool :=
  let cw := c.nv (K.cropWidth n)
  let ch := c.nv (K.cropHeight n)
  let ow := c.nv (K.outWidth n)
  let oh := c.nv (K.outHeight n)
  let f := c.nv (K.streamFormat n)
  c.cropInside n (c.sizeNow (streamSourceOf (c.nv (K.streamSource n)))) &&
  decide (cw ≤ 16 * ow) && decide (ow ≤ 8 * cw) && decide (ch ≤ 16 * oh) && decide (oh ≤ 8 * ch) &&
  (f ≠ 5 || (ow = cw && oh = ch)) && (f ≠ 4 || ow % 2 = 0) &&
  decide (c.nv (K.lineStride n) % 64 = 0) && decide (ow * c.outBytes n ≤ c.nv (K.lineStride n)) &&
  decide (c.nv (K.slotSize n) % 4096 = 0) && decide (64 + c.nv (K.lineStride n) * oh ≤ c.nv (K.slotSize n))

/-- R329 for the last written values of a stream. -/
def Chip.streamFormatOk (c : Chip) (n : Nat) : Bool :=
  let v := c.nv (K.streamSource n)
  formatAllowed (c.nv (K.streamFormat n)) (16 ≤ v) (c.thermalNow (streamSourceOf v))

/-- Whether another running stream uses a fusion channel. -/
def Chip.channelUsed (c : Chip) (n v : Nat) : Bool :=
  (List.range 8).any (fun m => decide (m ≠ n) && decide (c.get (K.streamState m) ≠ 0) && decide (c.nv (K.streamSource m) = v))

/-- A write of 1 to STREAM_RUN (R318, R332). Written while the stream runs, it starts the stream afresh. -/
def streamStart (n : Nat) (c : Chip) : Chip × Option Abort :=
  let v := c.nv (K.streamSource n)
  let s := streamSourceOf v
  if c.get (K.streamState n) = 1 ∨ c.get (K.streamState n) = 3 then (c, some Abort.deviceState)
  else if 16 ≤ v ∧ (c.channelUsed n v ∨ c.thermalNow s) then (c, some Abort.localControl)
  else if !c.sourceWanted s ∨ c.val (K.ringBase n) = 0 ∨ c.val (K.slotSize n) = 0 ∨ !c.streamFormatOk n ∨ !c.streamShape n then
    (c, some Abort.incompatible)
  else
    let (c, refused) := c.admitted (K.streamRun n) 1
    if refused then (c, some Abort.incompatible)
    else
      let c := c.discardJobs n (fun _ => true)
      let c := c.setAll [(K.streamRun n, 1), (K.streamState n, 1), (K.deliverySequence n, 0), (K.ringWrite n, 0)]
      (c.modStream n (fun (x : Stream) => { x with
        acceptedAt := c.mono, nextSeq := 0, count := 0, halved := none, agc := none, resets := [], window := none, full := false, jobs := [] }), none)

/-- A write of 0 to STREAM_RUN (R333). -/
def streamStop (n : Nat) (c : Chip) : Chip :=
  let c := c.set (K.streamRun n) 0
  if c.get (K.streamState n) = 0 then c
  else if (c.stream n).jobs = [] then (c.set (K.streamState n) 0).applyStopped (8 + n)
  else c.set (K.streamState n) 3

/-- Carry out an access that changes state even where it is refused. -/
def Chip.attempt2 (_c : Chip) (m : Master) (key : Nat) (r : Chip × Option Abort) : Chip :=
  match r.2 with
  | none => r.1
  | some code => (r.1).refuse m key code

/-- As `command`, for an operation that evaluates admission. -/
def Chip.command2 (c : Chip) (m : Master) (key : Nat) (op : Chip → Chip × Option Abort) : Chip :=
  if c.reaches m then
    if c.accessFails m key then c.refuse m key Abort.hardware else c.attempt2 m key (op c)
  else c

/-! ### A head's timing (R118) -/

/-- Condition 4 for one band. -/
def Chip.bandFits (c : Chip) (h b : Nat) : Bool :=
  let tl := c.nv (K.intlStart h) + c.nv (K.tauL (16 * h + b))
  let ts := c.nv (K.intsStart h) + c.nv (K.tauS (16 * h + b))
  if c.nv (K.integrations h) = 2 then decide (tl ≤ c.nv (K.intsStart h)) && decide (ts ≤ c.nv (K.lineLength h))
  else decide (tl ≤ c.nv (K.lineLength h))

/-- Condition 4: every band in use. -/
def Chip.bandsFit (c : Chip) (h : Nat) : Bool := (List.range (c.nv (K.almanacBandCount h))).all (fun b => c.bandFits h b)

/-- Condition 6. -/
def Chip.frameFits (c : Chip) (h : Nat) : Bool :=
  decide (((c.totalSize h).2 + c.nv (K.readLag h) + 1) * c.nv (K.lineLength h) ≤ c.nv (K.frameLength h))

/-- Condition 7. -/
def Chip.tapsFit (c : Chip) (h : Nat) : Bool := !(c.tapDemand h).above (26000000, 1)

/-- Whether taps out of service lose a head of n taps (R138). -/
def tapsLose (n : Nat) (out : List Nat) : Bool :=
  let l := out.filter (· < n)
  if n ≤ 2 then !l.isEmpty else decide (n / 4 < l.length) || l.any (fun t => (t + 1) % n ∈ l)

/-- The conditions of R118. -/
def Chip.timingOk (c : Chip) (h : Nat) : Bool :=
  let n := c.nv (K.tapCount h)
  let w := (c.totalSize h).1
  let ll := c.nv (K.lineLength h)
  let div := c.nv (K.mclkDiv h)
  let rp := c.nv (K.refPosition h)
  let rs := c.nv (K.readoutStart h)
  decide (w % n = 0) && decide (8 ≤ c.nv (K.pixelMclks h) * div) &&
  decide (rs + c.nv (K.integrations h) * (w / n) * c.nv (K.pixelMclks h) ≤ rp) && decide (rp < ll) &&
  c.bandsFit h && decide (1024 ≤ ll * div) && c.frameFits h && c.tapsFit h && decide (16 ≤ (ll + rs - rp) * div) &&
  !tapsLose n ((List.range n).filter (fun t => !bitOf (c.nv (K.tapEnable h)) t))

/-- Whether the geometry of a source keeps the crop windows of its running streams and its enabled ROIs inside (R330,
R349). -/
def Chip.geometryKeeps (c : Chip) (s : Nat) : Bool :=
  let g := c.sizeNow s
  (List.range 8).all (fun n => decide (c.get (K.streamState n) = 0) || decide (streamSourceOf (c.nv (K.streamSource n)) ≠ s) || c.cropInside n g) &&
  (List.range 16).all (fun r =>
    let i := 16 * s + r
    decide (c.val (K.roiEnable i) ≠ 1) ||
    (decide (c.nv (K.roiX i) + c.nv (K.roiWidth i) ≤ g.1) && decide (c.nv (K.roiY i) + c.nv (K.roiHeight i) ≤ g.2)))

/-- A write of 1 to STREAM_RUN; while the pixel die is off it is kept as a value (R93), and the stream starts stopped all the same
(R458). -/
def streamRunOne (n : Nat) (c : Chip) : Chip × Option Abort :=
  if c.pixelOn ∧ c.mode.pixelUse ≠ .hostOnly then streamStart n c else (c.set (K.streamRun n) 1, none)

/-- STREAM_START -/
def execStreamStart (m : Master) (n : Fin 8) (s : State) : Res :=
  run s (fun c => c.command2 m (K.streamRun n) (streamRunOne n.val))

/-- STREAM_STOP -/
def execStreamStop (m : Master) (n : Fin 8) (s : State) : Res :=
  run s (fun c => c.command m (K.streamRun n) (fun c => .ok (streamStop n.val c)))

end Sys2Proof.Machine
end

