-- ==== Sys2Proof/Machine/Targets.lean ====
section
/-! DEFINITION. The leap-line targets and the reference buffers of the calibration unit (R195, R197 to R199), and what it does when a
head no longer runs. -/

namespace Sys2Proof.Machine

/-! ### AFE offsets and bias DACs -/

/-- The leap-line targets of a head (R195): its AFE offsets, then its enabled bias outputs. -/
def Chip.leapTargets (c : Chip) (h : Nat) : List LeapTarget :=
  tab (c.nat (K.tapCount h)) LeapTarget.afe ++ ((List.range 8).filter (fun b => bitOf (c.nat (K.biasEnable h)) b)).map LeapTarget.bias

/-- A leap-line target takes a new code: the one it had becomes the previous one, and the NVM keeps both (R199). -/
def Chip.putLeapTrim (c : Chip) (h : Nat) (t : LeapTarget) (code : Int) (back : Bool := false) : Chip :=
  match t with
  | .afe k =>
    let old := c.get (K.afeTrim h k)
    let c := { c with cal := { c.cal with prevAfe := modAt c.cal.prevAfe h (fun (l : List (Option Int)) => modAt l k (fun _ => some old)) } }
    (c.set (K.afeTrim h k) code).nvmTrim (136 + 16 * h + k) 0 [code] back
  | .bias k =>
    let old := c.get (K.biasTrim h k)
    let c := { c with cal := { c.cal with prevBias := modAt c.cal.prevBias h (fun (l : List (Option Int)) => modAt l k (fun _ => some old)) } }
    (c.set (K.biasTrim h k) code).nvmTrim (200 + 8 * h + k) 0 [code] back

/-- A revert of a head (R199): current and previous trims of its converters, AFE offsets and bias DACs are exchanged. -/
def Chip.revertHead (c : Chip) (h : Nat) : Chip :=
  let c := c.revertTrims h
  let c := (List.range 16).foldl (fun (c : Chip) (k : Nat) =>
    c.putLeapTrim h (.afe k) ((at' (at' c.cal.prevAfe h) k).getD (objDefault (K.afeTrim h k))) true) c
  (List.range 8).foldl (fun (c : Chip) (k : Nat) =>
    c.putLeapTrim h (.bias k) ((at' (at' c.cal.prevBias h) k).getD (objDefault (K.biasTrim h k))) true) c

/-! ### Reference buffers -/

/-- The running heads that a reference buffer serves. -/
def Chip.bufferHeads (c : Chip) (r : Nat) : List Nat := [2 * r, 2 * r + 1].filter (fun h => c.headImages h)

/-- A frame of a head whose lines have all been processed takes a mark while what tells of it is still to come: its stream headers and its
statistics record. -/
def Chip.markFinished (c : Chip) (h number m : Nat) : Chip :=
  let stored := fun (f : Stored) => if f.alarmOf = some (h, number) then { f with marks := Nat.lor f.marks m } else f
  let c := c.modSource h (fun (x : Source) => { x with
    lastMarks := Nat.lor x.lastMarks m, stored := x.stored.map stored
    due := x.due.map (fun (d : StatDue) => if d.rec'.number = number then { d with rec' := { d.rec' with marks := Nat.lor d.rec'.marks m } } else d) })
  (List.range 8).foldl (fun (c : Chip) (n : Nat) =>
    if c.nat (K.streamSource n) = h then
      c.modStream n (fun (x : Stream) => { x with jobs := x.jobs.map (fun (j : Job) => { j with img := j.img.map stored }) })
    else c) c

/-- The frame of a head that is in progress takes a mark, in its leap line and its blanking too. -/
def Chip.markCurrent (c : Chip) (h m : Nat) : Chip :=
  match c.currentWork? h with
  | some w => c.modWork h w.id (fun w => w.mark m)
  | none =>
    if (c.head h).timing ∧ (c.get (K.runState h) = 2 ∨ c.get (K.runState h) = 3 ∨ c.get (K.runState h) = 5) then
      c.markFinished h (c.nat (K.frameNumber h)) m
    else c

/-- A reference buffer takes a new code; the frames of R198 are marked CAL_GAP, the last frame of a head that stops among them. `atHead` is
the head whose leap line it is. -/
def Chip.putBuffer (c : Chip) (r : Nat) (code : Int) (atHead : Option Nat) (back : Bool := false) : Chip :=
  let old := c.get (K.refbufTrim r)
  let c := { c with cal := { c.cal with prevRef := modAt c.cal.prevRef r (fun _ => some old) } }
  let c := (c.set (K.refbufTrim r) code).nvmTrim (232 + r) 0 [code] back
  if code = old then c
  else [2 * r, 2 * r + 1].foldl (fun (c : Chip) (h : Nat) =>
    let c := if c.headImages h then c.modHead h (fun (p : HeadPort) => { p with calGap := true }) else c
    if atHead = some h ∨ !(c.head h).timing then c else c.markCurrent h markCalGap) c

/-- A reference buffer is compared (R198): its code moves by at most one step. -/
def Chip.bufferStep (c : Chip) (r : Nat) (t : CalStep) (atHead : Option Nat) : Chip :=
  let old := c.get (K.refbufTrim r)
  let want : Int := min t.code.toNat 1023
  let c := c.putBuffer r (clampI want (old - 1) (old + 1)) atHead
  let c := ((c.bump (K.calCountRefbuf r)).set (K.calTimeRefbuf r) c.now).set (K.calResidualRefbuf r) t.residual.toInt
  { c with cal := { c.cal with refbuf := c.cal.refbuf.erase r } }

/-- Converters are asked for once the reference buffers are done. -/
def Chip.calBanks (c : Chip) : Chip := (List.range 4).foldl (fun (c : Chip) (b : Nat) => c.calNext b) c

/-! ### A head no longer runs -/

/-- The reference buffer of a head that stops or is lost: where no head that it serves runs any more, a revert that waits for a leap line
comes at once, and so does the comparison of a run (R198). What it finds is device data (R201). -/
def Chip.bufferAlone (c : Chip) (r : Nat) : Chip :=
  if !(c.bufferHeads r).isEmpty then c
  else
    let c := match at' c.cal.refRevert r with
      | some code => ({ c with cal := { c.cal with refRevert := modAt c.cal.refRevert r (fun _ => none) } } : Chip).putBuffer r code none true
      | none => c
    if c.cal.running ∧ r ∈ c.cal.refbuf then
      let (code, c) := c.freeNat 10
      let (residual, c) := c.freeNat 32
      (c.bufferStep r { code := BitVec.ofNat _ code, residual := BitVec.ofNat _ residual } none).calBanks
    else c

/-- Calibration when a head no longer runs: its buffer, and its bank's converters, which go on without substitution (R142, R195). -/
def Chip.calHeadGone (c : Chip) (h : Nat) : Chip := (c.bufferAlone (h / 2)).calNext h

end Sys2Proof.Machine
end

