-- ==== Sys2Proof/Machine/Heads.lean ====
section
/-! DEFINITION. Head ports: the Almanac (R188 to R191), biases, configuration link, start, stop, loss, faults and triggers (R110 to
R143). The frame start is in the file after this one. -/

namespace Sys2Proof.Machine

/-! ### The Almanac -/

/-- The index of the current band of a head among the bands of all heads. -/
def Chip.bandIx (c : Chip) (h : Nat) : Nat := 16 * h + c.nat (K.currentBand h)

/-- The band at a head start (R189): the highest whose lower limit is not above the FPA temperature. -/
def Chip.bandAtStart (c : Chip) (h : Nat) : Nat :=
  let n := c.nat (K.almanacBandCount h)
  let t := c.get (K.tfpaTemperature h)
  let f := c.nat (K.forceBand h)
  if f ≠ 0xFF then min f (n - 1)
  else ((List.range n).filter (fun b => b = 0 ∨ c.get (K.bandLower (16 * h + b)) ≤ t)).foldl max 0

/-- Rise through the bands whose limit plus hysteresis the temperature reaches. -/
def riseBand (lower : Nat → Int) (hyst t : Int) (n : Nat) : Nat → Nat → Nat
  | 0, b => b
  | fuel + 1, b => if b + 1 < n ∧ lower (b + 1) + hyst ≤ t then riseBand lower hyst t n fuel (b + 1) else b

/-- Fall through the bands whose limit less hysteresis lies above the temperature. -/
def fallBand (lower : Nat → Int) (hyst t : Int) : Nat → Nat
  | 0 => 0
  | b + 1 => if t < lower (b + 1) - hyst then fallBand lower hyst t b else b + 1

/-- The band that R189 evaluates from the current one. -/
def evalBand (lower : Nat → Int) (hyst t : Int) (n force cur : Nat) : Nat :=
  if force ≠ 0xFF then min force (n - 1) else fallBand lower hyst t (riseBand lower hyst t n n (min cur (n - 1)))

/-- The band of a head at a frame start. -/
def Chip.bandNow (c : Chip) (h : Nat) : Nat :=
  evalBand (fun b => c.get (K.bandLower (16 * h + b))) (c.get (K.almanacHyst h)) (c.get (K.tfpaTemperature h))
    (c.nat (K.almanacBandCount h)) (c.nat (K.forceBand h)) (c.nat (K.currentBand h))

/-- The coefficient set in force at a frame start, and whether it was switched (R191): a set that is not resident counts as missing
once for each band change or write that names it. -/
def Chip.stepSet (c : Chip) (h : Nat) (changed : Bool) : Chip × Bool :=
  let s := c.nat (K.coefSet (c.bandIx h))
  let p := c.head h
  if c.pixelRuns && c.residentHead s h then
    let c := c.modHead h (fun (p : HeadPort) => { p with set := some s, missing := none })
    (c.refreshSets, decide (p.set ≠ some s))
  else if p.set = some s ∨ (p.missing = some s ∧ !changed) then (c, false)
  else
    let c := (c.modHead h (fun (p : HeadPort) => { p with missing := some s })).bump (K.almanacSetMissing h)
    (c.raise 0 2 1 0xFF 0x2003 h s, false)

/-! ### Biases (R123, R124) -/

/-- Codes of the bias outputs in a band, after BIAS_ENABLE and BIAS_LIMIT. -/
def Chip.biasCodes (c : Chip) (h : Nat) : List Nat :=
  tab 8 (fun b => if bitOf (c.nat (K.biasEnable h)) b then min (c.nat (K.biasCodeBand (c.bandIx h) b)) (c.nat (K.biasLimit h b)) else 0)

/-- How many of the outputs that take a band value have it reduced by BIAS_LIMIT (R123). -/
def Chip.biasReduced (c : Chip) (h : Nat) (takes : Nat → Bool) : Nat :=
  ((List.range 8).filter (fun b => takes b && bitOf (c.nat (K.biasEnable h)) b &&
    decide (c.nat (K.biasLimit h b) < c.nat (K.biasCodeBand (c.bandIx h) b)))).length

/-- BIAS_CODE of the outputs that are on their target. -/
def Chip.reportBias (c : Chip) (h : Nat) : Chip :=
  let p := c.head h
  (List.range 8).foldl (fun (c : Chip) (b : Nat) => if at' p.bias b = at' p.target b then c.set (K.biasCode h b) ((at' p.codes b : Nat) : Int) else c) c

/-- Set the targets of the bias outputs, in 2^-16 µV. -/
def Chip.biasTo (c : Chip) (h : Nat) (codes : List Nat) : Chip :=
  (c.modHead h (fun (p : HeadPort) => { p with codes := codes, target := codes.map (· * 5000000) })).reportBias h

/-- Bias codes of the band in force, before BIAS_LIMIT. -/
def Chip.biasRaw (c : Chip) (h : Nat) : List Nat := tab 8 (fun b => c.nat (K.biasCodeBand (c.bandIx h) b))

/-- Apply the bias values of the band in force: all where a band brings them, otherwise those that a write has changed. -/
def Chip.applyBias (c : Chip) (h : Nat) (force : Bool) : Chip :=
  let raw := c.biasRaw h
  let was := (c.head h).raw
  if raw = was ∧ c.biasCodes h = (c.head h).codes ∧ !force then c
  else
    let c := c.bumpBy (K.biasClamped h) (c.biasReduced h (fun b => force || decide (at' raw b ≠ at' was b)))
    (c.modHead h (fun (p : HeadPort) => { p with raw := raw })).biasTo h (c.biasCodes h)

/-- Whether a bias ramp runs. -/
def Chip.ramping (c : Chip) (h : Nat) : Bool := decide ((c.head h).bias ≠ (c.head h).target)

/-- One CLK_TICK of the bias outputs of a head. -/
def Chip.biasTick (c : Chip) (h : Nat) : Chip :=
  if !c.ramping h then c
  else
    let step := c.nat (K.biasSlew h) * 65536
    let move := fun (v t : Nat) => if v ≤ t then min t (v + step) else max t (v - step)
    (c.modHead h (fun (p : HeadPort) => { p with bias := p.bias.zipWith move p.target })).reportBias h

/-- The bias outputs at 0 V at once. -/
def Chip.biasOff (c : Chip) (h : Nat) : Chip :=
  (c.modHead h (fun (p : HeadPort) => { p with
    bias := List.replicate 8 0, target := List.replicate 8 0, codes := List.replicate 8 0, biasLimited := 0 })).reportBias h

/-! ### Stopping -/

/-- The configuration link of a head that leaves its start or its run: the script and the reads of its leap line are given up, and a
transaction in progress ends as the request it was or as one that nobody waits for (R127). -/
def HeadPort.linkRest (p : HeadPort) : HeadPort :=
  { p with
    script := [], scriptWait := false, queue := p.queue.filter (fun t => decide (t.user = .request))
    active := p.active.map (fun t => { t with user := .request }) }

/-- The configuration link driven low: a transaction in progress is lost as well (R139). -/
def HeadPort.linkOff (p : HeadPort) : HeadPort := { p.linkRest with active := none }

/-- What a head gives up when it stops: substitutions, its set, its script and faults pending. A revert that waited for its next frame
start applies (R199). -/
def Chip.headRest (c : Chip) (h : Nat) : Chip :=
  let revert := (c.head h).revert
  let c := c.modHead h (fun (p : HeadPort) => { p.linkRest with
    revert := false, timing := false, phase := .idle, verified := 0, firstGood := false, lost := false, retrying := false, failed := 0, lastFrame := false
    mclk := false, trigAt := none, freeRun := false, gap := false, biasLimited := 0, biasOver := false
    supLow := 0, biasLow := List.replicate 8 0, set := none, calGap := false, pacedAt := none })
  let c := c.headStopsStandin h true
  let c := ((c.closeWorks h).set (K.runState h) 0).set (K.supState h) 0
  let c := (c.set (K.statState h) 0).refreshSets
  let c := (List.range 8).foldl (fun (c : Chip) (n : Nat) => c.streamSettle n) c
  let c := if revert then c.revertHead h else c
  (c.applyStopped h).calHeadGone h

/-- The end of the frame timing of a head that stops: its frame is closed, a converter under calibration goes on without substitution, and
its biases ramp to 0 V. -/
def Chip.headRampDown (c : Chip) (h : Nat) : Chip :=
  let c := c.modHead h (fun (p : HeadPort) => { p.linkRest with timing := false, lastFrame := false, phase := .idle, gap := false })
  (((c.closeWorks h).headStopsStandin h true).calNext h).biasTo h (List.replicate 8 0)

/-- On entry to standby a head stops without completing its frame (R135). -/
def Chip.headStopNow (c : Chip) (h : Nat) : Chip :=
  let st := c.get (K.runState h)
  let c := c.modHead h (fun (p : HeadPort) => { p with restart := false })
  if st = 0 then c
  else if st = 4 then (c.biasOff h).headRest h
  else (c.set (K.runState h) 5).headRampDown h

/-- Every head stops as for standby, and a Solstice that runs is abandoned with cause 5. -/
def Chip.headsStopNow (c : Chip) : Chip :=
  let c := (List.range 4).foldl (fun (c : Chip) (h : Nat) => c.solsticeStandby h) c
  (List.range 4).foldl (fun (c : Chip) (h : Nat) => c.headStopNow h) c

/-! ### Starting (R133) -/

/-- Whether heads may run: no standby that is not being left, safe state, lost REFCLK or failed pixel die holds them (R135, R472, R479, R480). -/
def Chip.headsMayRun (c : Chip) : Bool :=
  decide (c.get K.chipMode ≤ 1 ∨ c.mode.going = 1) && decide (c.mode.going ≠ 2 ∧ c.mode.going ≠ 3) && decide (c.get K.refclkState = 0) &&
  decide (c.get K.pixelDieState ≠ 3) && decide (c.boot.phase = .ready)

/-- The start sequence begins: TAP_STATE of every tap, the supply switch, and no line of the latest run. -/
def Chip.headBegin (c : Chip) (h : Nat) : Chip :=
  let n := c.nat (K.tapCount h)
  let c := (List.range 16).foldl (fun (c : Chip) (t : Nat) =>
    c.set (K.tapState h t) (if t < n ∧ !bitOf (c.nat (K.tapEnable h)) t then 1 else 0)) c
  let c := c.modHead h (fun (p : HeadPort) => { p.linkRest with
    phase := .supply, verified := 0, firstGood := false, biasOver := false, checkRun := 0, opens := [], shorts := []
    supLow := 0, biasLow := List.replicate 8 0, vSum := List.replicate 16 0, vCount := List.replicate 16 0, vRun := List.replicate 16 0
    restart := false })
  ((c.set (K.runState h) 1).set (K.supState h) 1).refreshSets

/-! ### Head loss (R139 to R142) -/

/-- The frame in progress, up to the next frame start, ends with what has been processed; the rows that wait still come from the stored
frame, and the frame is marked HEAD_LOST, in its leap line and its blanking too. -/
def Chip.headLostFrame (c : Chip) (h : Nat) : Chip :=
  let c := c.markCurrent h markHeadLost
  match c.currentWork? h with
  | none => c
  | some w =>
    let drop := ((c.source h).fifo.filter (fun l => decide (l.frame = w.id) && !l.done)).length
    let c := c.modSource h (fun (x : Source) => { x with fifo := x.fifo.filter (fun l => !(decide (l.frame = w.id) && !l.done)) })
    let c := c.modWork h w.id (fun w => { w with left := w.left - drop })
    c.closeWorks h

/-- The outputs of a head off, its start sequence given up; the frame timing runs on. -/
def Chip.headOutputsOff (c : Chip) (h : Nat) : Chip :=
  let c := c.modHead h (fun (p : HeadPort) => { p.linkOff with
    phase := .idle, mclk := false, verified := 0, lost := true, lastFrame := false, supLow := 0, biasLow := List.replicate 8 0 })
  c.biasOff h

/-- A head is lost. One that stops reads RUN_STATE 5 until its stop ends, which no frame of it delays any more (R135, R139). -/
def Chip.loseHead (c : Chip) (h cause : Nat) : Chip :=
  let st := c.get (K.runState h)
  if !(1 ≤ st ∧ st ≤ 3) ∧ st ≠ 5 then c
  else
    let c := (c.headLostFrame h).headOutputsOff h
    let c := c.modHead h (fun (p : HeadPort) => { p with 
      failed := if p.retrying then p.failed + 1 else p.failed, retrying := false, biasOver := decide (cause = 3) })
    let c := if st = 5 then c.modHead h (fun (p : HeadPort) => { p with timing := false }) else c.set (K.runState h) 4
    let c := c.setAll [(K.supState h, if cause = 1 then 4 else 0), (K.lastLostTime h, c.now), (K.lastLostCause h, cause)]
    let c := ((c.bump (K.lostCount h)).raise 0 1 h 0xFF 0x1010 cause 0).emcyFor 0xFF02 1 0x1010
    ((c.solsticeHeadGone h false).headStopsStandin h (decide (st = 5))).calHeadGone h

/-- The start sequence, which fails at once where VBIAS is faulty (R133, Table 4.7). -/
def Chip.headStart (c : Chip) (h : Nat) : Chip :=
  if c.rails.fault.getD 9 false then (c.headBegin h).loseHead h 7 else c.headBegin h

/-- A write of 1 to RUN_REQUEST: R118, the geometry and admission; then the start, where heads may run. -/
def headRunRequest (h : Nat) (c : Chip) : Chip × Option Abort :=
  let st := c.get (K.runState h)
  if 1 ≤ st ∧ st ≤ 4 ∧ c.get (K.runRequest h) = 1 then (c, none)
  else if !c.timingOk h ∨ !c.geometryKeeps h then (c, some Abort.incompatible)
  else
    let (c, refused) := c.admitted (K.runRequest h) 1
    if refused then (c, some Abort.incompatible)
    else
      let c := c.set (K.runRequest h) 1
      if st = 5 then (c.modHead h (fun (p : HeadPort) => { p with restart := true }), none)
      else if c.headsMayRun then (c.headStart h, none)
      else (c, none)

/-- Every head that runs is lost with VBIAS (Table 4.8). -/
def Chip.loseHeads (c : Chip) : Chip := (List.range 4).foldl (fun (c : Chip) (h : Nat) => c.loseHead h 7) c

/-- HEAD_RETRY -/
def headRetry (h : Nat) (c : Chip) : Chip :=
  let p := c.head h
  if c.get (K.runState h) = 4 ∧ c.get (K.runRequest h) = 1 ∧ (c.get (K.retryMax h) = 0 ∨ p.failed < c.nat (K.retryMax h)) ∧ c.headsMayRun then
    (c.modHead h (fun (p : HeadPort) => { p with retrying := true })).headStart h
  else c

/-! ### Stop request -/

/-- A write of 0 to RUN_REQUEST (R135, R142). A head that starts for the first time has no frame to complete and ramps down at once
(assumption 99). -/
def headStopRequest (h : Nat) (c : Chip) : Chip :=
  let st := c.get (K.runState h)
  let p := c.head h
  let c := (c.set (K.runRequest h) 0).modHead h (fun (p : HeadPort) => { p with restart := false })
  if st = 4 ∨ (st ≠ 0 ∧ st ≠ 5 ∧ p.lost) then ((c.biasOff h).solsticeHeadGone h true).headRest h
  else if st = 1 then (c.set (K.runState h) 5).headRampDown h
  else if st = 2 ∨ st = 3 then
    let c := (c.set (K.runState h) 5).modHead h (fun (p : HeadPort) => { p with lastFrame := true })
    ((c.solsticeHeadGone h true).headStopsStandin h false).calHeadGone h
  else c

/-- The last frame of a stopping head completes. -/
def headLastFrameEnd (h : Nat) (c : Chip) : Chip :=
  if c.get (K.runState h) = 5 ∧ (c.head h).lastFrame then c.headRampDown h else c

/-- The bias outputs of a stopping head have reached 0 V. -/
def headStopComplete (h : Nat) (c : Chip) : Chip :=
  let p := c.head h
  if c.get (K.runState h) = 5 ∧ !p.lastFrame ∧ !c.ramping h ∧ p.bias = List.replicate 8 0 then
    let c := c.headRest h
    if p.restart ∧ c.get (K.runRequest h) = 1 ∧ c.headsMayRun then c.headStart h else c
  else c

/-! ### The configuration link (R126 to R130) -/

/-- CFG_STATUS: requests queued, sequence, last compare. -/
def Chip.cfgStatus (c : Chip) (h : Nat) (bad : Bool) : Chip :=
  let p := c.head h
  let queued := (p.queue.filter (fun t => decide (t.user = .request))).length
  c.set (K.cfgStatus h) (queued + p.cfgSeq * 256 + (if bad then 2 ^ 24 else 0) : Nat)

/-- Bit 24 of CFG_STATUS. -/
def Chip.cfgBad (c : Chip) (h : Nat) : Bool := bitOf (c.nat (K.cfgStatus h)) 24

/-- A write to CFG_REQUEST. -/
def cfgRequest (h v : Nat) (c : Chip) : Except Abort Chip :=
  let p := c.head h
  guardNot (decide (16 ≤ (p.queue.filter (fun t => decide (t.user = .request))).length)) Abort.localControl <|
  let t : CfgTx := {
    user := .request, read := bitOf v 63, addr := bits v 47 32 % 2 ^ c.nat (K.cfgAddrBits h), data := bits v 31 0 % 2 ^ c.nat (K.cfgDataBits h) }
  .ok ((c.modHead h (fun (p : HeadPort) => { p with queue := p.queue ++ [t] })).cfgStatus h (c.cfgBad h))

/-- The initial band, the bias ramp, and the end of the script (R133, R189). -/
def Chip.startRamp (c : Chip) (h : Nat) : Chip :=
  let c := c.set (K.currentBand h) (c.bandAtStart h)
  let c := c.selectTrims h (c.nat (K.trimSet (c.bandIx h)))
  (c.modHead h (fun (p : HeadPort) => { p with phase := .ramp })).applyBias h true

/-- The next entry of the script (Table 4.6): a transaction at the front of the queue, a wait, or the end. -/
def Chip.scriptNext (c : Chip) (h : Nat) : Chip :=
  let p := c.head h
  if p.script.length < 8 then c.startRamp h
  else
    let e := leNat (p.script.take 8)
    let c := c.modHead h (fun (p : HeadPort) => { p with script := p.script.drop 8 })
    let op := bits e 63 62
    if op = 3 then c.modHead h (fun (p : HeadPort) => { p with scriptWait := true })
    else
      let t : CfgTx := {
        user := if op = 1 then .compare else .script, read := decide (op ≠ 0), addr := bits e 47 32 % 2 ^ c.nat (K.cfgAddrBits h)
        data := if op = 0 then bits e 31 0 % 2 ^ c.nat (K.cfgDataBits h) else bits e 31 0 }
      c.modHead h (fun (p : HeadPort) => { p with queue := t :: p.queue })

/-- SUP_SETTLE ends: the supply is checked, SUP_STATE passes from soft start to on, unless the supply is in current limit (assumption
89), MCLK starts and the script runs. -/
def headSupplySettled (h : Nat) (c : Chip) : Chip :=
  if (c.head h).phase ≠ .supply then c
  else if c.rails.fault.getD 9 false then c.loseHead h 7
  else if c.get (K.supCurrent h) < c.get (K.supMinCurrent h) then c.loseHead h 2
  else
    let c := if c.get (K.supState h) = 3 then c else c.set (K.supState h) 2
    (c.modHead h (fun (p : HeadPort) => { p with mclk := true, phase := .script, script := c.domainImage (K.cfgInit h) })).scriptNext h

/-- BIAS_SETTLE ends: the next frame start begins verification. -/
def headBiasSettled (h : Nat) (c : Chip) : Chip :=
  if (c.head h).phase = .ramp ∧ !c.ramping h then c.modHead h (fun (p : HeadPort) => { p with phase := .frame, timing := true }) else c

/-- A transaction starts: while the head runs, in the leap line or blanking only (R127). -/
def cfgTransactionStart (h : Nat) (c : Chip) : Chip :=
  let p := c.head h
  let st := c.get (K.runState h)
  if p.active.isSome ∨ st = 4 ∨ ((st = 2 ∨ st = 3 ∨ st = 5) ∧ p.timing ∧ !p.gap) then c
  else match p.queue with
    | [] => c
    | t :: rest =>
      let c := c.modHead h (fun (p : HeadPort) => { p with queue := rest, active := some t })
      (c.cfgStatus h (c.cfgBad h)).emit (.config h t.read t.addr (if t.read then 0 else t.data))

/-- A transaction completes; `data` is what the link carried in the data bits of a read. -/
def cfgTransactionComplete (h data : Nat) (c : Chip) : Chip :=
  match (c.head h).active with
  | none => c
  | some t =>
    let w := c.nat (K.cfgDataBits h)
    let v := data % 2 ^ w
    let c := c.modHead h (fun (p : HeadPort) => { p with active := none, cfgSeq := nextSeq p.cfgSeq 0xFFFF })
    let c := if t.read then c.set (K.cfgReadData h) v else c
    match t.user with
    | .request => c.cfgStatus h (c.cfgBad h)
    | .script => (c.cfgStatus h (c.cfgBad h)).scriptNext h
    | .compare =>
      let bad := decide (v ≠ t.data)
      let c := c.cfgStatus h bad
      if bad then c.loseHead h 9 else c.scriptNext h
    | .check =>
      let bad := decide (v ≠ c.nat (K.cfgCheckValue h))
      let c := c.cfgStatus h bad
      let c := c.modHead h (fun (p : HeadPort) => { p with checkRun := if bad then p.checkRun + 1 else 0 })
      if bad then c.bump (K.cfgCheckFails h) else c
    | .tfpa => (c.cfgStatus h (c.cfgBad h)).modHead h (fun (p : HeadPort) => { p with tfpaReg := some (sx v w) })

/-- The wait of a script entry ends. -/
def cfgScriptWaitEnd (h : Nat) (c : Chip) : Chip :=
  if (c.head h).scriptWait then (c.modHead h (fun (p : HeadPort) => { p with scriptWait := false })).scriptNext h else c

/-- Three consecutive check mismatches lose the head. -/
def cfgCheckFailure (h : Nat) (c : Chip) : Chip := if 3 ≤ (c.head h).checkRun then c.loseHead h 6 else c

/-- The reads that the leap line of a running head asks for: the check, then TFPA_REGISTER (R129, R130). -/
def Chip.gapReads (c : Chip) (h : Nat) : Chip :=
  let tx := fun (u : CfgUser) (a : Nat) => ({ user := u, read := true, addr := a % 2 ^ c.nat (K.cfgAddrBits h), data := 0 } : CfgTx)
  let due := (if c.on (K.cfgCheckEnable h) then [tx .check (c.nat (K.cfgCheckAddress h))] else []) ++
    (if c.get (K.tfpaSource h) = 1 then [tx .tfpa (c.nat (K.tfpaRegister h))] else [])
  c.modHead h (fun (p : HeadPort) => { p with queue := due ++ p.queue.filter (fun t => decide (t.user ≠ .check ∧ t.user ≠ .tfpa)) })

/-! ### Faults (Table 4.8) -/

/-- Taps of a head out of service. -/
def Chip.outTaps (c : Chip) (h : Nat) : List Nat := (List.range (c.nat (K.tapCount h))).filter (fun t => c.tapOut h t)

/-- Whether R138 holds. -/
def Chip.tapsLost (c : Chip) (h : Nat) : Bool := tapsLose (c.nat (K.tapCount h)) (c.outTaps h)

/-- A tap fault's state, count and record; the frame in progress is marked SUBST where the tap goes out of service while rows of it
still come (assumption 90). -/
def Chip.tapOutOf (c : Chip) (h t st code : Nat) (resp : Int) : Chip :=
  let c := ((c.set (K.tapState h t) st).bump (K.tapFaults h t)).raise 0 1 h t code t (lowBits resp 32)
  if st = 5 then c else match (c.source h).open' with
    | some w => c.modWork h w.id (fun w => w.mark markSubst)
    | none => c

/-- R138 for a running head, or one whose last frame runs. -/
def Chip.tapsJudged (c : Chip) (h : Nat) : Chip :=
  if (c.get (K.runState h) = 3 ∨ c.get (K.runState h) = 5) ∧ c.tapsLost h then c.loseHead h 5 else c

/-- A tap fault, after which a running head may be lost. -/
def Chip.tapFault (c : Chip) (h t st code : Nat) (resp : Int) : Chip := (c.tapOutOf h t st code resp).tapsJudged h

/-- Whether a tap of a running head, or of one whose last frame runs, is in service. -/
def Chip.tapServes (c : Chip) (h t : Nat) : Bool :=
  (decide (c.get (K.runState h) = 2 ∨ c.get (K.runState h) = 3) || (decide (c.get (K.runState h) = 5) && (c.head h).timing)) && decide (t < c.nat (K.tapCount h)) && !c.tapOut h t

/-- TAP_RAIL_SHORT -/
def tapRailShort (h t : Nat) (c : Chip) : Chip :=
  if c.tapServes h t then c.tapFault h t 3 0x1002 (c.get (K.tapTestResponse h t)) else c

/-- HEAD_SUPPLY_OVERCURRENT: the supply enters or leaves current limit, shown in SUP_STATE, or has been in it for 1 ms (R136). -/
def headSupplyOvercurrent (h : Nat) (e : LimitEvent) (c : Chip) : Chip :=
  let st := c.get (K.supState h)
  if st = 0 ∨ st = 4 then c
  else match e with
    | .entered => c.set (K.supState h) 3
    | .left => if st = 3 then c.set (K.supState h) (if (c.head h).phase = .supply then 1 else 2) else c
    | .lasted => c.loseHead h 1

/-- HEAD_SUPPLY_UNDERCURRENT: ten completed rounds in a row have found the current low. -/
def headSupplyUndercurrent (h : Nat) (c : Chip) : Chip := if 10 ≤ (c.head h).supLow then c.loseHead h 2 else c

/-- BIAS_OVERCURRENT: an output enters or leaves current limit, or has been in it for 1 ms (R136). -/
def biasOvercurrent (h b : Nat) (e : LimitEvent) (c : Chip) : Chip :=
  if bitOf (c.nat (K.biasEnable h)) b ∧ (c.head h).mclk then
    match e with
    | .entered => c.modHead h (fun (p : HeadPort) => { p with biasLimited := putBit p.biasLimited b true })
    | .left => c.modHead h (fun (p : HeadPort) => { p with biasLimited := putBit p.biasLimited b false })
    | .lasted => c.loseHead h 3
  else c

/-- BIAS_OPEN: ten completed rounds in a row have found the output's current low. -/
def biasOpen (h b : Nat) (c : Chip) : Chip := if 10 ≤ (c.head h).biasLow.getD b 0 then c.loseHead h 4 else c

/-- A verification frame ends: taps whose mean swing has the wrong sign and 256 codes or more (R134). -/
def Chip.endSwing (c : Chip) (h : Nat) : Chip :=
  let neg := c.get (K.signalSign h) = 0
  c.modHead h (fun (p : HeadPort) => { p with
    vRun := p.vRun.zipIdx.map (fun (r, t) =>
      let s := p.vSum.getD t 0
      let n := p.vCount.getD t 0
      let wrong := decide (n ≠ 0) && (if neg then decide (s ≤ -256 * (n : Int)) else decide (256 * (n : Int) ≤ s))
      if wrong then r + 1 else 0)
    vSum := List.replicate 16 0, vCount := List.replicate 16 0 })

/-- Frames of verification (R134). -/
def Chip.verifyFrames (c : Chip) (h : Nat) : Nat := max (2 * c.nat (K.tapCount h)) 4

/-- HEAD_VERIFICATION_END -/
def headVerificationEnd (h : Nat) (c : Chip) : Chip :=
  if c.get (K.runState h) = 2 ∧ c.verifyFrames h ≤ (c.head h).verified then
    let c := c.endSwing h
    let p := c.head h
    let c := (List.range (c.nat (K.tapCount h))).foldl (fun (c : Chip) (t : Nat) =>
      if c.tapServes h t ∧ 4 ≤ p.vRun.getD t 0 then
        c.tapFault h t (if c.on (K.tapAutoSwap h) then 5 else 6) 0x1004 (c.get (K.tapTestResponse h t))
      else c) c
    if c.tapsLost h then c.loseHead h 8
    else
      (c.set (K.runState h) 3).modHead h (fun (p : HeadPort) => { p with firstGood := true, lost := false, failed := 0, retrying := false })
  else c

/-! ### Triggers (R121, R397) -/

/-- MCLK periods of a head in 1/6 ns. -/
def Chip.mclks (c : Chip) (h n : Nat) : Nat := n * c.nat (K.mclkDiv h) * 25

/-- A trigger reaches a head: it is too early where its frame would start too soon after the latest frame start, or after the one that
an accepted trigger is still to bring (R121). -/
def Chip.triggerHead (c : Chip) (h : Nat) : Chip :=
  let p := c.head h
  if c.get (K.triggerMode h) ≠ 1 ∨ !p.timing then c
  else
    let at6 := c.mono * 6 + c.mclks h (c.nat (K.lineLength h))
    let least := c.mclks h (((geoOf c.dict h).h + c.nat (K.readLag h) + 1) * c.nat (K.lineLength h))
    if at6 < p.trigAt.getD (p.startAt * 6) + least then c.bump (K.earlyTriggers h)
    else c.modHead h (fun (p : HeadPort) => { p with trigAt := some at6, freeRun := false })

/-- TRIGGER_DELIVERY: the first waiting trigger for a head whose target time has come. -/
def triggerDelivery (h : Nat) (c : Chip) : Chip :=
  match c.psi.waiting.find? (fun t => bitOf t.heads h && decide (t.target ≤ c.now)) with
  | none => c
  | some t =>
    let rest := putBit t.heads h false
    let swap := fun (x : Trigger) => if x = t then { t with heads := rest } else x
    let l := (c.psi.waiting.map swap).filter (fun x => decide (x.heads ≠ 0))
    ({ c with psi := { c.psi with waiting := l } } : Chip).triggerHead h

/-! ### Meanings -/

/-- HEAD_RUN_REQUEST -/
def execHeadRunRequest (m : Master) (h : Fin 4) (s : State) : Res := run s (fun c => c.command2 m (K.runRequest h) (headRunRequest h.val))

/-- HEAD_STOP_REQUEST -/
def execHeadStopRequest (m : Master) (h : Fin 4) (s : State) : Res :=
  run s (fun c => c.command m (K.runRequest h) (fun c => .ok (headStopRequest h.val c)))

/-- HEAD_LAST_FRAME_END -/
def execHeadLastFrameEnd (h : Fin 4) (s : State) : Res := run s (headLastFrameEnd h.val)

/-- HEAD_STOP_COMPLETE -/
def execHeadStopComplete (h : Fin 4) (s : State) : Res := run s (headStopComplete h.val)

/-- HEAD_SUPPLY_SETTLED -/
def execHeadSupplySettled (h : Fin 4) (s : State) : Res := run s (headSupplySettled h.val)

/-- HEAD_BIAS_SETTLED -/
def execHeadBiasSettled (h : Fin 4) (s : State) : Res := run s (headBiasSettled h.val)

/-- CFG_REQUEST -/
def execCfgRequest (m : Master) (h : Fin 4) (v : BitVec 64) (s : State) : Res :=
  run s (fun c => c.command m (K.cfgRequest h) (cfgRequest h.val v.toNat))

/-- CFG_TRANSACTION_START -/
def execCfgTransactionStart (h : Fin 4) (s : State) : Res := run s (cfgTransactionStart h.val)

/-- CFG_TRANSACTION_COMPLETE -/
def execCfgTransactionComplete (h : Fin 4) (data : BitVec 32) (s : State) : Res := run s (cfgTransactionComplete h.val data.toNat)

/-- CFG_SCRIPT_WAIT_END -/
def execCfgScriptWaitEnd (h : Fin 4) (s : State) : Res := run s (cfgScriptWaitEnd h.val)

/-- CFG_CHECK_FAILURE -/
def execCfgCheckFailure (h : Fin 4) (s : State) : Res := run s (cfgCheckFailure h.val)

/-- HEAD_VERIFICATION_END -/
def execHeadVerificationEnd (h : Fin 4) (s : State) : Res := run s (headVerificationEnd h.val)

/-- TAP_RAIL_SHORT -/
def execTapRailShort (h : Fin 4) (tap : Fin 16) (s : State) : Res := run s (tapRailShort h.val tap.val)

/-- HEAD_SUPPLY_OVERCURRENT -/
def execHeadSupplyOvercurrent (h : Fin 4) (s : State) (e : LimitEvent := .lasted) : Res := run s (headSupplyOvercurrent h.val e)

/-- HEAD_SUPPLY_UNDERCURRENT -/
def execHeadSupplyUndercurrent (h : Fin 4) (s : State) : Res := run s (headSupplyUndercurrent h.val)

/-- BIAS_OVERCURRENT -/
def execBiasOvercurrent (h : Fin 4) (b : Fin 8) (s : State) (e : LimitEvent := .lasted) : Res := run s (biasOvercurrent h.val b.val e)

/-- BIAS_OPEN -/
def execBiasOpen (h : Fin 4) (b : Fin 8) (s : State) : Res := run s (biasOpen h.val b.val)

/-- HEAD_RETRY -/
def execHeadRetry (h : Fin 4) (s : State) : Res := run s (headRetry h.val)

/-- TRIGGER_DELIVERY -/
def execTriggerDelivery (h : Fin 4) (s : State) : Res := run s (triggerDelivery h.val)

end Sys2Proof.Machine
end

