-- ==== Sys2Proof/Machine/HeadFrames.lean ====
section
/-! DEFINITION. The frame start of a head (R22), its blanking, and the trigger timeout (R121). -/

namespace Sys2Proof.Machine

/-! ### The steps of R22 -/

/-- What steps 1 to 5 leave: the frame with its marks, and what steps 3 and 4 ask for. -/
structure HeadFrame where
  w : Work
  initial : Bool
  first : Bool
  applied : Bool
  band : Bool
  switched : Bool
  deriving DecidableEq, Repr

/-- Step 1 and the progress of verification: number, capture time, RUN_STATE 2 at the first verification frame. -/
def Chip.headFrameOpen (c : Chip) (h : Nat) : Chip × HeadFrame :=
  let p := c.head h
  let c := if c.get (K.runState h) = 2 ∧ 0 < p.verified then c.endSwing h else c
  let initial := decide (p.phase = .frame)
  let c := if initial then c.set (K.runState h) 2 else c
  let c := if initial ∧ c.get K.vrefState = 0 then
      { c with cal := { c.cal with leap := modAt c.cal.leap h (fun _ => c.leapTargets h) } }
    else c
  let (n, c) := c.takeNumber h
  let c := c.set (K.frameNumber h) n
  let verified := if initial then 1 else if c.get (K.runState h) = 2 then p.verified + 1 else p.verified
  let c := c.modHead h (fun (p : HeadPort) => { p with
    phase := if initial then .idle else p.phase, verified := verified, startAt := c.mono, trigAt := none, gap := false, rows := 0
    firstGood := false, calGap := false })
  let w : Work := { id := 0, number := n, cap := c.now }
  let w := w.markIf ((c.get (K.triggerMode h) = 1 && p.freeRun) || c.syncLost) markSyncLost
  (c, { w := w.markIf p.calGap markCalGap, initial := initial, first := p.firstGood, applied := false, band := false, switched := false })

/-- Step 2: the staged writes of the head. -/
def Chip.headFrameApply (c : Chip) (h : Nat) (f : HeadFrame) : Chip × HeadFrame :=
  let n := c.staged.length
  let c := c.applyStaged h
  (c, { f with applied := decide (c.staged.length ≠ n) })

/-- Step 3: the band, its selections, the set in force, and the bias ramp (R189 to R191, R124). -/
def Chip.headFrameBand (c : Chip) (h : Nat) (f : HeadFrame) : Chip × HeadFrame :=
  let b := if f.initial then c.bandAtStart h else c.bandNow h
  let changed := decide (b ≠ c.nat (K.currentBand h)) && !f.initial
  let c := c.set (K.currentBand h) b
  let c := if changed then (c.bump (K.almanacBandChanges h)).set (K.lastBandChangeTime h) f.w.cap else c
  let c := c.selectTrims h (c.nat (K.trimSet (c.bandIx h)))
  let c := if (c.head h).revert then (c.revertHead h).modHead h (fun (p : HeadPort) => { p with revert := false }) else c
  let (c, switched) := c.stepSet h changed
  let st := c.get (K.runState h)
  let c := if st = 2 ∨ st = 3 ∨ (c.head h).phase = .ramp then c.applyBias h changed else c
  let switched := switched && !f.initial
  let w := f.w.markIf (changed || switched || (c.ramping h && !f.initial)) markBandChange
  (c, { f with w := w, band := changed, switched := switched })

/-- What the FPA timing generator of a head drives in a frame, with the integration times of the band in force (R115 to R117). -/
def Chip.headSignals (c : Chip) (h : Nat) : HeadSignals :=
  let g := geoOf c.dict h
  let pulse := fun (bit start length : Nat) => ({ start := start, length := length, high := !bitOf (c.nat (K.syncPolarity h)) bit } : HeadPulse)
  { mclk := c.nat (K.mclkDiv h), line := c.nat (K.lineLength h), rows := g.h, flush := c.on (K.readLag h), fsync := pulse 1 0 1, lsync := pulse 0 0 1
    intl := pulse 2 (c.nat (K.intlStart h)) (c.nat (K.tauL (c.bandIx h)))
    ints := if g.n = 2 then some (pulse 3 (c.nat (K.intsStart h)) (c.nat (K.tauS (c.bandIx h)))) else none }

/-- The timing outputs of a frame begin, while MCLK runs; those of a lost head stay low (R139). -/
def Chip.headSync (c : Chip) (h : Nat) : Chip := if (c.head h).mclk then c.emit (.frameSync h (c.headSignals h)) else c

/-- Whether a Solstice closes, settles, averages, reopens or is stuck. -/
def Chip.solsticeRuns (c : Chip) (h : Nat) : Bool := (c.solstice h).ev.isSome

/-- Steps 4 and 5: Solstice, then the converter bank. -/
def Chip.headFrameSolstice (c : Chip) (h : Nat) (f : HeadFrame) : Chip × HeadFrame :=
  let runs := c.solsticeRuns h
  let c := c.startPasses h
  let retires := !(c.bank h).retiring.isEmpty
  let c := c.solsticeStep h {
    cap := f.w.cap, applied := f.applied, band := f.band || f.switched, marked := f.w.marked markBandChange, retires := retires }
  let st := c.get (K.runState h)
  let (c, subst) := c.bankStep h (!f.w.marked markBandChange && !c.solsticeRuns h) (!(st = 2 || st = 3))
  let c := c.calNext h
  let moved := (f.switched || f.band) && !(runs && c.solsticeRuns h)
  let c := if moved then c.modSource h (fun (x : Source) => { x with eqxNow := true }) else c
  let w := f.w.markIf (subst || ((st = 2 || st = 3) && c.tapsOut h ≠ 0)) markSubst
  (c, { f with w := { w with
    tnrSeed := f.first || ((f.band || f.switched) && c.on (K.tnrBandReseed h)), eqxSeed := f.first } })

/-- How a frame is delivered: whether steps 4 to 8 run, whether steps 9 to 12 run, and its marks. -/
structure Delivery where
  front : Bool
  process : Bool
  marks : Nat
  seeds : Bool
  deriving DecidableEq, Repr

/-- Step 6 and the delivery of a frame (R140, R182, R183, R235, R250, R256, R459, Table 16.6). `seeds` says that the frames that
are not processed seed the temporal filter (Table 10.2). -/
def Chip.headDelivery (c : Chip) (h : Nat) (cap : Nat) : Delivery :=
  let p := c.head h
  let st := c.get (K.runState h)
  let level := c.get K.throttleLevel
  let pix := !c.regionRestarting 2
  let nominated := decide (c.get K.thrL3Head = h)
  let soon := match p.pacedAt with
    | some t => decide ((cap + 2 ^ 64 - t) % 2 ^ 64 < 66600000)
    | none => false
  let held := decide (3 ≤ level) && (!nominated || soon)
  let throttled := if 3 ≤ level then markRepeated + markThrottled else 0
  let under := match p.set with
    | some s => c.passOn s
    | none => false
  if st ≠ 3 ∨ p.lost then
    { front := false, process := false, marks := Nat.lor (if p.lost then markRepeated + markHeadLost else markRepeated) throttled, seeds := true }
  else if c.solsticeRuns h then
    let stuck := if c.get (K.solsticeState h) = 7 then markRepeated else 0
    { front := pix && !under && !held && p.set.isSome, process := false, seeds := true
      marks := Nat.lor (markFrozen + stuck) (Nat.lor throttled (if pix then 0 else markRepeated)) }
  else if under then { front := false, process := false, marks := Nat.lor markFrozen throttled, seeds := true }
  else if p.set.isNone then { front := false, process := false, marks := Nat.lor markRepeated throttled, seeds := true }
  else if !pix then { front := false, process := false, marks := Nat.lor markRepeated throttled, seeds := true }
  else if held then { front := false, process := false, marks := throttled, seeds := !nominated }
  else { front := true, process := true, marks := if 2 ≤ level then markThrottled else 0, seeds := false }

/-- The frame begins on the pixel die. -/
def Chip.headFrameBegin (c : Chip) (h : Nat) (f : HeadFrame) : Chip :=
  let d := c.headDelivery h f.w.cap
  let b := c.bandIx h
  let s := ((c.head h).set).getD 32
  let averages := d.front && c.solsticeAverages h
  let x := c.solstice h
  let anchors := if x.handOver && !f.w.eqxSeed then x.anchors else []
  let c := c.modSol h (fun (x : Solstice) => { x with
    frames := if averages then x.frames + 1 else x.frames, handOver := false })
  let c := if d.process then c.modHead h (fun (p : HeadPort) => { p with pacedAt := some f.w.cap }) else c
  let c := if d.seeds then c.modSource h (fun (x : Source) => { x with tnrSeed := true }) else c
  let unset := decide (c.get (K.runState h) = 3) && (c.head h).set.isNone
  let st := c.get (K.runState h)
  let w : Work := { f.w with
    marks := Nat.lor f.w.marks d.marks, band := c.nat (K.currentBand h), front := d.front, process := d.process
    average := averages, silent := c.regionRestarting 3, tFpa := c.get (K.tfpaTemperature h), tRef := c.get (K.tRef b)
    rho := c.nat (K.hdrRho b), resp := c.nat (K.respIndex b)
    records := if d.front then ((c.setData s).map (·.view)).getD [] else [], recBase := ((c.setData s).map (·.base)).getD 0
    bypassSnr := decide (2 ≤ c.get K.throttleLevel), anchors := anchors }
  let c := c.beginFrame h w (st = 2 || st = 3)
  if unset then c.modSource h (fun (x : Source) => { x with eqxSeed := true }) else c

/-- A frame start of a head. -/
def Chip.headFrame (c : Chip) (h : Nat) : Chip :=
  let (c, f) := c.headFrameOpen h
  let (c, f) := c.headFrameApply h f
  let (c, f) := c.headFrameBand h f
  let (c, f) := (c.headSync h).headFrameSolstice h f
  let c := if c.get (K.runState h) = 3 ∧ c.tapsLost h then c.loseHead h 5 else c
  let c := c.modHead h (fun (p : HeadPort) => { p with level := c.nat K.throttleLevel })
  if c.pixelRuns then c.headFrameBegin h f else c

/-- HEAD_FRAME_START: the timing runs free, or an accepted trigger brings the frame. -/
def headFrameStart (h : Nat) (c : Chip) : Chip :=
  let p := c.head h
  if !p.timing ∨ p.lastFrame ∨ (c.get (K.triggerMode h) = 1 ∧ !p.freeRun ∧ p.trigAt.isNone) then c else c.headFrame h

/-- TRIGGER_TIMEOUT: no trigger was accepted in time, and the port starts a frame itself. -/
def triggerTimeout (h : Nat) (c : Chip) : Chip :=
  let p := c.head h
  if p.timing ∧ !p.lastFrame ∧ c.get (K.triggerMode h) = 1 ∧ !p.freeRun ∧ p.trigAt.isNone then
    (((c.modHead h (fun (p : HeadPort) => { p with freeRun := true })).bump (K.missedTriggers h))).headFrame h
  else c

/-- BLANKING_START: the exchange of R154 in parallel, and transactions may still start. -/
def blankingStart (h : Nat) (c : Chip) : Chip :=
  if (c.head h).timing then
    (c.modHead h (fun (p : HeadPort) => { p with gap := true })).blankStandin h
  else c

/-- HEAD_FRAME_START -/
def execHeadFrameStart (h : Fin 4) (s : State) : Res := run s (headFrameStart h.val)

/-- TRIGGER_TIMEOUT -/
def execTriggerTimeout (h : Fin 4) (s : State) : Res := run s (triggerTimeout h.val)

/-- BLANKING_START -/
def execBlankingStart (h : Fin 4) (s : State) : Res := run s (blankingStart h.val)

end Sys2Proof.Machine
end

