-- ==== Sys2Proof/Machine/Calibration.lean ====
section
/-! DEFINITION. The calibration unit (R193 to R201) and the leap line of a head (R119, R120, R129, R136). -/

namespace Sys2Proof.Machine

/-! ### Runs -/

/-- Valid front-die sensors. -/
def Chip.frontSensors (c : Chip) : List Nat := [0, 1, 2].filter (fun j => c.get (K.sensorState j) = 0)

/-- The mean of the valid front-die sensors (R194). -/
def Chip.frontMean (c : Chip) : Option Int :=
  match c.frontSensors with
  | [] => none
  | l => some (rneDiv (sumI (l.map (fun j => c.get (K.sensorTemp j)))) l.length)

/-- A trigger of a run; at most one is held (R194). -/
def Chip.calTrigger (c : Chip) : Chip := ({ c with cal := { c.cal with held := true } } : Chip).refreshCal

/-- Converters of a bank in the order of R195: those that serve slots, in slot order, then the idle spares. -/
def Chip.bankTargets (c : Chip) (b : Nat) : List Nat := (List.range 32).filterMap (fun s => c.server b s) ++ c.idleSpares b

/-- A triggered run starts (R195): a buffer that no running head uses is compared at once. None starts while REFCLK is lost (R31). -/
def calRunStart (refs : List CalStep) (c : Chip) : Chip :=
  if !c.cal.held ∨ c.cal.running ∨ !c.vrefGood ∨ c.get K.refclkState ≠ 0 then c
  else
    let c := match c.frontMean with
      | some t => c.set K.calRunTemp t
      | none => c
    let c := { c with cal := { c.cal with
      running := true, held := false, stopping := false, refbuf := [0, 1], conv := tab 4 c.bankTargets
      leap := tab 4 (fun h => if c.headImages h then c.leapTargets h else []) } }
    let c := (refs.zipIdx).foldl (fun (c : Chip) (t, r) => if (c.bufferHeads r).isEmpty then c.bufferStep r t none else c) c
    c.calBanks.refreshCal

/-- Whether no target of a run is left. -/
def Chip.calDone (c : Chip) : Bool :=
  c.cal.refbuf.isEmpty && c.cal.conv.all (·.isEmpty) && c.banks.all (fun k => k.sub.isNone) &&
  (List.range 4).all (fun h => (at' c.cal.leap h).isEmpty || !c.headImages h)

/-- CAL_RUN_COMPLETE -/
def calRunComplete (c : Chip) : Chip :=
  if c.cal.running ∧ !c.cal.stopping ∧ c.calDone then
    let c := (c.bump K.calRuns).set K.calLastRunTime c.now
    ({ c with cal := { c.cal with running := false } } : Chip).refreshCal
  else c

/-- Whether the first converter of a bank's list is under calibration: it stands off its slot, or it is on the calibration node. -/
def Chip.calUnder (c : Chip) (b : Nat) : Bool :=
  match (at' c.cal.conv b).head?, (c.bank b).sub with
  | some j, none => decide (c.get (K.convState b j) = 4)
  | some _, some x => decide (x.phase = .standing ∨ x.phase = .rejoined)
  | none, _ => false

/-- VREF_EXT is out of its range: what a run has not begun is left to the next run, and so are the steps that a head start added
(R193). -/
def Chip.calInterrupt (c : Chip) : Chip :=
  let c := { c with cal := { c.cal with leap := List.replicate 4 [] } }
  if !c.cal.running ∨ c.cal.stopping then c
  else
    let c := (List.range 4).foldl (fun (c : Chip) (b : Nat) =>
      let under := c.calUnder b
      let c := match (c.bank b).sub with
        | some x => if under then c else c.cancelStandin b x
        | none => c
      { c with cal := { c.cal with conv := modAt c.cal.conv b (fun (l : List Nat) => if under then l.take 1 else []) } }) c
    ({ c with cal := { c.cal with stopping := true, refbuf := [] } } : Chip).calStop

/-- The values a calibration writes: analogue codes of 10 bits, digital values held to Table 5.6 (R196). -/
def trimFrom (off gain : Nat) (oc gc : Int) : Trim := {
  off := off, gain := gain, oc := clampI oc (-2048) 2047, gc := clampI gc 0x6000 0xA000 }

/-- CONVERTER_CALIBRATION_COMPLETE: the converter under calibration in a bank. One that a spare stands in for takes its new trims, and is
counted, when it takes its slot back (R157, R201); one on the calibration node at once. No conversion ends while REFCLK is lost (R31). -/
def converterCalibrated (b : Nat) (t : Trim) (c : Chip) : Chip :=
  match at' c.cal.conv b with
  | [] => c
  | j :: _ =>
    if !c.cal.running ∨ c.cal.refbuf ≠ [] ∨ c.get (K.convState b j) = 5 ∨ c.get K.refclkState ≠ 0 then c
    else
      match (c.bank b).sub with
      | some x =>
        if x.conv = j ∧ (x.phase = .standing ∨ x.phase = .rejoined) ∧ (c.bank b).fresh.isNone then
          c.modBank b (fun (k : ConvBank) => { k with fresh := some (j, t) })
        else c
      | none =>
        if c.get (K.convState b j) = 4 then
          let c := ((c.newTrim b j t).calCounted b j).offNode b j
          (({ c with cal := { c.cal with conv := modAt c.cal.conv b (fun (l : List Nat) => l.drop 1) } } : Chip).calNext b)
        else c

/-! ### CAL_REVERT (R199) -/

/-- The previous code of a reference buffer. -/
def Chip.previousBuffer (c : Chip) (r : Nat) : Int := (at' c.cal.prevRef r).getD (objDefault (K.refbufTrim r))

/-- A write to CAL_REVERT. -/
def calRevert (v : Nat) (c : Chip) : Except Abort Chip :=
  guardNot (decide (4 < v)) Abort.tooHigh <|
  guardNot (c.cal.running || (decide (v < 4) && c.solsticeRuns v)) Abort.localControl <|
  let c := c.bump K.calReverts
  if v < 4 then
    if c.get (K.runState v) = 0 then .ok (c.revertHead v)
    else .ok (c.modHead v (fun (p : HeadPort) => { p with revert := !p.revert, calGap := true }))
  else
    .ok ([0, 1].foldl (fun (c : Chip) (r : Nat) =>
      let code := c.previousBuffer r
      if (c.bufferHeads r).isEmpty then c.putBuffer r code none true
      else
        let flip := fun (x : Option Int) => if x.isSome then none else some code
        { c with cal := { c.cal with refRevert := modAt c.cal.refRevert r flip } }) c)

/-! ### The leap line -/

/-- The tap test (R119, R136): the tested tap's response, whether or not it is in service; an open on two consecutive tests, a short on
two consecutive tests, whose taps all leave service before R138 is judged. -/
def Chip.tapTest (c : Chip) (h : Nat) (resp : List Int) : Chip :=
  let n := max 1 (c.nat (K.tapCount h))
  let t := c.nat (K.frameNumber h) % n
  let own := resp.getD t 0
  let p := c.head h
  let isOpen := decide (100000 < own)
  let hits := (List.range n).filter (fun u => u ≠ t ∧ 500 < resp.getD u 0 ∧ own < 2 * resp.getD u 0)
  let again := hits.filter (fun u => (t, u) ∈ p.shorts)
  let c := (c.set (K.tapTestResponse h t) own).modHead h (fun (p : HeadPort) => { p with
    opens := if isOpen then t :: p.opens.erase t else p.opens.erase t
    shorts := p.shorts.filter (fun e => e.1 ≠ t) ++ hits.map (fun u => (t, u)) })
  let c := if isOpen && decide (t ∈ p.opens) && c.tapServes h t then c.tapFault h t 2 0x1001 own else c
  let short := if again.isEmpty then [] else (t :: again).filter (fun u => c.tapServes h u)
  let c := short.foldl (fun (c : Chip) (u : Nat) => c.tapOutOf h u 4 0x1003 (resp.getD u 0)) c
  if short.isEmpty then c else c.tapsJudged h

/-- The calibration step of a leap line (R197): the next target of the head. -/
def Chip.leapStep (c : Chip) (h : Nat) (step : Option CalStep) : Chip :=
  match at' c.cal.leap h, step with
  | t :: rest, some s =>
    if c.solsticeRuns h ∨ c.get K.vrefState ≠ 0 ∨ (c.cal.running ∧ c.cal.refbuf ≠ []) then c
    else
      let c := { c with cal := { c.cal with leap := modAt c.cal.leap h (fun _ => rest) } }
      let (old, new, c) := match t with
        | .afe k =>
          (c.get (K.afeTrim h k), (s.code.toNat : Int), (c.bump (K.calCountAfe h k)).set (K.calTimeAfe h k) c.now)
        | .bias k =>
          (c.get (K.biasTrim h k), ((min s.code.toNat 1023 : Nat) : Int),
            ((c.bump (K.calCountBias h k)).set (K.calTimeBias h k) c.now).set (K.calResidualBias h k) s.residual.toInt)
      let c := c.putLeapTrim h t new
      if old = new then c else c.modHead h (fun (p : HeadPort) => { p with calGap := true })
  | _, _ => c

/-- The reference buffer of a head's pair in its leap line, where the head is the lowest-numbered one it serves: a revert that
waits, or the comparison of a run. -/
def Chip.leapBuffer (c : Chip) (h : Nat) (step : Option CalStep) : Chip :=
  let r := h / 2
  if (c.bufferHeads r).head? ≠ some h ∨ (c.bufferHeads r).any (fun g => c.solsticeRuns g) then c
  else match at' c.cal.refRevert r with
    | some code =>
      ({ c with cal := { c.cal with refRevert := modAt c.cal.refRevert r (fun _ => none) } } : Chip).putBuffer r code (some h) true
    | none =>
      match step with
      | some s => if c.cal.running ∧ r ∈ c.cal.refbuf then (c.bufferStep r s (some h)).calBanks else c
      | none => c

/-- LEAP_LINE -/
def leapLine (h : Nat) (resp : List Int) (step refStep : Option CalStep) (c : Chip) : Chip :=
  let p := c.head h
  let st := c.get (K.runState h)
  if !p.timing ∨ p.gap ∨ !(st = 2 ∨ st = 3 ∨ st = 5) then c
  else
    let c := c.modHead h (fun (p : HeadPort) => { p with gap := true })
    ((((c.tapTest h resp).leapBuffer h refStep).leapStep h step).gapReads h)

/-- LEAP_LINE -/
def execLeapLine (h : Fin 4) (responses : List (BitVec 32)) (step refStep : Option CalStep) (s : State) : Res :=
  run s (leapLine h.val (responses.map (·.toInt)) step refStep)

/-- CAL_COMMAND -/
def execCalCommand (m : Master) (s : State) : Res := run s (fun c => c.command m K.calCommand (fun c => .ok c.calTrigger))

/-- CAL_RUN_START -/
def execCalRunStart (ref0 ref1 : CalStep) (s : State) : Res := run s (calRunStart [ref0, ref1])

/-- CONVERTER_CALIBRATION_COMPLETE -/
def execConverterCalibrationComplete (b : Fin 4) (off gain : BitVec 10) (oc gc : BitVec 32) (s : State) : Res :=
  run s (converterCalibrated b.val (trimFrom off.toNat gain.toNat oc.toInt gc.toInt))

/-- CAL_RUN_COMPLETE -/
def execCalRunComplete (s : State) : Res := run s calRunComplete

/-- CAL_REVERT -/
def execCalRevert (m : Master) (v : BitVec 8) (s : State) : Res := run s (fun c => c.command m K.calRevert (calRevert v.toNat))

end Sys2Proof.Machine
end

