-- ==== Sys2Proof/Machine/Csi.lean ====
section
/-! DEFINITION. The CSI-2 receivers and their sources (R300 to R310, R314, R324, R325, R469). -/

namespace Sys2Proof.Machine

/-! ### Starting and stopping -/

/-- Whether another running source takes the receiver and virtual channel of source i (R302). -/
def Chip.channelTaken (c : Chip) (i : Nat) : Bool :=
  let j := 1 - i
  decide (c.get (K.srcState j) ≠ 0) && decide (c.nv (K.srcReceiver j) = c.nv (K.srcReceiver i)) && decide (c.nv (K.srcVc j) = c.nv (K.srcVc i))

/-- The conditions of R302 on a source itself, and of R330 on its geometry. -/
def Chip.srcStartOk (c : Chip) (i : Nat) : Bool :=
  let dt := c.nv (K.srcDataType i)
  let thermal := c.thermalNow (4 + i)
  c.on (K.rxRun (c.nv (K.srcReceiver i))) && !c.channelTaken i &&
  (!thermal || ((dt = 0x2D || dt = 0x2E) && decide (c.nv (K.srcWidth i) ≤ 2048) && decide (c.nv (K.srcHeight i) ≤ 1536) &&
    c.residentSrc (c.nv (K.srcCoefSet (4 + i))) i)) &&
  (dt ≠ 0x1E || decide (c.nv (K.srcWidth i) % 2 = 0)) && c.geometryKeeps (4 + i)

/-- A write of 1 to SRC_RUN while the pixel die runs. -/
def srcRunRequest (i : Nat) (c : Chip) : Chip × Option Abort :=
  if c.get (K.srcState i) ≠ 0 then (c, none)
  else if !c.srcStartOk i then (c, some Abort.incompatible)
  else
    let (c, refused) := c.admitted (K.srcRun i) 1
    if refused then (c, some Abort.incompatible)
    else
      let c := (c.set (K.srcRun i) 1).set (K.srcState i) 1
      let c := c.modSource (4 + i) (fun (x : Source) => { x with isOpen := false, lines := 0, sender := none, tnrSeed := true })
      (c.refreshSets, none)

/-- A frame of a CSI-2 source closes (R303, R304). -/
def Chip.csiClose (c : Chip) (i : Nat) : Chip :=
  let s := 4 + i
  let x := c.source s
  if !x.isOpen then c
  else
    let c := c.modSource s (fun (x : Source) => { x with isOpen := false, ecc := false })
    let c := if x.lines < c.nat (K.srcHeight i) then
        let c := c.bump (K.shortFrames i)
        match x.open' with
        | some w => c.modWork s w.id (fun w => w.mark markShort)
        | none => c
      else c
    c.closeWorks s

/-- A source stops: its open frame closes as it stands, its staged writes apply, and its streams have no source. -/
def Chip.srcRest (c : Chip) (i : Nat) : Chip :=
  let c := (c.csiClose i).set (K.srcState i) 0
  let c := (c.set (K.statState (4 + i)) 0).refreshSets
  let c := (List.range 8).foldl (fun (c : Chip) (n : Nat) => c.streamSettle n) c
  c.applyStopped (4 + i)

/-- A write of 0 to SRC_RUN. -/
def srcStop (i : Nat) (c : Chip) : Chip :=
  let c := c.set (K.srcRun i) 0
  if c.get (K.srcState i) = 0 then c else c.srcRest i

/-- A write of 1 to RX_RUN; while the pixel die is off the value is kept (R93). -/
def rxRunStart (k : Nat) (c : Chip) : Chip :=
  let c := c.set (K.rxRun k) 1
  if c.pathRuns ∧ c.get (K.rxState k) = 0 then c.set (K.rxState k) 1 else c

/-- A write of 0 to RX_RUN (R324). -/
def rxStop (k : Nat) (c : Chip) : Except Abort Chip :=
  guardNot ((List.range 2).any (fun i => decide (c.get (K.srcState i) ≠ 0 ∧ c.get (K.srcReceiver i) = k))) Abort.localControl <|
  .ok ((c.set (K.rxRun k) 0).set (K.rxState k) 0)

/-! ### Packets -/

/-- Whether a receiver takes packets now. -/
def Chip.rxWorks (c : Chip) (k : Nat) : Bool :=
  c.pathRuns && decide (c.get (K.rxState k) ≠ 0) && !c.regionRestarting 1 && !c.blockResetting 1 (8 + k)

/-- Running sources of a receiver. -/
def Chip.rxSources (c : Chip) (k : Nat) : List Nat :=
  (List.range 2).filter (fun i => decide (c.get (K.srcState i) ≠ 0 ∧ c.get (K.srcReceiver i) = k))

/-- The running source of a receiver's virtual channel (R302). -/
def Chip.rxRoute (c : Chip) (k vc : Nat) : Option Nat := (c.rxSources k).find? (fun i => decide (c.get (K.srcVc i) = vc))

/-- A packet of source i was lost with its header; a long packet takes its line with it. -/
def Chip.eccLost (c : Chip) (i : Nat) (long : Bool) : Chip :=
  let s := 4 + i
  let c := c.bump (K.eccLostPackets i)
  let c := if long then c.modSource s (fun (x : Source) => { x with lines := x.lines + 1 }) else c
  match (c.source s).open' with
  | some w => c.modWork s w.id (fun w => w.mark markEcc)
  | none => c

/-- An uncorrectable header (Table 11.2): the packet does not say whose it was; with one open frame on the receiver it was
that frame's, with two the spec does not say which. -/
def Chip.headerLost (c : Chip) (k : Nat) (long : Bool) : Chip :=
  let c := c.bump (K.hdrEccUncorrectable k)
  let c := [0, 1].foldl (fun (c : Chip) (i : Nat) =>
    if c.get (K.srcReceiver i) = k then c.modSource (4 + i) (fun (x : Source) => { x with ecc := true }) else c) c
  match (c.rxSources k).filter (fun i => (c.source (4 + i)).isOpen) with
  | [] => c
  | [i] => c.eccLost i long
  | i :: j :: _ =>
    let (b, c) := c.freeBit
    c.eccLost (if b then j else i) long

/-- A packet arrives: its header decides whether it is used. -/
def Chip.csiPacket (c : Chip) (k : Nat) (hdr : CsiHeader) (long : Bool) (use : Chip → Chip) : Chip :=
  if !c.rxWorks k then c
  else
    let c := c.set (K.rxState k) 2
    match hdr with
    | .good => use c
    | .corrected => use (c.bump (K.hdrEccCorrected k))
    | .uncorrectable => c.headerLost k long

/-! ### Frames -/

/-- How a frame of a CSI-2 source is delivered: whether it is processed, and its marks (R182, R183, R235, Table 16.6). -/
def Chip.csiDelivery (c : Chip) (i : Nat) : Bool × Nat :=
  let s := 4 + i
  let thermal := c.isThermal s
  let level := c.get K.throttleLevel
  let set := c.nat (K.srcCoefSet s)
  if 3 ≤ level then (false, markRepeated + markThrottled)
  else if c.regionRestarting 2 then (false, markRepeated)
  else if thermal && !c.residentSrc set i then (false, markRepeated)
  else if thermal && c.passOn set then (false, markFrozen)
  else (true, if thermal ∧ 2 ≤ level then markThrottled else 0)

/-- The next frame of a CSI-2 source with its number and capture time, as its objects report them. -/
def Chip.csiNumber (c : Chip) (i : Nat) : Work × Chip :=
  let (n, c) := c.takeNumber (4 + i)
  (({ id := 0, number := n, cap := c.now } : Work).markIf c.syncLost markSyncLost, c.setAll [(K.srcFrameNumber i, n), (K.srcCaptureTime i, c.now)])

/-- A frame of a CSI-2 source opens (R303). -/
def Chip.csiOpen (c : Chip) (i marks : Nat) : Chip :=
  let s := 4 + i
  let c := c.csiClose i
  let c := if c.get (K.srcState i) = 3 then c.modSource s (fun (x : Source) => { x with tnrSeed := true }) else c
  let c := (c.set (K.srcState i) 2).applyStaged s
  let c := c.startPasses s
  let (w, c) := c.csiNumber i
  let (ok, m) := c.csiDelivery i
  let thermal := c.isThermal s
  let c := if ok then c else c.modSource s (fun (x : Source) => { x with tnrSeed := true })
  let w : Work := { w with
    marks := Nat.lor w.marks (Nat.lor marks m), front := ok, process := ok, silent := c.regionRestarting 3
    tFpa := c.get (K.srcTFpa s), tRef := c.get (K.srcTRef s), resp := c.nat (K.srcRespIndex s)
    records := if ok && thermal then ((c.setData (c.nat (K.srcCoefSet s))).map (·.view)).getD [] else []
    recBase := ((c.setData (c.nat (K.srcCoefSet s))).map (·.base)).getD 0
    bypassSnr := decide (2 ≤ c.get K.throttleLevel) }
  let c := c.beginFrame s w true
  c.modSource s (fun (x : Source) => { x with isOpen := true, lines := 0, beyond := false })

/-- Whether the sender's frame number follows its predecessor's (R303). -/
def senderGap (last : Option Nat) (n : Nat) : Bool :=
  match last with
  | none => false
  | some p => decide (n ≠ 0) && decide (n ≠ if p = 0xFFFF then 1 else p + 1)

/-- CSI_FRAME_START_PACKET -/
def csiFrameStart (k vc : Nat) (hdr : CsiHeader) (number : Nat) (c : Chip) : Chip :=
  c.csiPacket k hdr false (fun c =>
    let c := c.bump (K.vcFrameStarts k vc)
    match c.rxRoute k vc with
    | none => c.bump (K.unroutedPackets k)
    | some i =>
      let c := if senderGap (c.source (4 + i)).sender number then c.bump (K.senderFrameGaps i) else c
      (c.csiOpen i 0).modSource (4 + i) (fun (x : Source) => { x with sender := some number }))

/-- CSI_FRAME_END_PACKET -/
def csiFrameEnd (k vc : Nat) (hdr : CsiHeader) (c : Chip) : Chip :=
  c.csiPacket k hdr false (fun c => match c.rxRoute k vc with
    | none => c.bump (K.unroutedPackets k)
    | some i => c.csiClose i)

/-! ### Lines -/

/-- The stored value of a received pixel. -/
def csiValue (dt : Nat) (p : BitVec 24) : Nat := p.toNat % 2 ^ (if rawBits dt = 0 then (if dt = 0x24 then 24 else 16) else rawBits dt)

/-- A pixel of a thermal core as step 4 takes it (R308). -/
def csiSample (dt : Nat) (limits : Bool) (v : Nat) : Sample := {
  code := if dt = 0x2D then v * 4 else v
  ovr := limits && (v = 0 || v = if dt = 0x2D then 0x3FFF else 0xFFFF), rec' := false, miss := false }

/-- A line of a source reaches its FIFO, its missing pixels filled as R305 states. -/
def Chip.csiEnqueue (c : Chip) (i row : Nat) (w : Work) (vals : List Nat) : Chip :=
  let s := 4 + i
  let width := c.nat (K.srcWidth i)
  let dt := c.nat (K.srcDataType i)
  if c.isThermal s then
    let smp := vals.map (csiSample dt (w.par.onAt (K.srcOvrLimits i)))
    let all := smp ++ List.replicate (width - smp.length) { code := 0, ovr := false, rec' := false, miss := true }
    let ovr := (smp.filter (·.ovr)).length
    let c := c.modWork s w.id (fun w => ({ w with ovr := w.ovr + ovr }.markIf (ovr ≠ 0) markOvr).markIf (smp.length < width) markSubst)
    if w.front then c.enqueue s { frame := w.id, row := row, samples := [all], pixels := [], tapsOut := 0, deadline := 0, done := false } else c
  else if w.front then c.enqueue s { frame := w.id, row := row, samples := [], pixels := vals, tapsOut := 0, deadline := 0, done := false }
  else c

/-- The deviations of a line that arrives in a frame: its CRC, then, where it is used, its length (Table 11.2). -/
def Chip.csiCheck (c : Chip) (k i : Nat) (w : Work) (l : CsiLine) : Chip :=
  let s := 4 + i
  let width := c.nat (K.srcWidth i)
  let n := l.pixels.length
  let c := if l.crcOk then c else ((c.bump (K.payloadCrcErrors k)).bump (K.crcLines i)).modWork s w.id (fun w => w.mark markCrc)
  if !l.crcOk && w.par.onAt (K.srcCrcPolicy i) then c
  else
    let short := decide (n < width) || l.ragged
    let c := if short then (c.bump (K.shortLines i)).modWork s w.id (fun w => w.mark markShort) else c
    if width < n then (c.bump (K.longLines i)).modWork s w.id (fun w => w.mark markLong) else c

/-- A line inside the frame that has room. -/
def Chip.csiTake (c : Chip) (k i row : Nat) (w : Work) (l : CsiLine) : Chip :=
  let c := c.csiCheck k i w l
  if !l.crcOk && w.par.onAt (K.srcCrcPolicy i) then c
  else c.csiEnqueue i row w ((l.pixels.take (c.nat (K.srcWidth i))).map (csiValue l.dt.toNat))

/-- A line beyond SRC_HEIGHT: discarded with its deviations counted, and the frame counts once as long (Table 11.2). -/
def Chip.csiBeyond (c : Chip) (k i : Nat) (w : Work) (l : CsiLine) : Chip :=
  let s := 4 + i
  let c := c.csiCheck k i w l
  let c := if (c.source s).beyond then c else c.bump (K.longFrames i)
  (c.modSource s (fun (x : Source) => { x with beyond := true })).modWork s w.id (fun w => w.mark markLong)

/-- The next line of an open frame. -/
def Chip.csiLine (c : Chip) (k i : Nat) (l : CsiLine) : Chip :=
  let s := 4 + i
  let x := c.source s
  match x.open' with
  | none => c
  | some w =>
    let row := x.lines
    let height := c.nat (K.srcHeight i)
    let c := c.modSource s (fun (x : Source) => { x with lines := x.lines + 1 })
    if height ≤ row then c.csiBeyond k i w l
    else if w.front && decide (c.fifoRoom s ≤ x.fifo.length) then
      (c.bump (K.overrunLines i)).modWork s w.id (fun w => w.mark markOverrun)
    else c.csiTake k i row w l

/-- Data types discarded without being counted: generic short packets, line start and end, embedded data (R300). -/
def csiIgnored (dt : Nat) : Bool := decide (dt = 0x12) || decide (dt = 2) || decide (dt = 3) || decide (8 ≤ dt ∧ dt ≤ 15)

/-- CSI_LONG_PACKET -/
def csiLong (k vc : Nat) (l : CsiLine) (c : Chip) : Chip :=
  c.csiPacket k l.hdr true (fun c =>
    let dt := l.dt.toNat
    if csiIgnored dt then c
    else if dt ∉ [0x2A, 0x2B, 0x2C, 0x2D, 0x2E, 0x1E, 0x24] then c.bump (K.unknownDtPackets k)
    else match c.rxRoute k vc with
    | none => c.bump (K.unroutedPackets k)
    | some i =>
      if c.nat (K.srcDataType i) ≠ dt then c.bump (K.dtMismatch i)
      else if (c.source (4 + i)).isOpen then c.csiLine k i l
      else if (c.source (4 + i)).ecc then (c.csiOpen i markEcc).csiLine k i l
      else c.bump (K.orphanPackets i))

/-! ### Loss (R307) -/

/-- A substitute frame starts: the stored frame, marked REPEATED and SHORT, and THROTTLED where no source but THR_L3_HEAD is processed
(Table 6.2). -/
def Chip.csiSubstitute (c : Chip) (i : Nat) : Chip :=
  let s := 4 + i
  let (w, c) := c.csiNumber i
  let c := c.modSource s (fun (x : Source) => { x with tnrSeed := true })
  let w := (w.mark (markRepeated + markShort)).markIf (decide (3 ≤ c.get K.throttleLevel)) markThrottled
  c.beginFrame s { w with real := false, silent := c.regionRestarting 3 } false

/-- The source delivers substitute frames from now on. -/
def Chip.csiLose (c : Chip) (i : Nat) : Chip := ((c.csiClose i).set (K.srcState i) 3).csiSubstitute i

/-- CSI_SOURCE_TIMEOUT -/
def csiSourceTimeout (i : Nat) (c : Chip) : Chip :=
  if c.get (K.srcState i) ≠ 2 ∨ !c.pathRuns then c
  else
    let c := c.bump (K.srcLostCount i)
    let c := c.raise 0 1 (8 + c.nat (K.srcReceiver i)) 4 0x1030 (4 + i) (c.nat (K.srcFrameNumber i))
    c.csiLose i

/-- CSI_SUBSTITUTE_FRAME -/
def csiSubstituteFrame (i : Nat) (c : Chip) : Chip := if c.get (K.srcState i) = 3 ∧ c.pathRuns then c.csiSubstitute i else c

/-! ### The receiver -/

/-- CSI_LANE_WATCHDOG: no link activity. -/
def csiLaneWatchdog (k lane : Nat) (c : Chip) : Chip :=
  if c.get (K.rxState k) = 2 ∧ lane < c.nat (K.rxLanes k) then
    c.watchdog 1 (8 + k) lane 0x1032 k lane (fun c => c.set (K.rxState k) 1)
  else c

/-- CSI_SOT_ERROR -/
def csiSotError (k : Nat) (c : Chip) : Chip := if c.rxWorks k then (c.bump (K.sotErrors k)).set (K.rxState k) 3 else c

/-- CSI_DESKEW_SEQUENCE -/
def csiDeskew (k : Nat) (c : Chip) : Chip := if c.rxWorks k then (c.bump (K.deskews k)).set (K.rxState k) 2 else c

/-! ### Meanings -/

/-- A write of 1 to SRC_RUN; while the pixel die is off the value is kept (R93) and acts when it has started (R458). -/
def srcRunOne (i : Nat) (c : Chip) : Chip × Option Abort :=
  if c.pathRuns then srcRunRequest i c else (c.set (K.srcRun i) 1, none)

/-- SRC_RUN_REQUEST -/
def execSrcRunRequest (m : Master) (i : Fin 2) (s : State) : Res := run s (fun c => c.command2 m (K.srcRun i) (srcRunOne i.val))

/-- SRC_STOP -/
def execSrcStop (m : Master) (i : Fin 2) (s : State) : Res := run s (fun c => c.command m (K.srcRun i) (fun c => .ok (srcStop i.val c)))

/-- RX_RUN_START -/
def execRxRunStart (m : Master) (k : Fin 2) (s : State) : Res := run s (fun c => c.command m (K.rxRun k) (fun c => .ok (rxRunStart k.val c)))

/-- RX_STOP -/
def execRxStop (m : Master) (k : Fin 2) (s : State) : Res := run s (fun c => c.command m (K.rxRun k) (rxStop k.val))

/-- CSI_FRAME_START_PACKET -/
def execCsiFrameStartPacket (k : Fin 2) (vc : Fin 4) (hdr : CsiHeader) (number : BitVec 16) (s : State) : Res :=
  run s (csiFrameStart k.val vc.val hdr number.toNat)

/-- CSI_LONG_PACKET -/
def execCsiLongPacket (k : Fin 2) (vc : Fin 4) (l : CsiLine) (s : State) : Res := run s (csiLong k.val vc.val l)

/-- CSI_FRAME_END_PACKET -/
def execCsiFrameEndPacket (k : Fin 2) (vc : Fin 4) (hdr : CsiHeader) (s : State) : Res := run s (csiFrameEnd k.val vc.val hdr)

/-- CSI_SOURCE_TIMEOUT -/
def execCsiSourceTimeout (i : Fin 2) (s : State) : Res := run s (csiSourceTimeout i.val)

/-- CSI_SUBSTITUTE_FRAME -/
def execCsiSubstituteFrame (i : Fin 2) (s : State) : Res := run s (csiSubstituteFrame i.val)

/-- CSI_LANE_WATCHDOG -/
def execCsiLaneWatchdog (k : Fin 2) (lane : Fin 4) (s : State) : Res := run s (csiLaneWatchdog k.val lane.val)

/-- CSI_SOT_ERROR -/
def execCsiSotError (k : Fin 2) (s : State) : Res := run s (csiSotError k.val)

/-- CSI_DESKEW_SEQUENCE -/
def execCsiDeskewSequence (k : Fin 2) (s : State) : Res := run s (csiDeskew k.val)

end Sys2Proof.Machine
end

