-- ==== Sys2Proof/Machine/Domains.lean ====
section
/-! DEFINITION. Device DRAM and the images of DOMAIN objects in it (R93, R94, R233, R236, R258, R283, R357, R441, R453, R486). -/

namespace Sys2Proof.Machine

/-! ### Images -/

/-- Tables and palettes: RW images in the reserved area. -/
def tableKeys : List Nat :=
  (tab 6 (fun s => [K.linTableA s, K.linTableB s, K.tempTableA s, K.tempTableB s, K.radTableA s, K.radTableB s])).flatten ++
  (tab 8 (fun n => [K.scaleHTable n, K.scaleVTable n])).flatten ++ tab 8 (fun p => K.paletteImage p)

/-- RO images in the reserved area. -/
def stateKeys : List Nat :=
  tab 4 (fun h => K.eqxState h) ++ tab 6 (fun s => K.tnrState s) ++ tab 6 (fun s => K.statRecords s) ++ [K.nvmLog]

/-- The bytes of an Equinox column. -/
def EqxCol.bytes (e : EqxCol) : List Byte := leInt 4 e.a ++ leInt 6 e.z ++ leBytes 1 (if e.seed then 1 else 0) ++ List.replicate 5 0

/-- A list cut or padded with zeros to n bytes. -/
def padTo (n : Nat) (l : List Byte) : List Byte := (l ++ List.replicate (n - l.length) 0).take n

/-- The source of an object whose index counts sources by a step. -/
def srcOf (key base step : Nat) : Nat := (key / 256 - base) / step

/-- Length in bytes of the image of a DOMAIN object. -/
def Chip.imageLength (c : Chip) (key : Nat) : Nat :=
  let i := key / 256
  if key = K.nvmLog then nvmLogBytes
  else if i = 0x3481 ∨ i = 0x3491 ∨ i = 0x34A1 ∨ i = 0x34B1 then
    let g := geoOf c.dict (srcOf key 0x3481 0x10)
    16 * g.n * g.aw
  else if 0x3540 ≤ i ∧ i < 0x3560 then
    let n := match c.setData (i - 0x3540) with
      | some d => d.view.length
      | none => 0
    if key % 256 = 0x0C then 16 * n else 2 * n
  else if 0x3800 ≤ i ∧ i < 0x3980 ∧ i % 0x40 = 2 then
    let g := geoOf c.dict (srcOf key 0x3802 0x40)
    6 * g.aw * g.ah
  else if 0x4400 ≤ i ∧ i < 0x4460 then 37376
  else (c.domainImage key).length

/-- The image of a DOMAIN object as it stands. -/
def Chip.domainBytes (c : Chip) (key : Nat) : List Byte :=
  let i := key / 256
  let n := c.imageLength key
  if key = K.nvmLog then c.nvmLogImage 0 n
  else if 0x3481 ≤ i ∧ i < 0x34C0 then padTo n (((c.source (srcOf key 0x3481 0x10)).eqxShown.map (fun l => (l.map EqxCol.bytes).flatten)).flatten)
  else if 0x3540 ≤ i ∧ i < 0x3560 then
    match c.setData (i - 0x3540) with
    | some d => if key % 256 = 0x0C then d.viewBytes else d.shadowBytes
    | none => []
  else if 0x3800 ≤ i ∧ i < 0x3980 ∧ i % 0x40 = 2 then
    padTo n ((c.source (srcOf key 0x3802 0x40)).tnr.map (fun t => leBytes 6 t.word)).flatten
  else if 0x4400 ≤ i ∧ i < 0x4460 then padTo n (c.source (srcOf key 0x4402 0x10)).recordBytes
  else c.domainImage key

/-! ### Places -/

/-- The images of the sets in DRAM: key, first byte, length. -/
def Chip.setImages (c : Chip) : List (Nat × Nat × Nat) :=
  (c.onion.sets.zipIdx.filterMap (fun (d, s) => d.map (fun x =>
    [(K.setView s, x.base, 16 * x.view.length), (K.setShadow s, x.base + pages (16 * x.view.length), 2 * x.shadow.length)]))).flatten

/-- The images that meet a range of DRAM. -/
def Chip.imagesIn (c : Chip) (a n : Nat) : List (Nat × Nat × Nat) :=
  let fixed := if a + n ≤ c.reservedBase then [] else (tableKeys ++ stateKeys).map (fun k => (k, c.domainHome k, c.imageLength k))
  (c.setImages ++ fixed).filter (fun (_, s, l) => decide (s < a + n ∧ a < s + l))

/-- The descriptor of a DOMAIN object (R94). -/
def Chip.descriptor (c : Chip) (key : Nat) : Nat :=
  let i := key / 256
  let front := decide (0x2400 ≤ i ∧ i < 0x2500) || (decide (key = K.nvmLog) && !c.pixelRuns)
  let page := if front then 0xFFFFFFFF
    else if 0x3540 ≤ i ∧ i < 0x3560 then
      match (c.setImages.find? (fun x => x.1 = key)) with
      | some (_, a, _) => a / 4096
      | none => 0
    else c.domainHome key / 4096
  c.imageLength key + page * 2 ^ 32

/-! ### Access -/

/-- Read a range of DRAM. -/
def Chip.dramRead (c : Chip) (a n : Nat) : List Byte × Chip :=
  let im := (c.imagesIn a n).map (fun (k, s, l) => (s, l, c.domainBytes k))
  let base := c.reservedBase
  let byte := fun (x : Nat) => match im.find? (fun (s, l, _) => decide (s ≤ x ∧ x < s + l)) with
    | some (s, _, b) => b.getD (x - s) 0
    | none => if base ≤ x then Config.reservedByte c.free x else c.dram.byte x
  (tab n (fun i => byte (a + i)), if a + n ≤ base then c else { c with free := c.free + 1 })

/-- The bytes of an image with those of a write at an address laid over them. -/
def splice (old : List Byte) (start a : Nat) (new : List Byte) : List Byte :=
  old.zipIdx.map (fun (b, i) => if a ≤ start + i then (new[start + i - a]?).getD b else b)

/-- Whether a set is in force or under a pass (R236). -/
def Chip.setProtected (c : Chip) (s : Nat) : Bool := c.passDue s || !(c.setUsers s).isEmpty

/-- Put new bytes into the image of an object: a table is kept, a view or a shadow takes its records; an RO image is not
changed. -/
def Chip.putImage (c : Chip) (key : Nat) (l : List Byte) : Chip :=
  let i := key / 256
  if key ∈ tableKeys then c.putDomain key l
  else if 0x3540 ≤ i ∧ i < 0x3560 then
    match c.setData (i - 0x3540) with
    | none => c
    | some d =>
      let d := if key % 256 = 0x0C then { d with view := recordsOf l d.view.length }
        else { d with shadow := tab d.shadow.length (fun k => sx (fieldAt l (2 * k) 2) 16) }
      c.putSet (i - 0x3540) (some d)
  else c

/-- Whether a write to a range meets a set that is in force or under a pass. -/
def Chip.writeBlocked (c : Chip) (a n : Nat) : Bool :=
  (c.imagesIn a n).any (fun (k, _, _) => decide (0x3540 ≤ k / 256 ∧ k / 256 < 0x3560) && c.setProtected (k / 256 - 0x3540))

/-- Write bytes to DRAM, outside the images of sets in force. -/
def Chip.dramWrite (c : Chip) (a : Nat) (l : List Byte) : Chip :=
  let im := c.imagesIn a l.length
  let base := c.reservedBase
  let inside := fun (x : Nat) => im.any (fun (_, s, n) => decide (s ≤ x ∧ x < s + n))
  let c := im.foldl (fun (c : Chip) (x : Nat × Nat × Nat) =>
    let s := x.1 / 256 - 0x3540
    if 0x3540 ≤ x.1 / 256 ∧ x.1 / 256 < 0x3560 ∧ c.setProtected s then c
    else c.putImage x.1 (splice (c.domainBytes x.1) x.2.1 a l)) c
  l.zipIdx.foldl (fun (c : Chip) (b, i) =>
    if inside (a + i) ∨ base ≤ a + i then c else { c with dram := c.dram.put (a + i) b }) c

end Sys2Proof.Machine
end

