-- ==== Sys2Proof/Machine/Serial.lean ====
section
/-! DEFINITION. The serial-port master and the XIP window (R435 to R439): reads, translated programs and erases,
polling, copies of DRAM into flash; and the DRAM scrubber (R442). -/

namespace Sys2Proof.Machine

/-- Bytes of the XIP window (R435). -/
def xipBytes : Nat := 0x10000000

/-- The select and the address in the device of a window offset (R435). -/
def Chip.flashPlace (c : Chip) (off : Nat) : Nat × Nat :=
  if c.on K.spmCsSplit then (off / 2 ^ 26 % 4, off % 2 ^ 26) else (0, off)

/-- A command byte as the port sends it: in 8D-8D-8D its extension follows (R435). -/
def Chip.flashCommand (c : Chip) (cmd : Nat) : List Byte :=
  if c.get K.spmProtocol = 7 then
    [BitVec.ofNat 8 cmd, if c.on K.spmCmdExtension then BitVec.ofNat 8 (255 - cmd % 256) else BitVec.ofNat 8 cmd]
  else [BitVec.ofNat 8 cmd]

/-- A 4-byte flash address, most significant byte first (assumption 12). -/
def flashAddress (a : Nat) : List Byte := (leBytes 4 a).reverse

/-- Whether the port is master. -/
def Chip.portMaster (c : Chip) : Bool := decide (c.get K.spRole = 0)

/-- Whether a program or erase is running on the device that holds a window offset. -/
def Chip.flashBusy (c : Chip) (off : Nat) : Bool :=
  match c.spm.seq with
  | none => false
  | some q => decide ((c.flashPlace q.off).1 = (c.flashPlace off).1)

/-- Issue a window read, SPM_READ_CMD with the address and the dummy cycles, or continue the previous one (R437). An idle port shows that it reads (Table 15.10). -/
def Chip.flashReadNow (c : Chip) (off len : Nat) : Chip :=
  let continued := match c.spm.lastRead with
    | some (e, t) => decide (e = off ∧ (c.flashPlace (e - 1)).1 = (c.flashPlace off).1 ∧ c.mono ≤ t + 1000)
    | none => false
  let (sel, a) := c.flashPlace off
  let command := if continued then [] else c.flashCommand (c.nat K.spmReadCmd) ++ flashAddress a
  let c := c.emit (.flashRead sel a continued command (if continued then 0 else c.nat K.spmDummyCycles))
  let c := { c with spm := { c.spm with lastRead := some (off + len, c.mono) } }
  if c.get K.spmState = 1 then c.set K.spmState 2 else c

/-- A read of the window (R437, R438): while its device programs or erases it waits; while the port is slave it
fails, with nothing sent (R428). -/
def xipRead (off len : Nat) (c : Chip) : Chip :=
  if !c.portMaster then c
  else if c.flashBusy off then { c with spm := { c.spm with waitReads := c.spm.waitReads ++ [(off, len)] } }
  else c.flashReadNow off len

/-- Begin a program of a page: write-enable, then SPM_PROGRAM_CMD with the bytes (R438). -/
def Chip.startProgram (c : Chip) (off : Nat) (data : List Byte) (u : FlashUser) : Chip :=
  let sel := (c.flashPlace off).1
  let c := c.emit (.flash sel (c.flashCommand 0x06))
  let c := c.emit (.flash sel (c.flashCommand (c.nat K.spmProgramCmd) ++ flashAddress (c.flashPlace off).2 ++ data))
  let c := (c.bump K.spmPrograms).set K.spmState 3
  { c with spm := { c.spm with seq := some { erase := false, off := off, user := u }, lastRead := none } }

/-- Begin the erase of the 4 KiB sector that holds an offset (R438). -/
def Chip.startErase (c : Chip) (off : Nat) (u : FlashUser) : Chip :=
  let base := off / 4096 * 4096
  let sel := (c.flashPlace base).1
  let c := c.emit (.flash sel (c.flashCommand 0x06))
  let c := c.emit (.flash sel (c.flashCommand (c.nat K.spmEraseCmd) ++ flashAddress (c.flashPlace base).2))
  let c := (c.bump K.spmErases).set K.spmState 4
  { c with spm := { c.spm with seq := some { erase := true, off := off, user := u }, lastRead := none } }

/-- Flush the page buffer as a program; a page waits while a sequence runs. -/
def Chip.flushPage (c : Chip) : Chip :=
  match c.spm.page with
  | none => c
  | some (off, data) =>
    let c := { c with spm := { c.spm with page := none } }
    if c.spm.seq.isSome then { c with spm := { c.spm with waitPages := c.spm.waitPages ++ [(off, data)] } }
    else c.startProgram off data .xip

/-- One byte written to the window by the management controller: it joins the page buffer while the writes are
ascending, contiguous and within one flash page, and breaks it otherwise (R438). -/
def Chip.programByte (c : Chip) (off : Nat) (b : Byte) : Chip :=
  match c.spm.page with
  | some (base, data) =>
    if off = base + data.length ∧ off / 256 = base / 256 then
      { c with spm := { c.spm with page := some (base, data ++ [b]) } }
    else
      let c := c.flushPage
      { c with spm := { c.spm with page := some (off, [b]) } }
  | none => { c with spm := { c.spm with page := some (off, [b]) } }

/-- Bytes written to the window by the management controller. -/
def Chip.programBytes (c : Chip) : Nat → List Byte → Chip
  | _, [] => c
  | off, b :: bs => Chip.programBytes (c.programByte off b) (off + 1) bs

/-- A write to the window (R438); nothing while the port is slave. -/
def xipProgramWrite (off : Nat) (data : List Byte) (c : Chip) : Chip :=
  if c.portMaster then c.programBytes off data else c

/-- The outcome a copy reports (Table 15.10). -/
def Chip.copyStatus (c : Chip) (st : Nat) : Chip :=
  c.set K.spmCopyStatus (c.nat K.spmCopyStatus / 65536 * 65536 + st : Nat)

/-- Bytes of a copy that lie in the page of the next offset. -/
def copyChunk (off left : Nat) : Nat := min left (256 - off % 256)

/-- The next sequence of a copy (R439): the erase of a sector it enters, then its pages. While the pixel die does not run, its DRAM cannot be
read and the copy ends with status 4 (Table 15.10). -/
def Chip.copyNext (c : Chip) : Chip :=
  match c.spm.copy with
  | none => c
  | some (off, src, left, erased) =>
    if left = 0 then c
    else if !erased then
      ({ c with spm := { c.spm with copy := some (off, src, left, true) } } : Chip).startErase off .copy
    else if !c.pixelRuns then ({ c with spm := { c.spm with copy := none } } : Chip).copyStatus 4
    else
      let n := copyChunk off left
      let (data, c) := c.dramRead src n
      let c := c.startProgram off data .copy
      { c with spm := { c.spm with copy := some (off + n, src + n, left - n, decide ((off + n) % 4096 ≠ 0)) } }

/-- What follows a sequence that has ended: waiting pages, then the copy, then a save, then waiting reads. -/
def Chip.flashNext (c : Chip) : Chip :=
  match c.spm.waitPages with
  | (off, d) :: rest => ({ c with spm := { c.spm with waitPages := rest } } : Chip).startProgram off d .xip
  | [] =>
    let c := c.copyNext.nextSave
    if c.spm.seq.isSome then c
    else
      let reads := c.spm.waitReads
      reads.foldl (fun c r => c.flashReadNow r.1 r.2) { c with spm := { c.spm with waitReads := [] } }

/-- The requester of a sequence sees a flash error (R438). -/
def Chip.flashFails (c : Chip) (q : FlashSeq) : Chip :=
  match q.user with
  | .xip => c
  | .copy => ({ c with spm := { c.spm with copy := none } } : Chip).copyStatus 3
  | .save set => ({ c with onion := { c.onion with save := none } } : Chip).saveStatus set 5

/-- A sequence ends in error (R438): the buffer is discarded, SPM_ERRORS counts, SPM_STATE reads 5, a cell-level
record is raised and the requester sees a flash error. -/
def Chip.flashFault (c : Chip) (q : FlashSeq) : Chip :=
  let c := { c with spm := { c.spm with seq := none, page := none, waitPages := [] } }
  let c := ((c.bump K.spmErrors).set K.spmState 5).raise 0 3 3 1 0x3004 q.off (c.nat K.spmLastStatus)
  c.flashFails q

/-- A sequence ends in error and polling has ended, so what waits goes on (R438). -/
def Chip.flashError (c : Chip) (q : FlashSeq) : Chip := (c.flashFault q).flashNext

/-- A poll of the status register (R438): an error bit ends the sequence in error, bit 0 at 0 ends it well. A save goes on with the next of its
sequences, after its erases with its programs (assumption 119). -/
def spmStatusPoll (status : Nat) (c : Chip) : Chip :=
  match c.spm.seq with
  | none => c
  | some q =>
    let c := (c.emit (.flash (c.flashPlace q.off).1 (c.flashCommand 0x05))).set K.spmLastStatus status
    if Nat.land status (c.nat K.spmErrorMask) ≠ 0 then c.flashError q
    else if status % 2 = 0 then match q.user with
      | .save _ => ({ c with spm := { c.spm with seq := some { q with erase := false } } } : Chip).set K.spmState 3
      | _ => Chip.flashNext (({ c with spm := { c.spm with seq := none } } : Chip).set K.spmState 1)
    else c

/-- A program or erase exceeds its timeout (R438). -/
def spmSequenceTimeout (c : Chip) : Chip :=
  match c.spm.seq with
  | none => c
  | some q => c.flashError q

/-- A write of 1 to SPM_FLUSH. While the port is slave it is refused as a copy is (assumption 13). -/
def spmFlush (c : Chip) : Except Abort Chip := guardNot (!c.portMaster) Abort.localControl (.ok c.flushPage)

/-- A write of an offset to SPM_ERASE; refused above the window, while the port is slave and while a sequence runs
(assumption 13). -/
def spmErase (off : Nat) (c : Chip) : Except Abort Chip :=
  guardNot (decide (xipBytes ≤ off)) Abort.tooHigh <|
  guardNot (!c.portMaster || c.spm.seq.isSome || c.spm.copy.isSome) Abort.localControl <|
  .ok (c.startErase off .xip)

/-- A write of 1 to SPM_COPY_START (R439). -/
def spmCopyStart (c : Chip) : Except Abort Chip :=
  let src := c.nat K.spmCopySrc
  let dst := c.nat K.spmCopyDst
  let len := c.nat K.spmCopyLength
  guardNot (decide (dst % 4096 ≠ 0 ∨ len = 0 ∨ xipBytes < dst + len ∨ c.nat K.dramCapacity < src + len)) Abort.incompatible <|
  guardNot (c.spm.copy.isSome || c.onion.save.isSome || !c.portMaster) Abort.localControl <|
  let q := nextSeq (c.nat K.spmCopyStatus / 65536) 0xFFFF
  let c := c.set K.spmCopyStatus (q * 65536 + 1 : Nat)
  let c := { c with spm := { c.spm with copy := some (dst, src, len, false) } }
  .ok (if c.spm.seq.isSome then c else c.copyNext)

/-- A copy ends (R439): done once every byte is programmed, or with a DRAM error: the block that its next read meets is uncorrectable (R442). -/
def spmCopyComplete (result : Nat) (c : Chip) : Chip :=
  match c.spm.copy with
  | none => c
  | some (_, src, left, _) =>
    if result = 2 ∧ left = 0 ∧ c.spm.seq = none then
      ({ c with spm := { c.spm with copy := none } } : Chip).copyStatus 2
    else if result = 4 then
      (({ c with spm := { c.spm with copy := none } } : Chip).dramMeets 5 [src]).copyStatus 4
    else c

/-- A save that the pixel die took with it leaves the port. -/
def Chip.saveStops (c : Chip) : Chip :=
  match c.spm.seq with
  | some { user := .save _, .. } => (({ c with spm := { c.spm with seq := none } } : Chip).set K.spmState 1).flashNext
  | _ => c

/-! ### DRAM scrubbing (R442) -/

/-- The scrubber completes a pass over a channel; link ECC, where it is in use, reports what it corrected since (R440, Table 15.7). -/
def dramScrubPass (ch : Nat) (corrected uncorrectable : List (BitVec 40)) (link : Nat) (c : Chip) : Chip :=
  if c.pixelRuns ∧ c.get (K.dramChState ch) = 2 then
    let c := if c.on K.dramLinkEcc then c.bumpBy (K.dramLinkEccErrors ch) link else c
    ((c.dramFinds ch 6 (corrected.map (·.toNat)) (uncorrectable.map (·.toNat))).bump (K.dramScrubPasses ch))
  else c

/-! ### Meanings -/

/-- XIP_READ -/
def execXipRead (off : BitVec 28) (len : BitVec 16) (s : State) : Res := run s (xipRead off.toNat len.toNat)

/-- XIP_PROGRAM_WRITE -/
def execXipProgramWrite (off : BitVec 28) (data : List Byte) (s : State) : Res := run s (xipProgramWrite off.toNat data)

/-- PAGE_BUFFER_TIMEOUT: 10 µs without a write. -/
def execPageBufferTimeout (s : State) : Res := run s Chip.flushPage

/-- SPM_FLUSH -/
def execSpmFlush (m : Master) (s : State) : Res := run s (fun c => c.command m K.spmFlush spmFlush)

/-- SPM_ERASE -/
def execSpmErase (m : Master) (off : BitVec 32) (s : State) : Res :=
  run s (fun c => c.command m K.spmErase (spmErase off.toNat))

/-- SPM_STATUS_POLL -/
def execSpmStatusPoll (status : BitVec 8) (s : State) (fixed : List (BitVec 40) := []) : Res :=
  run s (fun c => spmStatusPoll status.toNat (c.dramFixed fixed))

/-- SPM_SEQUENCE_TIMEOUT -/
def execSpmSequenceTimeout (s : State) : Res := run s spmSequenceTimeout

/-- SPM_COPY_START -/
def execSpmCopyStart (m : Master) (s : State) : Res := run s (fun c => c.command m K.spmCopyStart spmCopyStart)

/-- SPM_COPY_COMPLETE -/
def execSpmCopyComplete (result : BitVec 8) (s : State) : Res := run s (spmCopyComplete result.toNat)

/-- DRAM_SCRUB_PASS -/
def execDramScrubPass (ch : Fin 2) (corrected uncorrectable : List (BitVec 40)) (s : State) (link : BitVec 32 := 0) : Res :=
  run s (dramScrubPass ch corrected uncorrectable link.toNat)

end Sys2Proof.Machine
end

