-- ==== Sys2Proof/Machine/Dma.lean ====
section
/-! DEFINITION. The DMA engine (R415 to R425, R427): descriptors, grants, pacing, completion, errors and ends by reset; the transfers that
sequences of the part start: statistics copies, loads of the Onion store and firmware reads. A grant's beats take effect when the grant ends
(assumption 18). -/

namespace Sys2Proof.Machine

/-! ### Descriptors (R416, R417) -/

/-- The descriptor of a channel. -/
structure DmaDesc where
  srcSpace : Nat
  src : Nat
  dstSpace : Nat
  dst : Nat
  elem : Nat
  c0 : Nat
  c1 : Nat
  c2 : Nat
  s : List Int
  d : List Int
  unit : Nat
  deriving DecidableEq, Repr

/-- The descriptor that the objects of a channel hold. -/
def Chip.dmaDesc (c : Chip) (ch : Nat) : DmaDesc := {
  srcSpace := c.nat (K.dmaSrcSpace ch), src := c.nat (K.dmaSrcAddr ch), dstSpace := c.nat (K.dmaDstSpace ch), dst := c.nat (K.dmaDstAddr ch)
  elem := c.nat (K.dmaElemBytes ch), c0 := c.nat (K.dmaCount ch 0), c1 := c.nat (K.dmaCount ch 1), c2 := c.nat (K.dmaCount ch 2)
  s := tab 3 (fun j => c.get (K.dmaSrcStep ch j)), d := tab 3 (fun j => c.get (K.dmaDstStep ch j)), unit := c.nat (K.dmaGrantUnit ch) }

/-- An address of R416, before it is held in 64 bits. -/
def dmaAddress (base : Nat) (steps : List Int) (i j k : Nat) : Int := base + i * at' steps 0 + j * at' steps 1 + k * at' steps 2

/-- Loop counters of an element in loop order. -/
def DmaDesc.loops (d : DmaDesc) (e : Nat) : Nat × Nat × Nat := (e % d.c0, e / d.c0 % d.c1, e / (d.c0 * d.c1))

/-- Source address of an element in loop order. -/
def DmaDesc.srcAt (d : DmaDesc) (e : Nat) : Nat := let (i, j, k) := d.loops e; lowBits (dmaAddress d.src d.s i j k) 64

/-- Destination address of an element in loop order. -/
def DmaDesc.dstAt (d : DmaDesc) (e : Nat) : Nat := let (i, j, k) := d.loops e; lowBits (dmaAddress d.dst d.d i j k) 64

/-- Elements of one unit (R415). -/
def DmaDesc.unitLength (d : DmaDesc) : Nat := if d.unit = 0 then d.c0 * d.c1 * d.c2 else if d.unit = 1 then d.c0 * d.c1 else d.c0

/-- Whether the elements of a row merge into bursts. -/
def DmaDesc.merges (d : DmaDesc) : Bool := decide (at' d.s 0 = d.elem ∧ at' d.d 0 = d.elem)

/-- Elements of the beat that begins with an element: one, or up to the end of the row or a multiple of 256 on either side. -/
def DmaDesc.beat (d : DmaDesc) (e : Nat) : Nat :=
  if d.merges then min (d.c0 - e % d.c0) (min ((256 - d.srcAt e % 256) / d.elem) ((256 - d.dstAt e % 256) / d.elem)) else 1

/-- A channel's state beside its objects. -/
def Chip.dmaCh (c : Chip) (ch : Nat) : DmaCh := at' c.dma.chans ch

/-- Change a channel's state. -/
def Chip.modDma (c : Chip) (ch : Nat) (f : DmaCh → DmaCh) : Chip := { c with dma := { c.dma with chans := modAt c.dma.chans ch f } }

/-! ### Transfers of a sequence (R423, R424, R461) -/

/-- The descriptor that a sequence gives a channel; the transfer is unpaced and writes no completion record (assumption 101). -/
def Chip.dmaProgram (c : Chip) (ch : Nat) (d : DmaDesc) : Chip :=
  c.setAll [(K.dmaSrcSpace ch, (d.srcSpace : Int)), (K.dmaSrcAddr ch, (d.src : Int)), (K.dmaDstSpace ch, (d.dstSpace : Int)),
    (K.dmaDstAddr ch, (d.dst : Int)), (K.dmaElemBytes ch, (d.elem : Int)), (K.dmaCount ch 0, (d.c0 : Int)), (K.dmaCount ch 1, (d.c1 : Int)),
    (K.dmaCount ch 2, (d.c2 : Int)), (K.dmaSrcStep ch 0, at' d.s 0), (K.dmaSrcStep ch 1, at' d.s 1), (K.dmaSrcStep ch 2, at' d.s 2),
    (K.dmaDstStep ch 0, at' d.d 0), (K.dmaDstStep ch 1, at' d.d 1), (K.dmaDstStep ch 2, at' d.d 2), (K.dmaGrantUnit ch, (d.unit : Int)),
    (K.dmaReqSource ch, 0), (K.dmaRepeat ch, 0), (K.dmaRecordAddr ch, 0)]

/-- A sequence's transfer begins: its channel is ready, and arbitrates as any other. -/
def Chip.dmaBegin (c : Chip) (ch : Nat) (d : DmaDesc) : Chip := ((c.dmaProgram ch d).modDma ch (fun _ => {})).set (K.dmaState ch) 2

/-- The descriptor of a record copy (R424): 4672 bytes from the record's place in STAT_RECORDS into the host slot, with grant unit 0. -/
def Chip.copyDesc (c : Chip) (s seq slot : Nat) : DmaDesc := {
  srcSpace := 0, src := c.domainHome (K.statRecords s) + 4672 * (seq % 8), dstSpace := 1, dst := c.nat (K.statHostBase s) + 4672 * slot
  elem := 64, c0 := 73, c1 := 1, c2 := 1, s := [64, 0, 0], d := [64, 0, 0], unit := 0 }

/-- The descriptor of a load (R234, R423): the factory records of the image, row by row, into the active view; before the header has been read
there are no counts and no place. -/
def SetLoad.desc (l : SetLoad) (w h base : Nat) : DmaDesc := {
  srcSpace := if l.host then 1 else 2, src := l.src + 65536, dstSpace := 0, dst := base, elem := 16, c0 := max w 1, c1 := max h 1, c2 := 1
  s := [16, ((16 * w : Nat) : Int), 0], d := [16, ((16 * w : Nat) : Int), 0], unit := 2 }

/-- Begin a load from SET_FLASH_OFFSET or ONION_HOST_ADDRESS: the header is read, and the channel is ready; the range of what the set held is
free again. -/
def Chip.startLoad (c : Chip) (l : SetLoad) : Chip :=
  let l := { l with
    src := if l.host then c.nat K.onionHostAddress else c.nat (K.setFlashOffset l.set), ch := c.nat K.onionDmaChannel }
  let c := (c.dropSet l.set).dmaBegin l.ch (l.desc 0 0 0)
  let c := if l.host then c else xipRead l.src 64 c
  let c := { c with onion := { c.onion with load := some l, loadSeq := nextSeq c.onion.loadSeq 0xFFFF } }
  ((c.set (K.setState l.set) 1).set (K.setShadowValid l.set) 0).refreshSets.loadStatus l.set 1

/-- Begin the next load of the start-up sequence (R240). -/
def Chip.bootLoads (c : Chip) : Chip :=
  match c.onion.load, c.onion.boot with
  | none, s :: rest =>
    ({ c with onion := { c.onion with boot := rest } } : Chip).startLoad { set := s, host := false, zero := false }
  | _, _ => c

/-- The first copy queued on a DMA channel. -/
def Chip.firstCopy (c : Chip) (ch : Nat) : Option StatCopy :=
  c.pix.copies.find? (fun x => c.nat (K.statDmaChannel x.source) = ch)

/-- The copy that a channel carries. -/
def Chip.dmaCopy? (c : Chip) (ch : Nat) : Option StatCopy := (c.firstCopy ch).filter (·.started)

/-- Whether a channel carries a load of the Onion store. -/
def Chip.dmaLoads (c : Chip) (ch : Nat) : Bool := c.onion.load.any (fun l => decide (l.ch = ch))

/-- Remove a copy from the queue. -/
def Chip.dropCopy (c : Chip) (x : StatCopy) : Chip := { c with pix := { c.pix with copies := c.pix.copies.erase x } }

/-- A copy has ended: its writeback word and its message follow, and STAT_HOST_WRITE moves on; one that failed is dropped (R424). -/
def Chip.copyEnds (c : Chip) (x : StatCopy) (st : Nat) : Chip :=
  let s := x.source
  let c := c.dropCopy x
  if st ≠ 1 then c.bump (K.statHostDrops s)
  else
    let wb := c.nat (K.statWbAddress s)
    let c := if wb = 0 then c else c.emit (.hostWrite 1 wb (leBytes 8 (x.seq * 2 ^ 32 + x.slot)))
    let c := c.msix0 (c.nat (K.statMsixVector s))
    c.set (K.statHostWrite s) ((x.slot + 1) % max 1 (c.nat (K.statHostSlots s)) : Nat)

/-- The sequence whose transfer has ended sees it: a copy ends with it, and a load that it has failed fails with status 6. -/
def Chip.sequenceSees (c : Chip) (ch st : Nat) : Chip :=
  match c.dmaCopy? ch, c.onion.load with
  | some x, _ => c.copyEnds x st
  | none, some l =>
    if l.ch = ch ∧ st ≠ 1 then (({ c with onion := { c.onion with load := none } } : Chip).loadFailed l.set 6).bootLoads else c
  | none, none => c

/-! ### The unit at hand -/

/-- The first element of the unit at hand, in loop order. -/
def Chip.dmaFirst (c : Chip) (ch : Nat) : Nat :=
  let d := c.dmaDesc ch
  let x := c.dmaCh ch
  (x.plane * d.c1 + x.row) * d.c0

/-- Whether the unit at hand is the transfer's last. -/
def Chip.dmaLastUnit (c : Chip) (ch : Nat) : Bool :=
  let d := c.dmaDesc ch
  decide (d.c0 * d.c1 * d.c2 ≤ c.dmaFirst ch + d.unitLength)

/-! ### Moving data (R421, R422) -/

/-- Whether beats can travel to or from a space now, as a status of Table 14.8 (1: they can). -/
def Chip.dmaReach (c : Chip) (space : Nat) : Nat :=
  if space = 1 ∧ !c.canSend0 then 5 else if space = 3 ∧ !c.canSend1 then 5 else if space = 2 ∧ c.get K.spRole ≠ 0 then 3 else 1

/-- What a beat meets: a status above 1 with the failing address, or nothing. -/
def Chip.dmaFails (c : Chip) (d : DmaDesc) (e n : Nat) : Option (Nat × Nat) :=
  if c.dmaReach d.srcSpace ≠ 1 then some (c.dmaReach d.srcSpace, d.srcAt e)
  else if c.dmaReach d.dstSpace ≠ 1 then some (c.dmaReach d.dstSpace, d.dstAt e)
  else if d.dstSpace = 0 ∧ c.writeBlocked (d.dstAt e) (n * d.elem) then some (6, d.dstAt e)
  else none

/-- Source bytes of a beat in DRAM: a byte that the transfer has written has its old or its new value. -/
def Chip.dmaFetch (c : Chip) (ch a n : Nat) : List Byte × Chip :=
  let (now, c) := c.dramRead a n
  let old := (c.dmaCh ch).before
  now.zipIdx.foldl (fun (acc : List Byte × Chip) (b, i) =>
    match old.find? (fun x => x.1 = a + i) with
    | none => (acc.1 ++ [b], acc.2)
    | some x => let (f, c) := acc.2.freeBit; (acc.1 ++ [if f then x.2 else b], c)) ([], c)

/-- Put bytes at a place that is reachable: DRAM, where protected images discard them (R236), or host memory. -/
def Chip.dmaPut (c : Chip) (space a : Nat) (l : List Byte) : Chip :=
  if space = 0 then (if c.writeBlocked a l.length then c.bump K.onionWriteBlocked else c).dramWrite a l
  else c.emit (.hostWrite space a l)

/-- One beat of n elements, which begins at an element; `src` holds the grant's bytes from a space other than DRAM, `off` the place of the
beat in them. -/
def Chip.dmaBeat (c : Chip) (ch : Nat) (d : DmaDesc) (src : List Byte) (off e n : Nat) : Chip :=
  let bytes := n * d.elem
  let c := if d.srcSpace = 2 then c.flashReadNow (d.srcAt e) bytes else c
  let (data, c) := if d.srcSpace = 0 then c.dmaFetch ch (d.srcAt e) bytes else (padTo bytes (src.drop off), c)
  let a := d.dstAt e
  let c := if d.dstSpace = 0 then
      let was := ((c.dramRead a bytes).1.zipIdx.map (fun (b, i) => (a + i, b))).filter
        (fun (x : Host.Cell) => !(c.dmaCh ch).before.any (fun y => y.1 = x.1))
      c.modDma ch (fun x => { x with before := x.before ++ was })
    else c
  c.dmaPut d.dstSpace a data

/-- Move the beats of a unit whose elements all lie below a limit, from the unit's element n on: elements moved, the failing beat if one
fails. `fuel` bounds the beats. -/
def Chip.dmaMove (ch : Nat) (d : DmaDesc) (src : List Byte) (first limit : Nat) : Nat → Nat → Chip → Nat × Option (Nat × Nat) × Chip
  | 0, n, c => (n, none, c)
  | fuel + 1, n, c =>
    let m := max 1 (d.beat (first + n))
    if limit < n + m then (n, none, c)
    else match c.dmaFails d (first + n) m with
      | some f => (n, some f, c)
      | none => Chip.dmaMove ch d src first limit fuel (n + m) (c.dmaBeat ch d src (n * d.elem) (first + n) m)

/-- Move the beats of the grant in progress that end within a number of bytes of the unit. -/
def Chip.dmaRun (c : Chip) (ch : Nat) (src : List Byte) (bytes : Nat) : Nat × Option (Nat × Nat) × Chip :=
  let d := c.dmaDesc ch
  let limit := min d.unitLength (bytes / max 1 d.elem)
  Chip.dmaMove ch d src (c.dmaFirst ch) limit d.unitLength 0 c

/-! ### The end of a transfer (R420 to R422) -/

/-- Table 14.7, for a transfer that has just ended. -/
def Chip.dmaRecord (c : Chip) (ch : Nat) : List Byte :=
  let x := c.dmaCh ch
  leBytes 4 (c.nat (K.dmaSequence ch)) ++ leBytes 1 ch ++ leBytes 1 (c.nat (K.dmaLastStatus ch)) ++ leBytes 1 x.flags ++ [0] ++
  leBytes 8 (c.nat (K.dmaEndTime ch)) ++ leBytes 8 (c.nat (K.dmaBytesMoved ch)) ++ leBytes 8 (c.nat (K.dmaPosition ch)) ++
  leBytes 8 (c.nat (K.dmaFailAddr ch)) ++ leBytes 4 x.frame ++ leBytes 4 0

/-- The engine grants nothing. -/
def Chip.dmaRelease (c : Chip) (ch : Nat) : Chip :=
  match c.dma.grant with
  | some g => if g.ch = ch then ({ c with dma := { c.dma with grant := none } } : Chip).set K.dmaActiveChannel 0xFF else c
  | none => c

/-- A transfer ends with a status, n elements of its unit moved and a failing address: state and status objects, completion record,
message (R421), and a repeating paced channel waits for its next assertion (R420). The message of a copy is its own (R424). -/
def Chip.dmaEnd (c : Chip) (ch st n addr : Nat) : Chip :=
  let d := c.dmaDesc ch
  let c := if c.get (K.dmaState ch) = 3 then c else c.modDma ch (fun x => { x with frame := x.asserted.getD x.frame })
  let x := c.dmaCh ch
  let (i, j, k) := d.loops (c.dmaFirst ch + n)
  let again := decide (st = 1) && c.on (K.dmaRepeat ch) && decide (c.get (K.dmaReqSource ch) ≠ 0)
  let state : Nat := if again then (if x.asserted.isSome then 2 else 1) else if st = 1 then 4 else if st = 2 then 6 else 5
  let c := c.dmaRelease ch
  let c := c.setAll [(K.dmaState ch, state), (K.dmaLastStatus ch, st), (K.dmaSequence ch, nextSeq (c.nat (K.dmaSequence ch)) 0xFFFFFFFF),
    (K.dmaBytesMoved ch, (x.moved + n * d.elem : Nat)), (K.dmaPosition ch, (if st = 1 then 0 else i + j * 2 ^ 17 + k * 2 ^ 34 : Nat)),
    (K.dmaFailAddr ch, addr), (K.dmaEndTime ch, c.now)]
  let c := if st = 1 then c.bump (K.dmaCompletions ch) else if 2 < st then c.bump (K.dmaErrors ch) else c
  let c := if st = 7 then c.bump (K.dmaTimeouts ch) else c
  let ra := c.nat (K.dmaRecordAddr ch)
  let rs := c.nat (K.dmaRecordSpace ch)
  let c := if ra = 0 ∨ c.dmaReach rs ≠ 1 then c else c.dmaPut rs ra (c.dmaRecord ch)
  let c := if c.on (K.dmaIrqEnable ch) ∧ (c.dmaCopy? ch).isNone then c.msix0 (c.nat (K.dmaVector ch)) else c
  let c := c.modDma ch (fun y => { y with
    row := 0, plane := 0, moved := 0, flags := 0, frame := if again then y.frame else 0, before := [], asserted := if again then y.asserted else none })
  c.sequenceSees ch st

/-- The transfer of a copy ends after n elements: the record goes out where all of it did. -/
def Chip.copyDone (c : Chip) (ch : Nat) (x : StatCopy) (st n : Nat) : Chip :=
  let c := match x.data with
    | some r => if st = 1 then c.emit (.hostWrite 1 (c.nat (K.statHostBase x.source) + 4672 * x.slot) r.bytes) else c
    | none => c
  c.dmaEnd ch st (if st = 1 then 73 else min n 72) 0

/-- The transfer of a sequence ends with a status after a number of bytes; the link or the port may stand against it. -/
def Chip.sequenceStop (c : Chip) (ch st bytes : Nat) : Chip :=
  match c.dmaCopy? ch with
  | some x => c.copyDone ch x (if st = 1 ∧ !c.canSend0 then 5 else st) (bytes / 64)
  | none => c.dmaEnd ch st (bytes / 16) 0

/-- The grant in progress ends a transfer with a status after the beats within a number of bytes; an earlier beat that fails names its
own status. -/
def Chip.dmaStop (c : Chip) (ch st bytes : Nat) (dst : Bool) : Chip :=
  let src := match c.dma.grant with
    | some g => g.src
    | none => []
  if (c.dmaCopy? ch).isSome || c.dmaLoads ch then c.sequenceStop ch st bytes
  else match c.dmaRun ch src bytes with
  | (n, some (f, a), c) =>
    let c := if f = 6 then c.bump K.onionWriteBlocked else c
    c.dmaEnd ch f n a
  | (n, none, c) =>
    let d := c.dmaDesc ch
    let n' := min n (d.unitLength - 1)
    let a := if dst then d.dstAt (c.dmaFirst ch + n') else d.srcAt (c.dmaFirst ch + n')
    c.dmaEnd ch st n (if st = 1 ∨ st = 2 ∨ st = 8 then 0 else a)

/-- A running grant whose outstanding beats settle: how many there are is open (assumption 18). -/
def Chip.dmaSettle (c : Chip) (ch st : Nat) : Chip :=
  let (f, c) := c.freeNat 64
  c.dmaStop ch st (f % ((c.dmaDesc ch).unitLength * (c.dmaDesc ch).elem + 1)) false

/-- End a channel that is armed, ready or running with a status; others keep theirs. -/
def Chip.dmaCease (c : Chip) (ch st : Nat) : Chip :=
  let s := c.get (K.dmaState ch)
  if s = 3 then c.dmaSettle ch st else if s = 1 ∨ s = 2 then c.dmaEnd ch st 0 0 else c

/-! ### Resets (R425, Table 14.9, Table 16.7) -/

/-- Whether a channel names a space, on either side or for its record. -/
def Chip.dmaNames (c : Chip) (ch space : Nat) : Bool :=
  decide (c.nat (K.dmaSrcSpace ch) = space ∨ c.nat (K.dmaDstSpace ch) = space ∨
    (c.nat (K.dmaRecordSpace ch) = space ∧ c.get (K.dmaRecordAddr ch) ≠ 0))

/-- What of a grant settles before a reset that ends its channel: the elements moved. How many beats are outstanding is open (assumption 18). -/
def Chip.dmaOutstanding (c : Chip) (spaces : List Nat) : Nat × Chip :=
  match c.dma.grant with
  | none => (0, c)
  | some g =>
    if spaces.any (c.dmaNames g.ch) ∧ (c.dmaCopy? g.ch).isNone ∧ !c.dmaLoads g.ch then
      let (f, c) := c.freeNat 64
      let d := c.dmaDesc g.ch
      let r := c.dmaRun g.ch g.src (f % (d.unitLength * d.elem + 1))
      (min r.1 (d.unitLength - 1), r.2.2)
    else (0, c)

/-- Channels that name one of some spaces are ended by a reset, the running one after n elements of its unit. -/
def Chip.dmaResetSpaces (c : Chip) (spaces : List Nat) (n : Nat) : Chip :=
  (List.range 16).foldl (fun c ch =>
    let st := c.get (K.dmaState ch)
    if spaces.any (c.dmaNames ch) ∧ 1 ≤ st ∧ st ≤ 3 then c.dmaEnd ch 8 (if st = 3 then n else 0) 0 else c) c

/-- Running channels are ended by a restart of the HOST region. -/
def Chip.dmaHostRestart (c : Chip) : Chip :=
  (List.range 16).foldl (fun c ch => if c.get (K.dmaState ch) = 3 then c.dmaCease ch 8 else c) c

/-- The pixel die powers down: every channel stops, and reads 0 when it restarts. -/
def Chip.dmaPowerDown (c : Chip) : Chip :=
  let c := (List.range 16).foldl (fun c ch => c.set (K.dmaState ch) 0) c
  ({ c with dma := {} } : Chip).set K.dmaActiveChannel 0xFF

/-- The DMA block has reset itself: the grant in progress starts again from its first beat, and its record says so (R423, R470). -/
def Chip.dmaBlockReset (c : Chip) : Chip :=
  match c.dma.grant with
  | some g => c.modDma g.ch (fun x => { x with flags := putBit x.flags 1 true })
  | none => c

/-! ### Start and abort (R418, R423, R427) -/

/-- Whether a running sequence holds a channel: statistics copies, or a load of the Onion store. -/
def Chip.dmaHeld (c : Chip) (ch : Nat) : Bool :=
  c.dmaCopies ch || c.dmaLoads ch

/-- Whether a master may command a channel (R427). -/
def Chip.dmaMay (c : Chip) (m : Master) (ch : Nat) : Bool := c.get (K.dmaSecure ch) ≠ 1 || secure m

/-- Whether the corners of one side of a transfer lie in its space (R418). -/
def Chip.dmaFits (c : Chip) (d : DmaDesc) (space base : Nat) (steps : List Int) : Bool :=
  let limit : Int := if space = 0 then c.nat K.dramCapacity else if space = 2 then 0x10000000 else (2 ^ 64 : Nat)
  (List.range 8).all (fun n =>
    let a := dmaAddress base steps (if n % 2 = 1 then d.c0 - 1 else 0) (if n / 2 % 2 = 1 then d.c1 - 1 else 0) (if n / 4 = 1 then d.c2 - 1 else 0)
    decide (0 ≤ a ∧ a + d.elem ≤ limit))

/-- Whether a descriptor passes the checks of a start. -/
def Chip.dmaSound (c : Chip) (ch : Nat) : Bool :=
  let d := c.dmaDesc ch
  let e : Int := d.elem
  decide ((d.src : Int) % e = 0 ∧ (d.dst : Int) % e = 0) && (d.s ++ d.d).all (fun x => decide (x % e = 0)) &&
  decide (d.dstSpace ≠ 2) && (c.on (K.dmaSecure ch) || !c.dmaNames ch 3) &&
  c.dmaFits d d.srcSpace d.src d.s && c.dmaFits d d.dstSpace d.dst d.d

/-- A write of 1 to DMA_START. A value kept while the pixel die is off starts nothing (R458). -/
def dmaStart (ch : Nat) (m : Master) (c : Chip) : Except Abort Chip :=
  let st := c.get (K.dmaState ch)
  guardNot (!c.dmaMay m ch) Abort.unsupported <|
  guardNot (decide (1 ≤ st ∧ st ≤ 3)) Abort.deviceState <|
  guardNot (c.dmaHeld ch) Abort.localControl <|
  guardNot (!c.dmaSound ch) Abort.incompatible <|
  .ok (if c.pixelOn then (c.modDma ch (fun _ => {})).set (K.dmaState ch) (if c.get (K.dmaReqSource ch) = 0 then 2 else 1) else c)

/-- A write of 1 to DMA_ABORT. -/
def dmaAbort (ch : Nat) (m : Master) (c : Chip) : Except Abort Chip :=
  guardNot (!c.dmaMay m ch) Abort.unsupported <|
  guardNot (c.dmaHeld ch) Abort.localControl <|
  .ok (c.dmaCease ch 2)

/-! ### Pacing (R419) -/

/-- DMA_REQ_SOURCE of a pacing request: 0 to 5 a stored frame, 6 to 11 a statistics record. -/
def dmaReqCode (req : Nat) : Nat := if req < 6 then req + 1 else req - 6 + 0x11

/-- The channels a request paces that a transfer holds. -/
def Chip.dmaPaced (c : Chip) (req : Nat) : List Nat :=
  (List.range 16).filter (fun ch => decide (c.nat (K.dmaReqSource ch) = dmaReqCode req ∧ 1 ≤ c.get (K.dmaState ch) ∧ c.get (K.dmaState ch) ≤ 3))

/-- The frame number that a request announces: that of the stored frame, or of the newest record. -/
def Chip.dmaFrame (c : Chip) (req : Nat) : Nat :=
  let x := at' c.pix.sources (req % 6)
  if req < 6 then match x.stored with
    | some f => f.number
    | none => 0
  else match x.records with
    | r :: _ => r.number
    | [] => 0

/-- A request is asserted: armed channels become ready. -/
def dmaRequestAssert (req : Nat) (c : Chip) : Chip :=
  if !c.pixelRuns then c
  else
    let f := c.dmaFrame req
    let c := { c with dma := { c.dma with reqs := modAt c.dma.reqs req (fun _ => true) } }
    (c.dmaPaced req).foldl (fun (c : Chip) ch =>
      let c := c.modDma ch (fun x => { x with asserted := some f })
      if c.get (K.dmaState ch) = 1 then c.set (K.dmaState ch) 2 else c) c

/-- A request is withdrawn: a channel whose grant has not begun misses it; a grant in progress goes on and is marked. -/
def dmaRequestWithdraw (req : Nat) (c : Chip) : Chip :=
  if !at' c.dma.reqs req then c
  else
    let c := { c with dma := { c.dma with reqs := modAt c.dma.reqs req (fun _ => false) } }
    (c.dmaPaced req).foldl (fun (c : Chip) ch =>
      if (c.dmaCh ch).asserted.isSome then
        let c := (c.modDma ch (fun x => { x with frame := x.asserted.getD x.frame, asserted := none })).bump (K.dmaReqMissed ch)
        if c.get (K.dmaState ch) = 2 then c.set (K.dmaState ch) 1 else c
      else match c.dma.grant with
        | some g =>
          if g.ch = ch ∧ !g.withdrawn then
            let c := { c with dma := { c.dma with grant := some { g with withdrawn := true } } }
            (c.modDma ch (fun x => { x with flags := putBit x.flags 0 true })).bump (K.dmaReqWithdrawn ch)
          else c
        | none => c) c

/-! ### Grants (R415) -/

/-- Whether the engine works: the pixel die runs, and neither the engine nor its region resets. -/
def Chip.dmaWorks (c : Chip) : Bool := c.pixelRuns && !c.blockResetting 4 2 && !c.regionRestarting 4

/-- The channel that a free engine grants. -/
def Chip.dmaNext (c : Chip) : Option Nat :=
  let order := tab 16 (fun n => (c.dma.lastGranted + 1 + n) % 16)
  let ready := order.filter (fun ch => c.get (K.dmaState ch) = 2)
  let top := ready.foldl (fun m ch => max m (c.get (K.dmaPriority ch))) 0
  ready.find? (fun ch => c.get (K.dmaPriority ch) = top)

/-- A unit that is not the last ends: its beats are done and the channel arbitrates again, or waits for its next assertion. The rows of a load are
counted; its bytes come with its end. -/
def Chip.dmaUnitEnds (c : Chip) (g : Grant) : Chip :=
  let d := c.dmaDesc g.ch
  if c.dmaLoads g.ch then ((c.dmaRelease g.ch).modDma g.ch (fun x => { x with row := x.row + 1 })).set (K.dmaState g.ch) 2
  else match c.dmaRun g.ch g.src (d.unitLength * d.elem) with
  | (n, some (f, a), c) =>
    let c := if f = 6 then c.bump K.onionWriteBlocked else c
    c.dmaEnd g.ch f n a
  | (_, none, c) =>
    let c := (c.dmaRelease g.ch).modDma g.ch (fun x =>
      let row := if d.unit = 2 then x.row + 1 else d.c1
      { x with moved := x.moved + d.unitLength * d.elem, row := if d.c1 ≤ row then 0 else row, plane := if d.c1 ≤ row then x.plane + 1 else x.plane })
    c.set (K.dmaState g.ch) (if c.get (K.dmaReqSource g.ch) = 0 ∨ (c.dmaCh g.ch).asserted.isSome then 2 else 1)

/-- Grant a channel. One that reads the window shows in SPM_STATE while the port is idle otherwise. -/
def Chip.dmaGrantTo (c : Chip) (ch : Nat) (src : List Byte) : Chip :=
  let c := c.modDma ch (fun x => { x with frame := x.asserted.getD x.frame, asserted := none })
  let c := { c with dma := { c.dma with grant := some { ch := ch, src := src, withdrawn := false }, lastGranted := ch } }
  let c := ((c.set (K.dmaState ch) 3).set K.dmaActiveChannel ch).total K.dmaGrants 1
  if c.nat (K.dmaSrcSpace ch) = 2 ∧ c.get K.spmState = 1 then c.set K.spmState 2 else c

/-- Whether a grant waits for the flash: the device that it reads programs or erases (R438). -/
def Chip.dmaStalled (c : Chip) (ch : Nat) : Bool :=
  let d := c.dmaDesc ch
  decide (d.srcSpace = 2) && c.flashBusy (d.srcAt (c.dmaFirst ch))

/-- DMA_GRANT: a grant in progress that is not its transfer's last ends, then the engine grants the next ready channel. -/
def dmaGrant (src : List Byte) (c : Chip) : Chip :=
  if !c.dmaWorks then c
  else
    let c := match c.dma.grant with
      | some g => if (c.dmaLastUnit g.ch && !c.dmaLoads g.ch) || c.dmaStalled g.ch then c else c.dmaUnitEnds g
      | none => c
    if c.dma.grant.isSome then c
    else match c.dmaNext with
      | some ch => c.dmaGrantTo ch src
      | none => c

/-- DMA_COMPLETE: the last unit of a transfer is done. -/
def dmaComplete (c : Chip) : Chip :=
  match c.dma.grant with
  | some g =>
    let d := c.dmaDesc g.ch
    if c.dmaWorks ∧ c.dmaLastUnit g.ch ∧ !c.dmaLoads g.ch ∧ !c.dmaStalled g.ch then c.dmaStop g.ch 1 (d.unitLength * d.elem) false else c
  | none => c

/-- DMA_BEAT_ERROR: the beat after some bytes of the unit fails, with status 3 or 4, at its source or its destination. A DRAM read that fails is
an uncorrectable block (R442). -/
def dmaBeatError (bytes st : Nat) (dst : Bool) (c : Chip) : Chip :=
  match c.dma.grant with
  | some g =>
    let d := c.dmaDesc g.ch
    if c.dmaWorks ∧ (st = 3 ∨ st = 4) then
      let c := c.dmaStop g.ch st (min bytes (d.unitLength * d.elem - 1)) dst
      if st = 3 ∧ !dst ∧ d.srcSpace = 0 ∧ c.get (K.dmaLastStatus g.ch) = 3 then c.dramMeets 4 [c.nat (K.dmaFailAddr g.ch)] else c
    else c
  | none => c

/-- DMA_TIMEOUT: the beat after some bytes of the unit makes no progress; not judged while a reset in MEM holds it (R474). -/
def dmaTimeout (bytes : Nat) (dst : Bool) (c : Chip) : Chip :=
  match c.dma.grant with
  | some g =>
    let d := c.dmaDesc g.ch
    let waits := c.suspended 4 2 && [0, 2].any (fun s => decide (d.srcSpace = s ∨ d.dstSpace = s))
    if !c.dmaWorks || waits then c
    else
      let c := c.dmaStop g.ch 7 (min bytes (d.unitLength * d.elem - 1)) dst
      if c.get (K.dmaLastStatus g.ch) = 7 then c.cellExpired 4 2 g.ch 0x4002 g.ch (c.nat (K.dmaFailAddr g.ch)) else c
  | none => c

/-! ### Copies to the host (R357, R424) -/

/-- STAT_HOST_COPY_START: the next copy of a channel starts while the channel serves nothing else; a copy whose record has been
overwritten, or whose host ring is full, is dropped. -/
def statCopyStart (ch : Nat) (c : Chip) : Chip :=
  match c.firstCopy ch with
  | none => c
  | some x =>
    let s := x.source
    let w := c.nat (K.statHostWrite s)
    if x.started || decide (1 ≤ c.get (K.dmaState ch) ∧ c.get (K.dmaState ch) ≤ 3) then c
    else if !(c.source s).records.any (fun r => r.seq = x.seq) || !c.canSend0 ||
        decide ((w + 1) % max 1 (c.nat (K.statHostSlots s)) = c.nat (K.statHostRead s)) then
      (c.dropCopy x).bump (K.statHostDrops s)
    else
      let r := (c.source s).records.find? (fun r => r.seq = x.seq)
      let c := c.dmaBegin ch (c.copyDesc s x.seq w)
      { c with pix := { c.pix with copies := c.pix.copies.map (fun y => if y = x then { x with started := true, slot := w, data := r } else y) } }

/-- Whether a sequence's transfer has the engine, or would have it next. -/
def Chip.dmaMayEnd (c : Chip) (ch : Nat) : Bool :=
  match c.dma.grant with
  | some g => decide (g.ch = ch)
  | none => decide (c.dmaNext = some ch)

/-- STAT_HOST_COPY_COMPLETE: the record, then its writeback word, then its message. A copy that the engine has not granted yet is granted first,
where its turn has come; while another channel has the engine it waits (R415). -/
def statCopyComplete (ch status : Nat) (c : Chip) : Chip :=
  match c.dmaCopy? ch with
  | none => c
  | some x =>
    if !c.dmaWorks || !c.dmaMayEnd ch then c
    else
      let c := if c.dma.grant.isSome then c else c.dmaGrantTo ch []
      let st := if !c.canSend0 then 5 else if status ≤ 2 then 1 else status
      let (n, c) := if st = 1 then (0, c) else c.freeNat 7
      c.copyDone ch x st n

/-- The statistics copies stop: running ones end with a status, queued ones are given up, and STAT_HOST_BASE reads 0 (R369). -/
def Chip.stopCopies (c : Chip) (st : Nat) : Chip :=
  let c := (List.range 16).foldl (fun (c : Chip) (ch : Nat) =>
    if (c.dmaCopy? ch).isSome ∧ 1 ≤ c.get (K.dmaState ch) ∧ c.get (K.dmaState ch) ≤ 3 then c.dmaEnd ch st 0 0 else c) c
  let c := (List.range 6).foldl (fun c s => c.set (K.statHostBase s) 0) c
  { c with pix := { c.pix with copies := [] } }

/-! ### Firmware reads (R461) -/

/-- Gnoner reads bytes of Function 1 host memory on the channel named by ONION_DMA_CHANNEL. A channel that a transfer holds is left as it is
(assumption 101). -/
def Chip.firmwareRead (c : Chip) (a len : Nat) (st : Nat) : Chip :=
  let ch := c.nat K.onionDmaChannel
  if 1 ≤ c.get (K.dmaState ch) ∧ c.get (K.dmaState ch) ≤ 3 ∨ !c.dmaWorks then c
  else
    let d : DmaDesc := {
      srcSpace := 3, src := a, dstSpace := 0, dst := 0, elem := 1, c0 := len, c1 := 1, c2 := 1, s := [1, 0, 0], d := [1, 0, 0], unit := 0 }
    ((c.dmaBegin ch d).total K.dmaGrants 1).dmaEnd ch st (if st = 1 then len else 0) (if st = 1 then 0 else a)

/-! ### Meanings -/

/-- STAT_HOST_COPY_START -/
def execStatHostCopyStart (ch : Fin 16) (s : State) : Res := run s (statCopyStart ch.val)

/-- STAT_HOST_COPY_COMPLETE -/
def execStatHostCopyComplete (ch : Fin 16) (status : BitVec 8) (s : State) : Res := run s (statCopyComplete ch.val status.toNat)

/-- DMA_START -/
def execDmaStart (m : Master) (ch : Fin 16) (s : State) : Res := run s (fun c => c.command m (K.dmaStart ch) (dmaStart ch m))

/-- DMA_ABORT -/
def execDmaAbort (m : Master) (ch : Fin 16) (s : State) : Res := run s (fun c => c.command m (K.dmaAbort ch) (dmaAbort ch m))

/-- DMA_REQUEST_ASSERT -/
def execDmaRequestAssert (req : Fin 12) (s : State) : Res := run s (dmaRequestAssert req.val)

/-- DMA_REQUEST_WITHDRAW -/
def execDmaRequestWithdraw (req : Fin 12) (s : State) : Res := run s (dmaRequestWithdraw req.val)

/-- DMA_GRANT -/
def execDmaGrant (src : List Byte) (s : State) (fixed : List (BitVec 40) := []) : Res := run s (fun c => dmaGrant src (c.dramFixed fixed))

/-- DMA_COMPLETE -/
def execDmaComplete (s : State) (fixed : List (BitVec 40) := []) : Res := run s (fun c => dmaComplete (c.dramFixed fixed))

/-- DMA_BEAT_ERROR -/
def execDmaBeatError (bytes : Nat) (status : BitVec 8) (dst : Bool) (s : State) : Res := run s (dmaBeatError bytes status.toNat dst)

/-- DMA_TIMEOUT -/
def execDmaTimeout (bytes : Nat) (dst : Bool) (s : State) : Res := run s (dmaTimeout bytes dst)

end Sys2Proof.Machine
end

