-- ==== Sys2Proof/Machine/Loads.lean ====
section
/-! DEFINITION. Loads of the Onion store and the ends of loads and saves (R234, R238, R240). -/

namespace Sys2Proof.Machine

/-! ### Loads -/

/-- A write of ONION_LOAD (R72, R234, R424). -/
def onionLoad (v : Nat) (c : Chip) : Except Abort Chip :=
  let s := v % 256
  guardNot (decide (1024 ≤ v ∨ 31 < s)) Abort.invalid <|
  guardNot (!bitOf v 8 && decide (c.get (K.setFlashOffset s) = 0xFFFFFFFF)) Abort.incompatible <|
  guardNot (!c.pixelRuns) Abort.deviceState <|
  guardNot (c.onion.load.isSome || decide (c.get (K.setState s) = 1) || c.passDue s || !(c.setUsers s).isEmpty ||
    c.solsticeOwns s || c.dmaCopies (c.nat K.onionDmaChannel)) Abort.localControl <|
  .ok (c.startLoad { set := s, host := bitOf v 8, zero := bitOf v 9 })

/-- A load ends with the set resident (R234, R239). -/
def Chip.loadDone (c : Chip) (l : SetLoad) (h recs : List Byte) (slot : Option (List Byte)) (base : Nat) : Chip :=
  let w := fieldAt h 6 2
  let ht := fieldAt h 8 2
  let n := w * ht
  let e := fun (i : Nat) => match slot with
    | some f => sx (fieldAt f (64 + 2 * i) 2) 16
    | none => 0
  let view := (recordsOf recs n).zipIdx.map (fun (r, i) => withE r (e i))
  let crc := fieldAt h 16 4
  let field : Nat → Nat → Nat := fun off k => match slot with
    | some f => fieldAt f off k
    | none => 0
  let stale := match slot, c.anchorOf l.set with
    | some f, some a => decide (a.factoryCrc = crc ∧ fieldAt f 4 4 < a.seq)
    | _, _ => false
  let c := c.putSet l.set (some { view := view, shadow := List.replicate n 0, base := base, factoryCrc := crc })
  let c := c.setAll [
    (K.setGeometry l.set, (w + ht * 2 ^ 16 + fieldAt h 10 1 * 2 ^ 32 + fieldAt h 11 1 * 2 ^ 40 + (fieldAt h 12 1 % 4) * 2 ^ 48 : Nat)),
    (K.setFieldSequence l.set, (field 4 4 : Nat)), (K.setAnchorTemp l.set, sx (field 8 2) 16), (K.setAnchorTime l.set, (field 16 8 : Nat)),
    (K.setShadowValid l.set, 0), (K.setStale l.set, if stale then 1 else 0), (K.setState l.set, 2)]
  (c.loadStatus l.set 2).refreshSets

/-- Whether the image of a load can be reached: host memory through Function 0, or the XIP window of the serial-port master. -/
def Chip.loadReaches (c : Chip) (l : SetLoad) : Bool := if l.host then c.canSend0 else decide (c.get K.spRole = 0)

/-- The DMA status of a load whose image could not be read. -/
def Chip.loadError (c : Chip) (l : SetLoad) : Nat := if !l.host then 3 else if c.canSend0 then 4 else 5

/-- The channel of a load that failed before any of its records moved is free again. -/
def Chip.loadFree (c : Chip) (l : SetLoad) : Chip := ((c.dmaRelease l.ch).modDma l.ch (fun _ => {})).set (K.dmaState l.ch) 0

/-- The records of a load have moved into their place, a row with each grant, and the transfer is complete (R415, R421). -/
def Chip.loadMoved (c : Chip) (l : SetLoad) (w h base : Nat) : Chip :=
  let x := c.dmaCh l.ch
  let granted := x.row + (if c.get (K.dmaState l.ch) = 3 then 1 else 0)
  let c := if l.host then c else xipRead (l.src + 65536) (16 * w * h) c
  let c := ((c.dmaProgram l.ch (l.desc w h base)).total K.dmaGrants (h - granted)).modDma l.ch (fun x => { x with row := 0, plane := 0, moved := 0 })
  c.dmaEnd l.ch 1 (w * h) 0

/-- A load has its image, as the management controller read it: the checks of R234, the place, and the records. -/
def Chip.loadImage (c : Chip) (l : SetLoad) (h recs a b : List Byte) : Chip :=
  let w := fieldAt h 6 2
  let ht := fieldAt h 8 2
  let n := w * ht
  let gone := fun (c : Chip) => ({ c with onion := { c.onion with load := none } } : Chip)
  if !headerOk h then ((gone c).loadFree l).loadFailed l.set 3
  else match c.setPlace (setBytes w ht) with
    | none => ((gone c).loadFree l).loadFailed l.set 5
    | some base =>
      if recs.length < 16 * n then (c.dmaProgram l.ch (l.desc w ht base)).dmaEnd l.ch (c.loadError l) (recs.length / 16) 0
      else
        let c := (gone c).loadMoved l w ht base
        if crc32 (recs.take (16 * n)) ≠ fieldAt h 16 4 then c.loadFailed l.set 4
        else c.loadDone l h recs (if l.zero then none else chooseSlot h a b n) base

/-- A load ends: the parts of the image that were read, or a DMA error, which ends its transfer and fails it (`Chip.sequenceSees`). -/
def onionLoadComplete (r : SetImage) (c : Chip) : Chip :=
  match c.onion.load with
  | none => c
  | some l =>
    match r with
    | .dmaError => c.dmaEnd l.ch (c.loadError l) 0 0
    | .parts h recs a b =>
      if !c.loadReaches l then c.dmaEnd l.ch (c.loadError l) 0 0
      else (c.loadImage l h recs a b).bootLoads

/-! ### The end of a save -/

/-- Flash pages that a number of bytes at the start of a field slot touches. -/
def slotPages (n : Nat) : Nat := (64 + n + 255) / 256

/-- What a save does to its target before the header: the sectors are erased, and the E array is written. -/
def Chip.saveField (c : Chip) (s : Nat) (second : Bool) (d : SetData) : Chip :=
  let off := c.slotOffset s second
  let size := up64k (64 + 2 * d.view.length)
  let c := (c.bumpBy K.spmErases (size / 4096)).bumpBy K.spmPrograms (slotPages (2 * d.view.length))
  (c.emit (.erased off size)).emit (.saved (off + 64) d.fieldBytes)

/-- A save ends with a status: the port is free for what waits. -/
def Chip.saveEnds (c : Chip) (s st : Nat) : Chip :=
  let c := ({ c with onion := { c.onion with save := none }, spm := { c.spm with seq := none } } : Chip).saveStatus s st
  (if c.portMaster then c.set K.spmState 1 else c).flashNext

/-- A save meets a flash error: its sequence ends in error, or, where it has none because the port is slave, only the save does (R428). -/
def Chip.saveFails (c : Chip) (s : Nat) : Chip :=
  match c.spm.seq with
  | some q => c.flashError q
  | none => (({ c with onion := { c.onion with save := none } } : Chip).saveStatus s 5).flashNext

/-- A save ends: it starts again when the field sequence has moved, else its outcome is reported. While another sequence has the port it has not
begun, and goes on waiting. -/
def onionSaveComplete (r : SaveResult) (c : Chip) : Chip :=
  match c.onion.save with
  | none => c
  | some (s, seq) =>
    if c.spm.seq.any (fun q => decide (q.user ≠ .save s)) then c
    else
      let now := c.nat (K.setFieldSequence s)
      match r, c.setData s with
      | .flashError, _ => c.saveFails s
      | _, none => c.saveFails s
      | .parts h a b, some d =>
        if !c.portMaster then c.saveFails s
        else if !headerOk h || decide (fieldAt h 13 1 ≠ 2) then c.saveEnds s 3
        else if fieldAt h 16 4 ≠ d.factoryCrc then c.saveEnds s 4
        else
          let second := saveSecond h a b d.view.length
          let c := c.saveField s second d
          if now ≠ seq then ({ c with onion := { c.onion with save := some (s, now) } } : Chip).saveStatus s 6
          else
            let c := (c.emit (.saved (c.slotOffset s second) (c.slotHeader s seq d))).bump K.spmPrograms
            (c.set (K.setSavedSequence s) seq).saveEnds s 2

/-! ### Meanings -/

/-- ONION_LOAD -/
def execOnionLoad (m : Master) (v : BitVec 64) (s : State) : Res := run s (fun c => c.command m K.onionLoad (onionLoad v.toNat))

/-- ONION_LOAD_COMPLETE -/
def execOnionLoadComplete (r : SetImage) (s : State) : Res := run s (onionLoadComplete r)

/-- ONION_SAVE_COMPLETE -/
def execOnionSaveComplete (r : SaveResult) (s : State) : Res := run s (onionSaveComplete r)

end Sys2Proof.Machine
end

