-- ==== Sys2Proof/Machine/Mailbox.lean ====
section
/-! DEFINITION. The mailbox unit (R402 to R413): messages in both directions, time-outs, recalls, interrupt status and
emptying. What Gnoner does with a request it has taken is in the file of requests. -/

namespace Sys2Proof.Machine

/-- A channel's state beside its objects. -/
def Chip.mbxOf (c : Chip) (ch : Nat) : Mbx := at' c.mbx ch

/-- Change a channel's state. -/
def Chip.modMbx (c : Chip) (ch : Nat) (f : Mbx → Mbx) : Chip := { c with mbx := modAt c.mbx ch f }

/-- Whether H2D is full. -/
def Chip.h2dFull (c : Chip) (ch : Nat) : Bool := c.on (K.mbxH2dState ch)

/-- Whether D2H is full. -/
def Chip.d2hFull (c : Chip) (ch : Nat) : Bool := c.on (K.mbxD2hState ch)

/-- The words of H2D. -/
def Chip.h2dWords (c : Chip) (ch : Nat) : List Nat := tab 8 (fun j => c.nat (K.mbxH2dWord ch j))

/-- Raise an MSI-X message of a channel: its vector of Function 0, or vector 0 or 1 of Function 1 (R411). -/
def Chip.mbxMessage (c : Chip) (ch : Nat) : Chip := if ch < 6 then c.msix0 (c.nat (K.mbxVector ch)) else c.msix1 (ch - 6)

/-- Set an interrupt status bit; a message follows when it rises while enabled (R412). -/
def Chip.mbxIrq (c : Chip) (ch b : Nat) : Chip :=
  let st := c.nat (K.mbxIrqStatus ch)
  let c := c.noteBit (K.mbxIrqStatus ch) b (!bitOf st b)
  if bitOf st b then c
  else
    let c := c.set (K.mbxIrqStatus ch) (st + 2 ^ b : Nat)
    if bitOf (c.nat (K.mbxIrqEnable ch)) b then c.mbxMessage ch else c

/-- Set or clear a flag of H2D. -/
def Chip.mbxFlag (c : Chip) (ch b : Nat) (on : Bool) : Chip :=
  c.set (K.mbxH2dFlags ch) (putBit (c.nat (K.mbxH2dFlags ch)) b on : Nat)

/-- Fields of a header word (Table 14.1). -/
def hdrType (w : Nat) : Nat := bits w 31 16
/-- the length field -/
def hdrLength (w : Nat) : Nat := bits w 11 8
/-- the sequence field -/
def hdrSeq (w : Nat) : Nat := bits w 7 0

/-- A reply: the request's type with bit 31 set, its sequence, and the payload words. -/
def mbxReply (req : Nat) (payload : List Nat) : List Nat :=
  ((hdrType req % 0x8000 + 0x8000) * 2 ^ 16 + (payload.length + 1) * 2 ^ 8 + hdrSeq req) :: payload

/-- The reply that a request gets whatever it asks: 0x0601_0000 for an unknown type, 0x0607_0010 for a length that does
not match its type (R414, Table 14.3, Table 16.3). -/
def mbxRefusal? (ch : Nat) (words : List Nat) : Option (List Nat) :=
  let w := words.headD 0
  let ok : Option Bool := match hdrType w with
    | 0x0001 => some (decide (hdrLength w = 2))
    | 0x0002 => some (decide (hdrLength w = 4))
    | 0x0003 => some (decide (hdrLength w = 2))
    | 0x0010 => some (decide (2 ≤ hdrLength w))
    | 0x0100 => if 6 ≤ ch then some (decide (hdrLength w = 5)) else none
    | 0x0101 => if 6 ≤ ch then some (decide (hdrLength w = 1)) else none
    | 0x0102 => if 6 ≤ ch then some (decide (hdrLength w = 1)) else none
    | _ => none
  match ok with
  | none => some (mbxReply w [Abort.unsupported])
  | some false => some (mbxReply w [Abort.length])
  | some true => none

/-- Only the host end writes the words and commands of a channel: Function 0 or, for channels 6 and 7, Function 1
(R410). -/
def mbxHost (ch : Nat) (m : Master) : Bool := if ch < 6 then decide (m = .f0) else decide (m = .f1)

/-- Carry out a command of a channel's host end: any other master is refused, and for channels 6 and 7, whose slots are
unimplemented in the dictionary, finds no sub-index, or is ignored through BAR0 (R87, R410, R426). -/
def mbxByHost (ch : Nat) (m : Master) (c : Chip) (k : Except Abort Chip) : Except Abort Chip :=
  if mbxHost ch m then k
  else if 6 ≤ ch then (if m = .f0 then .ok c else .error Abort.noSub)
  else .error Abort.unsupported

/-- Empty a channel (R413). -/
def Chip.mbxEmpty (c : Chip) (ch : Nat) : Chip :=
  let c := (List.range 8).foldl (fun c j => (c.set (K.mbxH2dWord ch j) 0).set (K.mbxD2hWord ch j) 0) c
  let c := c.setAll [(K.mbxH2dState ch, 0), (K.mbxD2hState ch, 0), (K.mbxH2dFlags ch, 0), (K.mbxIrqStatus ch, 0)]
  (c.modMbx ch (fun _ => {})).bump (K.mbxResets ch)

/-- Empty several channels. -/
def Chip.mbxEmptyAll (c : Chip) (chs : List Nat) : Chip := chs.foldl (fun c ch => c.mbxEmpty ch) c

/-- Empty a channel and tell its host end that the management controller restarted (Table 14.5). -/
def Chip.mbxRestarted (c : Chip) (ch : Nat) : Chip := (c.mbxEmpty ch).mbxIrq ch 3

/-- At a start of the pixel die every channel is empty with status bit 3 set (R410). -/
def Chip.mbxPixelStart (c : Chip) : Chip :=
  (List.range 8).foldl (fun c ch =>
    let n := c.get (K.mbxResets ch)
    (c.mbxRestarted ch).set (K.mbxResets ch) n) c

/-- Whether Gnoner has work, so that its domain is awake: a request, a reply, a session or a store (assumption 15). -/
def Chip.gnonerBusy (c : Chip) : Bool :=
  (List.range 8).any (fun ch => c.h2dFull ch || !(c.mbxOf ch).store.isEmpty) || c.nvm.job.isSome ||
  c.can.usdo.isSome || c.sps.request.isSome

/-! ### The host end's commands -/

/-- A write of 1 to the send command (R404); a request needs the management controller (R483). -/
def mbxSend (ch : Nat) (m : Master) (c : Chip) : Except Abort Chip :=
  let len := hdrLength (c.nat (K.mbxH2dWord ch 0))
  mbxByHost ch m c <|
  guardNot c.boot.hkpRestart Abort.hardware <|
  guardNot (c.h2dFull ch) Abort.localControl <|
  guardNot (decide (len = 0 ∨ 8 < len)) Abort.invalid <|
  let awake := c.gnonerBusy
  let c := (c.set (K.mbxH2dState ch) 1).mbxFlag ch 0 false
  let c := (c.modMbx ch (fun x => { x with timeoutRaised := false, takenAt := none })).bump (K.mbxSent ch)
  .ok (if awake then c else c.bump K.mbxMcWakes)

/-- A write of 2 to the send command: recall (R406), too late in the cycle of a take (R408). -/
def mbxRecall (ch : Nat) (m : Master) (c : Chip) : Except Abort Chip :=
  mbxByHost ch m c <|
  .ok (if c.h2dFull ch then
      (((c.set (K.mbxH2dState ch) 0).mbxFlag ch 1 true).mbxFlag ch 2 false).bump (K.mbxRecalls ch)
    else if (c.mbxOf ch).takenAt = some c.mono then
      ((c.mbxFlag ch 2 true).mbxFlag ch 1 false).bump (K.mbxRecalls ch)
    else c)

/-- A write of 1 to the D2H release takes the message (R405). -/
def mbxD2hRelease (ch : Nat) (m : Master) (c : Chip) : Except Abort Chip :=
  mbxByHost ch m c <|
  .ok ((c.set (K.mbxD2hState ch) 0).modMbx ch (fun x => { x with d2hTimedOut := false }))

/-- A write to the interrupt acknowledgement (R412): an event of its cycle sets its bit again, with its message where it rises again (R82). -/
def mbxIrqAck (ch : Nat) (m : Master) (v : Nat) (c : Chip) : Except Abort Chip :=
  let again := Nat.land (c.risesAgain (K.mbxIrqStatus ch) v) (c.nat (K.mbxIrqEnable ch))
  mbxByHost ch m c <|
  .ok ((List.range 4).foldl (fun (c : Chip) b => if bitOf again b then c.mbxMessage ch else c) (c.ackBits (K.mbxIrqStatus ch) v))

/-! ### Time-outs, takes and replies -/

/-- A message lies untaken for MBX_TIMEOUT (R406, R409). -/
def mbxTimeout (ch : Nat) (d2h : Bool) (c : Chip) : Chip :=
  let x := c.mbxOf ch
  if !c.pixelRuns then c
  else if d2h then
    if c.d2hFull ch ∧ !x.d2hTimedOut then
      (c.modMbx ch (fun x => { x with d2hTimedOut := true })).bump (K.mbxD2hTimeouts ch)
    else c
  else if c.h2dFull ch ∧ !x.timeoutRaised then
    (((c.modMbx ch (fun x => { x with timeoutRaised := true })).mbxFlag ch 0 true).bump (K.mbxTimeouts ch)).mbxIrq ch 2
  else c

/-- Gnoner takes a message into its request store while that has room (R409); a request that no type can serve has its
reply at once. -/
def mbxTake (ch : Nat) (c : Chip) : Chip :=
  if c.pixelRuns ∧ c.h2dFull ch ∧ (c.mbxOf ch).store.length < 2 ∧ !c.boot.hkpRestart then
    let words := c.h2dWords ch
    let r : MbxRequest := { words := words, reply := mbxRefusal? ch words }
    let c := c.set (K.mbxH2dState ch) 0
    (c.modMbx ch (fun x => { x with store := x.store ++ [r], takenAt := some c.mono })).mbxIrq ch 1
  else c

/-- Gnoner sends the reply of its oldest request into an empty D2H buffer (R407, R409): status bit 0, and for channels
0 to 5 a wake cause. Words beyond the reply carry 0. -/
def mbxD2hSend (ch : Nat) (c : Chip) : Chip :=
  match (c.mbxOf ch).store with
  | [] => c
  | r :: rest =>
    match r.reply with
    | none => c
    | some words =>
      if c.d2hFull ch ∨ !c.pixelRuns ∨ c.boot.hkpRestart then c
      else
        let c := (List.range 8).foldl (fun c j => c.set (K.mbxD2hWord ch j) (words.getD j 0 : Nat)) c
        let c := (c.modMbx ch (fun x => { x with store := rest, d2hTimedOut := false })).set (K.mbxD2hState ch) 1
        let c := (c.bump (K.mbxReceived ch)).mbxIrq ch 0
        if ch < 6 then c.wakeCause else c

/-- An internal transfer hangs (R469): the channel resets, emptied as at a restart of Gnoner. -/
def mbxChannelWatchdog (ch : Nat) (c : Chip) : Chip :=
  if c.pixelRuns then c.watchdog 4 3 ch 0x4003 ch 0 (fun c => c.mbxRestarted ch) else c

/-! ### Meanings -/

/-- MBX_SEND -/
def execMbxSend (m : Master) (ch : Fin 8) (s : State) : Res :=
  run s (fun c => c.command m (K.mbxH2dCommand ch) (mbxSend ch m))

/-- MBX_RECALL -/
def execMbxRecall (m : Master) (ch : Fin 8) (s : State) : Res :=
  run s (fun c => c.command m (K.mbxH2dCommand ch) (mbxRecall ch m))

/-- MBX_D2H_RELEASE -/
def execMbxD2hRelease (m : Master) (ch : Fin 8) (s : State) : Res :=
  run s (fun c => c.command m (K.mbxD2hRelease ch) (mbxD2hRelease ch m))

/-- MBX_IRQ_ACK -/
def execMbxIrqAck (m : Master) (ch : Fin 8) (v : BitVec 8) (s : State) : Res :=
  run s (fun c => c.command m (K.mbxIrqAck ch) (mbxIrqAck ch m v.toNat))

/-- MBX_TIMEOUT -/
def execMbxTimeout (ch : Fin 8) (d2h : Bool) (s : State) : Res := run s (mbxTimeout ch d2h)

/-- MBX_TAKE -/
def execMbxTake (ch : Fin 8) (s : State) : Res := run s (mbxTake ch)

/-- MBX_D2H_SEND -/
def execMbxD2hSend (ch : Fin 8) (s : State) : Res := run s (mbxD2hSend ch)

/-- MBX_CHANNEL_WATCHDOG -/
def execMbxChannelWatchdog (ch : Fin 8) (s : State) : Res := run s (mbxChannelWatchdog ch)

end Sys2Proof.Machine
end

