-- ==== Sys2Proof/Machine/Link.lean ====
section
/-! DEFINITION. The PCIe endpoint (R363 to R373): link, resets and what they stop (Tables 13.3, 14.5, 14.9), messages that waited, BAR2 and
AER. Assertion and deassertion of PERST_N are with the modes. -/

namespace Sys2Proof.Machine

/-! ### What resets and link events stop -/

/-- Whether the link carries packets (PCIE_LINK_STATE 2 to 5). -/
def Chip.linkUp (c : Chip) : Bool := decide (2 ≤ c.get K.pcieLinkState ∧ c.get K.pcieLinkState ≤ 5)

/-- Function 0 after a reset: nothing enabled, every vector masked (assumption 8). What AER has logged stays until the host clears it
(R372), and so do PME_En and PME_Status, from which a PME of D3cold follows (Table 13.1; assumption 87). -/
def Pcie.reset0 (p : Pcie) : Pcie := { p with
  busMaster0 := false, d3hot0 := false, aspmL0s := false, aspmL1 := false, aspmL12 := false, mask0 := 2 ^ 64 - 1, pend0 := 0 }

/-- Function 1 after a reset. -/
def Pcie.reset1 (p : Pcie) : Pcie := { p with busMaster1 := false, d3hot1 := false, mask1 := 0xFF, pend1 := 0 }

/-- Change the endpoint's state. -/
def Chip.modPcie (c : Chip) (f : Pcie → Pcie) : Chip := { c with pcie := f c.pcie }

/-- The link in a state in which it carries nothing: 0 down, 1 training. Leaving L0 to L2 is an entry to DL_Down; a link that goes
down from L2 wakes the host still, until it trains again (R371). -/
def Chip.linkTo (c : Chip) (st : Int) : Chip :=
  let c := if 2 ≤ c.get K.pcieLinkState then c.bump K.pcieLinkDowns else c
  (c.setAll [(K.pcieLinkState, st), (K.pcieLinkSpeed, 0), (K.pcieLinkWidth, 0)]).modPcie (fun p => { p with l2 := p.l2 && decide (st = 0) })

/-- Streams and statistics copies stop (R369); copies under way end with a status. -/
def Chip.stopHostWork (c : Chip) (st : Nat := 8) : Chip := ((List.range 8).foldl (fun (c : Chip) n => c.stopStream n) c).stopCopies st

/-- Both functions are reset: host work stops, locks are released, mailboxes are emptied and DMA channels that name host memory end, a
running one after the n elements that had settled before (R425). -/
def Chip.hostResets (c : Chip) (n : Nat) : Chip :=
  let c := ((c.modPcie (fun p => p.reset0.reset1)).stopHostWork.releaseLocks 3).releaseLocks 2
  (c.mbxEmptyAll (List.range 8)).dmaResetSpaces [1, 3] n

/-- HOT_RESET: configuration space is reset and the link trains again. -/
def hotReset (c : Chip) : Chip :=
  if c.pixelOn ∧ c.get K.pcieLinkState ≠ 0 then
    let (n, c) := (c.bump K.pcieResets).dmaOutstanding [1, 3]
    (c.linkTo 1).hostResets n
  else c

/-- FLR_F0 -/
def flrF0 (c : Chip) : Chip :=
  if c.pixelOn ∧ c.linkUp then
    let (n, c) := (c.bump K.pcieFlrs).dmaOutstanding [1]
    let c := (c.modPcie Pcie.reset0).stopHostWork.releaseLocks 3
    (c.mbxEmptyAll (List.range 6)).dmaResetSpaces [1] n
  else c

/-- Whether Function 1 is present (R364). -/
def Chip.f1Present (c : Chip) : Bool := bitOf (c.nat K.straps) 0

/-- FLR_F1 -/
def flrF1 (c : Chip) : Chip :=
  if c.pixelOn ∧ c.linkUp ∧ c.f1Present then
    let (n, c) := (c.bump K.pcieFlrs).dmaOutstanding [3]
    let c := (c.modPcie Pcie.reset1).releaseLocks 2
    (c.mbxEmptyAll [6, 7]).dmaResetSpaces [3] n
  else c

/-- LINK_DOWN: with no reset; streams run on with their frames discarded, locks of both functions are released. -/
def linkDown (c : Chip) : Chip :=
  if c.pixelOn ∧ 2 ≤ c.get K.pcieLinkState then
    ((c.linkTo 0).releaseLocks 3).releaseLocks 2
  else c

/-! ### Messages that waited (R367, R413) -/

/-- Send every message of Function 0 that waits on an unmasked vector, while it can be sent. -/
def Chip.flush0 (c : Chip) : Chip :=
  (List.range 64).foldl (fun (c : Chip) v =>
    if bitOf c.pcie.pend0 v && !bitOf c.pcie.mask0 v && c.canSend0 then
      (c.modPcie (fun p => { p with pend0 := putBit p.pend0 v false })).emit (.msix false v)
    else c) c

/-- The same of Function 1. -/
def Chip.flush1 (c : Chip) : Chip :=
  (List.range 8).foldl (fun (c : Chip) v =>
    if bitOf c.pcie.pend1 v && !bitOf c.pcie.mask1 v && c.canSend1 then
      (c.modPcie (fun p => { p with pend1 := putBit p.pend1 v false })).emit (.msix true v)
    else c) c

/-- Whether no stream frame has lines on their way to the host: ASPM L1 is entered between the last output line of one frame and the
first of the next (R371). -/
def Chip.betweenFrames (c : Chip) : Bool := c.pix.streams.all (fun (x : Stream) => x.jobs.all (fun (j : Job) => j.slot.isNone))

/-- Whether the host has enabled a link power state and the endpoint may enter it now (Table 13.1, R371). -/
def Chip.aspmAllows (c : Chip) : LinkPower → Bool
  | .l0 => true
  | .l0s => c.pcie.aspmL0s
  | .l1 => c.pcie.aspmL1 && c.betweenFrames
  | .l12 => c.pcie.aspmL1 && c.pcie.aspmL12 && c.betweenFrames

/-- PCIE_LINK_STATE of a power state. -/
def linkPowerCode : LinkPower → Nat
  | .l0 => 2
  | .l0s => 3
  | .l1 => 4
  | .l12 => 5

/-- A link that is up passes to a power state; in L0 it carries the messages that wait. -/
def Chip.linkPower (c : Chip) (p : LinkPower) : Chip :=
  if !(c.pixelOn && c.linkUp && c.aspmAllows p) then c
  else
    let c := c.set K.pcieLinkState (linkPowerCode p : Nat)
    if p = .l0 then c.flush0.flush1 else c

/-- PCIE_LINK_UP: training ends at a rate that PCIE_SPEED_LIMIT allows, and messages that waited are sent; a link that is up already
changes its power state. -/
def pcieLinkUp (speed width : Nat) (power : LinkPower) (c : Chip) : Chip :=
  if 2 ≤ c.get K.pcieLinkState then c.linkPower power
  else if c.pixelOn ∧ !c.pins.perstLow ∧ power = .l0 ∧ speed ≠ 0 ∧ (width = 1 ∨ width = 2 ∨ width = 4) then
    let c := c.setAll [(K.pcieLinkState, 2), (K.pcieLinkSpeed, (min speed (c.nat K.pcieSpeedLimit) : Nat)), (K.pcieLinkWidth, width)]
    (c.modPcie (fun p => { p with l2 := false })).flush0.flush1
  else c

/-- MSIX_VECTOR_UNMASK: the host unmasks a vector; one message follows if one waits. -/
def msixUnmask (f1 : Bool) (vec : Nat) (c : Chip) : Chip :=
  if !(c.pixelOn && c.linkUp) then c
  else if f1 then
    if c.f1Present ∧ vec < 8 then (c.modPcie (fun p => { p with mask1 := putBit p.mask1 vec false })).flush1 else c
  else (c.modPcie (fun p => { p with mask0 := putBit p.mask0 vec false })).flush0

/-! ### Configuration space and AER (R369, R371, R372) -/

/-- AER uncorrectable bits of the errors that R372 lists, as PCI Express numbers them (assumption 19). -/
def aerUncBits : List Nat := [4, 12, 13, 14, 16, 18, 20]

/-- AER correctable bits of the errors that R372 lists. -/
def aerCorBits : List Nat := [0, 6, 7, 8, 12, 13]

/-- An uncorrectable error is logged. -/
def Chip.aerUncorrectable (c : Chip) (b : Nat) : Chip :=
  if b ∈ aerUncBits then (c.modPcie (fun p => { p with aerUnc := putBit p.aerUnc b true })).bump K.pcieUncorrectable else c

/-- A correctable error is logged. -/
def Chip.aerCorrectable (c : Chip) (b : Nat) : Chip :=
  if b ∈ aerCorBits then (c.modPcie (fun p => { p with aerCor := putBit p.aerCor b true })).bump K.pcieCorrectable else c

/-- A poisoned write to a BAR: discarded and counted. -/
def Chip.poisonedWrite (c : Chip) : Chip := (c.bump K.pciePoisonedRx).aerUncorrectable 12

/-- PCIE_ERROR_RECEIVED -/
def pcieError (e : PcieError) (c : Chip) : Chip :=
  if !c.pixelOn || decide (c.get K.pcieLinkState = 0) then c
  else match e with
    | .correctable b => c.aerCorrectable b.val
    | .uncorrectable b => c.aerUncorrectable b.val
    | .poisonedWrite => c.poisonedWrite
    | .retrain => c.bump K.pcieRetrains

/-- PCIE_CONFIG_WRITE -/
def pcieConfigWrite (w : CfgWrite) (c : Chip) : Chip :=
  if !(c.pixelOn && c.linkUp) then c
  else match w with
    | .busMaster f1 on =>
      if f1 then (if c.f1Present then (c.modPcie (fun p => { p with busMaster1 := on })).flush1 else c)
      else (c.modPcie (fun p => { p with busMaster0 := on })).flush0
    | .power f1 d3 =>
      if f1 then (if c.f1Present then (c.modPcie (fun p => { p with d3hot1 := d3 })).flush1 else c)
      else (c.modPcie (fun p => { p with d3hot0 := d3 })).flush0
    | .pmeEnable on => c.modPcie (fun p => { p with pmeEn := on })
    | .aspm l0s l1 l12 => (c.modPcie (fun p => { p with aspmL0s := l0s, aspmL1 := l1, aspmL12 := l12 })).linkPower .l0
    | .clearUncorrectable m => c.modPcie (fun p => { p with aerUnc := clearBits p.aerUnc m.toNat })
    | .clearCorrectable m => c.modPcie (fun p => { p with aerCor := clearBits p.aerCor m.toNat })

/-- BUS_MASTER_DISABLE: Bus Master Enable of Function 0 becomes 0; streams and copies find that they cannot send. -/
def busMasterDisable (c : Chip) : Chip := pcieConfigWrite (.busMaster false false) c

/-- PME_TURN_OFF brings the link to L2. -/
def pmeTurnOff (c : Chip) : Chip :=
  if c.pixelOn ∧ c.linkUp then (c.set K.pcieLinkState 6).modPcie (fun p => { p with l2 := true }) else c

/-- A write to PCIE_EVENT_ACK; an event of its cycle sets its bit again (R82), with its message where it rises again. -/
def pcieEventAck (v : Nat) (c : Chip) : Chip :=
  let again := Nat.land (c.risesAgain K.pcieEventStatus v) (c.nat K.pcieEventMask)
  let c := c.ackBits K.pcieEventStatus v
  (List.range 7).foldl (fun (c : Chip) b => if bitOf again b then c.msix0 (c.nat K.pcieEventVector) else c) c

/-! ### BAR2 (R366, R236) -/

/-- A BAR2 access at an offset. -/
def bar2Access (off : Nat) (acc : Bar2) (c : Chip) : Chip :=
  if !(c.pixelOn && c.linkUp) || c.pcie.d3hot0 then c
  else
    let a := c.nat K.pcieBar2Base + off
    let cap := c.nat K.dramCapacity
    let inside := fun (n : Nat) => min n (cap - a)
    match acc with
    | .read len bad =>
      let n := inside len.toNat
      let c := if n < len.toNat then c.bump K.bar2Outside else c
      let (bytes, c) := c.dramRead a n
      let met := (bad.map (fun b => b.toNat * 64)).filter (fun (x : Nat) => decide (x < a + n ∧ a < x + 64))
      let c := c.dramMeets 3 met
      let c := if met.isEmpty then c else c.bump K.bar2Poisoned
      c.emit (.bar2 (bytes ++ List.replicate (len.toNat - n) 0) (!met.isEmpty))
    | .write data poisoned =>
      if poisoned then c.poisonedWrite
      else
        let n := inside data.length
        let c := if n < data.length then c.bump K.bar2Outside else c
        c.dmaPut 0 a (data.take n)

/-! ### Meanings -/

/-- HOT_RESET -/
def execHotReset (s : State) : Res := run s hotReset

/-- FLR_F0 -/
def execFlrF0 (s : State) : Res := run s flrF0

/-- FLR_F1 -/
def execFlrF1 (s : State) : Res := run s flrF1

/-- LINK_DOWN -/
def execLinkDown (s : State) : Res := run s linkDown

/-- BUS_MASTER_DISABLE -/
def execBusMasterDisable (s : State) : Res := run s busMasterDisable

/-- PME_TURN_OFF -/
def execPmeTurnOff (s : State) : Res := run s pmeTurnOff

/-- PCIE_EVENT_ACK -/
def execPcieEventAck (m : Master) (v : BitVec 8) (s : State) : Res :=
  run s (fun c => c.command m K.pcieEventAck (fun c => .ok (pcieEventAck v.toNat c)))

/-- BAR2_ACCESS -/
def execBar2Access (off : BitVec 26) (acc : Bar2) (s : State) (fixed : List (BitVec 40) := []) : Res :=
  run s (fun c => bar2Access off.toNat acc (c.dramFixed fixed))

/-- PCIE_ERROR_RECEIVED -/
def execPcieErrorReceived (e : PcieError) (s : State) : Res := run s (pcieError e)

/-- PCIE_LINK_UP -/
def execPcieLinkUp (speed : Fin 6) (width : Fin 5) (s : State) (power : LinkPower := .l0) : Res := run s (pcieLinkUp speed.val width.val power)

/-- PCIE_CONFIG_WRITE -/
def execPcieConfigWrite (w : CfgWrite) (s : State) : Res := run s (pcieConfigWrite w)

/-- MSIX_VECTOR_UNMASK -/
def execMsixVectorUnmask (f1 : Bool) (vec : Fin 64) (s : State) : Res := run s (msixUnmask f1 vec.val)

end Sys2Proof.Machine
end

