-- ==== Sys2Proof/Machine/Psirel.lean ====
section
/-! DEFINITION. The Psirel link (R388 to R400) and CAN_TRIGGER (R385). Times on the link are in 1/16 ns. -/

namespace Sys2Proof.Machine

/-- The role in force. -/
def Chip.psiRole (c : Chip) : Int := c.get K.psirelRole

/-- Whether the link runs: REFCLK is present (R31) and the node is not in deep standby (R399). -/
def Chip.psiLinkOn (c : Chip) : Bool := !c.psi.linkOff && !c.mode.asleep && decide (c.boot.phase = .ready)

/-- A message with its CRC-16 (R390), inverted when the message it forwards had a wrong one (R392). -/
def psiFrame (good : Bool) (l : List Byte) : List Byte :=
  let crc := crc16 l
  l ++ leBytes 2 (if good then crc else 0xFFFF - crc)

/-- Start symbols of Table 13.7. -/
def psiMarkStart : Nat := 0x3C
/-- the start symbol of a trigger, K28.3 -/
def psiTriggerStart : Nat := 0x7C

/-- The bytes of a time mark. -/
def psiMarkBytes (good : Bool) (t d cc hops flags : Nat) : List Byte :=
  psiFrame good (leBytes 8 t ++ leBytes 4 d ++ leBytes 2 cc ++ leBytes 1 hops ++ leBytes 1 flags)

/-- The bytes of a trigger. -/
def psiTriggerBytes (good : Bool) (target node mask seq : Nat) : List Byte :=
  psiFrame good (leBytes 8 target ++ leBytes 2 node ++ leBytes 1 mask ++ leBytes 1 seq)

/-- The node's own C and flag bit 1: 0 and set while it has no valid measurement (R393). -/
def Psi.ownC (p : Psi) : Nat × Nat := match p.lastC with | some x => (x, 0) | none => (0, 2)

/-- Set the local time base to a time. -/
def Chip.setTime (c : Chip) (t : Nat) : Chip :=
  { c with clk := { c.clk with
    time := (t + 2 ^ 64 - c.clk.cycle * c.clk.sub % 2 ^ 64) % 2 ^ 64, pixSkew := c.clk.pixSkew + (c.now - t) } }

/-- A change of PSIREL_STATE; a member that leaves locked raises a record and an EMCY (R395). -/
def Chip.psiState (c : Chip) (new : Int) : Chip :=
  let old := c.get K.psirelState
  let c := c.set K.psirelState new
  if old = 4 ∧ new ≠ 4 ∧ c.psiRole = 2 then
    (c.raise 0 4 6 0 0x4005 new.toNat (lowBits (c.get K.psirelError) 32)).emcyFor 0xFF03 4 0x4005
  else c

/-- The state of the node on its start in the role in force (Table 13.8), and of a return measurement that is not enabled (R393). -/
def Chip.psirelStart (c : Chip) : Chip :=
  let s : Int := if c.psiRole = 0 then 0 else if c.psiRole = 1 then 1 else 2
  let c := { c with psi := { c.psi with lastT := none, good := 0, integ := 0, waiting := [] } }
  (c.psiState s).set K.psirelRetState (if c.get K.psirelRetEnable = 0 then 3 else c.get K.psirelRetState)

/-! ### Time marks -/

/-- The node's mark instant (R391, R396): a time waiting in PSIREL_TIME_SET becomes its time, and the master sends a
mark. -/
def psirelMarkSend (c : Chip) : Chip :=
  if c.psiRole = 2 then c
  else
    let c := match c.psi.setTime with
      | none => c
      | some t => ({ c with psi := { c.psi with setTime := none, stepSeq := nextSeq c.psi.stepSeq 15 } } : Chip).setTime t
    if c.psiRole = 1 ∧ c.psiLinkOn then
      let t := c.now / 1000000 * 1000000
      let (cc, f) := c.psi.ownC
      c.emit (.psirel psiMarkStart (psiMarkBytes true t 0 cc 0 (c.nat K.psirelTimescale + f + c.psi.stepSeq * 16)))
    else c

/-- Forward a mark (R392). -/
def Chip.forwardMark (c : Chip) (mk : PsiMark) : Chip :=
  if 64 ≤ mk.hops.toNat then c
  else
    let d := mk.d.toNat + mk.c.toNat + c.nat K.psirelExtraDelay + mk.transit.toNat
    let (cc, f) := c.psi.ownC
    let c := c.set K.psirelTransit mk.transit.toNat
    c.emit (.psirel psiMarkStart (psiMarkBytes mk.crcOk mk.t.toNat d cc (mk.hops.toNat + 1)
      (mk.flags.toNat % 2 + f + mk.flags.toNat / 16 * 16)))

/-- The error e of a mark, 1/16 ns: the local time at its reference instant less the expected time (R391). -/
def Chip.markError (c : Chip) (mk : PsiMark) : Int :=
  let local' : Int := 16 * (c.now : Int) + mk.phase.toInt
  let expected : Int := 16 * (mk.t.toNat : Int) + mk.d.toNat + mk.c.toNat + c.nat K.psirelExtraDelay
  local' - expected

/-- Whether a mark is valid (R394). -/
def Chip.markValid (c : Chip) (mk : PsiMark) : Bool :=
  let st := c.get K.psirelState
  mk.crcOk && (decide (st = 2 ∨ st = 5) || decide (c.psi.lastT = some (mk.t.toNat - 1000000) ∧ 1000000 ≤ mk.t.toNat))

/-- A step: the time base takes the expected time at the mark (R394). -/
def Chip.psiStep (c : Chip) (e : Int) : Chip :=
  (c.setTime (((c.now : Int) - rne e 4) % (2 ^ 64 : Nat)).toNat).bump K.psirelSteps

/-- One mark of the proportional and integral loop (R394): e in 1/16 ns over 1 ms is e / 16 ppm; gains 1/4 and 1/64,
the correction limited to 700 ppm, in 1/1000 ppm. -/
def Chip.psiSteer (c : Chip) (e : Int) : Chip :=
  let integ := clampI (c.psi.integ + rne (e * 1000) 10) (-700000) 700000
  let rate := clampI (rne (e * 1000) 6 + integ) (-700000) 700000
  ({ c with psi := { c.psi with integ := integ } } : Chip).set K.psirelRateAdj (-rate)

/-- A valid mark of a member (Table 13.8). -/
def Chip.takeMark (c : Chip) (mk : PsiMark) : Chip :=
  let st := c.get K.psirelState
  let e := c.markError mk
  let far := decide (16000 < e ∨ e < -16000)
  let near := decide (-160 ≤ e ∧ e ≤ 160)
  let c := c.setAll [(K.psirelError, satS e 32), (K.psirelHops, min (mk.hops.toNat + 1) 255),
    (K.psirelTimescale, mk.flags.toNat % 2)]
  let c := { c with psi := { c.psi with lastT := some mk.t.toNat } }
  if st = 3 then
    let c := { c with psi := { c.psi with good := if near then c.psi.good + 1 else 0 } }
    let c := c.psiSteer e
    if 16 ≤ c.psi.good then c.psiState 4 else c
  else if st = 4 then
    if far then ({ c.psiStep e with psi := { c.psi with good := 0 } } : Chip).psiState 3 else c.psiSteer e
  else
    let c := { c with psi := { c.psi with good := if near then 1 else 0 } }
    (if far then c.psiStep e else c.psiSteer e).psiState 3

/-- A member receives a time mark (R391 to R394). -/
def psirelMarkReceived (mk : PsiMark) (c : Chip) : Chip :=
  if c.psiRole ≠ 2 ∨ !c.psiLinkOn then c
  else
    let c := { c with psi := { c.psi with inputInvalid := false } }
    let st := c.get K.psirelState
    let valid := c.markValid mk
    let c := if mk.crcOk then
        c.set K.psirelUpstreamDelay (lowBits (mk.d.toNat + mk.c.toNat + c.nat K.psirelExtraDelay : Nat) 32)
      else c
    let c :=
      if mk.crcOk ∧ 64 ≤ mk.hops.toNat then
        (c.set K.psirelHops (min (mk.hops.toNat + 1) 255)).psiState 6
      else if mk.crcOk ∧ st = 6 then
        ({ c with psi := { c.psi with lastT := none, good := 0 } } : Chip).psiState 2
      else if valid then c.takeMark mk
      else ({ c with psi := { c.psi with good := 0 } } : Chip).bump K.psirelMarksBad
    c.forwardMark mk

/-- 3 ms without a valid mark: a locked member enters holdover. -/
def psirelHoldover (c : Chip) : Chip :=
  if c.psiRole = 2 ∧ c.get K.psirelState = 4 then (c.bump K.psirelHoldovers).psiState 5 else c

/-! ### Return measurement (R393) -/

/-- One measurement of the return pair. -/
def psirelReturnMeasure (r : PsiReturn) (c : Chip) : Chip :=
  if !c.psiLinkOn then c
  else if c.get K.psirelRetEnable = 0 then c.set K.psirelRetState 3
  else
    let enter := fun (c : Chip) (st : Nat) =>
      let was := c.get K.psirelRetState
      let c := ({ c with psi := { c.psi with lastRet := st } } : Chip).set K.psirelRetState st
      if was = st then c else c.raise 0 4 6 2 0x4004 st 0
    match r with
    | .valid x =>
      ({ c with psi := { c.psi with lastC := some x.toNat, lastRet := 0, returns := (x.toNat :: c.psi.returns).take 64 } } : Chip).set
        K.psirelRetState 0
    | .none => enter c 1
    | .inverted => enter c 2

/-- Every 64 ms the mean of the last 64 valid measurements is published. -/
def psirelCableDelayPublish (c : Chip) : Chip :=
  if !c.psiLinkOn ∨ c.get K.psirelRetEnable = 0 ∨ c.psi.returns = [] then c
  else c.set K.psirelCableDelay (rneDiv (sumN c.psi.returns) c.psi.returns.length)

/-! ### Frame triggers (R397, R385) -/

/-- The heads a group mask triggers: TRIGGER_MODE 1 and a shared bit. -/
def Chip.triggeredHeads (c : Chip) (mask : Nat) : Nat :=
  (List.range 4).foldl (fun acc h =>
    if c.get (K.triggerMode h) = 1 ∧ Nat.land mask (c.nat (K.psirelHeadGroup h)) ≠ 0 then acc + 2 ^ h else acc) 0

/-- A trigger that reaches the node: delivered later to its heads, or discarded as late. -/
def Chip.acceptTrigger (c : Chip) (target node mask : Nat) : Chip :=
  if node = 0 ∨ node = c.nat K.psirelNode then
    if target < c.now then c.bump K.psirelTriggersLate
    else
      let heads := c.triggeredHeads mask
      if heads = 0 then c else { c with psi := { c.psi with waiting := c.psi.waiting ++ [{ target := target, heads := heads }] } }
  else c

/-- The master sends a trigger, and takes it itself. -/
def Chip.sendTrigger (c : Chip) (target node mask : Nat) : Chip :=
  let seq := nextSeq c.psi.trigSeq 255
  let c := { c with psi := { c.psi with trigSeq := seq } }
  let c := if c.psiLinkOn then
      (c.emit (.psirel psiTriggerStart (psiTriggerBytes true target node mask seq))).bump K.psirelTriggersSent
    else c
  c.acceptTrigger target node mask

/-- Refusals of the layout of CAN_TRIGGER. -/
def triggerInvalid (v : Nat) : Bool := decide (clearBits v 0x00FF3FFF ≠ 0 ∨ bits v 23 16 = 0)

/-- A write to PSIREL_TRIGGER; only a master sends. -/
def psirelTrigger (v : Nat) (c : Chip) : Except Abort Chip :=
  guardNot (triggerInvalid v) Abort.invalid <|
  .ok (if c.psiRole = 1 then c.sendTrigger (c.now + c.nat K.psirelTriggerLead) (bits v 13 0) (bits v 23 16) else c)

/-- A write to CAN_TRIGGER (R385). -/
def canTrigger (v : Nat) (c : Chip) : Except Abort Chip :=
  guardNot (triggerInvalid v) Abort.invalid <|
  let target := c.now + c.nat K.psirelTriggerLead
  .ok (if c.psiRole = 1 then c.sendTrigger target (bits v 13 0) (bits v 23 16)
    else if c.psiRole = 0 then c.acceptTrigger target (bits v 13 0) (bits v 23 16)
    else c.bump K.canTriggersIgnored)

/-- A periodic trigger falls due: its target time is the latest period target at or before the time base plus the
lead. -/
def psirelPeriodicTrigger (c : Chip) : Chip :=
  let p := c.nat K.psirelTrigPeriod
  if c.psiRole = 1 ∧ p ≠ 0 then
    let ahead := c.now + c.nat K.psirelTriggerLead
    let target := ((ahead : Int) - ((ahead : Int) - c.get K.psirelTrigPhase) % p).toNat
    c.sendTrigger target 0 (c.nat K.psirelTrigGroups)
  else c

/-- A member receives a trigger: forwarded, then delivered later or discarded. -/
def psirelTriggerReceived (t : PsiTrigger) (c : Chip) : Chip :=
  if c.psiRole ≠ 2 ∨ !c.psiLinkOn then c
  else
    let c := { c with psi := { c.psi with inputInvalid := false } }
    let c := c.emit (.psirel psiTriggerStart
      (psiTriggerBytes t.crcOk t.target.toNat t.node.toNat t.mask.toNat t.seq.toNat))
    if t.crcOk then c.acceptTrigger t.target.toNat t.node.toNat t.mask.toNat else c

/-! ### Time (R396), wake (R399), input faults (R398) -/

/-- A write to PSIREL_TIME_SET. -/
def psirelTimeSet (v : Nat) (c : Chip) : Except Abort Chip :=
  guardNot (decide (v % 1000000 ≠ 0)) Abort.invalid <|
  guardNot (decide (c.psiRole = 2)) Abort.incompatible <|
  .ok { c with psi := { c.psi with setTime := some v } }

/-- A write to PSIREL_TIME_ADJUST: nanoseconds still to slew, in 10^-6 ns. -/
def psirelTimeAdjust (v : Int) (c : Chip) : Except Abort Chip :=
  guardNot (decide (1000000 < v)) Abort.tooHigh <|
  guardNot (decide (v < -1000000)) Abort.tooLow <|
  guardNot (decide (c.psiRole = 2)) Abort.incompatible <|
  .ok { c with psi := { c.psi with slew := c.psi.slew + v * 1000000 } }

/-- A write to PSIREL_WAKE: a master sends a wake gap. -/
def psirelWake (v : Nat) (c : Chip) : Except Abort Chip :=
  guardNot (decide (v ≠ 1)) Abort.invalid <|
  .ok (if c.psiRole = 1 ∧ c.psiLinkOn then c.emit .psirelGap else c)

/-- SYNC_IN shows no signal for 1 µs (0 violations), or code violations within 1 ms. -/
def psirelInputInvalid (violations : Nat) (c : Chip) : Chip :=
  if c.psiRole ≠ 2 ∨ !c.psiLinkOn then c
  else
    let c := c.bumpBy K.psirelCodeErrors violations
    if violations = 0 ∨ 16 < violations then { c with psi := { c.psi with inputInvalid := true } } else c

/-- Inverted commas: the receiver inverts its input. -/
def psirelInInverted (c : Chip) : Chip :=
  if c.psiRole = 2 ∧ c.psiLinkOn then c.set K.psirelInInverted 1 else c

/-! ### Meanings -/

/-- PSIREL_MARK_SEND -/
def execPsirelMarkSend (s : State) : Res := run s psirelMarkSend

/-- PSIREL_MARK_RECEIVED -/
def execPsirelMarkReceived (mk : PsiMark) (s : State) : Res := run s (psirelMarkReceived mk)

/-- PSIREL_HOLDOVER -/
def execPsirelHoldover (s : State) : Res := run s psirelHoldover

/-- PSIREL_RETURN_MEASURE -/
def execPsirelReturnMeasure (r : PsiReturn) (s : State) : Res := run s (psirelReturnMeasure r)

/-- PSIREL_CABLE_DELAY_PUBLISH -/
def execPsirelCableDelayPublish (s : State) : Res := run s psirelCableDelayPublish

/-- PSIREL_TRIGGER -/
def execPsirelTrigger (m : Master) (v : BitVec 32) (s : State) : Res :=
  run s (fun c => c.command m K.psirelTrigger (psirelTrigger v.toNat))

/-- PSIREL_PERIODIC_TRIGGER -/
def execPsirelPeriodicTrigger (s : State) : Res := run s psirelPeriodicTrigger

/-- PSIREL_TRIGGER_RECEIVED -/
def execPsirelTriggerReceived (t : PsiTrigger) (s : State) : Res := run s (psirelTriggerReceived t)

/-- PSIREL_TIME_SET -/
def execPsirelTimeSet (m : Master) (v : BitVec 64) (s : State) : Res :=
  run s (fun c => c.command m K.psirelTimeSet (psirelTimeSet v.toNat))

/-- PSIREL_TIME_ADJUST: an I32, whose slot holds its sign extension. -/
def execPsirelTimeAdjust (m : Master) (v : BitVec 32) (s : State) : Res :=
  run s (fun c => c.command m K.psirelTimeAdjust (psirelTimeAdjust v.toInt))

/-- PSIREL_WAKE -/
def execPsirelWake (m : Master) (v : BitVec 8) (s : State) : Res :=
  run s (fun c => c.command m K.psirelWake (psirelWake v.toNat))

/-- PSIREL_WAKE_DETECT -/
def execPsirelWakeDetect (s : State) : Res := run s Chip.wake

/-- PSIREL_INPUT_INVALID -/
def execPsirelInputInvalid (violations : BitVec 8) (s : State) : Res := run s (psirelInputInvalid violations.toNat)

/-- PSIREL_IN_INVERTED -/
def execPsirelInInverted (s : State) : Res := run s psirelInInverted

/-- CAN_TRIGGER -/
def execCanTrigger (m : Master) (v : BitVec 32) (s : State) : Res :=
  run s (fun c => c.command m K.canTrigger (canTrigger v.toNat))

end Sys2Proof.Machine
end

