-- ==== Sys2Proof/Machine/Power.lean ====
section
/-! DEFINITION. The pixel die's supply: its loss and start, DRAM training, the lane self-test, re-admission, the safe state and rail
faults (R49 to R54, R93, R440, R457, R458, R472, R474, R476 to R481). -/

namespace Sys2Proof.Machine

/-! ### The pixel die powers down -/

/-- RO objects of the pixel die that a loss of its supply leaves: running totals (R73), what the DRAM controllers have found, and
what the latest admissions found (R317). -/
def staysWhileOff : List Nat :=
  [K.nucSamples, K.dmaGrants, K.dramChannels, K.dramInstalled, K.dramCapacity, K.admitResult, K.admitRequest] ++
  tab 6 (fun s => K.linesGranted s) ++ tab 6 K.admitDemand ++ tab 6 K.admitCeiling ++ tab 6 K.admitLastDemand

/-- Whether an object is RO. -/
def isReadOnly (key : Nat) : Bool :=
  match rowOf? key with
  | some r => decide (r.acc = .ro)
  | none => false

/-- Whether a key is a word of a message from the host to the device (0x5000, R410), which the mailbox unit loses with its supply (R413). -/
def isHostWord (key : Nat) : Bool := decide (0x5000 ≤ key / 256 ∧ key / 256 < 0x5040 ∧ key / 256 % 8 = 0)

/-- What RO objects of pixel-die blocks report is lost, and so are the words of messages; other RW and WO values are kept (R93). -/
def Chip.erasePixel (c : Chip) : Chip :=
  { c with dict := c.dict.filter (fun (e : Nat × Int) =>
      !(onPixelDie e.1 && (isReadOnly e.1 || isHostWord e.1) && e.1 ∉ staysWhileOff)) }

/-- Heads that an ACQ restart held begin their start (Table 16.6). -/
def Chip.acqResume (c : Chip) : Chip :=
  (List.range 4).foldl (fun (c : Chip) (h : Nat) =>
    if c.get (K.runState h) = 1 ∧ (c.head h).phase = .idle then c.headStart h else c) c

/-- Region restarts in progress or due are abandoned (R474): those of the pixel die, and with `all` that of ACQ. Gnoner's own restart
goes on. -/
def Chip.abandonRestarts (c : Chip) (all : Bool) : Chip :=
  let drop := fun (i : Nat) => decide (1 ≤ i ∧ i ≤ 3) || (all && decide (i = 0))
  let stopped := fun (i : Nat) (b : BlockHist) =>
    let die := decide (i = 1) || (decide (i = 2) && decide (b.block ≤ 1)) || (decide (i = 3) && decide (b.block ≤ 3)) ||
      (decide (i = 0) && decide (8 ≤ b.block))
    if die then { b with resetting := false } else b
  let acq := all && c.regionRestarting 1
  let c := { c with regions := c.regions.zipIdx.map (fun ((r : RegionHist), (i : Nat)) =>
    let r := { r with blocks := r.blocks.map (stopped i) }
    if drop i then { r with scheduled := none, restarting := false } else r) }
  let c := c.setAll [(K.regionState 1, 0), (K.regionState 2, 0), (K.regionState 3, 0)]
  if acq then (c.set (K.regionState 0) 1).acqResume else c

/-- CSI-2 sources stop with the receivers. -/
def Chip.csiLost (c : Chip) : Chip :=
  [0, 1].foldl (fun (c : Chip) (i : Nat) => (c.set (K.srcState i) 0).applyStopped (4 + i)) c

/-- The pixel die is isolated and powered down (R53, Table 1.7, Table 13.3, Table 14.5): its contents are lost, and PIXEL_DIE_STATE reads
`st`. A copy of DRAM into flash ends in a DRAM error. -/
def Chip.pixelLost (c : Chip) (st : Int) (all : Bool) : Chip :=
  let c := { c with
    pins := { c.pins with dieLinkIsolated := true, pixPwrEn := false }
    mode := { c.mode with pixelUse := .off, trained := [false, false] }
    clk := { c.clk with divNext := none } }
  let c := c.abandonRestarts all
  if !c.pixelOn then c.set K.pixelDieState st
  else
    let c := c.hkJudge
    let c := ((((c.linkTo 0).dmaPowerDown.stopHostWork.releaseLocks 3).releaseLocks 2).csiLost.loseSets).loseCommits
    let c := if c.spm.copy.isSome then ({ c with spm := { c.spm with copy := none } } : Chip).copyStatus 4 else c
    let c := c.saveStops
    let failed := (List.range 8).filter (fun j => c.get (K.sensorState (3 + j)) = 2)
    let c := { c with
      pix := { sources := c.pix.sources.map (fun (x : Source) => { nextNumber := x.nextNumber }), admitSeq := c.pix.admitSeq }
      dram := [], mbx := List.replicate 8 {}, pcie := { subsystem := c.pcie.subsystem }
      thermal := { c.thermal with wasFailed := c.thermal.wasFailed ++ failed.filter (· ∉ c.thermal.wasFailed), pixelRound := false } }
    c.erasePixel.set K.pixelDieState st

/-- Steps 1 to 3 of R187, which standby, the safe state, a lost reference clock and a failed pixel die take as well: the pixel die is
powered down, the heads stop and the actuators park. -/
def Chip.standDown (c : Chip) (st : Int) : Chip := ((c.pixelLost st true).headsStopNow).startPark

/-! ### The safe state and thermal shutdown (R187, R472) -/

/-- Entry to standby, L4, thermal shutdown or the safe state abandons Gnoner's restart too (R474). -/
def Chip.abandonGnoner (c : Chip) : Chip :=
  if c.regionRestarting 5 then
    (({ c with boot := { c.boot with hkpRestart := false } } : Chip).modRegion 5 (fun (r : RegionHist) => { r with
      scheduled := none, restarting := false })).set (K.regionState 4) 1
  else c

/-- What every entry to CHIP_MODE 4 does. -/
def Chip.toSafe (c : Chip) (thermal : Bool) : Chip :=
  let c := (c.standDown 0).abandonGnoner
  let c := { c with mode := { c.mode with going := 0, thermal := thermal } }
  c.setAll [(K.chipMode, 4), (K.modeRequest, 2)]

/-- Whether the chip is in the safe state with no restart attempt under way. -/
def Chip.inSafe (c : Chip) : Bool := decide (c.get K.chipMode = 4 ∧ c.mode.going ≠ 1)

/-- Entry to the safe state. A cause that arises in it is recorded and causes no second entry (R474); in a restart attempt it ends the
attempt. -/
def Chip.safeState (c : Chip) (region code : Nat) : Chip :=
  let c := if c.inSafe then c else c.toSafe (decide (c.get K.chipMode = 4) && c.mode.thermal)
  c.raise 3 0 0xFF 0xFF 0x0002 region code

/-- Thermal shutdown: the sensor's sub-index and its reading. In the safe state it is only recorded (R474). -/
def Chip.thermalShutdown (c : Chip) (sensor : Nat) (reading : Int) : Chip :=
  let c := if c.inSafe then c
    else ((c.toSafe true).bump K.shutdownCount).set K.lastShutdownTime c.now
  (c.raise 3 0 0xFF 0xFF 0x0003 sensor (lowBits reading 32)).emcyFor 0x4200 0 0x0003

/-! ### The pixel die starts -/

/-- Escalation counts are cleared at a pixel-die start (R474). -/
def Chip.clearEscalation (c : Chip) : Chip :=
  { c with regions := c.regions.map (fun (r : RegionHist) => { r with
    restarts := [], blocks := (r.blocks.filter (·.resetting)).map (fun (b : BlockHist) => { b with cells := [], resets := [] }) }) }

/-- BARs of Functions 0 and 1 (Table 13.2). -/
def bars0 : List (Nat × Nat × Bool) := [(0, 0x4000000, false), (2, 0x4000000, true), (4, 0x4000, false)]
/-- the BAR of Function 1 -/
def bars1 : List (Nat × Nat × Bool) := [(0, 0x1000, false)]

/-- The endpoint starts with its configuration space reset: both functions report the identity of R2, Function 1 where its strap has it
present, and the subsystem ID in force (R364, R365). HJ_VID is the number that 0x1018:01 reports (R3). -/
def Chip.configSpace (c : Chip) : Chip :=
  let vid := c.nat K.identityVendor % 2 ^ 16
  let sub := c.nat K.pcieSubsystemId
  let f1 := bitOf (c.nat K.straps) 0
  { c with pcie := { c.pcie with
    subsystem := sub
    function0 := some { vendor := vid, subVendor := vid, subDevice := sub, multi := f1, bars := bars0 }
    function1 := if f1 then some { vendor := vid, subVendor := vid, subDevice := sub, multi := false, bars := bars1 } else none } }

/-- Whether the six rails of the pixel die are present (R52). -/
def Chip.pixelRailsIn (c : Chip) : Bool := (List.range 6).all (fun r => decide (c.rails.level.getD r .inRange ≠ RailLevel.under))

/-- Whether the pixel die waits: REFCLK is lost, or the level is L4 (R31, R184). -/
def Chip.pixelHeld (c : Chip) : Bool := decide (c.get K.refclkState ≠ 0 ∨ c.get K.throttleLevel = 4)

/-- PIX_PWR_EN rises (R51), the PCIe endpoint starts with its configuration space reset (R80, R365), streams stand stopped (R458), and
DRAM training is awaited; while REFCLK is lost or at level L4 the pixel die waits (R31, R184). A die whose rails are present already
reads 4, isolated, until the front die releases it (R52, assumption 88). -/
def Chip.pixelPower (c : Chip) (use : PixelUse) : Chip :=
  let c := { c with mode := { c.mode with pixelUse := use, trained := [false, false] } }
  if c.pixelHeld then c
  else
    let c := { c with pins := { c.pins with pixPwrEn := true } }
    let ch := fun (n : Nat) => if c.mode.single ∧ c.mode.onCh ≠ n then c.get (K.dramChState n) else 1
    let c := (c.applyPending pcieP).configSpace
    let c := (List.range 8).foldl (fun (c : Chip) (n : Nat) => c.set (K.streamRun n) 0) c
    c.setAll [(K.pixelDieState, if c.pixelRailsIn then 4 else 1), (K.clkPixDiv, if 2 ≤ c.get K.throttleLevel then 4 else 3), (K.dramChState 0, ch 0),
      (K.dramChState 1, ch 1), (K.dramChannels, if c.mode.single then 1 else 2), (K.pcieLinkState, if c.pins.perstLow then 0 else 1)]

/-- A start of the pixel die, at which the escalation counts of every region are cleared (R474). -/
def Chip.pixelUp (c : Chip) (use : PixelUse) : Chip := (if c.pixelHeld then c else c.clearEscalation).pixelPower use

/-- The use that calls for the pixel die now: full in start-up, while running with MODE_REQUEST 1, and on the way to running; for the
host link in standby with PERST_N high (R464 to R466). -/
def Chip.wantedUse (c : Chip) : PixelUse :=
  let m := c.get K.chipMode
  if c.mode.going = 1 ∨ m = 0 ∨ (m = 1 ∧ c.mode.going = 0 ∧ c.get K.modeRequest = 1) then .full
  else if m = 2 ∧ c.mode.going = 0 ∧ c.mode.hostCall then .hostOnly
  else .off

/-- A start that fails (R472): the pixel die is failed, and the third in a row leads to the safe state. -/
def Chip.startFailed (c : Chip) (region code : Nat) (tell : Chip → Nat → Chip) : Chip :=
  let n := c.rails.failedStarts + 1
  let c := c.standDown 3
  let c := tell { c with rails := { c.rails with failedStarts := n } } n
  if 3 ≤ n ∨ c.get K.chipMode = 4 then
    ({ c with rails := { c.rails with failedStarts := 0 } } : Chip).safeState region code
  else c

/-! ### Requests that start again (R458) -/

/-- The record of a run request that is refused. -/
def Chip.refusedStart (c : Chip) (region block cell key : Nat) : Chip := c.raise 0 region block cell 0x0010 (key / 256) (key % 256)

/-- Start the heads whose run request reads 1, each checked against those already started. -/
def Chip.startHeads (c : Chip) : Chip :=
  let want := (List.range 4).filter (fun h => c.get (K.runRequest h) = 1 ∧ (c.get (K.runState h) = 0 ∨ c.get (K.runState h) = 5))
  let src := [0, 1].map (fun i => (K.srcRun i, c.get (K.srcRun i)))
  let c := want.foldl (fun (c : Chip) (h : Nat) => c.set (K.runRequest h) 0) c
  let c := src.foldl (fun (c : Chip) (e : Nat × Int) => c.set e.1 0) c
  let c := want.foldl (fun (c : Chip) (h : Nat) =>
    let (c, r) := headRunRequest h c
    if r.isSome then c.refusedStart 1 h 0xFF (K.runRequest h) else c) c
  c.setAll src

/-- Start the CSI-2 sources whose SRC_RUN reads 1. -/
def Chip.startCsi (c : Chip) : Chip :=
  let want := [0, 1].filter (fun i => c.get (K.srcRun i) = 1 ∧ c.get (K.srcState i) = 0)
  let c := want.foldl (fun (c : Chip) (i : Nat) => c.set (K.srcRun i) 0) c
  want.foldl (fun (c : Chip) (i : Nat) =>
    let (c, r) := srcRunRequest i c
    if r.isSome then c.refusedStart 1 (8 + c.nat (K.srcReceiver i)) 4 (K.srcRun i) else c) c

/-! ### Re-admission (R476) -/

/-- Whether a list of items passes every check. -/
def Chip.admits (c : Chip) (i : Items) : Bool := decide (failBits (c.demands i) c.ceilings = 0)

/-- The items kept when they are taken in order. -/
def Chip.keptItems (c : Chip) : Items :=
  let all := c.items
  let none' : Items := { sources := [], streams := [] }
  let src := all.sources.foldl (fun (k : Items) s =>
    let t := { k with sources := k.sources ++ [s] }
    if c.admits t then t else k) none'
  all.streams.foldl (fun (k : Items) n =>
    let t := { k with streams := k.streams ++ [n] }
    let s := streamSourceOf (c.nv (K.streamSource n))
    if (s ∈ k.sources ∨ s ∉ all.sources) ∧ c.admits t then t else k) src

/-- Evaluate admission again with the ceilings in force: what is not kept is stopped, with a record. -/
def Chip.readmit (c : Chip) : Chip :=
  let all := c.items
  let kept := c.keptItems
  let c := c.publishAdmission (c.demands kept) c.ceilings true
  let c := (all.sources.filter (fun s => s ∉ kept.sources)).foldl (fun (c : Chip) (s : Nat) =>
    if s < 4 then (headStopRequest s c).refusedStart 1 s 0xFF (K.runRequest s)
    else (srcStop (s - 4) c).refusedStart 1 (8 + c.nat (K.srcReceiver (s - 4))) 4 (K.srcRun (s - 4))) c
  (all.streams.filter (fun n => n ∉ kept.streams)).foldl (fun (c : Chip) (n : Nat) =>
    (streamStop n c).refusedStart 4 1 n (K.streamRun n)) c

/-! ### The lane self-test (R478) -/

/-- The groups of `mask` test themselves; each that fails is retired. -/
def Chip.laneTest (c : Chip) (mask ok : Nat) : Chip :=
  let c := (List.range 4).foldl (fun (c : Chip) (n : Nat) =>
    if bitOf c.mode.lanes n && !bitOf ok n then
      let left := putBit c.mode.lanes n false
      ({ c with mode := { c.mode with lanes := left } } : Chip).raise 1 2 1 0xFF 0x2011 n left
    else c) { c with mode := { c.mode with lanes := mask } }
  c.set K.nucLanesInService c.mode.lanes

/-! ### DRAM training (R440, R441, R477) -/

/-- DRAM_INSTALLED and DRAM_CAPACITY for a channel of so many GiB. -/
def Chip.dramSize (c : Chip) (gib : Nat) : Chip :=
  let per := gib * 2 ^ 30
  let straps := bitOf (c.nat K.straps) 5
  let served := if c.mode.single then per else 2 * per
  c.setAll [(K.dramInstalled, (if straps then per else 2 * per : Nat)), (K.dramCapacity, (served / 32 * 31 : Nat)),
    (K.dramChannels, if c.mode.single then 1 else 2)]

/-- GiB of one channel, from DRAM_INSTALLED. -/
def Chip.dramGib (c : Chip) : Nat := c.nat K.dramInstalled / 2 ^ 30 / (if bitOf (c.nat K.straps) 5 then 1 else 2)

/-- A channel fails its training. -/
def Chip.channelFailed (c : Chip) (ch : Nat) : Chip := (c.set (K.dramChState ch) 3).raise 1 3 ch 0xFF 0x3002 ch 0

/-- Entry to single-channel mode on the other channel. -/
def Chip.toSingle (c : Chip) (ch : Nat) : Chip := { c with mode := { c.mode with single := true, onCh := 1 - ch } }

/-- The pixel die restarts in single-channel mode while the heads run (R477). It is part of the MEM restart, which stays counted. -/
def Chip.singleRestart (c : Chip) (ch : Nat) : Chip :=
  let use := c.mode.pixelUse
  let c := (c.channelFailed ch).toSingle ch
  let c := (List.range 4).foldl (fun (c : Chip) (h : Nat) => match (c.solstice h).ev with
    | some e => if e.abandoned then c else c.solsticeAbandon h 5 false
    | none => c) c
  let c := c.pixelLost 0 false
  let c := ((c.set (K.dramChState ch) 3).set (K.regionState 2) 3).pixelPower use
  if c.get K.pixelDieState = 4 then c.set K.pixelDieState 1 else c

/-- The front die releases the pixel die's isolation: the die link is aligned before the DRAM channels train (R52, R457). The rule gives
no instant; it is released with the first training that ends (assumption 88). -/
def Chip.releaseIsolation (c : Chip) : Chip :=
  let c := { c with pins := { c.pins with dieLinkIsolated := false } }
  if c.get K.pixelDieState = 4 then c.set K.pixelDieState 1 else c

/-- DRAM_TRAINING_COMPLETE: at a pixel-die start, or in a restart of MEM. -/
def dramTrained (ch : Nat) (ok : Bool) (gib : Nat) (c : Chip) : Chip :=
  let start := c.pixelStarts
  let retrain := c.pixelRuns && c.regionRestarting 3
  if !(start || retrain) || (c.mode.single && decide (ch ≠ c.mode.onCh)) || (ok && decide (gib = 0 ∨ 8 < gib)) ||
      decide (c.get (K.dramChState ch) = 3) then c
  else
  let c := if start then c.releaseIsolation else c
  if ok then
    let c := ({ c with mode := { c.mode with trained := modAt c.mode.trained ch (fun _ => true) } } : Chip).set (K.dramChState ch) 2
    if start then c.dramSize gib else c
  else if c.mode.single then
    if start then c.startFailed 3 0x3002 (fun c _ => c.channelFailed ch) else c.channelFailed ch
  else if start then
    let c := (c.channelFailed ch).toSingle ch
    let size := if gib = 0 then c.dramGib else gib
    if size = 0 then c else c.dramSize size
  else c.singleRestart ch

/-! ### The pixel die is ready (R457, R464) -/

/-- Commands kept while the pixel die was off (R93). -/
def Chip.applyKept (c : Chip) : Chip :=
  let l := c.kept
  l.foldl (fun (c : Chip) (e : Nat × Int) =>
    if e.1 = K.paletteLoad then
      match Sys2Proof.Machine.paletteLoad e.2.toNat c with
      | .ok c => c
      | .error _ => c
    else (List.range 6).foldl (fun (c : Chip) (s : Nat) =>
      if e.1 = K.tnrReseed s then c.modSource s (fun (x : Source) => { x with tnrNow := true }) else c) c) { c with kept := [] }

/-- The blocks of the pixel die start with what R93 and R80 give them. -/
def Chip.pixelBlocks (c : Chip) : Chip :=
  let c := (c.applyPending memP).hkJudge
  let c := { c with
    rails := { c.rails with failedStarts := 0 }
    clk := { c.clk with pixSkew := 0 }
    pins := { c.pins with dieLinkIsolated := false }
    pix := { c.pix with palettes := tab 8 (fun p => paletteOf (c.domainImage (K.paletteImage p))) } }
  let ch := fun (n : Nat) => if c.mode.single ∧ n ≠ c.mode.onCh then c.get (K.dramChState n) else 2
  let c := c.setAll [(K.pixelDieState, 2), (K.dramChState 0, ch 0), (K.dramChState 1, ch 1), (K.dmaActiveChannel, 0xFF)]
  c.mbxPixelStart.applyKept

/-- REGION_STATE of the regions of the pixel die. -/
def Chip.pixelRegions (c : Chip) : Chip :=
  c.setAll [(K.regionState 1, if c.mode.lanes = 0xF then 1 else 3), (K.regionState 2, if c.mode.single then 3 else 1), (K.regionState 3, 1)]

/-- Boot loads of R240: the sets with SET_BOOT 1 and a flash image, in ascending order, while STRAP_BOOT is 00 or 11. -/
def Chip.bootSets (c : Chip) : List Nat :=
  let b := bits (c.nat K.straps) 3 2
  if b = 0 ∨ b = 3 then (List.range 32).filter (fun s => c.on (K.setBoot s) ∧ c.get (K.setFlashOffset s) ≠ 0xFFFFFFFF) else []

/-- Entry to standby on the way to a mode (R462). -/
def Chip.toStandby (c : Chip) (target : Nat) : Chip :=
  let c := { c with mode := { c.mode with going := target } }
  (c.standDown 0).abandonGnoner.set K.modeRequest target

/-- The CSI-2 receivers whose RX_RUN reads 1 start (R93); while the die runs for the host link alone they stay stopped (R464). -/
def Chip.receiversStart (c : Chip) : Chip :=
  [0, 1].foldl (fun (c : Chip) (k : Nat) => if c.on (K.rxRun k) ∧ c.get (K.rxState k) = 0 then c.set (K.rxState k) 1 else c) c

/-- What the full use of the pixel die adds: CHIP_MODE 1, the receivers, the CSI-2 sources, the set loads, and a mode request that was held. -/
def Chip.pixelInUse (c : Chip) : Chip :=
  let first := decide (c.get K.chipMode = 0)
  let c := if c.mode.pixelUse = .hostOnly then (List.range 8).foldl (fun (c : Chip) (n : Nat) => c.set (K.streamRun n) 0) c else c
  let c := { c with mode := { c.mode with pixelUse := .full, going := if c.mode.going = 1 then 0 else c.mode.going, thermal := false } }
  let c := (c.set K.chipMode 1).receiversStart.startCsi
  let c := ({ c with onion := { c.onion with boot := c.bootSets } } : Chip).bootLoads
  if first ∧ 2 ≤ c.mode.heldRequest then c.toStandby c.mode.heldRequest else c

/-- DRAM_INIT_COMPLETE: every channel in service has trained, and the lanes have tested themselves. -/
def dramInit (lanesOk : Nat) (c : Chip) : Chip :=
  let ready := if c.mode.single then at' c.mode.trained c.mode.onCh else c.mode.trained.all id
  if c.get K.pixelDieState ≠ 1 ∨ !ready then c
  else
    let c := c.pixelBlocks.laneTest 0xF lanesOk
    if c.mode.lanes = 0 then c.safeState 2 0x2011
    else
      let c := c.pixelRegions
      let c := if (c.mode.single && !bitOf (c.nat K.straps) 5) || decide (c.mode.lanes ≠ 0xF) then c.readmit else c
      if c.mode.pixelUse = .full then c.pixelInUse else c

/-- P-class values of the Psirel link on exit from standby (R80); the link starts again where there are any. -/
def Chip.hostP (c : Chip) : Chip :=
  if c.pendingP.any (fun (e : Nat × Int) => psirelP e.1) then (c.applyPending psirelP).psirelStart else c

/-- R465: the actuators leave their park, the heads start, and the pixel die starts or, where R464 already runs it, is put to full
use. A failed ACQ region takes part in the attempt. -/
def Chip.resume (c : Chip) : Chip :=
  let c := c.hostP
  let c := if c.get (K.regionState 0) = 4 then c.set (K.regionState 0) 1 else c
  let c := { c with mode := { c.mode with hostCall := false } }
  let c := if c.get K.throttleLevel = 4 then c else c.unpark
  let c := (if c.pixelRuns then c
    else if c.pixelStarts then { c with mode := { c.mode with pixelUse := .full } }
    else c.pixelUp .full).startHeads
  if c.pixelRuns then c.pixelInUse else c

/-! ### Supplies -/

/-- Whether a rail is one of the front die's. -/
def frontRail (r : Nat) : Bool := decide (6 ≤ r ∧ r ≤ 8)

/-- RAIL_TRIP_CROSSING: a rail that returns to its range is no longer faulty; NVM writes wait for VANA (R54). -/
def railTrip (r : Nat) (l : RailLevel) (c : Chip) : Chip :=
  let c := { c with rails := { c.rails with
    level := modAt c.rails.level r (fun _ => l), fault := if l = .inRange then modAt c.rails.fault r (fun _ => false) else c.rails.fault } }
  let c := if r = 8 ∧ l ≠ .under then c.beginImage.nvmVanaBack else c
  if r = 10 then c.vsolUpdate else c

/-- The pixel die's supply or link has failed (R15, R480): it is treated as failed, and R480 starts it again. -/
def Chip.pixelFault (c : Chip) : Chip := ({ c with rails := { c.rails with failedStarts := 0 } } : Chip).standDown 3

/-- A rail fault other than an undervoltage of the front die (Table 16.10). One of the pixel die's rails that comes while the die starts
fails that start (R472). -/
def Chip.railFaulty (c : Chip) (r : Nat) (above : Bool) : Chip :=
  let c := { c with rails := { c.rails with
    fault := modAt c.rails.fault r (fun _ => true), level := modAt c.rails.level r (fun _ => if above then .above else .under) } }
  let c := (c.raise 1 5 5 0xFF 0x5008 (r + 1) (if above then 2 else 1)).emcyFor 0x3000 5 0x5008
  if r < 6 then
    if c.pixelStarts then c.startFailed 0 0x0009 (fun c n => c.raise 3 0 0xFF 0xFF 0x0009 (r + 1) n)
    else c.pixelFault.raise 3 0 0xFF 0xFF 0x0009 (r + 1) 0
  else if frontRail r then c.safeState 5 0x5008
  else if r = 9 then c.loseHeads
  else c.vsolUpdate

/-- PIX_SUPPLY_TIMEOUT (R52). -/
def pixSupplyTimeout (rail : Nat) (c : Chip) : Chip :=
  if !c.pixelStarts then c
  else c.startFailed 0 0x0009 (fun c n => c.raise 3 0 0xFF 0xFF 0x0009 (rail + 1) n)

/-- PIXEL_DIE_RETRY: 1 s after a fault, where something calls for the pixel die. -/
def pixelDieRetry (c : Chip) : Chip :=
  if c.get K.pixelDieState ≠ 3 ∨ c.get K.refclkState ≠ 0 ∨ c.get K.throttleLevel = 4 ∨ c.boot.phase ≠ .ready then c
  else match c.wantedUse with
    | .off => c
    | .hostOnly => c.pixelUp .hostOnly
    | .full => c.resume

/-- DIE_LINK_ALIGNMENT_LOST: while the die starts, the start fails (R472). -/
def dieLinkLost (c : Chip) : Chip :=
  if c.pixelStarts then c.startFailed 0 0x000A (fun c _ => c.raise 3 0 0xFF 0xFF 0x000A 0 0)
  else if c.pixelRuns then (c.raise 3 0 0xFF 0xFF 0x000A 0 0).pixelFault
  else c

/-! ### Meanings -/

/-- PIXEL_DIE_RETRY -/
def execPixelDieRetry (s : State) : Res := run s pixelDieRetry

/-- PIX_SUPPLY_TIMEOUT -/
def execPixSupplyTimeout (rail : Fin 6) (s : State) : Res := run s (pixSupplyTimeout rail.val)

/-- DRAM_TRAINING_COMPLETE -/
def execDramTrainingComplete (ch : Fin 2) (ok : Bool) (gib : Fin 9) (s : State) : Res := run s (dramTrained ch.val ok gib.val)

/-- DRAM_INIT_COMPLETE -/
def execDramInitComplete (lanesOk : BitVec 4) (s : State) : Res := run s (dramInit lanesOk.toNat)

/-- DIE_LINK_ALIGNMENT_LOST -/
def execDieLinkAlignmentLost (s : State) : Res := run s dieLinkLost

end Sys2Proof.Machine
end

