-- ==== Sys2Proof/Machine/Housekeeping.lean ====
section
/-! DEFINITION. The housekeeping round and urgent conversions (R162 to R169). -/

namespace Sys2Proof.Machine

/-! ### Rounds -/

/-- A round trigger, at each CLK_TICK whose count is a multiple of 1000: a round starts, or it is an overrun while a converter still works
on the previous one (R162, R165, R168, R169). -/
def hkTrigger (c : Chip) : Chip :=
  if !c.hk.on ∨ c.clk.ticks % 1000 ≠ 0 then c
  else if c.hk.round then c.bump K.hkRoundOverruns
  else c.modHk (fun (x : Hk) => { x with
    round := true, roundTime := c.now, average := c.nat K.hkAverage, settle := c.nat K.hkSettle
    busy := x.urgent.map (fun (u : Option Urgent) => u.isNone), waits := x.urgent.map (fun (u : Option Urgent) => u.isSome)
    starts := [c.mono, c.mono], judged := [] })

/-- A converter ends its part of the round. -/
def hkPartEnd (k : Nat) (c : Chip) : Chip := c.hkJudge.modHk (fun (x : Hk) => { x with busy := modAt x.busy k (fun _ => false) })

/-- The values of one converter's part of a round: channel, member and value of each member that was measured. -/
def Chip.hkValues (c : Chip) (k : Nat) (sums : List Nat) : List (Nat × Nat × Int) :=
  ((hkPlaces k).zipIdx).filterMap (fun ((ch, m), i) =>
    if c.hkMemberValid ch m then some (ch, m, hkValue (sums.getD i 0) c.hk.average (hkFull ch m)) else none)

/-- A round is published (R164): every value at once, its sequence, its time, and the time each converter took. -/
def Chip.hkPublish (c : Chip) (values : List (Nat × Nat × Int)) : Chip :=
  let valid := (List.range 32).foldl (fun (v : Nat) (ch : Nat) => if c.hkValid ch then v + 2 ^ ch else v) 0
  let c := values.foldl (fun (c : Chip) (ch, m, v) => (hkObjects ch m).foldl (fun (c : Chip) (k : Nat) => c.set k v) c) c
  let slot := c.hk.settle + 1000 * c.hk.average
  let c := c.setAll [(K.hkValid, valid), (K.hkRoundSequence, nextSeq (c.nat K.hkRoundSequence) 0xFFFFFFFF),
    (K.hkRoundTime, c.hk.roundTime), (K.hkBusyTime 0, 30 * slot), (K.hkBusyTime 1, 39 * slot)]
  c.modHk (fun (x : Hk) => { x with round := false, busy := [false, false], waits := [false, false], judged := [] })

/-- Whether a channel was valid in the round just published. -/
def Chip.hkWas (c : Chip) (ch : Nat) : Bool := bitOf (c.nat K.hkValid) ch

/-! ### FPA temperatures (R130 to R132) and NTCs (R174) -/

/-- Interpolation in a table of 17 knots (R131). -/
def knots17 (raw v0 : Int) (k : Nat) (table : Nat → Int) : Option Int :=
  let u := raw - v0
  if u < 0 ∨ (16 * 2 ^ k : Nat) < u then none
  else
    let i := u.toNat / 2 ^ k
    if i = 16 then some (satS (table 16) 16)
    else
      let f : Int := (u.toNat - i * 2 ^ k : Nat)
      some (satS (table i + rne ((table (i + 1) - table i) * f) k) 16)

/-- The FPA temperature of a head after a round; with TFPA_SOURCE 1 TFPA_RAW takes what the latest register read gave, if any came since
the round before (R130). -/
def Chip.tfpaRound (c : Chip) (h : Nat) : Chip :=
  let c := match (c.head h).tfpaReg with
    | some v => if c.get (K.tfpaSource h) = 1 then c.set (K.tfpaRaw h) v else c
    | none => c
  let c := c.modHead h (fun (p : HeadPort) => { p with tfpaReg := none })
  match knots17 (c.get (K.tfpaRaw h)) (c.get (K.tfpaV0 h)) (c.nat (K.tfpaStepLog2 h)) (fun i => c.get (K.tfpaTable h i)) with
  | some t => (c.set (K.tfpaTemperature h) t).set (K.tfpaState h) 0
  | none =>
    if c.get (K.tfpaState h) = 0 then
      (c.set (K.tfpaState h) 1).raise 0 1 h 0xFF 0x1011 h (lowBits (c.get (K.tfpaRaw h)) 32)
    else c

/-! ### Head currents (Table 4.8) -/

/-- Rounds in a row that find a head's supply or a bias output low; a round without the measurement does not count. The supply counts
from the check that ends SUP_SETTLE while it is on, a bias output from the start of its ramp until the head's last frame has ended
(assumption 93). -/
def Chip.headCurrents (c : Chip) (h : Nat) : Chip :=
  let p := c.head h
  let st := c.get (K.runState h)
  let on := decide (c.get (K.supState h) = 2 ∨ c.get (K.supState h) = 3) && decide (p.phase ≠ .supply)
  let runs := on && (decide (st = 2 ∨ st = 3 ∨ p.phase = .ramp ∨ p.phase = .frame) || p.timing)
  let sup := decide (c.get (K.supCurrent h) < c.get (K.supMinCurrent h))
  let en := c.nat (K.biasEnable h)
  let low := tab 8 (fun b => bitOf en b && decide (0 < c.get (K.biasMinCurrent h b)) &&
    decide (c.get (K.biasCurrent h b) < c.get (K.biasMinCurrent h b)))
  let biasRead := c.hkWas (if h < 2 then 14 + h else 28 + h)
  c.modHead h (fun (p : HeadPort) => { p with
    supLow := if !c.hkWas (10 + h) then p.supLow else if on && sup then p.supLow + 1 else 0
    biasLow := if biasRead then p.biasLow.zipIdx.map (fun (n, b) => if runs && low.getD b false then n + 1 else 0) else p.biasLow })

/-! ### VREF_EXT (R193) -/

/-- VREF_STATE from a measured voltage (Table 2.20). -/
def vrefJudged (v declared : Int) : Int :=
  if v < 1750000 then 1 else if 3050000 < v then 2 else if declared < 100 * ((v - declared).natAbs : Int) then 3 else 0

/-- VREF_EXT after a round, whether or not a head is in use: no object disables the judgement (R45, R193, assumption 94). -/
def Chip.vrefRound (c : Chip) : Chip :=
  if !c.hkWas 9 then c
  else
    let v := c.get (K.hkResult 9)
    let st := vrefJudged v (c.get K.vrefDeclared)
    let was := c.get K.vrefState
    let c := ({ c with cal := { c.cal with judged := true } } : Chip).set K.vrefState st
    let c := if st ≠ 0 ∧ st ≠ was then (c.raise 1 5 3 0xFF 0x5009 st.toNat (lowBits v 32)).emcyFor 0x3000 5 0x5009 else c
    if st ≠ 0 then c.calInterrupt else c

/-- The temperature trigger of a calibration run (R194). -/
def Chip.calRound (c : Chip) : Chip :=
  let c := match c.frontMean with
    | some t => if c.on K.calAuto ∧ c.get K.calDelta < ((t - c.get K.calRunTemp).natAbs : Int) then c.calTrigger else c
    | none => c
  c.calStop.refreshCal

/-! ### Urgent conversions (R166, R167) -/

/-- Whether a converter is busy: a round member or an urgent conversion settles or converts. -/
def Chip.hkBusy (c : Chip) (k : Nat) : Bool := at' c.hk.busy k || (at' c.hk.urgent k).isSome

/-- The sequence and status of HK_URGENT_STATUS. -/
def Chip.urgentStatus (c : Chip) (seq st : Nat) : Chip := c.set K.hkUrgentStatus (seq * 2 ^ 16 + st : Nat)

/-- A write to HK_URGENT_REQUEST. -/
def urgentRequest (v : Nat) (c : Chip) : Except Abort Chip :=
  let ch := v % 256
  let m := v / 256
  guardNot (decide (31 < ch)) Abort.tooHigh <|
  let seq := nextSeq c.hk.urgentSeq 0xFFFF
  let c := c.modHk (fun (x : Hk) => { x with urgentSeq := seq })
  let k := ch / 16
  if hkCount ch ≤ m ∨ !c.hkMeasures ch ∨ (at' c.hk.busy k && c.hkWasReset k) then .ok (c.urgentStatus seq 4)
  else if c.hkBusy k then .ok ((c.urgentStatus seq 3).bump K.hkUrgentDropped)
  else
    let u : Urgent := { ch := ch, member := m, time := (c.now + c.nat K.hkSettle) % 2 ^ 64, seq := seq }
    .ok ((c.urgentStatus seq 1).modHk (fun (x : Hk) => { x with urgent := modAt x.urgent k (fun _ => some u) }))

/-- A converter leaves its urgent conversion; a round that waited for it starts there (R168). -/
def Chip.urgentLeave (c : Chip) (k : Nat) : Chip :=
  c.modHk (fun (x : Hk) => { x with
    starts := if at' x.waits k then modAt x.starts k (fun _ => c.mono) else x.starts
    urgent := modAt x.urgent k (fun _ => none), busy := modAt x.busy k (fun b => b || at' x.waits k)
    waits := modAt x.waits k (fun _ => false) })

/-- An urgent conversion ends; whether its member can be measured was decided when the request was accepted (R166). -/
def urgentComplete (k code : Nat) (c : Chip) : Chip :=
  match at' c.hk.urgent k with
  | none => c
  | some u =>
    ((c.urgentLeave k).urgentStatus u.seq 2).setAll
      [(K.hkUrgentResult, hkValue code 1 (hkFull u.ch u.member)), (K.hkUrgentTime, u.time)]

/-- An urgent conversion ends with the code that its input gives, or with the code named. -/
def urgentMeasured (k code : Nat) (input : Option Int) (c : Chip) : Chip :=
  match input, at' c.hk.urgent k with
  | some x, some u => urgentComplete k (hkCode x (hkFull u.ch u.member)) c
  | _, _ => urgentComplete k code c

/-- A housekeeping conversion does not end in 2 µs (R469): the converter resets for 10 µs, its members are invalid for the round, and an
urgent conversion on it ends without a value. -/
def hkWatchdog (k : Nat) (c : Chip) : Chip :=
  if !c.hkBusy k then c
  else c.watchdog 5 1 k 0x5007 k 0 (fun c =>
    let c := c.modHk (fun (x : Hk) => { x with reset := modAt x.reset k (fun _ => some c.mono) })
    match at' c.hk.urgent k with
    | some u => (c.urgentLeave k).urgentStatus u.seq 4
    | none => c)

/-! ### Meanings -/

/-- HK_ROUND_TRIGGER -/
def execHkRoundTrigger (s : State) : Res := run s hkTrigger

/-- HK_CONVERTER_ROUND_END -/
def execHkConverterRoundEnd (k : Fin 2) (s : State) : Res := run s (hkPartEnd k.val)

/-- HK_URGENT_REQUEST -/
def execHkUrgentRequest (m : Master) (v : BitVec 16) (s : State) : Res :=
  run s (fun c => c.command m K.hkUrgentRequest (urgentRequest v.toNat))

/-- HK_URGENT_COMPLETE -/
def execHkUrgentComplete (k : Fin 2) (code : BitVec 16) (s : State) (input : Option Int := none) : Res :=
  run s (urgentMeasured k.val code.toNat input)

/-- HK_CONVERTER_WATCHDOG -/
def execHkConverterWatchdog (k : Fin 2) (s : State) : Res := run s (hkWatchdog k.val)

end Sys2Proof.Machine
end

