-- ==== Sys2Proof/Machine/Thermal.lean ====
section
/-! DEFINITION. The thermal manager (R172 to R187, R192): sensors, limits, throttle levels, thermal shutdown, DRAM refresh; and the
completion of a housekeeping round, on which it acts. -/

namespace Sys2Proof.Machine

/-- Change the thermal manager. -/
def Chip.modThermal (c : Chip) (f : Thermal → Thermal) : Chip := { c with thermal := f c.thermal }

/-! ### Readings (R172 to R175). Sensors are numbered from 0: front die 0 to 2, pixel die 3 to 10, FPAs 11 to 14, NTCs 15 and 16 -/

/-- The reading of a die sensor at a voltage (R173). -/
def dieReading (v v25 slope : Int) : Int := satS (1600 + rne ((v - v25) * slope) 16) 16

/-- The reading a sensor forms in the round just published, whatever its range. An FPA read over the configuration link has no member in
the round (assumption 96). -/
def Chip.formed (c : Chip) (j : Nat) : Option Int :=
  if j < 11 then
    let ch := if j < 3 then j else 13 + j
    if c.hkWas ch then some (dieReading (c.get (K.hkResult ch)) (c.get (K.dieSensorV25 j)) (c.get (K.dieSensorSlope j))) else none
  else if j < 15 then
    if c.get (K.tfpaState (j - 11)) = 0 ∧ (c.get (K.tfpaSource (j - 11)) = 1 ∨ c.hkWas (j - 8)) then some (c.get (K.tfpaTemperature (j - 11))) else none
  else
    let k := j - 15
    if c.hkWas (7 + k) then
      knots17 (c.get (K.hkResult (7 + k))) (c.get (K.ntcV0 k)) (c.nat (K.ntcStepLog2 k))
        (fun i => c.get (if k = 0 then K.ntc0Table i else K.ntc1Table i))
    else none

/-- The reading where it lies in −60 °C to +175 °C. -/
def Chip.reading (c : Chip) (j : Nat) : Option Int :=
  match c.formed j with
  | some t => if -3840 ≤ t ∧ t ≤ 11200 then some t else none
  | none => none

/-- Sensors of a sensor's die. -/
def dieOf (j : Nat) : List Nat := if j < 3 then [0, 1, 2] else tab 8 (fun i => 3 + i)

/-- The lower middle value of a list. -/
def lowerMedian (l : List Int) : Option Int := (sortInts l)[(l.length - 1) / 2]?

/-- State of a sensor before it is judged against its die: a failed sensor stays failed, one that was failed when the pixel die stopped
is failed again when its member becomes valid. -/
def Chip.firstState (c : Chip) (r : List (Option Int)) (j : Nat) : Int :=
  let valid := (r.getD j none).isSome
  if 15 ≤ j ∧ !bitOf (c.nat K.ntcEnable) (j - 15) then 3
  else if 3 ≤ j ∧ j < 11 ∧ (j - 3) ∈ c.thermal.wasFailed then (if valid then 2 else 1)
  else if c.get (K.sensorState j) = 2 then 2
  else if valid then 0 else 1

/-- Whether a sensor lies beyond the spread: `none` where it is not judged. -/
def Chip.beyondSpread (c : Chip) (r : List (Option Int)) (st : List Int) (j : Nat) : Option Bool :=
  match r.getD j none, lowerMedian (((dieOf j).filter (fun i => i ≠ j ∧ st.getD i 1 = 0)).filterMap (fun i => r.getD i none)) with
  | some t, some ref => some (decide (c.get K.plausibleSpread < ((t - ref).natAbs : Int)))
  | _, _ => none

/-- The states of a round, with the counts of rounds in a row beyond and within the spread. -/
def Chip.judge (c : Chip) (r : List (Option Int)) : List Int × List Nat × List Nat :=
  let st := tab 17 (fun j => c.firstState r j)
  let far := tab 11 (fun j => c.beyondSpread r st j)
  let again := c.thermal.wasFailed
  let beyond := tab 11 (fun j => if st.getD j 1 = 0 ∧ far.getD j none = some true then at' c.thermal.beyond j + 1 else 0)
  let within := tab 11 (fun j =>
    if st.getD j 1 = 2 ∧ far.getD j none = some false then (if 3 ≤ j ∧ (j - 3) ∈ again then 0 else at' c.thermal.within' j) + 1 else 0)
  let st := st.zipIdx.map (fun ((x : Int), (j : Nat)) =>
    if x = 0 ∧ 3 ≤ beyond.getD j 0 then 2 else if x = 2 ∧ 100 ≤ within.getD j 0 then 0 else x)
  (st, beyond.zipIdx.map (fun (n, j) => if st.getD j 1 = 2 then 0 else n), within.zipIdx.map (fun (n, j) => if st.getD j 1 = 0 then 0 else n))

/-- A sensor enters state 1 or 2: a record, and a floor at the level in force; neither where its member is invalid because the pixel die
does not run. -/
def Chip.sensorEntry (c : Chip) (j : Nat) (st : Int) : Chip :=
  if st = 1 ∧ 3 ≤ j ∧ j < 11 ∧ !c.pixelRuns then c
  else
    let (v, c) := match c.formed j with
      | some t => (lowBits t 32, c)
      | none => c.freeNat 32
    let c := c.raise 0 5 2 j (if st = 1 then 0x5001 else 0x5002) (j + 1) v
    c.modThermal (fun (x : Thermal) => { x with floors := x.floors ++ [(j, c.nat K.throttleLevel)] })

/-- SENSOR_STATE and SENSOR_TEMP after a round. -/
def Chip.sensorRound (c : Chip) : Chip :=
  let r := tab 17 c.reading
  let (st, beyond, within) := c.judge r
  let up := (List.range 8).filter (fun j => (r.getD (3 + j) none).isSome)
  let c := c.modThermal (fun (x : Thermal) => { x with
    beyond := beyond, within' := within, wasFailed := x.wasFailed.filter (fun j => j ∉ up), pixelRound := c.pixelRuns })
  (List.range 17).foldl (fun (c : Chip) (j : Nat) =>
    let was := c.get (K.sensorState j)
    let now := st.getD j 1
    let c := c.set (K.sensorState j) now
    let c := if (now = 1 ∨ now = 2) ∧ now ≠ was then c.sensorEntry j now else c
    match now, r.getD j none with
    | 0, some t => c.set (K.sensorTemp j) t
    | _, _ => c) c

/-! ### Rates and limits (R176, R177) -/

/-- The rate of a sensor that reads t at time `time`, or none where no round is old enough. -/
def Chip.riseOf (c : Chip) (j : Nat) (t : Int) (time : Nat) : Option Int :=
  match c.thermal.rounds.find? (fun (x : RoundTemps) => decide (x.time + 1000000000 ≤ time) && (at' x.temps j).isSome) with
  | some x =>
    if time ≤ x.time + 2000000000 then
      (at' x.temps j).map (fun (o : Int) => satS (rneDiv ((t - o) * 1000000000) (time - x.time : Nat)) 16)
    else none
  | none => none

/-- A limit is entered. -/
def Chip.limitEntry (c : Chip) (j kind : Nat) : Chip := (c.raise 0 5 2 j 0x5003 (j + 1) kind).emcyFor 0x4000 5 0x5003

/-- Rate, level flag and rate flag of one sensor. One that is not valid keeps its latest rate and loses both flags (assumption 97). The
instant kept for R177 is the latest at which a die sensor exceeded its rate limit, up to the round in which it stops. -/
def Chip.limitRound (c : Chip) (time : Nat) (j : Nat) : Chip :=
  let flags := c.nat K.limitFlags
  let wasL := bitOf flags j
  let wasR := bitOf flags (32 + j)
  let c := if wasR && decide (j < 11) then c.modThermal (fun (x : Thermal) => { x with rateAt := some c.mono }) else c
  if c.get (K.sensorState j) ≠ 0 then c.set K.limitFlags (putBit (putBit flags j false) (32 + j) false : Nat)
  else
    let t := c.get (K.sensorTemp j)
    let rate := c.riseOf j t time
    let hi := c.get (K.limitHigh j)
    let lim := c.get (K.rateLimit j)
    let l : Bool := if hi < t then true else if t ≤ hi - 64 then false else wasL
    let r : Bool := if lim = 0 then false
      else match rate with
        | some x => if lim < x then true else if 2 * x ≤ lim then false else wasR
        | none => wasR
    let c := c.setAll [(K.sensorRate j, rate.getD 0), (K.limitFlags, (putBit (putBit flags j l) (32 + j) r : Nat))]
    let c := if l && !wasL then c.limitEntry j 1 else c
    let c := if r && !wasR then c.limitEntry j 2 else c
    if r && decide (j < 11) then c.modThermal (fun (x : Thermal) => { x with rateAt := some c.mono }) else c

/-- Rates and limits of a round, which joins the rounds kept for R176. -/
def Chip.limitsRound (c : Chip) : Chip :=
  let time := c.nat K.hkRoundTime
  let c := (List.range 17).foldl (fun (c : Chip) (j : Nat) => c.limitRound time j) c
  let temps := tab 17 (fun j => if c.get (K.sensorState j) = 0 then some (c.get (K.sensorTemp j)) else none)
  c.modThermal (fun (x : Thermal) => { x with
    rounds := { time := time, temps := temps } ::
      x.rounds.filter (fun (y : RoundTemps) => decide (y.time ≤ time ∧ time ≤ y.time + 2000000000)) })

/-! ### Throttle levels (R178 to R184) -/

/-- The throttle temperature: `none` with no valid die sensor. -/
def Chip.hottest (c : Chip) : Option Int :=
  let die := fun (l : List Nat) =>
    let add := if l.any (fun j => decide (c.get (K.sensorState j) = 2)) then c.get K.thrFailMargin else 0
    (l.filter (fun j => c.get (K.sensorState j) = 0)).map (fun j => c.get (K.sensorTemp j) + add)
  (sortInts (die (dieOf 0) ++ die (dieOf 3))).getLast?

/-- The highest floor of R181 and R177. -/
def Chip.throttleFloor (c : Chip) : Nat :=
  let valid := fun (l : List Nat) => (l.filter (fun j => c.get (K.sensorState j) = 0)).length
  let pix := if c.pixelRuns ∧ c.thermal.pixelRound ∧ valid (dieOf 3) < 2 then 3 else 0
  let front := if c.thermal.blind then 4 else 0
  let die := fun (j : Nat) => bitOf (c.nat K.limitFlags) (32 + j)
  let rate := if (List.range 11).any die then 1
    else match c.thermal.rateAt with
      | some t => if c.mono < t + c.nat K.thrDwell then 1 else 0
      | none => 0
  c.thermal.floors.foldl (fun (a : Nat) (f : Nat × Nat) => max a f.2) (max (max (c.nat K.thrFloor) pix) (max front rate))

/-- Entry to L4 (R184, R278): the pixel die is powered down and the actuators park; the heads keep running. -/
def Chip.enterL4 (c : Chip) : Chip :=
  let c := (c.pixelLost 0 true).abandonGnoner
  ((List.range 4).foldl (fun (c : Chip) (h : Nat) => c.solsticeStandby h) c).startPark

/-- A level comes into force: a rise is counted, the halving of streams ends at L0 (R334), and the CLK_PIX divider follows L2 (R179, R182). -/
def Chip.throttleTo (c : Chip) (n : Nat) : Chip :=
  let was := c.nat K.throttleLevel
  if n = was then c
  else
    let c := (c.set K.throttleLevel n).modThermal (fun (x : Thermal) => { x with below := false })
    let c := if was < n then c.bump (K.thrEntries (n - 1)) else c
    let c := if n = 0 then (List.range 8).foldl (fun (c : Chip) (k : Nat) => c.modStream k (fun (x : Stream) => { x with halved := none })) c else c
    let div := if 2 ≤ n then 4 else 3
    let c := if c.pixelOn then { c with clk := { c.clk with divNext := if c.nat K.clkPixDiv = div then none else some div } } else c
    if n = 4 then c.enterL4 else c

/-- The throttle level after a round (R179, R180, R181). -/
def Chip.throttleRound (c : Chip) : Chip :=
  let blind := c.frontSensors.isEmpty
  let c := if blind ∧ !c.thermal.blind then c.raise 3 0 0xFF 0xFF 0x0004 0 0 else c
  let c := c.modThermal (fun (x : Thermal) => { x with blind := blind })
  let hot := c.hottest
  let c := match hot with
    | some t => c.set K.thrHottest (satS t 16)
    | none => c
  let level := match hot with
    | some t => (List.range 4).foldl (fun (a : Nat) (n : Nat) => if c.get (K.thrEnter n) ≤ t then n + 1 else a) 0
    | none => 0
  let want := max level c.throttleFloor
  let n := c.nat K.throttleLevel
  if n < want then c.throttleTo want
  else
    let below : Bool := match hot with
      | some t => decide (0 < n) && decide (t < c.get (K.thrEnter (n - 1)) - c.get K.thrHyst)
      | none => false
    c.modThermal (fun (x : Thermal) => { x with below := below })

/-- THROTTLE_STEP_DOWN: one step, where every round of the dwell was below and no floor holds the level; L4 is left by L4_EXIT. -/
def throttleStepDown (c : Chip) : Chip :=
  let n := c.nat K.throttleLevel
  if n = 0 ∨ n = 4 ∨ !c.thermal.below ∨ n ≤ c.throttleFloor then c else c.throttleTo (n - 1)

/-- THROTTLE_FLOOR_END: the oldest floor of a sensor expires. -/
def throttleFloorEnd (j : Nat) (c : Chip) : Chip :=
  c.modThermal (fun (x : Thermal) => { x with floors := x.floors.eraseP (fun (f : Nat × Nat) => decide (f.1 = j)) })

/-- L4_EXIT: the level becomes L3, and the pixel die restarts where the mode calls for it (R184, R466). -/
def l4Exit (c : Chip) : Chip :=
  let front := c.frontSensors
  if c.nat K.throttleLevel ≠ 4 ∨ front.isEmpty ∨ front.any (fun j => decide (c.get K.thrL4Exit < c.get (K.sensorTemp j))) ∨
      4 ≤ c.throttleFloor then c
  else
    let c := c.throttleTo 3
    if c.get K.refclkState ≠ 0 ∨ c.boot.phase ≠ .ready then c
    else match c.wantedUse with
      | .off => c
      | .full => c.unpark.pixelUp .full
      | .hostOnly => c.pixelUp .hostOnly

/-! ### Thermal shutdown (R186, R187) -/

/-- A valid die sensor that reads at or above THERMAL_SHUTDOWN trips the shutdown; in the safe state a trip is recorded once. -/
def Chip.shutdownRound (c : Chip) : Chip :=
  let was := c.thermal.tripped
  let hot := (List.range 11).find? (fun j => decide (c.get (K.sensorState j) = 0 ∧ c.get K.thermalShutdown ≤ c.get (K.sensorTemp j)))
  let c := c.modThermal (fun (x : Thermal) => { x with tripped := hot.isSome })
  match hot with
  | some j => if c.inSafe ∧ was then c else c.thermalShutdown (j + 1) (c.get (K.sensorTemp j))
  | none => c

/-- The management controller is awake again. -/
def Chip.controllerWakes (c : Chip) : Chip :=
  { c with
    mode := { c.mode with asleep := false, waking := false }, pins := { c.pins with canStbyHigh := false }
    psi := { c.psi with linkOff := decide (c.get K.refclkState ≠ 0) }, hk := { c.hk with on := true } }

/-- v_trip of the element of a die: the voltage at which R173, with the element's own constants, reads THERMAL_SHUTDOWN (R186). -/
def Chip.vTripOf (c : Chip) (die : Nat) : Int :=
  c.get (K.dieSensorV25 (11 + die)) - rneDiv ((c.get K.thermalShutdown - 1600) * 65536) (-(c.get (K.dieSensorSlope (11 + die))))

/-- v_trip of both comparators is set, at front-die start and at an accepted write of THERMAL_SHUTDOWN. -/
def Chip.setTrips (c : Chip) : Chip := c.modThermal (fun (x : Thermal) => { x with vTrip := [some (c.vTripOf 0), some (c.vTripOf 1)] })

/-- Whether the comparator of a die operates at a voltage of its element: from v_trip on, within the ±3 K of the trip (R186). A slope is
negative, so a hotter element gives a lower voltage. -/
def Chip.levelCrossed (c : Chip) (die : Nat) (v : Int) : Bool :=
  match at' c.thermal.vTrip die with
  | none => false
  | some t =>
    let at25 := fun (x : Int) => dieReading x (c.get (K.dieSensorV25 (11 + die))) (c.get (K.dieSensorSlope (11 + die)))
    decide (at25 t - 192 ≤ at25 v)

/-- LEVEL_TRIP: the comparator of a die that has its supply operates at a voltage of its element, in every mode. -/
def levelTrip (die : Nat) (v : Int) (c : Chip) : Chip :=
  if !c.levelCrossed die v ∨ c.boot.phase = .held ∨ (die = 1 ∧ !c.pixelOn) then c
  else
    let c := if c.mode.asleep then c.controllerWakes else c
    c.thermalShutdown (12 + die) (dieReading v (c.get (K.dieSensorV25 (11 + die))) (c.get (K.dieSensorSlope (11 + die))))

/-! ### DRAM refresh (R192) -/

/-- The band of a reading among the bounds, with 2 K of hysteresis downwards. -/
def refreshBand (bound : Nat → Int) (t : Int) (b : Nat) : Nat :=
  let up := (List.range 3).foldl (fun (a : Nat) (k : Nat) => if bound k ≤ t then max a (k + 1) else a) b
  (List.range 3).foldl (fun (a : Nat) (k : Nat) => if t < bound (2 - k) - 128 then min a (2 - k) else a) up

/-- The refresh multiplier of a channel after a round; `mr4` is what was read. With no valid sensor beside the channel the spec names
no band. -/
def Chip.refreshRound (c : Chip) (ch : Nat) (mr4 : Option Nat) : Chip :=
  if !c.pixelRuns ∨ c.get (K.dramChState ch) ≠ 2 then c
  else
    let temps := ((tab 4 (fun i => 3 + 4 * ch + i)).filter (fun j => c.get (K.sensorState j) = 0)).map (fun j => c.get (K.sensorTemp j))
    let (band, c) := match (sortInts temps).getLast? with
      | some t => (refreshBand (fun k => c.get (K.dramRefreshBound k)) t (at' c.thermal.refBand ch), c)
      | none =>
        let (n, c) := c.freeNat 2
        (n, c)
    let c := c.modThermal (fun (x : Thermal) => { x with refBand := modAt x.refBand ch (fun _ => band) })
    let m := c.nat (K.dramRefreshMult band)
    match mr4 with
    | some v => c.setAll [(K.dramMr4 ch, v), (K.dramRefreshInForce ch, (max m (Config.mr4Multiplier v).toNat : Nat))]
    | none => (c.bump (K.dramMr4Fails ch)).set (K.dramRefreshInForce ch) (max m 4 : Nat)

/-! ### A round is complete -/

/-- HK_ROUND_COMPLETE: the sums of the codes of each converter's members, and MR4 of each DRAM channel. -/
def hkComplete (sums0 sums1 : List Nat) (mr0 mr1 : Option Nat) (c : Chip) : Chip :=
  if !c.hk.on ∨ !c.hk.round ∨ c.hk.waits.any id then c
  else
    let c := c.hkPublish (c.hkValues 0 sums0 ++ c.hkValues 1 sums1)
    let c := (List.range 4).foldl (fun (c : Chip) (h : Nat) => c.tfpaRound h) c
    let c := c.sensorRound.limitsRound
    let c := (c.shutdownRound.throttleRound.refreshRound 0 mr0).refreshRound 1 mr1
    let c := (List.range 4).foldl (fun (c : Chip) (h : Nat) => c.headCurrents h) c
    c.vrefRound.calRound.nvmHoldCheck

/-! ### Meanings -/

/-- HK_ROUND_COMPLETE: with the inputs of the members in nV or nA, those of HK0 and then those of HK1, or with the sums of their codes. -/
def execHkRoundComplete (hk0 hk1 : List (BitVec 22)) (mr0 mr1 : Option (BitVec 5)) (s : State) (inputs : List (List Int) := []) : Res :=
  let a := s.chip.hk.average
  let sums := fun (k : Nat) (l : List (BitVec 22)) =>
    if inputs.isEmpty then l.map (·.toNat) else hkSums k a (inputs.drop (30 * k))
  run s (hkComplete (sums 0 hk0) (sums 1 hk1) (mr0.map (·.toNat)) (mr1.map (·.toNat)))

/-- THROTTLE_STEP_DOWN -/
def execThrottleStepDown (s : State) : Res := run s throttleStepDown

/-- THROTTLE_FLOOR_END -/
def execThrottleFloorEnd (sensor : Fin 17) (s : State) : Res := run s (throttleFloorEnd sensor.val)

/-- L4_EXIT -/
def execL4Exit (s : State) : Res := run s l4Exit

/-- LEVEL_TRIP -/
def execLevelTrip (die : Fin 2) (v : BitVec 32) (s : State) : Res := run s (levelTrip die.val v.toInt)

end Sys2Proof.Machine
end

