-- ==== Sys2Proof/Machine/Clock.lean ====
section
/-! DEFINITION. The clocks (R27 to R33, R479): the time base, the REFCLK monitor, the backup oscillator and the CLK_PIX divider. -/

namespace Sys2Proof.Machine

/-- Change the clock side of the supervisor. -/
def Chip.modClk (c : Chip) (f : Clk → Clk) : Chip := { c with clk := f c.clk }

/-! ### The time base (R29, R394, R396) -/

/-- One CLK_TICK of the time base: 1000 ns, the rate correction in force, and a slew of at most 100 ns per ms. -/
def Chip.timeTick (c : Chip) : Chip :=
  let step := clampI c.psi.slew (-100000) 100000
  let frac := c.clk.frac + c.get K.psirelRateAdj + step
  let whole := frac.fdiv 1000000
  let c := { c with psi := { c.psi with slew := c.psi.slew - step } }
  c.modClk (fun (k : Clk) => { k with
    time := (((k.time : Int) + 1000 + whole) % (2 ^ 64 : Nat)).toNat, frac := frac - whole * 1000000, sub := 0, ticks := k.ticks + 1
    pixSkew := k.pixSkew - whole })

/-- The port is idle again once the latest window read can no longer be continued (R437, assumption 112). -/
def Chip.readEnds (c : Chip) : Chip :=
  let granted := c.dma.grant.any (fun g => decide (c.nat (K.dmaSrcSpace g.ch) = 2))
  match c.spm.lastRead with
  | some (_, t) => if c.get K.spmState = 2 ∧ t + 1000 < c.mono ∧ !granted then c.set K.spmState 1 else c
  | none => c

/-- CLK_TICK: a REFCLK that has been restored takes over here (R32), and the bias outputs ramp. -/
def clkTick (c : Chip) : Chip :=
  let c := c.modClk (fun (k : Clk) => if k.rootReturn then { k with rootReturn := false, onBackup := false } else k)
  (List.range 4).foldl (fun (c : Chip) (h : Nat) => c.biasTick h) c.timeTick.readEnds

/-- TIME_BASE_COMPARE: the pixel-die copy is corrected where it differs by more than 5 ns. -/
def timeBaseCompare (c : Chip) : Chip :=
  if c.pixelRuns ∧ 5 < c.clk.pixSkew.natAbs then c.modClk (fun (k : Clk) => { k with pixSkew := 0 }) else c

/-! ### REFCLK (R30 to R33, R479) -/

/-- Whether the front die runs from REFCLK, and its loss is watched for. -/
def Chip.refPresent (c : Chip) : Bool := decide (c.get K.refclkState = 0) && !c.clk.onBackup && !c.clk.rootReturn

/-- BACKUP_OSC_TRIM: the window spans 1000 REFCLK periods within 0.1 %. -/
def backupTrim (periods : Nat) (c : Chip) : Chip :=
  if c.refPresent then
    c.modClk (fun (k : Clk) => { k with window := max 999 (min 1001 periods) })
  else c

/-- REFCLK is lost: the front die goes on from the backup oscillator, its cycles counted in 50 ns from there. -/
def Chip.refLost (c : Chip) : Chip :=
  let c := c.modClk (fun (k : Clk) => { k with
    onBackup := true, rootReturn := false, sub := (k.sub + 9) / 10, badRun := 0, goodRun := 0, lostAt := c.now })
  let c := c.set K.refclkState 1
  let c := { c with psi := { c.psi with linkOff := true } }
  let c := ({ c with can := { c.can with calibrating := true, locked := false, times := [] } } : Chip).canStatus
  let c := if c.boot.phase = .ready then c.standDown 0 else c
  if c.boot.phase = .held then c else c.raise 3 0 0xFF 0xFF 0x0007 0 0

/-- REFCLK is restored (R32), or declared present for the first time after a front-die reset (R33). The counts last found good are what the
loss limits apply to until the window is trimmed again (R33). A calibration run goes on. -/
def Chip.refBack (c : Chip) : Chip :=
  let lost := decide (c.get K.refclkState ≠ 0)
  let c := c.modClk (fun (k : Clk) => { k with
    rootReturn := true, goodRun := 0, badRun := 0, window := k.lastEdges })
  let c := c.set K.refclkState 0
  if !lost then c
  else
    let c := { c with psi := { c.psi with linkOff := c.mode.asleep } }
    let c := ({ c with can := { c.can with calibrating := false, locked := false, times := [] } } : Chip).canStatus
    if c.boot.phase ≠ .ready then c
    else
      let c := (if c.cal.running ∧ c.cal.refbuf.isEmpty then c.calBanks else c).raise 3 0 0xFF 0xFF 0x0008 (((c.now + 2 ^ 64 - c.clk.lostAt) % 2 ^ 64) / 1000000) 0
      match c.wantedUse with
      | .off => c
      | .hostOnly => c.pixelUp .hostOnly
      | .full => c.resume

/-- REFCLK_MONITOR_WINDOW: two windows in a row outside 98 to 102 % lose REFCLK; 1 ms of windows, 100 of them, within 93 to 107 % of
nominal and 0.2 % of one another bring it back. -/
def monitorWindow (edges : Nat) (c : Chip) : Chip :=
  if c.clk.rootReturn then c
  else if c.refPresent then
    let bad := decide (edges * 100 < 98 * c.clk.window ∨ 102 * c.clk.window < edges * 100)
    let n := if bad then c.clk.badRun + 1 else 0
    let c := c.modClk (fun (k : Clk) => { k with badRun := n })
    if 2 ≤ n then c.refLost else c
  else
    let good := decide (930 ≤ edges ∧ edges ≤ 1070)
    let near := decide (edges ≤ c.clk.lastEdges + 2 ∧ c.clk.lastEdges ≤ edges + 2)
    let n := if !good then 0 else if near || c.clk.goodRun = 0 then c.clk.goodRun + 1 else 1
    let c := c.modClk (fun (k : Clk) => { k with goodRun := n, lastEdges := edges })
    if 100 ≤ n then c.refBack
    else if c.get K.refclkState = 0 then c
    else c.set K.refclkState (if n = 0 then 1 else 2)

/-- CLK_PIX_DIVIDER_SWITCH: a boundary between line slots. -/
def dividerSwitch (c : Chip) : Chip :=
  match c.clk.divNext with
  | some d => if c.pixelOn then (c.set K.clkPixDiv d).modClk (fun (k : Clk) => { k with divNext := none }) else c
  | none => c

/-! ### Meanings -/

/-- CLK_TICK -/
def execClkTick (s : State) : Res := run s clkTick

/-- TIME_BASE_COMPARE -/
def execTimeBaseCompare (s : State) : Res := run s timeBaseCompare

/-- BACKUP_OSC_TRIM -/
def execBackupOscTrim (periods : BitVec 32) (s : State) : Res := run s (backupTrim periods.toNat)

/-- REFCLK_MONITOR_WINDOW -/
def execRefclkMonitorWindow (edges : BitVec 32) (s : State) : Res := run s (monitorWindow edges.toNat)

/-- CLK_PIX_DIVIDER_SWITCH -/
def execClkPixDividerSwitch (s : State) : Res := run s dividerSwitch

end Sys2Proof.Machine
end

