-- ==== Sys2Proof/Machine/Regions.lean ====
section
/-! DEFINITION. Region restarts and the ends of cell and block resets (R470 to R474, Table 16.6). -/

namespace Sys2Proof.Machine

/-! ### Cells and blocks -/

/-- CELL_RESET_COMPLETE: a lane group serves again, or a converter. -/
def cellResetComplete (region block cell : Nat) (c : Chip) : Chip :=
  if region = 2 ∧ block = 1 then { c with pix := { c.pix with laneReset := false } }
  else if region = 1 ∧ 4 ≤ block ∧ block ≤ 7 ∧ cell < 34 then converterResetEnd (block - 4) cell c
  else c

/-- Stream frames that a reset interrupted are written again, or abandoned where that could not end in time (R347). -/
def Chip.rewriteFrames (c : Chip) (fits : Nat) : Chip :=
  (List.range 8).foldl (fun (c : Chip) (n : Nat) =>
    match (c.stream n).jobs with
    | [] => c
    | j :: _ =>
      if j.slot = none then c
      else if bitOf fits n then c.putJob n { j with line := 0, repeated := true }
      else (c.discardFrame n).popJob n) c

/-- BLOCK_RESET_COMPLETE: the block retries its unit of work. `fits` says of each stream whether a frame written again could end before
the stream's next frame start. -/
def blockResetComplete (region block fits : Nat) (c : Chip) : Chip :=
  if !c.blockResetting region block then c
  else
    let c := (c.modBlock region block (fun (h : BlockHist) => { h with resetting := false })).resetEnded region
    if region = 1 ∧ 4 ≤ block ∧ block ≤ 7 then c.bankResetEnded (block - 4)
    else if region = 4 ∧ block = 2 then c.dmaBlockReset
    else if (region = 4 ∧ block = 1) ∨ (region = 2 ∧ block = 6) then c.rewriteFrames fits
    else c

/-- BLOCK_RESET_TIMEOUT: the block cannot recover, and its region is to restart (R471). -/
def blockResetTimeout (region block : Nat) (c : Chip) : Chip :=
  if c.blockResetting region block then c.schedule region block 1 else c

/-! ### What each restart does (Table 16.6) -/

/-- A running head begins again as a reconnection, without a loss; a head that stops ends its stop. -/
def Chip.acqHead (c : Chip) (h : Nat) : Chip :=
  let st := c.get (K.runState h)
  if 1 ≤ st ∧ st ≤ 3 then
    let c := ((c.headLostFrame h).headOutputsOff h).modHead h (fun (p : HeadPort) => { p with retrying := false })
    let c := c.setAll [(K.runState h, 1), (K.supState h, 0)]
    (c.solsticeHeadGone h false).headStopsStandin h true
  else c

/-- Head ports, converter banks and CSI-2 receivers. -/
def Chip.acqRestart (c : Chip) : Chip :=
  let c := (List.range 4).foldl (fun (c : Chip) (h : Nat) => (c.acqHead h).modBank h (fun (k : ConvBank) => { k with inReset := [], gaps := [] })) c
  if c.pixelRuns then
    let c := [0, 1].foldl (fun (c : Chip) (k : Nat) => if c.get (K.rxState k) = 0 then c else c.set (K.rxState k) 1) c
    [0, 1].foldl (fun (c : Chip) (i : Nat) => if c.get (K.srcState i) = 2 then c.csiLose i else c) c
  else c

/-- The blocks of PIX: unfinished frames become repeats, and the next processed frame of each source seeds. -/
def Chip.pixRestart (c : Chip) : Chip :=
  let c := c.clearLines
  let redo := fun (w : Work) => { w with front := false, process := false, average := false, marks := Nat.lor w.marks markRepeated }
  (List.range 6).foldl (fun (c : Chip) (s : Nat) =>
    let c := c.modSource s (fun (x : Source) => { x with works := x.works.map redo, tnrSeed := true, eqxSeed := true })
    c.finishAll s) c

/-- DRAM controllers, NVM controller and serial-port master. -/
def Chip.memRestart (c : Chip) : Chip :=
  let c := match c.spm.seq with
    | some q => c.flashFault q
    | none => c
  let c := (c.applyPending memP).nvmHoldCheck
  if c.pixelRuns then
    let c := { c with mode := { c.mode with trained := [false, false] } }
    [0, 1].foldl (fun (c : Chip) (n : Nat) => if c.get (K.dramChState n) = 2 then c.set (K.dramChState n) 1 else c) c
  else c

/-- Egress unit, DMA engine, mailbox unit, CAN FD controller, Psirel link and serial-port slave; locks are kept. -/
def Chip.hostRestart (c : Chip) : Chip :=
  let c := if c.pixelRuns then
      let c := ((List.range 8).foldl (fun (c : Chip) (n : Nat) => c.discardJobs n (fun _ => true)) c).dmaHostRestart
      (List.range 8).foldl (fun (c : Chip) (ch : Nat) => c.mbxRestarted ch) c
    else c
  let c := ((c.canRestart.applyPending psirelP).psirelStart)
  ({ c with sps := { toMaster := c.sps.toMaster } } : Chip).set K.spsState (c.get K.spRole)

/-- Gnoner: its locks are released, mailboxes are emptied, and the restarts of other regions are abandoned, to begin afresh. -/
def Chip.hkpRestart (c : Chip) : Chip :=
  let c := ({ c with boot := { c.boot with hkpRestart := true } } : Chip).releaseLocks 1
  let c := if c.pixelRuns then (List.range 8).foldl (fun (c : Chip) (ch : Nat) => c.mbxRestarted ch) c else c
  { c with
    can := { c.can with usdo := none }, sps := { c.sps with transfer := none }
    regions := c.regions.zipIdx.map (fun ((r : RegionHist), (i : Nat)) =>
      if i < 4 ∧ r.restarting then { r with restarting := false, scheduled := some (r.reason.1, r.reason.2 + 2) } else r) }

/-! ### A restart from its boundary to its end -/

/-- A region restarts: its state, its record, and what it does. -/
def Chip.restartRegion (c : Chip) (region block why : Nat) : Chip :=
  let c := c.modRegion region (fun (r : RegionHist) => { r with
    scheduled := none, restarting := true, reason := (block, why)
    blocks := r.blocks.map (fun (b : BlockHist) => { b with resetting := false }) })
  let c := (c.set (K.regionState (region - 1)) 2).raise 2 region 0xFF 0xFF 0x00F1 block why
  if region = 1 then c.acqRestart
  else if region = 2 then c.pixRestart
  else if region = 3 then c.memRestart
  else if region = 4 then c.hostRestart
  else c.hkpRestart

/-- A restart is counted where escalation brings it; the third within 60 s takes the chip to its safe state instead (R472). -/
def Chip.countedRestart (c : Chip) (region block : Nat) : Chip :=
  let recent := (c.regionOf region).restarts.filter (fun (t : Nat) => decide (c.mono < t + 60000000000))
  if 2 ≤ recent.length then
    (c.modRegion region (fun (r : RegionHist) => { r with scheduled := none })).safeState region 0x00F1
  else (c.modRegion region (fun (r : RegionHist) => { r with restarts := c.mono :: recent })).restartRegion region block 1

/-- A scheduled restart at its boundary. One that Gnoner's restart abandoned waits until Gnoner is ready, and is not counted again; PIX has
nothing to restart while its die is off. -/
def Chip.restartDue (c : Chip) (region : Nat) : Chip :=
  match (c.regionOf region).scheduled with
  | none => c
  | some (block, why) =>
    if (c.regionOf region).restarting ∨ (3 ≤ why ∧ c.boot.hkpRestart) ∨ c.boot.phase ≠ .ready then c
    else if region = 2 ∧ !c.pixelRuns then c.modRegion region (fun (r : RegionHist) => { r with scheduled := none })
    else if why = 1 then c.countedRestart region block
    else c.restartRegion region block (if why = 3 then 1 else 2)

/-- The regions that restart before one at the same frame boundary, in order: MEM, then PIX and HOST, then ACQ (R474). -/
def restartsBefore (region : Nat) : List Nat :=
  if region = 1 then [3, 2, 4] else if region = 2 ∨ region = 4 then [3] else []

/-- REGION_RESTART: the restarts that are due at the region's boundary before its own, then its own. -/
def regionRestart (region : Nat) (c : Chip) : Chip :=
  if (c.regionOf region).scheduled.isNone then c else ((restartsBefore region).foldl Chip.restartDue c).restartDue region

/-- REGION_STATE of a region that works. -/
def Chip.regionWorks (c : Chip) (region : Nat) : Int :=
  if region = 1 ∨ region = 5 then 1
  else if !c.pixelRuns then 0
  else if (region = 2 ∧ c.mode.lanes ≠ 0xF) ∨ (region = 3 ∧ c.mode.single) then 3 else 1

/-- What the end of a restart does. -/
def Chip.restartEnds (c : Chip) (region lanesOk : Nat) : Chip :=
  if region = 1 then c.acqResume
  else if region = 2 then
    let had := c.mode.lanes
    let c := c.laneTest had lanesOk
    if c.mode.lanes = 0 then c.safeState 2 0x2011 else if c.mode.lanes ≠ had then c.readmit else c
  else if region = 3 then
    let c := [0, 1].foldl (fun (c : Chip) (n : Nat) => if c.get (K.dramChState n) = 1 ∧ c.pixelRuns then c.set (K.dramChState n) 2 else c) c
    let c := nvmHoldRelease c
    if c.spm.seq.isSome then c else c.flashNext
  else if region = 4 then c
  else ({ c with boot := { c.boot with hkpRestart := false } } : Chip).calTrigger

/-- REGION_RESTART_COMPLETE: the lane groups that pass their self-test serve on (R478). -/
def regionRestartComplete (region lanesOk : Nat) (c : Chip) : Chip :=
  if !c.regionRestarting region then c
  else
    let c := ((c.modRegion region (fun (r : RegionHist) => { r with restarting := false })).resetEnded region).restartEnds region lanesOk
    c.set (K.regionState (region - 1)) (c.regionWorks region)

/-- REGION_RESTART_TIMEOUT: the safe state, in which the dictionary stays reachable (R472). -/
def regionRestartTimeout (region : Nat) (c : Chip) : Chip :=
  if c.regionRestarting region then
    let c := (c.modRegion region (fun (r : RegionHist) => { r with restarting := false })).resetEnded region
    let c := (if region = 5 then { c with boot := { c.boot with hkpRestart := false } } else c).safeState region 0x00F1
    c.set (K.regionState (region - 1)) 4
  else c

/-- A write to REGION_RESET. -/
def regionReset (v : Nat) (c : Chip) : Except Abort Chip :=
  guardNot (decide (5 < v)) Abort.tooHigh <| guardNot (decide (v = 0)) Abort.tooLow <| .ok (c.schedule v 0xFF 2)

/-- GNONER_WATCHDOG: HKP restarts at once. -/
def gnonerWatchdog (c : Chip) : Chip :=
  if c.boot.phase ≠ .ready ∨ c.mode.asleep ∨ c.boot.hkpRestart then c
  else (c.raise 2 5 0xFF 0xFF 0x500A c.boot.slot 0).countedRestart 5 0xFF

/-! ### Meanings -/

/-- CELL_RESET_COMPLETE -/
def execCellResetComplete (region : Fin 5) (block cell : BitVec 8) (s : State) : Res :=
  run s (cellResetComplete (region.val + 1) block.toNat cell.toNat)

/-- BLOCK_RESET_COMPLETE -/
def execBlockResetComplete (region : Fin 5) (block fits : BitVec 8) (s : State) : Res :=
  run s (blockResetComplete (region.val + 1) block.toNat fits.toNat)

/-- BLOCK_RESET_TIMEOUT -/
def execBlockResetTimeout (region : Fin 5) (block : BitVec 8) (s : State) : Res := run s (blockResetTimeout (region.val + 1) block.toNat)

/-- REGION_RESET -/
def execRegionReset (m : Master) (v : BitVec 8) (s : State) : Res :=
  run s (fun c => c.command m K.regionReset (Sys2Proof.Machine.regionReset v.toNat))

/-- REGION_RESTART -/
def execRegionRestart (region : Fin 5) (s : State) : Res := run s (regionRestart (region.val + 1))

/-- REGION_RESTART_COMPLETE -/
def execRegionRestartComplete (region : Fin 5) (lanesOk : BitVec 4) (s : State) : Res :=
  run s (regionRestartComplete (region.val + 1) lanesOk.toNat)

/-- REGION_RESTART_TIMEOUT -/
def execRegionRestartTimeout (region : Fin 5) (s : State) : Res := run s (regionRestartTimeout (region.val + 1))

/-- GNONER_WATCHDOG -/
def execGnonerWatchdog (s : State) : Res := run s gnonerWatchdog

end Sys2Proof.Machine
end

