-- ==== Sys2Proof/Machine/Slots.lean ====
section
/-! DEFINITION. SHA-256 over a list of bytes, and the check of a Gnoner slot's header and digest (R455, Table 16.1). The spec names the
digest; its algorithm is FIPS 180-4 (assumption 116). -/

namespace Sys2Proof.Machine

/-! ### SHA-256 -/

/-- The round constants: fractions of the cube roots of the first 64 primes. -/
def shaK : List Nat :=
  [0x428a2f98, 0x71374491, 0xb5c0fbcf, 0xe9b5dba5, 0x3956c25b, 0x59f111f1, 0x923f82a4, 0xab1c5ed5,
   0xd807aa98, 0x12835b01, 0x243185be, 0x550c7dc3, 0x72be5d74, 0x80deb1fe, 0x9bdc06a7, 0xc19bf174] ++
  [0xe49b69c1, 0xefbe4786, 0x0fc19dc6, 0x240ca1cc, 0x2de92c6f, 0x4a7484aa, 0x5cb0a9dc, 0x76f988da,
   0x983e5152, 0xa831c66d, 0xb00327c8, 0xbf597fc7, 0xc6e00bf3, 0xd5a79147, 0x06ca6351, 0x14292967] ++
  [0x27b70a85, 0x2e1b2138, 0x4d2c6dfc, 0x53380d13, 0x650a7354, 0x766a0abb, 0x81c2c92e, 0x92722c85,
   0xa2bfe8a1, 0xa81a664b, 0xc24b8b70, 0xc76c51a3, 0xd192e819, 0xd6990624, 0xf40e3585, 0x106aa070] ++
  [0x19a4c116, 0x1e376c08, 0x2748774c, 0x34b0bcb5, 0x391c0cb3, 0x4ed8aa4a, 0x5b9cca4f, 0x682e6ff3,
   0x748f82ee, 0x78a5636f, 0x84c87814, 0x8cc70208, 0x90befffa, 0xa4506ceb, 0xbef9a3f7, 0xc67178f2]

/-- The initial hash value. -/
def shaStart : List Nat :=
  [0x6a09e667, 0xbb67ae85, 0x3c6ef372, 0xa54ff53a, 0x510e527f, 0x9b05688c, 0x1f83d9ab, 0x5be0cd19]

/-- A sum of 32-bit words. -/
def add32 (l : List Nat) : Nat := sumN l % 2 ^ 32

/-- A 32-bit word turned right. -/
def rotr32 (x n : Nat) : Nat := x / 2 ^ n + x % 2 ^ n * 2 ^ (32 - n)

/-- The exclusive or of three words. -/
def xor3 (a b c : Nat) : Nat := Nat.xor (Nat.xor a b) c

/-- The word of the message schedule after the latest sixteen, newest first. -/
def shaNext (w : List Nat) : Nat :=
  let s0 := fun (x : Nat) => xor3 (rotr32 x 7) (rotr32 x 18) (x / 8)
  let s1 := fun (x : Nat) => xor3 (rotr32 x 17) (rotr32 x 19) (x / 1024)
  add32 [s1 (at' w 1), at' w 6, s0 (at' w 14), at' w 15]

/-- One round on the eight working words, with the schedule word and the round constant. -/
def shaRound (h : List Nat) (wk : Nat × Nat) : List Nat :=
  let a := at' h 0
  let e := at' h 4
  let s1 := xor3 (rotr32 e 6) (rotr32 e 11) (rotr32 e 25)
  let ch := Nat.xor (Nat.land e (at' h 5)) (Nat.land (0xFFFFFFFF - e) (at' h 6))
  let t1 := add32 [at' h 7, s1, ch, wk.2, wk.1]
  let s0 := xor3 (rotr32 a 2) (rotr32 a 13) (rotr32 a 22)
  let maj := xor3 (Nat.land a (at' h 1)) (Nat.land a (at' h 2)) (Nat.land (at' h 1) (at' h 2))
  [add32 [t1, add32 [s0, maj]], a, at' h 1, at' h 2, add32 [at' h 3, t1], e, at' h 5, at' h 6]

/-- The number of four bytes, most significant first. -/
def beWord (l : List Byte) : Nat := leNat (l.take 4).reverse

/-- The hash value after one block of 64 bytes. -/
def shaBlock (h : List Nat) (block : List Byte) : List Nat :=
  let first := tab 16 (fun i => beWord (block.drop (4 * i)))
  let sched := ((List.range 48).foldl (fun (w : List Nat) _ => shaNext w :: w) first.reverse).reverse
  ((sched.zip shaK).foldl shaRound h).zipWith (fun a b => add32 [a, b]) h

/-- The hash value after n blocks. -/
def shaBlocks (h : List Nat) : Nat → List Byte → List Nat
  | 0, _ => h
  | n + 1, l => shaBlocks (shaBlock h (l.take 64)) n (l.drop 64)

/-- SHA-256 of a message, as 32 bytes. -/
def sha256 (l : List Byte) : List Byte :=
  let zeros := (119 - l.length % 64) % 64
  let padded := l ++ [0x80] ++ List.replicate zeros 0 ++ (leBytes 8 (8 * l.length)).reverse
  ((shaBlocks shaStart (padded.length / 64) padded).map (fun w => (leBytes 4 w).reverse)).flatten

/-! ### A slot (Table 16.1) -/

/-- A byte of slot n: what an update wrote, or what the factory left. -/
def Slot'.byteAt (s : Slot') (n a : Nat) : Byte :=
  if s.written.any (fun (w : Nat × Nat) => decide (w.1 ≤ a ∧ a < w.1 + w.2)) then s.bytes.byte a else Config.slotByte n a

/-- Bytes of slot n from an offset. -/
def Slot'.read (s : Slot') (n off len : Nat) : List Byte := tab len (fun i => s.byteAt n (off + i))

/-- The magic of a slot header. -/
def slotMagic : Nat := 0x5746545A

/-- Whether magic, length and digest of slot n are right; a slot that no update has touched is as the factory verified it, and its
outcome is the operand's alone (assumption 116). -/
def Slot'.sound (s : Slot') (n : Nat) : Bool :=
  s.written.isEmpty ||
  (let length := leNat (s.read n 8 4)
   decide (leNat (s.read n 0 4) = slotMagic) && decide (1 ≤ length ∧ length ≤ 1048320) &&
   decide (s.read n 16 32 = sha256 (s.read n 0 16 ++ s.read n 256 length)))

end Sys2Proof.Machine
end

