-- ==== Sys2Proof/Machine/Boot.lean ====
section
/-! DEFINITION. Resets of the whole chip, the boot ROM and the start of Gnoner (R44 to R46, R53, R455 to R458, R467, R468), and the rail
faults that lead there (R49). -/

namespace Sys2Proof.Machine

/-! ### Resets (R467) -/

/-- The NVM after a reset: the image that was being written is lost; writes that wait for VANA or for the end of the hold go on waiting
(R54, R451). -/
def Nvm.afterReset (n : Nvm) : Nvm := { n with job := none, storeLost := n.storeLost || n.job.isSome }

/-- The NVM after a front-die reset, with its supply or without: what waits in front-die memory is lost (R451). -/
def Nvm.afterFrontReset (n : Nvm) : Nvm := { n.afterReset with held := [], holding := false, vanaWait := [], gnonerWaits := [], writing := [] }

/-- What a front-die reset leaves: NVM contents, the levels outside, and, where the front die keeps its supply, the pending values,
which the restart applies (R80). -/
def Chip.frontLeft (c : Chip) (cause : Nat) : Chip := {
  nvm := c.nvm.afterFrontReset
  pendingP := if cause = 2 then c.pendingP else []
  rails := { level := c.rails.level }
  pins := { perstLow := c.pins.perstLow, spCs0Low := c.pins.spCs0Low, sysRstLow := c.pins.sysRstLow || decide (cause = 2) }
  act := { reversed := c.act.reversed }
  boot := { cause := cause }
  entered := c.entered
  free := c.free
  out := c.out }

/-- A front-die reset: a group write in progress is interrupted (R444), and the front die restarts. -/
def Chip.frontReset (c : Chip) (cause : Nat) : Chip := (c.nvmCut c.nvm.writing).frontLeft cause

/-- What a chip reset leaves: straps, the time base, the error queues and the NVM, with P-class values that wait for the restart (R80). -/
def Chip.chipReset (c : Chip) (cause : Nat) : Chip :=
  let kept := [K.straps, K.actuatorFitted, K.refclkState, K.nvmGroupWrites, K.nvmHeld].map (fun k => (k, c.get k))
  let base : Chip := {
    pendingP := c.pendingP
    errq := c.errq
    nvm := c.nvm.afterReset
    clk := { c.clk with divNext := none }
    rails := { c.rails with failedStarts := 0, waiting := [] }
    pins := { perstLow := c.pins.perstLow, spCs0Low := c.pins.spCs0Low, canStbyHigh := c.pins.canStbyHigh }
    psi := { slew := c.psi.slew, linkOff := decide (c.get K.refclkState ≠ 0) }
    thermal := { vTrip := c.thermal.vTrip }
    act := { reversed := c.act.reversed }
    boot := { phase := .verifying, cause := cause }
    entered := c.entered
    free := c.free
    out := c.out }
  (base.setAll kept).set K.nvmState (if c.nvm.holding then 2 else 0)

/-- SYS_RST -/
def sysRst (c : Chip) : Chip := c.frontReset 2

/-- A write to CHIP_RESET. -/
def chipResetWrite (v : Nat) (c : Chip) : Except Abort Chip :=
  guardNot (decide (v ≠ 0x746F6F62)) Abort.invalid <| .ok (c.chipReset 3)

/-! ### Reset is released (R44, R455) -/

/-- Whether VANA, VIO18 and VIO33 lie between their trips (R53). -/
def Chip.frontRailsIn (c : Chip) : Bool := [6, 7, 8].all (fun r => decide (c.rails.level.getD r .inRange = RailLevel.inRange))

/-- The front die leaves reset at the later of the end of its hold and the rising edge of SYS_RST_N (R44): straps are sampled, the serial port takes its role, the power-on is counted, and the boot ROM verifies. -/
def release (straps : Nat) (c : Chip) : Chip :=
  if c.boot.phase ≠ .held ∨ !c.frontRailsIn then c
  else
    let c := { c with pins := { c.pins with sysRstLow := false }, boot := { c.boot with phase := .verifying } }
    let role := bits straps 4 4
    let c := c.setAll [(K.straps, straps), (K.spRole, role), (K.spsState, role), (K.spmState, if role = 0 then 1 else 0)]
    let c := c.setTrips
    if c.boot.cause = 1 then c.nvmWrite (.count 0 1) else c

/-- FRONT_DIE_RESET_HOLD_END: 2 ms with the rails in range. While SYS_RST_N is still low the front die stays in reset, and its rising
edge, the later instant, releases it as INTERNAL_POR_RELEASE (R44, R53). -/
def holdEnds (straps : Nat) (c : Chip) : Chip := if c.pins.sysRstLow then c else release straps c

/-! ### The boot ROM (R455, R456) -/

/-- The boot ROM gives up: outputs off, no transport answers. -/
def Chip.bootDead (c : Chip) : Chip :=
  { c with boot := { c.boot with phase := .dead }, pins := { c.pins with canStbyHigh := true, pixPwrEn := false } }

/-- GNONER_START: verification ends; the verified slot of the higher release starts, slot 0 where they are equal. A slot is verified when
its magic stands, its length and digest are right, and its signature is, which the operand says (R455). -/
def gnonerStart (ok0 ok1 : Bool) (c : Chip) : Chip :=
  if c.boot.phase ≠ .verifying then c
  else
    let s0 := at' c.nvm.slots 0
    let s1 := at' c.nvm.slots 1
    let v0 := ok0 && s0.magic && s0.sound 0
    let v1 := ok1 && s1.magic && s1.sound 1
    let slot := if v0 && (!v1 || decide (s1.release ≤ s0.release)) then 0 else 1
    let c := { c with boot := { c.boot with verified := [v0, v1], slot := slot, failures := 0, fellFrom := none } }
    if v0 || v1 then { c with boot := { c.boot with phase := .starting } } else c.bootDead

/-- GNONER_START_TIMEOUT: the slot starts again; after its third failure in a row the other starts, if it is verified. -/
def gnonerTimeout (c : Chip) : Chip :=
  if c.boot.phase ≠ .starting then c
  else
    let n := c.boot.failures + 1
    let other := 1 - c.boot.slot
    if n < 3 then { c with boot := { c.boot with failures := n } }
    else if c.boot.fellFrom.isNone && at' c.boot.verified other then
      { c with boot := { c.boot with failures := 0, fellFrom := some c.boot.slot, slot := other } }
    else c.bootDead

/-! ### Gnoner becomes ready (R457) -/

/-- Trims that the NVM keeps for a target and a trim set. -/
def Chip.nvmTrims (c : Chip) (target set : Nat) : Option TrimPair :=
  c.nvm.trims.find? (fun (p : TrimPair) => decide (p.target = target ∧ p.set = set))

/-- Codes of a converter's trim group. -/
def trimOfCodes (l : TrimCodes) : Trim := { off := at' l 0, gain := at' l 1, oc := at' l 2, gc := at' l 3 }

/-- The trims of a bank return: those of set 0 in force, the others kept. -/
def Chip.bankTrims (c : Chip) (b : Nat) : Chip :=
  (List.range 34).foldl (fun (c : Chip) (j : Nat) =>
    (List.range 4).foldl (fun (c : Chip) (set : Nat) =>
      match c.nvmTrims (34 * b + j) set with
      | none => c
      | some p =>
        let c := c.modBank b (fun (k : ConvBank) => { k with
          prev := if p.prev.isEmpty then k.prev else keepTrim k.prev j set (trimOfCodes p.prev)
          kept := if set = 0 then k.kept else keepTrim k.kept j set (trimOfCodes p.cur) })
        if set = 0 then c.putTrim b j (trimOfCodes p.cur) else c) c) c

/-- The trims of AFE offsets, bias DACs and reference buffers return. -/
def Chip.leapTrims (c : Chip) (h : Nat) : Chip :=
  let c := (List.range 16).foldl (fun (c : Chip) (k : Nat) => match c.nvmTrims (136 + 16 * h + k) 0 with
    | none => c
    | some p => ({ c with cal := { c.cal with
        prevAfe := modAt c.cal.prevAfe h (fun (l : List (Option Int)) => modAt l k (fun _ => p.prev.head?)) } } : Chip).set
          (K.afeTrim h k) (at' p.cur 0)) c
  (List.range 8).foldl (fun (c : Chip) (k : Nat) => match c.nvmTrims (200 + 8 * h + k) 0 with
    | none => c
    | some p => ({ c with cal := { c.cal with
        prevBias := modAt c.cal.prevBias h (fun (l : List (Option Int)) => modAt l k (fun _ => p.prev.head?)) } } : Chip).set
          (K.biasTrim h k) (at' p.cur 0)) c

/-- The trims of a reference buffer return. -/
def Chip.bufferTrims (c : Chip) (r : Nat) : Chip :=
  match c.nvmTrims (232 + r) 0 with
  | none => c
  | some p => ({ c with cal := { c.cal with prevRef := modAt c.cal.prevRef r (fun _ => p.prev.head?) } } : Chip).set
      (K.refbufTrim r) (at' p.cur 0)

/-- What the NVM tells at a start: trims, images, the log and the last Solstice of each head. -/
def Chip.nvmStart (c : Chip) : Chip :=
  let c := (List.range 4).foldl (fun (c : Chip) (h : Nat) => (c.bankTrims h).leapTrims h) c
  let c := ((c.bufferTrims 0).bufferTrims 1).reportImages
  let c := c.setAll [(K.nvmLogNewest, c.nvm.logSeq), (K.nvmLogValid, c.nvm.log.length)]
  (List.range 4).foldl (fun (c : Chip) (h : Nat) =>
    match c.nvm.log.find? (fun (r : LogRec) => decide (r.entry.code = 0x2006 ∧ r.entry.ctx0 = h)) with
    | some r => c.set (K.solsticeLastTime h) r.entry.time
    | none => c) c

/-- The character of a digit. -/
def digitChar (d : Nat) : Nat := if d < 10 then 0x30 + d else 0x37 + d

/-- SW_VERSION of a release number, first character lowest: 0x0207 reads "2.07" (Table 3.8). -/
def releaseText (r : Nat) : Nat :=
  let l := (if r / 4096 % 16 = 0 then [] else [digitChar (r / 4096 % 16)]) ++
    [digitChar (r / 256 % 16), 0x2E, digitChar (r / 16 % 16), digitChar (r % 16)]
  l.foldr (fun d (acc : Nat) => d + 256 * acc) 0

/-- The identity objects name the release of the slot that runs (R3, Table 3.8). -/
def Chip.releaseStart (c : Chip) : Chip :=
  let r := (at' c.nvm.slots c.boot.slot).release
  c.setAll [(K.identityRevision, (0x00B10000 + r % 0x10000 : Nat)), (K.swVersion, releaseText (r % 0x10000))]

/-- The trim set that each bank has in force for the band that a start leaves, as TRIM_SET is stored (R200): stored CONV_OFFSET and CONV_GAIN
then go into it. -/
def Chip.bandTrims (c : Chip) : Chip :=
  let l := c.applicable 7
  (List.range 4).foldl (fun (c : Chip) (h : Nat) => c.selectTrims h (Dict.get l (K.trimSet (c.bandIx h))).toNat) c

/-- Step 1 of R457: stored values and P-class values take effect; the straps decide what no stored value does. The actuator driver is
fitted where VSOL reads 4.0 V or above now and at every start since the front-die reset (R46). A store that a reset cut off shows
(assumption 86), and v_trip follows a THERMAL_SHUTDOWN that comes from the NVM (assumption 98). -/
def Chip.valuesStart (c : Chip) (vsol : Int) : Chip :=
  let role := bits (c.nat K.straps) 4 4
  let fitted := if 4000000 ≤ vsol ∧ (c.boot.cause ≤ 2 ∨ c.on K.actuatorFitted) then 1 else 0
  let c := c.bandTrims.applyStored.setTrips.releaseStart.set K.storeState (if c.nvm.storeLost then 2 else 0)
  let c := (List.range 8).foldl (fun (c : Chip) (n : Nat) => c.set (K.streamRun n) 0) c
  let c := c.setAll [(K.spRole, role), (K.spsState, role), (K.spmState, if role = 0 then 1 else 0), (K.actuatorFitted, fitted),
    (K.regionState 0, 1), (K.regionState 4, 1)]
  let single := bitOf (c.nat K.straps) 5
  ({ c with mode := { c.mode with single := single, onCh := 0 } } : Chip).set K.dramChannels (if single then 1 else 2)

/-- The records of a start: what the NVM could not give (R446, R447), then the cause of the start (R457, R468) and a fallback of the
slot. -/
def Chip.startRecords (c : Chip) : Chip :=
  let fell := c.boot.fellFrom
  let c := (c.nvm.counters.filter (fun (n : NvmCounter) => n.a.isNone && n.b.isNone)).foldl (fun (c : Chip) (n : NvmCounter) =>
    c.raise 3 0 0xFF 0xFF 0x0006 n.num 0) c
  let c := if c.nvm.newest.isNone then c.raise 3 0 0xFF 0xFF 0x0005 0 0 else c
  let c := c.raise 3 0 0xFF 0xFF 0x0001 (if fell.isSome then 5 else c.boot.cause) 0
  match fell with
  | some s => c.raise 3 0 0xFF 0xFF 0x000C s c.boot.slot
  | none => c

/-! ### The flash devices (R436) -/

/-- The selects of the port at which a device may be (R435). -/
def Chip.flashSelects (c : Chip) : List Nat := if c.on K.spmCsSplit then [0, 1, 2, 3] else [0]

/-- Bytes sent to a device, one command after the other. -/
def Chip.flashSend (c : Chip) (sel : Nat) (l : List (List Byte)) : Chip := l.foldl (fun (c : Chip) b => c.emit (.flash sel b)) c

/-- The command that reads the SFDP, from its first byte (assumption 121). -/
def Chip.sfdpRead (c : Chip) : List Byte := c.flashCommand 0x5A ++ [0, 0, 0]

/-- The part with its port in a protocol. -/
def Chip.inProtocol (c : Chip) (p : Int) : Chip := c.set K.spmProtocol p

/-- Steps 1 and 2 at every select: the reset pair in 8D-8D-8D and again in 1-1-1, and the read of the SFDP in 1-1-1. -/
def Chip.flashProbe (c : Chip) : Chip :=
  let pair := fun (d : Chip) => [d.flashCommand 0x66, d.flashCommand 0x99]
  c.flashSelects.foldl (fun (d : Chip) sel =>
    d.flashSend sel (pair (c.inProtocol 7) ++ pair (c.inProtocol 0) ++ [(c.inProtocol 0).sfdpRead])) c

/-- The slowest selection common to all devices: the slowest protocol with what goes with it, and the slowest clock. -/
def slowestFlash : List FlashDevice → Option FlashDevice
  | [] => none
  | d :: l => match slowestFlash l with
    | none => some d
    | some e =>
      let s := if d.protocol.toNat < e.protocol.toNat ∨ (d.protocol = e.protocol ∧ e.dummy.toNat ≤ d.dummy.toNat) then d else e
      some { s with clockDiv := if d.clockDiv.toNat ≤ e.clockDiv.toNat then e.clockDiv else d.clockDiv }

/-- Steps 3 to 6: octal mode where a device needs it, the objects, and the read scan of the SFDP header in the protocol selected. -/
def Chip.flashConfigure (c : Chip) (l : List FlashDevice) : Chip :=
  match slowestFlash l with
  | none => c
  | some s =>
    let places := c.flashSelects.zip l
    let c := places.foldl (fun (c : Chip) x => c.flashSend x.1 x.2.enable) c
    let c := c.setAll [(K.spmProtocol, s.protocol.toNat), (K.spmReadCmd, s.readCmd.toNat), (K.spmDummyCycles, s.dummy.toNat),
      (K.spmProgramCmd, s.programCmd.toNat), (K.spmEraseCmd, s.eraseCmd.toNat), (K.spmCmdExtension, s.extension.toNat),
      (K.spmClockDiv, s.clockDiv.toNat), (K.spmSampleDelay, s.sampleDelay.toNat)]
    places.foldl (fun (c : Chip) x => c.flashSend x.1 [c.sfdpRead]) c

/-- The flash is configured while SPM_AUTO_CONFIG is 1 and the port is master (R436). -/
def Chip.flashStart (c : Chip) (f : FlashReport) : Chip :=
  if !c.on K.spmAutoConfig ∨ !c.portMaster then c
  else match f with
    | .skip => c
    | .unreadable sel => c.flashProbe.raise 0 3 3 0 0x3003 sel.toNat 0
    | .found protocol readCmd dummy programCmd eraseCmd extension clockDiv sampleDelay => c.flashProbe.flashConfigure [{
        protocol := protocol, readCmd := readCmd, dummy := dummy, programCmd := programCmd, eraseCmd := eraseCmd
        extension := extension, clockDiv := clockDiv, sampleDelay := sampleDelay }]
    | .devices l => c.flashProbe.flashConfigure l

/-! ### Gnoner is ready -/

/-- Declared rail faults act (R49, Table 16.10). -/
def Chip.railFault (c : Chip) (r : Nat) (above : Bool) : Chip :=
  if r < 6 ∧ !c.pins.pixPwrEn then c
  else if r = 10 ∧ !above ∧ !c.on K.actuatorFitted then c
  else c.railFaulty r above

/-- A fault that was declared before Gnoner was ready acts now (R49); the rail stands as it does. -/
def Chip.replayFault (c : Chip) (f : Nat × Bool) : Chip :=
  let now := c.rails.level.getD f.1 .inRange
  let c := c.railFault f.1 f.2
  let c := { c with rails := { c.rails with
    level := modAt c.rails.level f.1 (fun _ => now), fault := modAt c.rails.fault f.1 (fun x => x && decide (now ≠ .inRange)) } }
  if f.1 = 10 then c.vsolUpdate else c

/-- Whether a rail is in its range. -/
def Chip.railIn (c : Chip) (r : Nat) : Bool := decide (c.rails.level.getD r .inRange = RailLevel.inRange)

/-- GNONER_READY. Of the rail faults declared before, those that have ended act before the starts and those that last after them
(assumption 115). -/
def gnonerReady (vsol : Int) (flash : FlashReport) (found : List NvmFind) (c : Chip) : Chip :=
  if c.boot.phase ≠ .starting then c
  else
    let waiting := c.rails.waiting
    let c := { c with rails := { c.rails with fault := List.replicate 11 false, waiting := [] } }
    let c := { c with boot := { c.boot with phase := .ready }, pins := { c.pins with canStbyHigh := false } }
    let c := ((c.nvmFound found).nvmStart.valuesStart vsol).startRecords
    let c := (((c.canRestart.canBootUp).psirelStart).chipStartPark).vsolUpdate
    let c := ({ c with hk := { c.hk with on := true } } : Chip).calTrigger.flashStart flash
    let ended := waiting.filter (fun f => c.railIn f.1)
    let lasting := waiting.filter (fun f => !c.railIn f.1)
    let c := ended.foldl Chip.replayFault c
    let c := if c.inSafe then c else (c.pixelUp .full).startHeads
    lasting.foldl Chip.replayFault c

/-! ### Rail faults -/

/-- RAIL_FAULT: an undervoltage of the front die resets it; another fault acts once Gnoner runs. -/
def railFault (r : Nat) (above : Bool) (c : Chip) : Chip :=
  let level := if above then RailLevel.above else RailLevel.under
  if frontRail r && !above then
    let c := c.frontReset 1
    { c with rails := { c.rails with level := modAt c.rails.level r (fun _ => level) } }
  else if c.boot.phase = .held then c
  else if c.boot.phase ≠ .ready then
    if (r < 6 ∧ !c.pins.pixPwrEn) ∨ (c.rails.fault.getD r false ∧ c.rails.level.getD r .inRange = level) then c
    else { c with rails := { c.rails with
      fault := modAt c.rails.fault r (fun _ => true), level := modAt c.rails.level r (fun _ => level), waiting := c.rails.waiting ++ [(r, above)] } }
  else if c.rails.fault.getD r false && decide (c.rails.level.getD r .inRange = level) then c
  else c.railFault r above

/-! ### Meanings -/

/-- INTERNAL_POR_RELEASE -/
def execInternalPorRelease (straps : BitVec 6) (s : State) : Res := run s (release straps.toNat)

/-- SYS_RST -/
def execSysRst (s : State) : Res := run s sysRst

/-- RAIL_FAULT -/
def execRailFault (rail : Fin 11) (above : Bool) (s : State) : Res := run s (railFault rail.val above)

/-- FRONT_DIE_RESET_HOLD_END -/
def execFrontDieResetHoldEnd (straps : BitVec 6) (s : State) : Res := run s (holdEnds straps.toNat)

/-- GNONER_START -/
def execGnonerStart (ok0 ok1 : Bool) (s : State) : Res := run s (gnonerStart ok0 ok1)

/-- GNONER_START_TIMEOUT -/
def execGnonerStartTimeout (s : State) : Res := run s gnonerTimeout

/-- GNONER_READY -/
def execGnonerReady (vsol : BitVec 32) (flash : FlashReport) (s : State) (found : List NvmFind := []) : Res :=
  run s (gnonerReady vsol.toInt flash found)

/-- CHIP_RESET -/
def execChipReset (m : Master) (v : BitVec 32) (s : State) : Res := run s (fun c => c.command m K.chipReset (chipResetWrite v.toNat))

end Sys2Proof.Machine
end

