-- ==== Sys2Proof/Machine/Modes.lean ====
section
/-! DEFINITION. Modes: requests, standby and deep standby, waking, and PERST_N (R369, R370, R462 to R466). -/

namespace Sys2Proof.Machine

/-! ### Requests (R466) -/

/-- Whether a run request may leave the safe state: after a thermal shutdown every valid front-die sensor must be cool (R187). -/
def Chip.coolEnough (c : Chip) : Bool :=
  !c.mode.thermal || (!c.frontSensors.isEmpty &&
    c.frontSensors.all (fun j => decide (c.get (K.sensorTemp j) < c.get K.thermalShutdown - c.get K.shutdownHyst)))

/-- The transition to running begins. -/
def Chip.toRun (c : Chip) : Chip :=
  (({ c with mode := { c.mode with going := 1 } } : Chip).set K.modeRequest 1).resume

/-- From standby to deep standby: a pixel die that runs for the host is powered down first. -/
def Chip.toDeep (c : Chip) : Chip :=
  let c := { c with mode := { c.mode with going := 3, hostCall := false } }
  let c := (if c.get K.pixelDieState = 0 then c else c.pixelLost 0 true).abandonGnoner
  c.set K.modeRequest 3

/-- A write of 1, 2 or 3 to MODE_REQUEST. -/
def modeRequest (v : Nat) (c : Chip) : Except Abort Chip :=
  let m := c.get K.chipMode
  guardNot (decide (c.mode.going ≠ 0)) Abort.localControl <|
  if m = 0 then .ok (({ c with mode := { c.mode with heldRequest := v } } : Chip).set K.modeRequest v)
  else if m = 1 then .ok (if v = 1 then c else c.toStandby v)
  else if m = 2 then .ok (if v = 1 then c.toRun else if v = 3 then c.toDeep else c)
  else if v = 3 ∨ m = 3 then .error Abort.deviceState
  else if v = 2 then .ok c
  else
    guardNot (!c.coolEnough) Abort.deviceState <|
    .ok (if c.mode.thermal then (c.throttleTo 0).toRun else c.toRun)

/-! ### Standby is reached (R462, R399, R169) -/

/-- The controller goes to sleep (R462, R169). An urgent conversion in progress is dropped and its status stays as it reads (assumption 91). -/
def Chip.sleep (c : Chip) : Chip :=
  let c := { c with
    mode := { c.mode with going := 0, asleep := true }, pins := { c.pins with canStbyHigh := true }, psi := { c.psi with linkOff := true }
    hk := { on := false, urgentSeq := c.hk.urgentSeq }
    cal := { c.cal with judged := false } }
  (c.canStatus.set K.hkValid 0).set K.chipMode 3

/-- STANDBY_REACHED: the heads are stopped and the park has finished. -/
def standbyReached (c : Chip) : Chip :=
  if (c.mode.going = 2 ∨ c.mode.going = 3) ∧ c.act.parked ∧ (List.range 4).all (fun h => decide (c.get (K.runState h) = 0)) then
    if c.mode.going = 3 then c.sleep
    else ({ c with mode := { c.mode with going := 0 } } : Chip).set K.chipMode 2
  else c

/-! ### Waking (R463, R464) -/

/-- MC_WAKE_COMPLETE -/
def mcWakeComplete (c : Chip) : Chip :=
  if c.mode.asleep ∧ c.mode.waking then
    let c := (c.controllerWakes.canStatus.setAll [(K.chipMode, 2), (K.modeRequest, 2)]).hostP
    let c := c.calTrigger
    if c.mode.hostCall then c.pixelUp .hostOnly else c
  else c

/-- SPS_WAKE: the frame that wakes is lost, and the next status byte says BAD. -/
def spsWake (c : Chip) : Chip :=
  if c.mode.asleep ∧ c.on K.spRole ∧ c.boot.phase = .ready then ({ c with sps := { c.sps with bad := true } } : Chip).wake else c

/-! ### PERST_N (R369, R370, R464) -/

/-- PERST_ASSERT: the link goes down with both functions reset, and in standby the pixel die is powered down again. -/
def perstAssert (c : Chip) : Chip :=
  if c.pins.perstLow then c
  else
    let c := { c with pins := { c.pins with perstLow := true } }
    let c := if c.pixelOn then
        let (n, c) := (c.bump K.pcieResets).dmaOutstanding [1, 3]
        (c.linkTo 0).hostResets n
      else c
    if c.mode.hostCall then
      let c := { c with mode := { c.mode with hostCall := false } }
      if c.get K.chipMode = 2 ∧ c.mode.going = 0 ∧ c.get K.pixelDieState ≠ 0 then c.pixelLost 0 false else c
    else c

/-- PERST_DEASSERT: WAKE_N is released and configuration space becomes ready; in standby the pixel die starts for the host. -/
def perstDeassert (c : Chip) : Chip :=
  if !c.pins.perstLow then c
  else
    let c := ({ c with pins := { c.pins with perstLow := false, wakeLow := false } } : Chip).modPcie (fun p => { p with l2 := false })
    let m := c.get K.chipMode
    if c.pixelOn then c.linkTo 1
    else if c.boot.phase = .ready ∧ (m = 2 ∨ m = 3) ∧ c.mode.going ≠ 1 then
      let c := { c with mode := { c.mode with hostCall := true } }
      if c.mode.asleep then c.wake
      else if c.mode.going = 3 then { c with mode := { c.mode with waking := true } }
      else c.pixelUp .hostOnly
    else c

/-! ### Meanings -/

/-- MODE_REQUEST_RUN -/
def execModeRequestRun (m : Master) (s : State) : Res := run s (fun c => c.command m K.modeRequest (modeRequest 1))

/-- MODE_REQUEST_STANDBY -/
def execModeRequestStandby (m : Master) (s : State) : Res := run s (fun c => c.command m K.modeRequest (modeRequest 2))

/-- MODE_REQUEST_DEEP_STANDBY -/
def execModeRequestDeepStandby (m : Master) (s : State) : Res := run s (fun c => c.command m K.modeRequest (modeRequest 3))

/-- STANDBY_REACHED -/
def execStandbyReached (s : State) : Res := run s standbyReached

/-- MC_WAKE_COMPLETE -/
def execMcWakeComplete (s : State) : Res := run s mcWakeComplete

/-- SPS_WAKE -/
def execSpsWake (s : State) : Res := run s spsWake

/-- PERST_ASSERT -/
def execPerstAssert (s : State) : Res := run s perstAssert

/-- PERST_DEASSERT -/
def execPerstDeassert (s : State) : Res := run s perstDeassert

end Sys2Proof.Machine
end

