-- ==== Sys2Proof/Machine/Sharing.lean ====
section
/-! DEFINITION. What the masters share: the locks (R95 to R98), the hold of staged writes (R78), the acknowledgement of error records
(R107), and the role of the serial port (R428). -/

namespace Sys2Proof.Machine

/-! ### Accesses of one cycle (R81, R96) -/

/-- Rank of a master among those of one CLK_MGT cycle (Table 3.6). -/
def masterRank : Master → Nat
  | .mc => 1
  | .can => 1
  | .f1 => 2
  | .f0 => 3
  | .sp => 4

/-- Accesses of one cycle in the fixed order of their masters; those of one rank stay in the order in which Gnoner issues them. -/
def inRank {α : Type} (m : α → Master) (l : List α) : List α :=
  (List.range 5).flatMap (fun r => l.filter (fun x => decide (masterRank (m x) = r)))

/-! ### Locks -/

/-- A read of a lock acquires it when it is free, and gives its owner's code otherwise (R95). -/
def Chip.lockRead (c : Chip) (m : Master) (n : Nat) : Chip × Nat :=
  if c.nat (K.lock n) = 0 then (c.set (K.lock n) (ownerCode m : Nat), 0) else (c, c.nat (K.lock n))

/-- LOCK_READ. -/
def lockRead (m : Master) (n : Nat) (c : Chip) : Except Abort Chip :=
  let (c, v) := c.lockRead m n
  .ok (c.emit (.slot m (K.lock n) v))

/-- Reads of a lock in one cycle: the master of highest rank acquires it when it is free, and the others read its code (R96). -/
def lockReads (ms : List Master) (n : Nat) (c : Chip) : Chip :=
  (inRank id ms).foldl (fun (c : Chip) (m : Master) => c.command m (K.lock n) (lockRead m n)) c

/-- A write to a lock: its owner releases it by its own code; any other write is ignored and counted (R97). -/
def lockWrite (m : Master) (n v : Nat) (c : Chip) : Except Abort Chip :=
  .ok (if c.nat (K.lock n) = ownerCode m ∧ v = ownerCode m then c.set (K.lock n) 0 else c.bump K.lockViolations)

/-- A write to LOCK_FORCE by a secure master (R98). -/
def lockForce (m : Master) (v : Nat) (c : Chip) : Except Abort Chip :=
  guardNot (!secure m) Abort.unsupported <|
  .ok ((List.range 32).foldl (fun (c : Chip) (j : Nat) =>
    if bitOf v j ∧ c.get (K.lock j) ≠ 0 then (c.set (K.lock j) 0).bump K.lockForced else c) c)

/-! ### STAGE_HOLD -/

/-- The hold of an owner is lifted: its writes wait for the first frame start whose cut comes after now, or take effect at once while
the owner is stopped. -/
def Chip.releaseHold (c : Chip) (o : Nat) : Chip :=
  ({ c with staged := c.staged.map (fun (w : Staged) => if w.owner = o then { w with at' := c.mono } else w) } : Chip).applyStopped o

/-- A write to STAGE_HOLD (R78). -/
def stageHold (v : Nat) (c : Chip) : Except Abort Chip :=
  guardNot (decide (clearBits v 0xFF3F ≠ 0)) Abort.invalid <|
  let was := c.nat K.stageHold
  let c := c.set K.stageHold v
  .ok ((List.range 16).foldl (fun (c : Chip) (o : Nat) => if bitOf was o && !bitOf v o then c.releaseHold o else c) c)

/-! ### Error records -/

/-- Acknowledge the records of a queue whose sequence is at or before a value. -/
def ErrQ.ack (q : ErrQ) (v : Nat) : ErrQ :=
  { q with recs := q.recs.map (fun (r : ErrRec) => if (v + 0x10000 - r.seq) % 0x10000 < 0x8000 then { r with acked := true } else r) }

/-- A write to ERRQ_ACK of a region, counted from 0 (Table 3.10). -/
def errqAck (r v : Nat) (c : Chip) : Except Abort Chip := .ok { c with errq := modAt c.errq r (fun q => q.ack v) }

/-! ### The serial port's role -/

/-- The role changes: the locks of the slave are released, and the expectation of its alive counter starts again (R98, R428). Bytes
still in the page buffer are dropped: the slave drives no flash (assumption 21). -/
def Chip.portBecomes (c : Chip) (role : Nat) : Chip :=
  let c := c.releaseLocks 4
  let c := { c with sps := {}, spm := { c.spm with page := none } }
  c.setAll [(K.spRole, (role : Int)), (K.spsState, (role : Int)), (K.spmState, if role = 0 then 1 else 0)]

/-- A write to SP_ROLE (R428): to slave only while the master is idle; to master when SP_CS0_N next rises. -/
def spRole (v : Nat) (c : Chip) : Except Abort Chip :=
  let now := c.nat K.spRole
  if v = 1 then
    if now = 1 then .ok { c with sps := { c.sps with toMaster := false } }
    else guardNot (decide (c.get K.spmState ≠ 1)) Abort.localControl <| .ok (c.portBecomes 1)
  else if now = 0 then .ok c
  else .ok { c with sps := { c.sps with toMaster := true } }

/-! ### Meanings -/

/-- The value that a write of a slot gives an object, then its operation. -/
def Chip.slotCommand (c : Chip) (m : Master) (key : Nat) (v : Slot) (op : Nat → Chip → Except Abort Chip) : Chip :=
  c.command m key (fun c =>
    match (rowAt? key).bind (fun r => r.valueOf? v) with
    | none => .error Abort.invalid
    | some x => op x.toNat c)

/-- STAGE_HOLD_WRITE -/
def execStageHoldWrite (m : Master) (v : Slot) (s : State) : Res := run s (fun c => c.slotCommand m K.stageHold v stageHold)

/-- LOCK_READ -/
def execLockRead (m : Master) (n : Fin 32) (s : State) (also : List Master := []) : Res := run s (lockReads (m :: also) n)

/-- LOCK_WRITE -/
def execLockWrite (m : Master) (n : Fin 32) (v : BitVec 8) (s : State) : Res :=
  run s (fun c => c.command m (K.lock n) (lockWrite m n v.toNat))

/-- LOCK_FORCE -/
def execLockForce (m : Master) (v : BitVec 32) (s : State) : Res := run s (fun c => c.command m K.lockForce (lockForce m v.toNat))

/-- ERRQ_ACK -/
def execErrqAck (m : Master) (r : Fin 5) (v : BitVec 16) (s : State) : Res :=
  run s (fun c => c.command m (K.errqAck r) (errqAck r v.toNat))

/-- SP_ROLE_WRITE -/
def execSpRoleWrite (m : Master) (v : BitVec 8) (s : State) : Res :=
  run s (fun c => c.command m K.spRole (fun c => guardNot (decide (1 < v.toNat)) Abort.invalid (spRole v.toNat c)))

end Sys2Proof.Machine
end

