-- ==== Sys2Proof/Machine/Checks.lean ====
section
/-! DEFINITION. The checks of a write against the state of the part (R72 to R75, R79) and against other objects, as the chapters that own
them state. -/

namespace Sys2Proof.Machine

/-- The first of a list of conditions that refuses. -/
def firstAbort : List (Bool × Abort) → Option Abort
  | [] => none
  | (b, a) :: l => if b then some a else firstAbort l

/-- The place of a key among the copies of an object. -/
def copyOf (k : Nat → Nat) (n key : Nat) : Option Nat := (List.range n).find? (fun i => k i = key)

/-- Whether a key is one of some copies of an object. -/
def isCopy (k : Nat → Nat) (n key : Nat) : Bool := (copyOf k n key).isSome

/-! ### Who may write -/

/-- The DMA channel of a key of Table 14.12. -/
def dmaChannelOf (key : Nat) : Option Nat :=
  let idx := key / 256
  if 0x5100 ≤ idx ∧ idx < 0x5140 then some ((idx - 0x5100) / 4) else none

/-- Whether a secure channel refuses a master (R427). -/
def Chip.dmaForeign (c : Chip) (m : Master) (key : Nat) : Bool :=
  match dmaChannelOf key with
  | some ch => !c.dmaMay m ch
  | none => false

/-- Whether a key is an H2D word of a channel. -/
def h2dWordOf (key : Nat) : Option Nat :=
  let idx := key / 256
  if 0x5000 ≤ idx ∧ idx < 0x5040 ∧ idx % 8 = 0 then some ((idx - 0x5000) / 8) else none

/-- The channel whose host end alone writes a key: its H2D words, its send command, its D2H release and its acknowledgement (R410). -/
def hostKeyOf (key : Nat) : Option Nat :=
  let idx := key / 256
  let sub := key % 256
  if 0x5000 ≤ idx ∧ idx < 0x5040 ∧
    (idx % 8 = 0 ∨ ((idx % 8 = 1 ∨ idx % 8 = 3) ∧ sub = 1) ∨ (idx % 8 = 4 ∧ sub = 5)) then some ((idx - 0x5000) / 8) else none

/-- Access class and master (R74, R75, R410, R427). -/
def Chip.masterAbort? (c : Chip) (m : Master) (key : Nat) (r : Row) : Option Abort :=
  firstAbort [
    (decide (r.acc = .ro ∨ r.acc = .domain), Abort.readOnly), (decide (r.acc = .rws) && !secure m, Abort.unsupported),
    (c.dmaForeign m key, Abort.unsupported),
    (match hostKeyOf key with | some ch => !mbxHost ch m | none => false, Abort.unsupported)]

/-! ### Values bounded by another object (R72) -/

/-- A value at or beyond the bound that another object sets is too high. A trigger period of 0 sets no bound. -/
def Chip.beyondBound (c : Chip) (key : Nat) (v : Int) : Bool :=
  (List.range 8).any (fun n => decide (key = K.ringRead n ∧ c.val (K.ringSlots n) ≤ v)) ||
  (List.range 6).any (fun s => decide (key = K.statHostRead s ∧ c.val (K.statHostSlots s) ≤ v)) ||
  (List.range 4).any (fun h => decide (key = K.samplePhase h ∧ c.val (K.pixelMclks h) * c.val (K.mclkDiv h) ≤ v)) ||
  decide (key = K.psirelTrigPhase ∧ c.get K.psirelTrigPeriod ≠ 0 ∧ c.get K.psirelTrigPeriod ≤ v) ||
  decide (key = K.pcieBar2Base ∧ c.get K.dramCapacity ≤ v)

/-- The value rules of R72 and R73. -/
def Chip.valueAbort? (c : Chip) (key : Nat) (r : Row) (v : Int) : Option Abort :=
  match r.chk.abort? v with
  | some a => some a
  | none => match customAbort? key v with
    | some a => some a
    | none => if c.beyondBound key v then some Abort.tooHigh else none

/-! ### Conflicts with other objects -/

/-- Thermal levels in order (R185), as last written. -/
def Chip.levelsOk (c : Chip) : Bool :=
  let e := fun (j : Nat) => c.get (K.thrEnter j)
  decide (e 0 < e 1 ∧ e 1 < e 2 ∧ e 2 < e 3 ∧ e 3 ≤ c.get K.thermalShutdown - 320 ∧ c.get K.thrL4Exit ≤ e 3 - 2 * c.get K.thrHyst)

/-- The almanac of a head as last written (R188). -/
def Chip.almanacOk (c : Chip) (h : Nat) : Bool :=
  let n := c.nv (K.almanacBandCount h)
  let low := fun (b : Nat) => c.val (K.bandLower (16 * h + b))
  (List.range n).all (fun b => decide (b = 0 ∨ n ≤ b + 1) || decide (low b + 2 * c.val (K.almanacHyst h) < low (b + 1))) && c.bandsFit h &&
  (List.range n).all (fun b => decide (c.val (K.integrations h) ≠ 2 ∨ c.nv (K.tauS (16 * h + b)) ≤ c.nv (K.tauL (16 * h + b))))

/-- Whether a key is an object of a head that R188 checks. -/
def almanacKey (h key : Nat) : Bool :=
  decide (key = K.almanacBandCount h ∨ key = K.almanacHyst h) ||
  (List.range 16).any (fun b => decide (key = K.bandLower (16 * h + b) ∨ key = K.tauL (16 * h + b) ∨ key = K.tauS (16 * h + b)))

/-- Head objects: conditions 4, 6 and 7 of R118 while the head runs, R188, and a bank named twice (R246). -/
def Chip.headAbort? (c : Chip) (key : Nat) (v : Int) : Option Abort :=
  let c' := c.assume key v
  (List.range 4).findSome? (fun h => firstAbort [
    (decide (c.get (K.runState h) ≠ 0) && decide (key = K.intlStart h ∨ key = K.intsStart h ∨ key = K.frameLength h) &&
      !(c'.bandsFit h && c'.frameFits h && c'.tapsFit h), Abort.incompatible),
    (almanacKey h key && !c'.almanacOk h, Abort.incompatible),
    (decide (key = K.solsticeShutter h ∧ (v = 1 ∨ v = 2)) &&
      (List.range 4).any (fun g => decide (g ≠ h) && decide (c.get (K.solsticeShutter g) = v)), Abort.incompatible)])

/-- The conditions of R330 that name an object of a stream, by its key and the part with the write applied. -/
def Chip.shapeBroken (c : Chip) (n key : Nat) : Bool :=
  let cw := c.nv (K.cropWidth n)
  let ch := c.nv (K.cropHeight n)
  let ow := c.nv (K.outWidth n)
  let oh := c.nv (K.outHeight n)
  let f := c.nv (K.streamFormat n)
  let named := fun (l : List (Nat → Nat)) => l.any (fun k => decide (k n = key))
  (named [K.streamSource, K.cropX, K.cropY, K.cropWidth, K.cropHeight] && !c.cropInside n (c.sizeNow (streamSourceOf (c.nv (K.streamSource n))))) ||
  (named [K.cropWidth, K.cropHeight, K.outWidth, K.outHeight] &&
    !decide (cw ≤ 16 * ow ∧ ow ≤ 8 * cw ∧ ch ≤ 16 * oh ∧ oh ≤ 8 * ch)) ||
  (named [K.streamFormat, K.cropWidth, K.cropHeight, K.outWidth, K.outHeight] && decide (f = 5 ∧ (ow ≠ cw ∨ oh ≠ ch))) ||
  (named [K.streamFormat, K.outWidth] && decide (f = 4 ∧ ow % 2 ≠ 0)) ||
  (named [K.streamSource, K.streamFormat, K.outWidth, K.lineStride] &&
    !decide (c.nv (K.lineStride n) % 64 = 0 ∧ ow * c.outBytes n ≤ c.nv (K.lineStride n))) ||
  (named [K.lineStride, K.outHeight, K.slotSize] &&
    !decide (c.nv (K.slotSize n) % 4096 = 0 ∧ 64 + c.nv (K.lineStride n) * oh ≤ c.nv (K.slotSize n)))

/-- Stream objects (R330, R339). -/
def Chip.streamAbort? (c : Chip) (key : Nat) (v : Int) : Option Abort :=
  let c' := c.assume key v
  (List.range 8).findSome? (fun n => firstAbort [
    (c'.shapeBroken n key, Abort.incompatible),
    (decide (key = K.windowLow n ∨ key = K.windowHigh n ∨ key = K.windowMode n) && decide (c'.val (K.windowMode n) = 0) &&
      decide (c'.val (K.windowHigh n) ≤ c'.val (K.windowLow n)), Abort.incompatible)])

/-- Fusion channels (R318, R323) and the coefficient set of a running thermal core (R310). -/
def Chip.fusionAbort? (c : Chip) (key : Nat) (v : Int) : Option Abort :=
  let c' := c.assume key v
  (List.range 2).findSome? (fun i => firstAbort [
    (decide (key = K.fuseThermal i) && (List.range 8).any (fun n => decide (c.get (K.streamState n) ≠ 0 ∧ c.nv (K.streamSource n) = 16 + i)),
      Abort.localControl),
    (decide (key = K.fuseThermal i ∧ 4 ≤ v) && !c.thermalNow v.toNat, Abort.incompatible),
    (decide (key = K.fuseLow i ∨ key = K.fuseHigh i) && decide (c'.val (K.fuseHigh i) ≤ c'.val (K.fuseLow i)), Abort.incompatible),
    (decide (key = K.fuseShowLow i ∨ key = K.fuseShowHigh i) && decide (c'.val (K.fuseShowHigh i) < c'.val (K.fuseShowLow i)), Abort.incompatible),
    (decide (key = K.srcCoefSet (4 + i)) && decide (c.get (K.srcState i) ≠ 0) && !c.residentSrc v.toNat i,
      Abort.incompatible)])

/-- An enabled ROI outside the geometry of its source (R352). -/
def Chip.roiAbort? (c : Chip) (key : Nat) (v : Int) : Option Abort :=
  let i := (key - K.roiEnable 0) / 256
  if K.roiEnable 0 ≤ key ∧ i < 96 ∧ 1 ≤ key % 256 ∧ key % 256 ≤ 5 then
    let c' := c.assume key v
    let g := c.sizeNow (i / 16)
    if c'.val (K.roiEnable i) = 1 ∧
      !(decide (c'.nv (K.roiX i) + c'.nv (K.roiWidth i) ≤ g.1) && decide (c'.nv (K.roiY i) + c'.nv (K.roiHeight i) ≤ g.2)) then
      some Abort.incompatible
    else none
  else none

/-- The transmit or receive PDO that a mapping entry belongs to, as its COB-ID. -/
def cobOfMap (key : Nat) : Option Nat :=
  let idx := key / 256
  if 0x1600 ≤ idx ∧ idx < 0x1602 then some (K.rpdoCobId (idx - 0x1600))
  else if 0x1A00 ≤ idx ∧ idx < 0x1A04 then some (K.tpdoCobId (idx - 0x1A00))
  else none

/-- Whether a mapping entry names an object that a PDO of its direction may carry, with its width (R380). -/
def mappable (receive : Bool) (e : Nat) : Bool :=
  match rowAt? (entryKey e) with
  | none => !receive && decide (e % 256 = 8) && (countAt? (entryKey e)).isSome
  | some r =>
    let text := decide (entryKey e = K.deviceName ∨ entryKey e = K.hwVersion ∨ entryKey e = K.swVersion)
    let width := if r.chk = .bool then 8 else r.width
    decide (r.acc ≠ .domain) && !text && decide (e % 256 = width) &&
    (if receive then decide (r.acc = .rw ∨ r.acc = .wo) else decide (r.acc = .ro ∨ r.acc = .rw))

/-- Entries of receive PDO n in force (R380). -/
def Chip.rpdoEntries (c : Chip) (n : Nat) : List Nat :=
  ((tab 16 (fun j => c.nat (if n = 0 then K.rpdoMap1 j else K.rpdoMap2 j))).takeWhile (· ≠ 0))

/-- Whether the mapping of a PDO can be put into use. -/
def mapOk (receive : Bool) (l : List Nat) : Bool := l.all (mappable receive) && decide (sumN (l.map (· % 256)) ≤ 512)

/-- PDO objects (R380). -/
def Chip.pdoAbort? (c : Chip) (key : Nat) (v : Int) : Option Abort :=
  match cobOfMap key with
  | some cob => if c.nat cob < 0x80000000 then some Abort.deviceState else none
  | none =>
    let clears := decide (0x80000000 ≤ c.get key ∧ v < 0x80000000)
    match copyOf K.tpdoCobId 4 key, copyOf K.rpdoCobId 2 key with
    | some n, _ => if clears && !mapOk false (c.tpdoEntries n) then some Abort.incompatible else none
    | none, some n => if clears && !mapOk true (c.rpdoEntries n) then some Abort.incompatible else none
    | none, none => none

/-- Whether an object is part of a channel's descriptor (R416 to R420). -/
def dmaDescriptorKey (key : Nat) : Bool :=
  let idx := key / 256
  let sub := key % 256
  decide (idx % 4 = 0) || (decide (idx % 4 = 1) && decide ((2 ≤ sub ∧ sub ≤ 4) ∨ sub = 0x0B ∨ sub = 0x0C))

/-- DMA channels (R423, R427) and the statistics copies they carry (R424). -/
def Chip.dmaAbort? (c : Chip) (key : Nat) (v : Int) : Option Abort :=
  match dmaChannelOf key with
  | some ch => firstAbort [
      (dmaDescriptorKey key && c.dmaHeld ch, Abort.localControl),
      (decide (key = K.dmaSecure ch ∧ v = 1) && (c.dmaCopies ch || decide (1 ≤ c.get (K.dmaState ch) ∧ c.get (K.dmaState ch) ≤ 3)),
        Abort.localControl)]
  | none => (List.range 6).findSome? (fun s =>
      let loads := fun (ch : Nat) => c.dmaLoads ch
      firstAbort [
        (decide (key = K.statHostBase s ∧ v ≠ 0) && loads (c.nat (K.statDmaChannel s)), Abort.localControl),
        (decide (key = K.statDmaChannel s) && decide (c.get (K.statHostBase s) ≠ 0) && loads v.toNat, Abort.localControl),
        (decide (key = K.statDmaChannel s) && c.on (K.dmaSecure v.toNat), Abort.incompatible)])

/-- Every other conflict: thermal levels, refresh bounds, the owner of a set, a member's time scale, words of a full mailbox, actuators. -/
def Chip.otherAbort? (c : Chip) (key : Nat) (v : Int) : Option Abort :=
  let c' := c.assume key v
  firstAbort [
    (decide (key = K.thermalShutdown ∨ key = K.thrL4Exit) && !c'.levelsOk, Abort.incompatible),
    (isCopy K.thrEnter 4 key && !c'.levelsOk, Abort.incompatible),
    (isCopy K.dramRefreshBound 3 key &&
      !decide (c'.get (K.dramRefreshBound 0) < c'.get (K.dramRefreshBound 1) ∧ c'.get (K.dramRefreshBound 1) < c'.get (K.dramRefreshBound 2)),
      Abort.incompatible),
    ((List.range 32).any (fun s => decide (key = K.setOwner s) && !(c.setUsers s).isEmpty), Abort.localControl),
    (decide (key = K.psirelTimescale) && decide (c.psiRole = 2), Abort.incompatible),
    (match h2dWordOf key with | some ch => c.h2dFull ch | none => false, Abort.localControl)]

/-- Why a value that passes every rule of its own object is refused all the same. -/
def Chip.conflict? (c : Chip) (key : Nat) (v : Int) : Option Abort :=
  let p := key / 65536
  if p = 0x37 then c.actWriteAbort? key v
  else if p < 0x20 then c.pdoAbort? key v
  else if p = 0x24 ∨ p = 0x2C ∧ 0x2C4000 ≤ key ∨ p = 0x34 then c.headAbort? key v
  else if p = 0x31 ∨ p = 0x3D then c.fusionAbort? key v
  else if p = 0x40 then c.streamAbort? key v
  else if p = 0x44 then (match c.roiAbort? key v with | some a => some a | none => c.dmaAbort? key v)
  else if p = 0x51 then c.dmaAbort? key v
  else c.otherAbort? key v

end Sys2Proof.Machine
end

