-- ==== Sys2Proof/Machine/Access.lean ====
section
/-! DEFINITION. Accesses to the dictionary (R67 to R94): reads and writes of a slot, of halves of a slot and of DOMAIN images, on behalf of
any master. -/

namespace Sys2Proof.Machine

/-! ### Objects whose writes are commands -/

/-- The part after an operation that may be refused, and the refusal. -/
def Chip.taking (c : Chip) (r : Except Abort Chip) : Chip × Option Abort :=
  match r with
  | .ok c' => (c', none)
  | .error a => (c, some a)

/-- A command that takes the value 1 only. -/
def onlyOne (v : Nat) (op : Chip → Except Abort Chip) (c : Chip) : Chip × Option Abort :=
  c.taking (guardNot (decide (v ≠ 1)) Abort.invalid (op c))

/-- A command with the values 1 and 2. -/
def oneOrTwo (v : Nat) (one two : Chip → Except Abort Chip) (c : Chip) : Chip × Option Abort :=
  c.taking (if v = 1 then one c else if v = 2 then two c else .error Abort.invalid)

/-- An object whose write is an operation: the keys of its copies, and the operation of each. -/
structure CommandRow where
  key : Nat → Nat
  copies : Nat
  op : Nat → Chip → Chip × Option Abort

/-- The command objects of the front die's own units, for a value written by a master. -/
def frontCommands (m : Master) (v : Nat) (x : Int) : List CommandRow := [
  ⟨fun g => K.storeAll + g, 4, fun g c => c.taking (storeOp g v c)⟩,
  ⟨K.restore, 4, fun g c => c.taking (restoreOp g v c)⟩,
  ⟨fun _ => K.modeRequest, 1, fun _ c => c.taking (modeRequest v c)⟩,
  ⟨fun _ => K.chipReset, 1, fun _ c => c.taking (chipResetWrite v c)⟩,
  ⟨fun _ => K.regionReset, 1, fun _ c => c.taking (Sys2Proof.Machine.regionReset v c)⟩,
  ⟨fun _ => K.stageHold, 1, fun _ c => c.taking (Sys2Proof.Machine.stageHold v c)⟩,
  ⟨K.lock, 32, fun n c => c.taking (lockWrite m n v c)⟩,
  ⟨fun _ => K.lockForce, 1, fun _ c => c.taking (Sys2Proof.Machine.lockForce m v c)⟩,
  ⟨K.errqAck, 5, fun r c => c.taking (Sys2Proof.Machine.errqAck r v c)⟩,
  ⟨K.runRequest, 4, fun h c => if v = 1 then headRunRequest h c else (headStopRequest h c, none)⟩,
  ⟨K.cfgRequest, 4, fun h c => c.taking (Sys2Proof.Machine.cfgRequest h v c)⟩,
  ⟨fun _ => K.hkUrgentRequest, 1, fun _ c => c.taking (urgentRequest v c)⟩,
  ⟨fun _ => K.calCommand, 1, fun _ => onlyOne v (fun c => .ok c.calTrigger)⟩,
  ⟨fun _ => K.calRevert, 1, fun _ c => c.taking (Sys2Proof.Machine.calRevert v c)⟩,
  ⟨K.solsticeCommand, 4, fun h => oneOrTwo v (Sys2Proof.Machine.solsticeCommand h) (solsticeWithdraw h)⟩,
  ⟨fun _ => K.onionLoad, 1, fun _ c => c.taking (Sys2Proof.Machine.onionLoad v c)⟩,
  ⟨fun _ => K.onionEvict, 1, fun _ c => c.taking (Sys2Proof.Machine.onionEvict v c)⟩,
  ⟨fun _ => K.onionRevert, 1, fun _ c => c.taking (Sys2Proof.Machine.onionRevert v c)⟩,
  ⟨fun _ => K.onionSave, 1, fun _ c => c.taking (Sys2Proof.Machine.onionSave v c)⟩,
  ⟨K.bankRun, 2, fun b c => c.taking (if v = 1 then bankRunStart b c else bankStop b c)⟩,
  ⟨K.shutterCommand, 2, fun b c => c.taking (if v = 1 ∨ v = 2 then Sys2Proof.Machine.shutterCommand b v c else .error Abort.invalid)⟩,
  ⟨K.bankFaultClear, 2, fun b => onlyOne v (Sys2Proof.Machine.bankFaultClear b)⟩,
  ⟨K.chCommand, 4, fun ch => oneOrTwo v (chEnergise ch) (chRelease ch)⟩,
  ⟨fun _ => K.spRole, 1, fun _ c => c.taking (Sys2Proof.Machine.spRole v c)⟩,
  ⟨fun _ => K.spmErase, 1, fun _ c => c.taking (Sys2Proof.Machine.spmErase v c)⟩,
  ⟨fun _ => K.spmFlush, 1, fun _ => onlyOne v Sys2Proof.Machine.spmFlush⟩,
  ⟨fun _ => K.spmCopyStart, 1, fun _ => onlyOne v Sys2Proof.Machine.spmCopyStart⟩,
  ⟨fun _ => K.canTrigger, 1, fun _ c => c.taking (Sys2Proof.Machine.canTrigger v c)⟩,
  ⟨fun _ => K.psirelTimeSet, 1, fun _ c => c.taking (Sys2Proof.Machine.psirelTimeSet v c)⟩,
  ⟨fun _ => K.psirelTimeAdjust, 1, fun _ c => c.taking (Sys2Proof.Machine.psirelTimeAdjust x c)⟩,
  ⟨fun _ => K.psirelTrigger, 1, fun _ c => c.taking (Sys2Proof.Machine.psirelTrigger v c)⟩,
  ⟨fun _ => K.psirelWake, 1, fun _ c => c.taking (Sys2Proof.Machine.psirelWake v c)⟩]

/-- The command objects of pixel-die blocks. -/
def pixelCommands (m : Master) (v : Nat) : List CommandRow := [
  ⟨K.tnrReseed, 6, fun s => onlyOne v (Sys2Proof.Machine.tnrReseed s)⟩,
  ⟨K.rxRun, 2, fun k c => if v = 1 then (rxRunStart k c, none) else c.taking (rxStop k c)⟩,
  ⟨K.srcRun, 2, fun i c => if v = 1 then srcRunOne i c else (srcStop i c, none)⟩,
  ⟨K.streamRun, 8, fun n c => if v = 1 then streamRunOne n c else (streamStop n c, none)⟩,
  ⟨fun _ => K.paletteLoad, 1, fun _ c => c.taking (paletteWrite v c)⟩,
  ⟨fun _ => K.pcieEventAck, 1, fun _ c => (Sys2Proof.Machine.pcieEventAck v c, none)⟩,
  ⟨K.mbxH2dCommand, 8, fun ch => oneOrTwo v (mbxSend ch m) (mbxRecall ch m)⟩,
  ⟨K.mbxD2hRelease, 8, fun ch => onlyOne v (Sys2Proof.Machine.mbxD2hRelease ch m)⟩,
  ⟨K.mbxIrqAck, 8, fun ch c => c.taking (Sys2Proof.Machine.mbxIrqAck ch m v c)⟩,
  ⟨K.dmaStart, 16, fun ch => onlyOne v (Sys2Proof.Machine.dmaStart ch m)⟩,
  ⟨K.dmaAbort, 16, fun ch => onlyOne v (Sys2Proof.Machine.dmaAbort ch m)⟩]

/-- The operation of a write to a command object. -/
def commandOf (m : Master) (key : Nat) (x : Int) : Option (Chip → Chip × Option Abort) :=
  let v := x.toNat
  ((if onPixelDie key then pixelCommands m v else frontCommands m v x).findSome? (fun (r : CommandRow) =>
    (copyOf r.key r.copies key).map r.op))

/-! ### Values -/

/-- What a value in force asks for beside itself: the state of the return measurement (R393), the state of sets (R232), the lines a
CSI-2 FIFO holds (R311). -/
def Chip.onWritten (c : Chip) (key : Nat) : Chip :=
  if key = K.psirelRetEnable then
    c.set K.psirelRetState (if c.on K.psirelRetEnable then (c.psi.lastRet : Int) else 3)
  else if isCopy K.setOwner 32 key then c.refreshSets
  else if key = K.thermalShutdown then c.setTrips
  else if key = K.bankMode 0 then c.bankModeSet 0
  else if key = K.bankMode 1 then c.bankModeSet 1
  else c

/-- What goes before a value changes: the slots of the housekeeping round that have come are judged by the old one (R163). -/
def Chip.onWrite (c : Chip) (key : Nat) : Chip := if key = K.ntcEnable ∨ isCopy K.tfpaSource 4 key then c.hkJudge else c

/-- An accepted value takes effect by its update class (Table 3.3, R77, R78, R80). -/
def Chip.takeValue (c : Chip) (key : Nat) (r : Row) (v : Int) : Chip :=
  match r.upd with
  | .p => { c with pendingP := c.pendingP.filter (fun (e : Nat × Int) => e.1 ≠ key) ++ [(key, v)] }
  | .f =>
    match ownerOf key with
    | none => c.applyF key v
    | some o =>
      if c.ownerStopped o && !c.ownerHeld o then c.applyF key v
      else { c with staged := c.staged ++ [{ owner := o, key := key, val := v, at' := c.mono }] }
  | _ => ((c.onWrite key).set key v).onWritten key

/-- Whether a write may raise demand while its head or stream runs (R315, R331). -/
def Chip.raisesDemand (c : Chip) (key : Nat) : Bool :=
  (List.range 4).any (fun h => decide (key = K.frameLength h ∧ c.get (K.runState h) ≠ 0)) ||
  (List.range 8).any (fun n => decide (c.get (K.streamState n) ≠ 0) &&
    decide (key = K.cropWidth n ∨ key = K.cropHeight n ∨ key = K.outWidth n ∨ key = K.outHeight n ∨ key = K.streamDecimate n))

/-- A value that its own object accepts: a counter takes 0, the only one it does (R73); another value is refused where it conflicts with others
or admission refuses it, else taken. -/
def Chip.storeValue (c : Chip) (key : Nat) (r : Row) (v : Int) : Chip × Option Abort :=
  if r.chk = .counter then (c.clearCount key, none)
  else match c.conflict? key v with
    | some a => (c, some a)
    | none =>
      if c.raisesDemand key then
        let (c, refused) := c.admitted key v
        if refused then (c, some Abort.incompatible) else (c.takeValue key r v, none)
      else (c.takeValue key r v, none)

/-- Whether a write meets an actuator object, other than a counter, of a part whose driver is not fitted (R262). -/
def Chip.unfitted (c : Chip) (key : Nat) (r : Row) : Bool := decide (key / 65536 = 0x37 ∧ r.chk ≠ .counter) && !c.on K.actuatorFitted

/-- A write of a value to an implemented sub-index: `v` is the value the written bits hold, none where they hold none (R71). Access class
and master come first, then R71, R72 and R73, then the block's state (R79). -/
def Chip.writeValue (c : Chip) (m : Master) (key : Nat) (r : Row) (v : Option Int) : Chip × Option Abort :=
  match c.masterAbort? m key r, v with
  | some a, _ => (c, some a)
  | none, v => if c.unfitted key r then (c, some Abort.incompatible) else match v with
  | none => (c, some Abort.invalid)
  | some x =>
    match c.valueAbort? key r x with
    | some a => (c, some a)
    | none =>
      if r.upd = .s && !c.blockStopped key then (c, some Abort.deviceState)
      else match commandOf m key x with
        | some op => op c
        | none => c.storeValue key r x

/-- The refusal of a write to a slot without a row: a count is read-only, as hardware lets it be reached (R68, R83). -/
def Chip.absentWrite (c : Chip) (m : Master) (key : Nat) : Abort :=
  if (countAt? key).isNone then absence key else if c.accessFails m key then Abort.hardware else Abort.readOnly

/-- A write of a slot as a request over CAN FD, the serial port or a mailbox: absent slots and descriptors refuse it (R83, R414). -/
def Chip.slotWrite (c : Chip) (m : Master) (key : Nat) (v : Slot) : Chip × Option Abort :=
  match rowAt? key with
  | none => (c, some (c.absentWrite m key))
  | some r => if c.accessFails m key then (c, some Abort.hardware) else c.writeValue m key r (r.valueOf? v)

/-! ### Reads -/

/-- Whether RO objects of a block find no data: it is on a powered-down pixel die, and the read comes over CAN FD, the serial port or
Function 1 (R93). -/
def Chip.noPixelData (c : Chip) (m : Master) (key : Nat) : Bool :=
  onPixelDie key && !c.pixelRuns && decide (m = .can ∨ m = .sp ∨ m = .f1)

/-- Whether a read finds no data (R93). -/
def Chip.noDataFor (c : Chip) (m : Master) (key : Nat) (r : Row) : Bool :=
  let ro := decide (r.acc = .ro) || (decide (r.acc = .domain) && decide (key ∉ tableKeys))
  ro && c.noPixelData m key

/-- A read of a slot: its 64 bits, and the part after it, since a read acquires a free lock (R70, R74, R93 to R95). -/
def Chip.slotRead (c : Chip) (m : Master) (key : Nat) : Except Abort (Nat × Chip) :=
  match rowAt? key with
  | none =>
    match countAt? key with
    | some n => if c.accessFails m key then .error Abort.hardware else if c.noPixelData m key then .error Abort.noData else .ok (n, c)
    | none => .error (absence key)
  | some r =>
    if c.accessFails m key then .error Abort.hardware
    else if c.noDataFor m key r then .error Abort.noData
    else if r.acc = .domain then .ok (c.descriptor key, c)
    else if r.acc = .wo ∨ key = K.lockForce then .ok (0, c)
    else match copyOf K.lock 32 key with
      | some n => let (c, v) := c.lockRead m n; .ok (v, c)
      | none => .ok ((slotOf (c.val key)).toNat, c)

/-! ### DOMAIN images (R94) -/

/-- The image of a DOMAIN object for a transport's segmented transfer. -/
def Chip.domainRead (c : Chip) (m : Master) (key : Nat) : Except Abort (List Byte) :=
  match rowAt? key with
  | none => .error (absence key)
  | some r =>
    if c.accessFails m key then .error Abort.hardware
    else if r.acc ≠ .domain then .error Abort.length
    else if c.noDataFor m key r then .error Abort.noData
    else .ok (c.domainBytes key)

/-- Whether a DOMAIN can be written: the checks that precede a transfer. -/
def Chip.domainAbort? (c : Chip) (m : Master) (key : Nat) : Option Abort :=
  match rowAt? key with
  | none => some (absence key)
  | some r =>
    if c.accessFails m key then some Abort.hardware
    else if r.acc ≠ .domain then some Abort.length
    else if key ∈ storedDomains ∨ key ∈ tableKeys then none
    else some Abort.readOnly

/-- One DOMAIN write: tables and palettes keep their length (R228, R299, R360), CFG_INIT is a script of whole entries, at most 512 bytes,
for a stopped head (R128); the other images are RO. -/
def Chip.domainWrite (c : Chip) (m : Master) (key : Nat) (l : List Byte) : Chip × Option Abort :=
  match rowAt? key with
  | none => (c, some (absence key))
  | some r =>
    if c.accessFails m key then (c, some Abort.hardware)
    else if r.acc ≠ .domain then (c, some Abort.length)
    else if key ∈ storedDomains then
      if l.length % 8 ≠ 0 ∨ 512 < l.length then (c, some Abort.invalid)
      else if !c.blockStopped key then (c, some Abort.deviceState)
      else (c.putDomain key l, none)
    else if key ∈ tableKeys then
      if l.length ≠ (defaultImage key).length then (c, some Abort.length) else (c.putDomain key l, none)
    else (c, some Abort.readOnly)

/-! ### Halves (R89, R92) -/

/-- Hold a low half for a master; one held for the same object gives way. -/
def Chip.holdHalf (c : Chip) (m : Master) (key w : Nat) : Chip :=
  { c with halves := c.halves.filter (fun (h : Half) => decide (¬(h.m = m ∧ h.key = key))) ++ [{ m := m, key := key, word := w, at' := c.mono }] }

/-- The 64-bit value that a write to a high half completes: with the low half held for the master, or with the low half that a read
returns, which is 0 for a write-only object (R89, assumption 106); nothing is held afterwards. -/
def Chip.joinHalf (c : Chip) (m : Master) (key : Nat) (r : Row) (high : Nat) : Slot × Chip :=
  let mine := fun (h : Half) => decide (h.m = m ∧ h.key = key)
  let low := match c.halves.find? mine with
    | some h => h.word
    | none => if r.acc = .wo then 0 else (slotOf (c.val key)).toNat % 2 ^ 32
  (BitVec.ofNat 64 (high % 2 ^ 32 * 2 ^ 32 + low), { c with halves := c.halves.filter (fun (h : Half) => !mine h) })

/-- Expiry of a low half: the one held longest for the master. -/
def halfWriteExpiry (m : Master) (c : Chip) : Chip :=
  match c.halves.find? (fun (h : Half) => decide (h.m = m)) with
  | none => c
  | some h => { c with halves := c.halves.erase h }

/-- A read of the low half of a 64-bit object latches its high half for the master (R92). -/
def Chip.latchHalf (c : Chip) (m : Master) (key v : Nat) : Chip :=
  { c with latches := c.latches.filter (fun (h : Half) => decide (h.m ≠ m)) ++ [{ m := m, key := key, word := v / 2 ^ 32, at' := c.mono }] }

/-- The latch of a master is released. -/
def halfReadLatchExpiry (m : Master) (c : Chip) : Chip := { c with latches := c.latches.filter (fun (h : Half) => decide (h.m ≠ m)) }

/-- A read that the dictionary refuses: over BAR0 it returns 0, and an absent slot reads 0 without a record (R84, R87); the other
transports return the refusal. -/
def Chip.readRefused (c : Chip) (m : Master) (key : Nat) (a : Abort) (zero : OutMsg) : Chip :=
  if m = .f0 then (if (rowAt? key).isNone ∧ a ≠ Abort.unsupported then c else c.refuse m key a).emit zero else c.refuse m key a

/-- A 32-bit read of a low half; that of a 64-bit object latches its high half (R92). -/
def Chip.readLow (c : Chip) (m : Master) (key : Nat) : Chip :=
  match c.slotRead m key with
  | .ok (v, c) =>
    let c := c.emit (.half m key (v % 2 ^ 32))
    match rowAt? key with
    | some r => if 32 < r.width then c.latchHalf m key v else c
    | none => c
  | .error a => c.readRefused m key a (.half m key 0)

/-- A 32-bit read of a high half: the one latched for the master, whose latch it releases, or the current one (R92). It acquires no
lock: the value of a lock lies in its low half. -/
def Chip.readHigh (c : Chip) (m : Master) (key : Nat) : Chip :=
  match c.latches.find? (fun (h : Half) => decide (h.m = m ∧ h.key = key)) with
  | some h => (halfReadLatchExpiry m c).emit (.half m key h.word)
  | none =>
    match c.slotRead m key with
    | .ok (v, _) => c.emit (.half m key (v / 2 ^ 32))
    | .error a => c.readRefused m key a (.half m key 0)

/-- A read of one whole slot. -/
def Chip.readSlot (c : Chip) (m : Master) (key : Nat) : Chip :=
  match c.slotRead m key with
  | .ok (v, c) => c.emit (.slot m key v)
  | .error a => c.readRefused m key a (.slot m key 0)

/-- What a readable register of a channel in the page of Function 1 holds (Table 14.4): words, the status of H2D with its flags, the
status of D2H, the interrupt status, and the time-out in µs. -/
def Chip.pageWord? (c : Chip) (key : Nat) : Option Nat :=
  let sub := key % 256
  [6, 7].findSome? (fun ch =>
    if (1 ≤ sub ∧ sub ≤ 8) ∧ (key / 256 = 0x5000 + 8 * ch ∨ key / 256 = 0x5002 + 8 * ch) then some (c.nat key)
    else if key = K.mbxH2dState ch then some (c.nat key + 2 * c.nat (K.mbxH2dFlags ch))
    else if key = K.mbxD2hState ch ∨ key = K.mbxIrqStatus ch then some (c.nat key)
    else if key = K.mbxTimeout ch then some (c.nat key / 1000)
    else none)

/-- A read of Function 1 in its page: a register of Table 14.4, or a lock through its mirror (R95, R411); any other is refused. -/
def Chip.readPage (c : Chip) (key : Nat) : Chip :=
  match copyOf K.lock 32 key with
  | some n => let (c, v) := c.lockRead .f1 n; c.emit (.half .f1 key v)
  | none => match c.pageWord? key with
    | some v => c.emit (.half .f1 key v)
    | none => (c.refuse .f1 key Abort.unsupported).emit (.half .f1 key 0)

/-- HALF_READ_LOW: a read of a half, of consecutive slots of one access, each checked on its own and all at one instant (R86, R91), or of
a width or alignment that is refused. Function 1 reads its page as aligned 32-bit words only (R411). -/
def halfReadLow (m : Master) (key : Nat) (part : ReadPart) (c : Chip) : Chip :=
  if m = .f1 then
    if !c.reaches m ∨ !(f1Page key || decide (key = K.mbxTimeout 6 ∨ key = K.mbxTimeout 7)) then c
    else if part = .low then c.readPage key
    else (c.refuse m key Abort.unsupported).emit (.slot m key 0)
  else if !c.reaches m then c
  else match part with
    | .low => c.readLow m key
    | .high => c.readHigh m key
    | .slots n => (List.range n.toNat).foldl (fun (c : Chip) (i : Nat) => c.readSlot m (key + i)) c
    | .mismatch => c.readRefused m key (if m = .f0 then Abort.unsupported else Abort.length) (.slot m key 0)

/-! ### Writes as they reach the dictionary -/

/-- What a part of a slot written to an implemented sub-index does. -/
def Chip.writePart (c : Chip) (m : Master) (key : Nat) (r : Row) (part : Part) (v : Slot) : Chip :=
  match part with
  | .mismatch => c.refuse m key (if m = .f0 ∨ m = .f1 then Abort.unsupported else Abort.length)
  | .full => c.attempt2 m key (c.writeValue m key r (r.valueOf? v))
  | .low =>
    if r.width ≤ 32 then c.attempt2 m key (c.writeValue m key r (r.lowValueOf? (v.truncate 32)))
    else c.holdHalf m key (v.toNat % 2 ^ 32)
  | .high =>
    if r.width ≤ 32 then c
    else
      let (w, c) := c.joinHalf m key r v.toNat
      c.attempt2 m key (c.writeValue m key r (r.valueOf? w))

/-- The row that a write of a master reaches: Function 1 has the words and commands of channels 6 and 7 in its page (Table 14.4), and
the locks. -/
def rowFor? (m : Master) (key : Nat) : Option Row :=
  if m = .f1 then (if f1Page key && (!mbxHidden key || (hostKeyOf key).isSome) then rowOf? key else none) else rowAt? key

/-- OBJECT_WRITE: over BAR0 an absent slot and the descriptor of a DOMAIN ignore it (R85, R87, R94), and so does the high half of a
count, a value of 8 bits; Function 1 writes its page as aligned 32-bit words only (R411). -/
def objectWrite (m : Master) (key : Nat) (part : Part) (v : Slot) (c : Chip) : Chip :=
  if !c.reachesKey m key then c
  else if m = .f1 ∧ part ≠ .low then c.refuse m key Abort.unsupported
  else match rowFor? m key with
    | none =>
      if part = .mismatch ∧ m = .f0 then c.refuse m key Abort.unsupported
      else if m = .f1 then c.refuse m key Abort.unsupported
      else if (countAt? key).isSome then (if part = .high then c else c.refuse m key (c.absentWrite m key))
      else if m = .f0 then c
      else c.refuse m key (absence key)
    | some r =>
      if c.accessFails m key then c.refuse m key Abort.hardware
      else if r.acc = .domain ∧ part ≠ .mismatch then (if m = .f0 then c else c.refuse m key Abort.readOnly)
      else c.writePart m key r part v

/-- Writes of several masters to one object in one cycle: one after the other in the fixed order, each as if alone (R81). -/
def objectWrites (key : Nat) (l : List MasterWrite) (c : Chip) : Chip :=
  (inRank MasterWrite.m l).foldl (fun (c : Chip) (w : MasterWrite) => objectWrite w.m key w.part w.v c) c

/-! ### Meanings -/

/-- OBJECT_WRITE -/
def execObjectWrite (m : Master) (idx : BitVec 16) (sub : BitVec 8) (part : Part) (v : Slot) (s : State)
    (also : List MasterWrite := []) : Res :=
  run s (objectWrites (keyOf idx sub) (⟨m, part, v⟩ :: also))

/-- HALF_WRITE_LOW -/
def execHalfWriteLow (m : Master) (idx : BitVec 16) (sub : BitVec 8) (v : BitVec 32) (s : State) : Res :=
  run s (objectWrite m (keyOf idx sub) .low (v.zeroExtend 64))

/-- HALF_WRITE_EXPIRY -/
def execHalfWriteExpiry (m : Master) (s : State) : Res := run s (Sys2Proof.Machine.halfWriteExpiry m)

/-- HALF_READ_LOW -/
def execHalfReadLow (m : Master) (idx : BitVec 16) (sub : BitVec 8) (s : State) (part : ReadPart := .low) : Res :=
  run s (Sys2Proof.Machine.halfReadLow m (keyOf idx sub) part)

/-- HALF_READ_LATCH_EXPIRY -/
def execHalfReadLatchExpiry (m : Master) (s : State) : Res := run s (Sys2Proof.Machine.halfReadLatchExpiry m)

end Sys2Proof.Machine
end

