-- ==== Sys2Proof/Machine/Canopen.lean ====
section
/-! DEFINITION. What CANopen brings to the dictionary (R374, R377, R378, R383): USDO transfers, receive PDOs, and the frames that carry them
and the NMT commands. -/

namespace Sys2Proof.Machine

/-! ### USDO (R378) -/

/-- COB-ID of the server's answers: 0x580 and the node number (R378). -/
def Chip.usdoAnswerId (c : Chip) : Nat := 0x580 + c.nat K.canNodeId

/-- Whether a request comes on the server's COB-ID: 0x600 and the node number (R378). -/
def Chip.usdoFor (c : Chip) (ident : BitVec 11) : Bool := decide (ident.toNat = 0x600 + c.nat K.canNodeId)

/-- Answer bytes of a USDO transfer, with whether they are the last. -/
def Chip.usdoAnswer (c : Chip) (bytes : List Byte) (last : Bool) : Chip := c.canTransmit (.usdo c.usdoAnswerId bytes last)

/-- Abort a USDO transfer (R84, R378): the refusal is recorded, and its message sent while the controller may transmit. -/
def Chip.usdoRefuse (c : Chip) (key : Nat) (code : Abort) : Chip := (c.noteAbort .can key code).canTransmit (.usdoAbort c.usdoAnswerId key code)

/-- The value that the bytes of a download hold, as a slot. -/
def Row.slotOfBytes (r : Row) (l : List Byte) : Slot :=
  let n := fieldAt l 0 l.length
  if r.signed then slotOf (sx n (8 * l.length)) else BitVec.ofNat 64 n

/-- Bytes of an object's value: its container of 8, 16, 32 or 64 bits (R69). -/
def Row.bytes (r : Row) : Nat := if r.width ≤ 8 then 1 else if r.width ≤ 16 then 2 else if r.width ≤ 32 then 4 else 8

/-- Why a download cannot begin: a value's length matches its width, a DOMAIN can be written. -/
def Chip.downloadAbort? (c : Chip) (key len : Nat) : Option Abort :=
  match rowAt? key with
  | none => some (c.absentWrite .can key)
  | some r =>
    if r.acc = .domain then c.domainAbort? .can key
    else if c.accessFails .can key then some Abort.hardware
    else if len ≠ r.bytes then some Abort.length
    else none

/-- A download whose bytes have all come. -/
def Chip.download (c : Chip) (key : Nat) (l : List Byte) : Chip × Option Abort :=
  match rowAt? key with
  | none => (c, some (absence key))
  | some r => if r.acc = .domain then c.domainWrite .can key l else c.writeValue .can key r (r.valueOf? (r.slotOfBytes l))

/-- Carry out a download and answer it. -/
def Chip.downloadNow (c : Chip) (key : Nat) (l : List Byte) : Chip :=
  let r := c.download key l
  match r.2 with
  | none => r.1.usdoAnswer [] true
  | some code => r.1.usdoRefuse key code

/-- The bytes of an upload, and the part after it. -/
def Chip.upload (c : Chip) (key : Nat) : Except Abort (List Byte × Chip) :=
  match rowAt? key with
  | some r =>
    if r.acc = .domain then (c.domainRead .can key).map (fun (l : List Byte) => (l, c))
    else (c.slotRead .can key).map (fun (x : Nat × Chip) => (leBytes r.bytes x.1, x.2))
  | none => (c.slotRead .can key).map (fun (x : Nat × Chip) => (leBytes 1 x.1, x.2))

/-- The bytes of an upload of a whole object: every implemented sub-index in ascending order, all at one instant (R91, assumption 22). -/
def Chip.uploadSubs (c : Chip) : List Nat → Except Abort (List Byte × Chip)
  | [] => .ok ([], c)
  | key :: l =>
    match c.upload key with
    | .error a => .error a
    | .ok (b, c) => (c.uploadSubs l).map (fun (x : List Byte × Chip) => (b ++ x.1, x.2))

/-- The bytes of an upload: of one sub-index, or of the whole object. -/
def Chip.uploadAll (c : Chip) (whole : Bool) (key : Nat) : Except Abort (List Byte × Chip) :=
  if !whole then c.upload key
  else
    let base := key / 256 * 256
    let l := ((List.range 256).map (fun s => base + s)).filter (fun k => (rowAt? k).isSome || (countAt? k).isSome)
    if l.isEmpty then .error (absence key) else c.uploadSubs l

/-- Open a session, or end it. -/
def Chip.usdoSession (c : Chip) (u : Option Usdo) : Chip := { c with can := { c.can with usdo := u } }

/-- Bytes that one USDO frame carries (assumption 22). -/
def usdoPayload : Nat := 60

/-- Answer the next bytes of an upload: the session ends with the last. -/
def Chip.uploadNext (c : Chip) (key : Nat) (l : List Byte) : Chip :=
  if l.length ≤ usdoPayload then (c.usdoSession none).usdoAnswer l true
  else
    (c.usdoSession (some { isWrite := false, key := key, len := l.length, data := l.drop usdoPayload })).usdoAnswer (l.take usdoPayload) false

/-- Whether the USDO server is served: its node is pre-operational or operational and its controller on the bus. -/
def Chip.usdoServes (c : Chip) : Bool := c.reaches .can && c.canOnBus

/-- USDO_INITIATE, on the server's COB-ID: a running session is ended with an abort; a download whose bytes have all come is expedited. An upload
of NVM_LOG comes with what the NVM's reads find. -/
def usdoInitiate (r : UsdoRequest) (c : Chip) (found : List NvmFind := []) : Chip :=
  let key := keyOf r.idx r.sub
  if !c.usdoServes || !c.usdoFor r.ident then c
  else
    let c := match c.can.usdo with
      | some u => (c.usdoSession none).usdoRefuse u.key Abort.localControl
      | none => c
    if c.boot.hkpRestart then c.usdoRefuse key Abort.hardware
    else if r.isWrite ∧ r.whole then c.usdoRefuse key Abort.unsupported
    else if r.isWrite then
      match c.downloadAbort? key r.len with
      | some a => c.usdoRefuse key a
      | none =>
        if r.data.length = r.len then c.downloadNow key r.data
        else if r.len < r.data.length then c.usdoRefuse key Abort.length
        else (c.usdoSession (some { isWrite := true, key := key, len := r.len, data := r.data })).usdoAnswer [] false
    else match (if key / 256 = K.nvmLog / 256 then c.logFound found else c).uploadAll r.whole key with
      | .ok (l, c) => c.uploadNext key l
      | .error a => c.usdoRefuse key a

/-- USDO_SEGMENT: a download is carried out with its last segment, which completes the declared length; an upload answers its next
bytes. -/
def usdoSegment (r : UsdoSegment) (c : Chip) : Chip :=
  match c.can.usdo with
  | none => c
  | some u =>
    if !c.usdoServes || !c.usdoFor r.ident then c
    else if c.boot.hkpRestart then (c.usdoSession none).usdoRefuse u.key Abort.hardware
    else if !u.isWrite then c.uploadNext u.key u.data
    else
      let l := u.data ++ r.data
      if u.len < l.length ∨ r.last ∧ l.length ≠ u.len then (c.usdoSession none).usdoRefuse u.key Abort.length
      else if r.last then (c.usdoSession none).downloadNow u.key l
      else (c.usdoSession (some { u with data := l })).usdoAnswer [] false

/-- USDO_TIMEOUT: the session is dropped, without a message. -/
def usdoTimeout (c : Chip) : Chip :=
  match c.can.usdo with
  | none => c
  | some _ => (c.usdoSession none).bump K.usdoTimeouts

/-! ### Receive PDOs (R383) -/

/-- The values of a PDO in mapping order: the key of each, and its bits. -/
def pdoValues : List Nat → Nat → List (Nat × Nat × Nat)
  | [], _ => []
  | e :: l, bits => (entryKey e, e % 256, bits % 2 ^ (e % 256)) :: pdoValues l (bits / 2 ^ (e % 256))

/-- Write one value of a PDO: a 0 for a WO object is skipped, and a refusal is counted. -/
def Chip.pdoWrite (c : Chip) (key w v : Nat) : Chip :=
  match rowAt? key with
  | none => c
  | some r =>
    if r.acc = .wo ∧ v = 0 then c
    else
      match c.slotWrite .can key (if r.signed then slotOf (sx v w) else BitVec.ofNat 64 v) with
      | (c, none) => c
      | (c, some a) => (c.noteAbort .can key a).bump K.rpdoRefused

/-- Whether receive PDO n exists (bit 31 of its COB-ID is 0). -/
def Chip.rpdoValid (c : Chip) (n : Nat) : Bool := decide (c.nat (K.rpdoCobId n) < 0x80000000)

/-- RPDO_RECEIVED -/
def rpdoReceived (n : Nat) (data : List Byte) (c : Chip) : Chip :=
  if !c.canOnBus ∨ !c.rpdoValid n then c
  else if c.get K.nmtState ≠ 5 ∨ c.boot.hkpRestart then c.bump K.rpdoIgnored
  else
    let l := c.rpdoEntries n
    if 8 * data.length < sumN (l.map (· % 256)) then
      let key := (l.map entryKey).headD 0
      (c.bump K.rpdoIgnored).set (K.abortLast 3) (Abort.length * 2 ^ 32 + key * 2 ^ 8 : Nat)
    else (pdoValues l (fieldAt data 0 data.length)).foldl (fun (c : Chip) (k, w, v) => c.pdoWrite k w v) c

/-! ### Frames (R374) -/

/-- Reset node (R377). -/
def nmtResetNode (c : Chip) (found : List NvmFind := []) : Chip :=
  if c.nmtListens then
    let acts := decide (c.get K.nmtResetAction = 1)
    let c := c.resetCommunication found
    if acts then c.chipReset 4 else c
  else c

/-- An NMT command frame: a command for this node, or for every node. -/
def Chip.nmtFrame (c : Chip) (data : List Byte) : Chip :=
  let node := fieldAt data 1 1
  if data.length < 2 ∨ (node ≠ 0 ∧ node ≠ c.nat K.canNodeId) then c
  else match fieldAt data 0 1 with
    | 1 => c.nmtEnter 5
    | 2 => c.nmtEnter 4
    | 128 => c.nmtEnter 0x7F
    | 129 => nmtResetNode c
    | 130 => nmtResetCommunication c
    | _ => c

/-- CAN_FRAME_RECEIVED: a frame with an 11-bit identifier is a command of the NMT master or a receive PDO; USDO requests come as
rows of their own. -/
def canFrameReceived (f : CanFrame) (c : Chip) : Chip :=
  if !c.canOnBus then c
  else
    let c := (c.canReceivedWell).canCalibrate f.bitTime.toNat
    if f.extended then c
    else if f.ident.toNat = 0 then c.nmtFrame f.data
    else (List.range 2).foldl (fun (c : Chip) (n : Nat) =>
      if c.nat (K.rpdoCobId n) % 2048 = f.ident.toNat then rpdoReceived n f.data c else c) c

/-! ### Meanings -/

/-- CAN_FRAME_RECEIVED -/
def execCanFrameReceived (f : CanFrame) (s : State) : Res := run s (canFrameReceived f)

/-- NMT_RESET_NODE -/
def execNmtResetNode (s : State) (found : List NvmFind := []) : Res := run s (fun c => nmtResetNode c found)

/-- USDO_INITIATE -/
def execUsdoInitiate (r : UsdoRequest) (s : State) (found : List NvmFind := []) : Res := run s (fun c => usdoInitiate r c found)

/-- USDO_SEGMENT -/
def execUsdoSegment (r : UsdoSegment) (s : State) : Res := run s (usdoSegment r)

/-- USDO_TIMEOUT -/
def execUsdoTimeout (s : State) : Res := run s usdoTimeout

/-- RPDO_RECEIVED -/
def execRpdoReceived (n : Fin 2) (data : List Byte) (s : State) : Res := run s (rpdoReceived n data)

end Sys2Proof.Machine
end

