-- ==== Sys2Proof/Machine/Requests.lean ====
section
/-! DEFINITION. The requests that Gnoner carries out for the mailbox channels (R409, R414) and the update of its own slots (R461). -/

namespace Sys2Proof.Machine

/-- The master that a channel's requests act as. -/
def mbxMaster (ch : Nat) : Master := if ch < 6 then .f0 else .f1

/-- The first request of a store without a reply gets one, if it is of a type. -/
def replyOldest (type : Nat) (reply : List Nat) : List MbxRequest → List MbxRequest
  | [] => []
  | r :: l =>
    if r.reply.isSome then r :: replyOldest type reply l
    else if hdrType (r.words.headD 0) = type then { r with reply := some (mbxReply (r.words.headD 0) reply) } :: l
    else r :: l

/-- The oldest request of a channel that waits to be carried out. -/
def Chip.mbxOldest (c : Chip) (ch : Nat) : Option MbxRequest := (c.mbxOf ch).store.find? (fun (r : MbxRequest) => r.reply.isNone)

/-- Carry out the oldest waiting request of a channel, if it is of a type: `f` answers the words of the reply after its header. -/
def mbxServe (ch type : Nat) (f : List Nat → Chip → List Nat × Chip) (c : Chip) : Chip :=
  if c.boot.hkpRestart then c
  else match c.mbxOldest ch with
    | none => c
    | some r =>
      if hdrType (r.words.headD 0) = type then
        let (reply, c) := f r.words c
        c.modMbx ch (fun (x : Mbx) => { x with store := replyOldest type reply x.store })
      else c

/-- The key in a request's word 1. -/
def requestKey (w : Nat) : Nat := w / 2 ^ 8

/-- The two words of a slot value. -/
def slotWords (v : Nat) : List Nat := [v % 2 ^ 32, v / 2 ^ 32 % 2 ^ 32]

/-- Type 0x0001. -/
def mbxObjectRead (ch : Nat) (w : List Nat) (c : Chip) : List Nat × Chip :=
  let m := mbxMaster ch
  let key := requestKey (at' w 1)
  match c.slotRead m key with
  | .ok (v, c) => (0 :: slotWords v, c)
  | .error a => ([a], c.noteAbort m key a)

/-- Type 0x0002. -/
def mbxObjectWrite (ch : Nat) (w : List Nat) (c : Chip) : List Nat × Chip :=
  let m := mbxMaster ch
  let key := requestKey (at' w 1)
  match c.slotWrite m key (BitVec.ofNat 64 (at' w 2 + at' w 3 * 2 ^ 32)) with
  | (c, none) => ([0], c)
  | (c, some a) => ([a], c.noteAbort m key a)

/-- The words of consecutive sub-indices from a key. -/
def Chip.slotRun (c : Chip) (m : Master) (key : Nat) : Nat → Except Abort (List Nat × Chip)
  | 0 => .ok ([], c)
  | n + 1 =>
    match c.slotRead m key with
    | .error a => .error a
    | .ok (v, c) =>
      match c.slotRun m (key + 1) n with
      | .error a => .error a
      | .ok (l, c) => .ok (slotWords v ++ l, c)

/-- Type 0x0003: 1 to 3 sub-indices. -/
def mbxObjectReadMulti (ch : Nat) (w : List Nat) (c : Chip) : List Nat × Chip :=
  let m := mbxMaster ch
  let key := requestKey (at' w 1)
  let n := at' w 1 % 256
  let r := if n = 0 ∨ 3 < n then .error Abort.invalid
    else if 255 < key % 256 + n - 1 then .error Abort.noSub
    else c.slotRun m key n
  match r with
  | .ok (l, c) => (0 :: l, c)
  | .error a => ([a], c.noteAbort m key a)

/-- Type 0x0010: the same words. -/
def mbxEcho (w : List Nat) (c : Chip) : List Nat × Chip := ((w.take (hdrLength (w.headD 0))).drop 1, c)

/-! ### Gnoner's slots (R461) -/

/-- The slot that is not running. -/
def Chip.spareSlot (c : Chip) : Nat := 1 - c.boot.slot

/-- A byte of a range written at an offset, or what stood there. -/
def byteOver (off : Nat) (data : List Byte) (a old : Nat) : Nat :=
  if off ≤ a then ((data[a - off]?).map BitVec.toNat).getD old else old

/-- Bytes written into a slot: its magic stays cleared until a commit, and bytes 6 and 7 of its header are its release. The bytes of the
magic that are written are held for the commit, which judges them. -/
def Slot'.write (s : Slot') (off : Nat) (data : List Byte) : Slot' := {
  magic := false
  release := byteOver off data 6 (s.release % 256) + 256 * byteOver off data 7 (s.release / 256)
  bytes := s.bytes.write off data
  written := s.written ++ [(off, data.length)] }

/-- Why an image write is refused. -/
def Chip.imageAbort? (c : Chip) (off len : Nat) : Option Abort :=
  if len = 0 then some Abort.tooLow
  else if 65536 < len ∨ 0x100000 < off + len then some Abort.tooHigh
  else if c.onion.load.isSome then some Abort.localControl
  else if c.nvmHolds then some Abort.notStored
  else none

/-- Mark a slot verified or not. -/
def Chip.slotVerified (c : Chip) (s : Nat) (v : Bool) : Chip := { c with boot := { c.boot with verified := modAt c.boot.verified s (fun _ => v) } }

/-- Type 0x0100, with the bytes that the reads of host memory return. While Function 1 cannot read, nothing is written and the reply says so
(assumption 120). -/
def fwImageWrite (data : List Byte) (w : List Nat) (c : Chip) : List Nat × Chip :=
  let off := at' w 1
  let len := at' w 4
  match c.imageAbort? off len with
  | some a => ([a], c)
  | none =>
    let s := c.spareSlot
    let host := at' w 2 + at' w 3 * 2 ^ 32
    if !c.canSend1 then ([Abort.hardware], c.firmwareRead host len 5)
    else
    let c := c.firmwareRead host len 1
    let c := { c with nvm := { c.nvm with slots := modAt c.nvm.slots s (fun (x : Slot') => x.write off (padTo len data)) } }
    ([0], c.slotVerified s false)

/-- Type 0x0101: the slot is verified or not, as R455 states; the operand says whether its signature is right. -/
def fwCommit (sigOk : Bool) (_w : List Nat) (c : Chip) : List Nat × Chip :=
  let s := c.spareSlot
  let release := (at' c.nvm.slots s).release
  if sigOk ∧ (at' c.nvm.slots s).sound s then
    let c := { c with nvm := { c.nvm with slots := modAt c.nvm.slots s (fun (x : Slot') => { x with magic := true }) } }
    ([0, release], (c.slotVerified s true).logOnly 0 0xFF 0xFF 0x000D s release)
  else ([Abort.notStored, release], c.slotVerified s false)

/-- A request that writes a slot is carried out; while VANA lies below its trip it waits (R54). -/
def serveSlot (r : SlotRequest) (c : Chip) : Chip :=
  if c.vanaLow then { c with nvm := { c.nvm with gnonerWaits := c.nvm.gnonerWaits ++ [r] } }
  else match r with
    | .image ch data => mbxServe ch 0x0100 (fwImageWrite data) c
    | .commit ch sigOk => mbxServe ch 0x0101 (fwCommit sigOk) c

/-- A crossing of a rail's trip level; a return of VANA starts what waits for it (R54). -/
def railCrossing (r : Nat) (l : RailLevel) (c : Chip) : Chip :=
  let c := railTrip r l c
  if c.vanaLow then c
  else c.nvm.gnonerWaits.foldl (fun (c : Chip) (w : SlotRequest) => serveSlot w c) { c with nvm := { c.nvm with gnonerWaits := [] } }

/-- Type 0x0102. -/
def fwSlotStatus (_w : List Nat) (c : Chip) : List Nat × Chip :=
  let v := fun (s : Nat) => if at' c.boot.verified s then 2 ^ (8 + s) else 0
  ([0, c.boot.slot + v 0 + v 1, (at' c.nvm.slots 0).release + (at' c.nvm.slots 1).release * 2 ^ 16], c)

/-! ### Meanings -/

/-- MBX_OBJECT_READ -/
def execMbxObjectRead (ch : Fin 8) (s : State) : Res := run s (mbxServe ch 0x0001 (mbxObjectRead ch))

/-- MBX_OBJECT_WRITE -/
def execMbxObjectWrite (ch : Fin 8) (s : State) : Res := run s (mbxServe ch 0x0002 (mbxObjectWrite ch))

/-- MBX_OBJECT_READ_MULTI -/
def execMbxObjectReadMulti (ch : Fin 8) (s : State) : Res := run s (mbxServe ch 0x0003 (mbxObjectReadMulti ch))

/-- MBX_ECHO -/
def execMbxEcho (ch : Fin 8) (s : State) : Res := run s (mbxServe ch 0x0010 mbxEcho)

/-- FW_IMAGE_WRITE -/
def execFwImageWrite (ch : Fin 8) (data : List Byte) (s : State) : Res := run s (serveSlot (.image ch data))

/-- FW_COMMIT -/
def execFwCommit (ch : Fin 8) (sigOk : Bool) (s : State) : Res := run s (serveSlot (.commit ch sigOk))

/-- RAIL_TRIP_CROSSING -/
def execRailTripCrossing (rail : Fin 11) (level : RailLevel) (s : State) : Res := run s (railCrossing rail.val level)

/-- FW_SLOT_STATUS -/
def execFwSlotStatus (ch : Fin 8) (s : State) : Res := run s (mbxServe ch 0x0102 fwSlotStatus)

end Sys2Proof.Machine
end

