-- ==== Sys2Proof/Machine/Slave.lean ====
section
/-! DEFINITION. The serial-port slave (R428 to R434): frames, the status byte, the alive counter, and the opcodes of Table 15.2. -/

namespace Sys2Proof.Machine

/-- Change the slave's state. -/
def Chip.modSps (c : Chip) (f : Sps → Sps) : Chip := { c with sps := f c.sps }

/-- A bit of the status byte. -/
def statusBit (b : Bool) (n : Nat) : Nat := if b then 2 ^ n else 0

/-- The status byte (Table 15.3). -/
def Sps.statusByte (p : Sps) : Nat :=
  statusBit p.bad 7 + statusBit p.alive 6 + statusBit p.dropped 5 + statusBit p.reply.isSome 4 +
  (match p.reply with
   | some (n, _) => n
   | none => p.lastAlive.getD 0) % 16

/-- What a frame carries on SP_IO1 before the bytes that read 0xFF (R433). -/
def Sps.frame (p : Sps) : List Byte :=
  let l := leBytes 1 p.statusByte ++ (match p.reply with
    | some (_, b) => b
    | none => [])
  l ++ leBytes 2 (crc16 l)

/-- SP_CS0_N falls: the status byte is formed, and its flags told. -/
def spsFrameStart (c : Chip) : Chip :=
  let c := { c with pins := { c.pins with spCs0Low := true } }
  if c.reaches .sp then
    ((c.emit (.spFrame c.sps.frame)).modSps (fun (p : Sps) => { p with bad := false, alive := false, dropped := false })).set K.spsState 2
  else c

/-- The length of a request (Table 15.2). -/
def requestLength (op count : Nat) : Nat :=
  if op = 2 then 15 else if op = 4 ∨ op = 6 then 11 else if op = 5 then 11 + 8 * count else 7

/-- The request that a frame holds: none when it ends early or fails its CRC (R429). -/
def requestOf (l : List Byte) : Option SpRequest :=
  let op := fieldAt l 0 1 % 16
  let len := requestLength op (fieldAt l 4 1)
  if l.length < len ∨ crc16 (l.take (len - 2)) ≠ fieldAt l (len - 2) 2 then none
  else some { alive := fieldAt l 0 1 / 16, opcode := op, idx := fieldAt l 1 2, sub := fieldAt l 3 1, count := fieldAt l 4 1
              data := (l.take (len - 2)).drop 5 }

/-- The key that a request names. -/
def SpRequest.key (r : SpRequest) : Nat := r.idx * 256 + r.sub

/-- Give the request that executes its answer: a status word, and what follows it. A request that reset the chip has none. -/
def Chip.spsAnswer (c : Chip) (r : SpRequest) (status : Nat) (rest : List Byte) : Chip :=
  if c.boot.phase ≠ .ready then c else
  c.modSps (fun (p : Sps) => { p with request := none, answer := some (r.alive, leBytes 4 status ++ rest) })

/-- Refuse the request that executes. -/
def Chip.spsRefuse (c : Chip) (r : SpRequest) (code : Abort) (rest : List Byte) : Chip :=
  (c.noteAbort .sp r.key code).spsAnswer r code rest

/-- A write that changes the role to master through the slave itself: SP_CS0_N has risen, so the change is now (R428). -/
def Chip.afterRoleWrite (c : Chip) : Chip := if c.sps.toMaster then c.portBecomes 0 else c

/-- Take a request for execution: an unknown opcode has its answer at once, and a write of the role acts before SP_CS0_N falls again. -/
def Chip.spsExecute (c : Chip) (r : SpRequest) : Chip :=
  let c := c.modSps (fun (p : Sps) => { p with reply := none, request := some r })
  if 7 ≤ r.opcode then c.spsRefuse r Abort.unsupported []
  else if r.opcode = 2 ∧ r.key = K.spRole then
    match c.slotWrite .sp r.key (BitVec.ofNat 64 (fieldAt r.data 0 8)) with
    | (c, none) => (c.spsAnswer r 0 []).afterRoleWrite
    | (c, some a) => c.spsRefuse r a []
  else c

/-- A frame that passes its CRC (R434). -/
def Chip.spsFramed (c : Chip) (r : SpRequest) : Chip :=
  let same := decide (c.sps.lastAlive = some r.alive)
  let unexpected := match c.sps.lastAlive with
    | none => false
    | some a => decide (r.alive ≠ (a + 1) % 16)
  if same ∧ r.opcode ≠ 0 then c.modSps (fun (p : Sps) => { p with alive := true })
  else if r.opcode ≠ 0 ∧ (c.sps.request.isSome ∨ c.sps.answer.isSome) then c.modSps (fun (p : Sps) => { p with dropped := true })
  else
    let c := if unexpected then (c.modSps (fun (p : Sps) => { p with alive := true })).bump K.spsAliveErrors else c
    let c := (c.modSps (fun (p : Sps) => { p with lastAlive := some r.alive })).bump K.spsFrames
    if r.opcode = 0 then c else c.spsExecute r

/-- SP_CS0_N rises: a change to master that waited for it acts, and otherwise the frame is judged. -/
def spsFrameEnd (bytes : List Byte) (c : Chip) : Chip :=
  let c := { c with pins := { c.pins with spCs0Low := false } }
  if c.on K.spRole ∧ c.sps.toMaster then c.portBecomes 0
  else if c.nat K.spsState = 2 then
    let c := c.set K.spsState 1
    match requestOf bytes with
    | none => (c.modSps (fun (p : Sps) => { p with bad := true })).bump K.spsCrcErrors
    | some r => c.spsFramed r
  else c

/-- Carry out the request that executes, if it has an opcode. -/
def spsCarryOut (op : Nat) (f : SpRequest → Chip → Chip) (c : Chip) : Chip :=
  match c.sps.request with
  | none => c
  | some r => if r.opcode = op ∧ c.reaches .sp then f r c else c

/-- Opcode 1. -/
def spsReadSlot (r : SpRequest) (c : Chip) : Chip :=
  match c.slotRead .sp r.key with
  | .ok (v, c) => c.spsAnswer r 0 (leBytes 8 v)
  | .error a => c.spsRefuse r a []

/-- Opcode 2. -/
def spsWriteSlot (r : SpRequest) (c : Chip) : Chip :=
  match c.slotWrite .sp r.key (BitVec.ofNat 64 (fieldAt r.data 0 8)) with
  | (c, none) => c.spsAnswer r 0 []
  | (c, some a) => c.spsRefuse r a []

/-- The values of slots from a key, one after the other; an unimplemented one reads 0 (R431). -/
def Chip.slotsFrom (c : Chip) (key : Nat) : Nat → Except Abort (List Nat)
  | 0 => .ok []
  | n + 1 =>
    let v : Except Abort Nat :=
      if (rowAt? key).isNone ∧ (countAt? key).isNone then .ok 0 else (c.slotRead .sp key).map (fun (x : Nat × Chip) => x.1)
    match v, c.slotsFrom (key + 1) n with
    | .ok x, .ok l => .ok (x :: l)
    | .error a, _ => .error a
    | _, .error a => .error a

/-- Opcode 3 (R431). -/
def spsReadSlots (r : SpRequest) (c : Chip) : Chip :=
  match highestSub r.idx with
  | none => c.spsRefuse r (absence r.key) [0]
  | some h =>
    if r.count = 0 ∨ 16 < r.count then c.spsRefuse r Abort.invalid [0]
    else if h < r.sub then c.spsRefuse r Abort.noSub [0]
    else if r.idx = 0x2020 then c.spsRefuse r Abort.unsupported [0]
    else
      let n := min r.count (h - r.sub + 1)
      match c.slotsFrom r.key n with
      | .ok l => c.spsAnswer r 0 (leBytes 1 n ++ (l.map (leBytes 8)).flatten)
      | .error a => c.spsRefuse r a [0]

/-- Opcode 4 (R432), with what the NVM's reads find. -/
def spsDomainRead (found : List NvmFind) (r : SpRequest) (c : Chip) : Chip :=
  let c := if r.key = K.nvmLog ∧ !c.accessFails .sp r.key then c.logFound found else c
  if r.count = 0 ∨ 8 < r.count then c.spsRefuse r Abort.invalid [0]
  else match c.domainRead .sp r.key with
    | .error a => c.spsRefuse r a [0]
    | .ok l =>
      let m := (l.drop (fieldAt r.data 0 4)).take (8 * r.count)
      c.spsAnswer r 0 (leBytes 1 m.length ++ m)

/-- Opcode 5 (R432). -/
def spsDomainWrite (r : SpRequest) (c : Chip) : Chip :=
  let off := fieldAt r.data 0 4
  let bytes := r.data.drop 4
  if r.count = 0 ∨ 8 < r.count then c.spsRefuse r Abort.invalid []
  else match c.domainAbort? .sp r.key with
    | some a => c.spsRefuse r a []
    | none =>
      if off = 0 then (c.modSps (fun (p : Sps) => { p with transfer := some (r.key, bytes) })).spsAnswer r 0 []
      else match c.sps.transfer with
        | none => c.spsRefuse r Abort.invalid []
        | some (key, l) =>
          if key = r.key ∧ off = l.length then
            (c.modSps (fun (p : Sps) => { p with transfer := some (key, l ++ bytes) })).spsAnswer r 0 []
          else c.spsRefuse r Abort.invalid []

/-- Opcode 6 (R432). -/
def spsDomainEnd (r : SpRequest) (c : Chip) : Chip :=
  match c.sps.transfer with
  | none => c.spsRefuse r Abort.invalid []
  | some (key, l) =>
    if key ≠ r.key then c.spsRefuse r Abort.invalid []
    else
      let c := c.modSps (fun (p : Sps) => { p with transfer := none })
      if l.length ≠ fieldAt r.data 0 4 then c.spsRefuse r Abort.length []
      else match c.domainWrite .sp key l with
        | (c, none) => c.spsAnswer r 0 []
        | (c, some a) => c.spsRefuse r a []

/-- The answer becomes the reply that the next frames carry. -/
def spsReplyReady (c : Chip) : Chip :=
  match c.sps.answer with
  | none => c
  | some a => c.modSps (fun (p : Sps) => { p with reply := some a, answer := none })

/-! ### Meanings -/

/-- SPS_FRAME_START -/
def execSpsFrameStart (s : State) : Res := run s spsFrameStart

/-- SPS_FRAME_END -/
def execSpsFrameEnd (bytes : List Byte) (s : State) : Res := run s (spsFrameEnd bytes)

/-- SPS_NOP: the frame that carried it has been judged, and it asks for nothing (R433). -/
def execSpsNop (s : State) : Res := run s id

/-- SPS_READ_SLOT -/
def execSpsReadSlot (s : State) : Res := run s (spsCarryOut 1 spsReadSlot)

/-- SPS_WRITE_SLOT -/
def execSpsWriteSlot (s : State) : Res := run s (spsCarryOut 2 spsWriteSlot)

/-- SPS_READ_SLOTS -/
def execSpsReadSlots (s : State) : Res := run s (spsCarryOut 3 spsReadSlots)

/-- SPS_DOMAIN_READ -/
def execSpsDomainRead (s : State) (found : List NvmFind := []) : Res := run s (spsCarryOut 4 (spsDomainRead found))

/-- SPS_DOMAIN_WRITE -/
def execSpsDomainWrite (s : State) : Res := run s (spsCarryOut 5 spsDomainWrite)

/-- SPS_DOMAIN_END -/
def execSpsDomainEnd (s : State) : Res := run s (spsCarryOut 6 spsDomainEnd)

/-- SPS_REPLY_READY -/
def execSpsReplyReady (s : State) : Res := run s spsReplyReady

end Sys2Proof.Machine
end

