-- ==== Sys2Proof/Machine/Dispatch.lean ====
section
/-! DEFINITION. One arm per command: the meaning of each, called by its full name. -/

namespace Sys2Proof.Machine

/-- The effect of one command on everything but the queue. -/
def exec (i : Instr) (s : State) : Host.Outcome State Fault Refusal :=
  match i with
  | .internalPorRelease straps => Sys2Proof.Machine.execInternalPorRelease straps s
  | .sysRst => Sys2Proof.Machine.execSysRst s
  | .railTripCrossing rail level => Sys2Proof.Machine.execRailTripCrossing rail level s
  | .railFault rail above => Sys2Proof.Machine.execRailFault rail above s
  | .frontDieResetHoldEnd straps => Sys2Proof.Machine.execFrontDieResetHoldEnd straps s
  | .pixelDieRetry => Sys2Proof.Machine.execPixelDieRetry s
  | .pixSupplyTimeout rail => Sys2Proof.Machine.execPixSupplyTimeout rail s
  | .gnonerStart ok0 ok1 => Sys2Proof.Machine.execGnonerStart ok0 ok1 s
  | .gnonerStartTimeout => Sys2Proof.Machine.execGnonerStartTimeout s
  | .gnonerReady vsol flash found => Sys2Proof.Machine.execGnonerReady vsol flash s found
  | .dramTrainingComplete ch ok gib => Sys2Proof.Machine.execDramTrainingComplete ch ok gib s
  | .dramInitComplete lanesOk => Sys2Proof.Machine.execDramInitComplete lanesOk s
  | .chipReset m v => Sys2Proof.Machine.execChipReset m v s
  | .modeRequestRun m => Sys2Proof.Machine.execModeRequestRun m s
  | .modeRequestStandby m => Sys2Proof.Machine.execModeRequestStandby m s
  | .modeRequestDeepStandby m => Sys2Proof.Machine.execModeRequestDeepStandby m s
  | .standbyReached => Sys2Proof.Machine.execStandbyReached s
  | .mcWakeComplete => Sys2Proof.Machine.execMcWakeComplete s
  | .spsWake => Sys2Proof.Machine.execSpsWake s
  | .clkTick => Sys2Proof.Machine.execClkTick s
  | .timeBaseCompare => Sys2Proof.Machine.execTimeBaseCompare s
  | .backupOscTrim periods => Sys2Proof.Machine.execBackupOscTrim periods s
  | .refclkMonitorWindow edges => Sys2Proof.Machine.execRefclkMonitorWindow edges s
  | .clkPixDividerSwitch => Sys2Proof.Machine.execClkPixDividerSwitch s
  | .dieLinkAlignmentLost => Sys2Proof.Machine.execDieLinkAlignmentLost s
  | .objectWrite m idx sub part v also => Sys2Proof.Machine.execObjectWrite m idx sub part v s also
  | .stageHoldWrite m v => Sys2Proof.Machine.execStageHoldWrite m v s
  | .halfWriteLow m idx sub v => Sys2Proof.Machine.execHalfWriteLow m idx sub v s
  | .halfWriteExpiry m => Sys2Proof.Machine.execHalfWriteExpiry m s
  | .halfReadLow m idx sub part => Sys2Proof.Machine.execHalfReadLow m idx sub s part
  | .halfReadLatchExpiry m => Sys2Proof.Machine.execHalfReadLatchExpiry m s
  | .lockRead m n also => Sys2Proof.Machine.execLockRead m n s also
  | .lockWrite m n v => Sys2Proof.Machine.execLockWrite m n v s
  | .lockForce m v => Sys2Proof.Machine.execLockForce m v s
  | .store m g v => Sys2Proof.Machine.execStore m g v s
  | .restore m g v => Sys2Proof.Machine.execRestore m g v s
  | .storeComplete => Sys2Proof.Machine.execStoreComplete s
  | .regionReset m v => Sys2Proof.Machine.execRegionReset m v s
  | .errqAck m r v => Sys2Proof.Machine.execErrqAck m r v s
  | .headRunRequest m h => Sys2Proof.Machine.execHeadRunRequest m h s
  | .headStopRequest m h => Sys2Proof.Machine.execHeadStopRequest m h s
  | .headLastFrameEnd h => Sys2Proof.Machine.execHeadLastFrameEnd h s
  | .headStopComplete h => Sys2Proof.Machine.execHeadStopComplete h s
  | .headSupplySettled h => Sys2Proof.Machine.execHeadSupplySettled h s
  | .headBiasSettled h => Sys2Proof.Machine.execHeadBiasSettled h s
  | .cfgRequest m h v => Sys2Proof.Machine.execCfgRequest m h v s
  | .cfgTransactionStart h => Sys2Proof.Machine.execCfgTransactionStart h s
  | .cfgTransactionComplete h data => Sys2Proof.Machine.execCfgTransactionComplete h data s
  | .cfgScriptWaitEnd h => Sys2Proof.Machine.execCfgScriptWaitEnd h s
  | .cfgCheckFailure h => Sys2Proof.Machine.execCfgCheckFailure h s
  | .headFrameStart h => Sys2Proof.Machine.execHeadFrameStart h s
  | .leapLine h responses step refStep => Sys2Proof.Machine.execLeapLine h responses step refStep s
  | .blankingStart h => Sys2Proof.Machine.execBlankingStart h s
  | .headVerificationEnd h => Sys2Proof.Machine.execHeadVerificationEnd h s
  | .tapRailShort h tap => Sys2Proof.Machine.execTapRailShort h tap s
  | .headSupplyOvercurrent h e => Sys2Proof.Machine.execHeadSupplyOvercurrent h s e
  | .headSupplyUndercurrent h => Sys2Proof.Machine.execHeadSupplyUndercurrent h s
  | .biasOvercurrent h b e => Sys2Proof.Machine.execBiasOvercurrent h b s e
  | .biasOpen h b => Sys2Proof.Machine.execBiasOpen h b s
  | .headRetry h => Sys2Proof.Machine.execHeadRetry h s
  | .triggerDelivery h => Sys2Proof.Machine.execTriggerDelivery h s
  | .triggerTimeout h => Sys2Proof.Machine.execTriggerTimeout h s
  | .converterWatchdog b conv => Sys2Proof.Machine.execConverterWatchdog b conv s
  | .converterResetEnd b conv => Sys2Proof.Machine.execConverterResetEnd b conv s
  | .hkRoundTrigger => Sys2Proof.Machine.execHkRoundTrigger s
  | .hkRoundComplete hk0 hk1 mr0 mr1 inputs => Sys2Proof.Machine.execHkRoundComplete hk0 hk1 mr0 mr1 s inputs
  | .throttleStepDown => Sys2Proof.Machine.execThrottleStepDown s
  | .throttleFloorEnd sensor => Sys2Proof.Machine.execThrottleFloorEnd sensor s
  | .l4Exit => Sys2Proof.Machine.execL4Exit s
  | .levelTrip die v => Sys2Proof.Machine.execLevelTrip die v s
  | .hkUrgentRequest m v => Sys2Proof.Machine.execHkUrgentRequest m v s
  | .hkUrgentComplete k code input => Sys2Proof.Machine.execHkUrgentComplete k code s input
  | .hkConverterWatchdog k => Sys2Proof.Machine.execHkConverterWatchdog k s
  | .calCommand m => Sys2Proof.Machine.execCalCommand m s
  | .calRunStart ref0 ref1 => Sys2Proof.Machine.execCalRunStart ref0 ref1 s
  | .converterCalibrationComplete b off gain oc gc => Sys2Proof.Machine.execConverterCalibrationComplete b off gain oc gc s
  | .calRunComplete => Sys2Proof.Machine.execCalRunComplete s
  | .calRevert m v => Sys2Proof.Machine.execCalRevert m v s
  | .lineEligible h samples => Sys2Proof.Machine.execLineEligible h samples s
  | .lineGrant res badRec badState badAcc fixed => Sys2Proof.Machine.execLineGrant res badRec badState badAcc s fixed
  | .lineComplete res => Sys2Proof.Machine.execLineComplete res s
  | .nucLaneWatchdog lane => Sys2Proof.Machine.execNucLaneWatchdog lane s
  | .blockResetTimeout region block => Sys2Proof.Machine.execBlockResetTimeout region block s
  | .regionRestart region => Sys2Proof.Machine.execRegionRestart region s
  | .regionRestartComplete region lanesOk => Sys2Proof.Machine.execRegionRestartComplete region lanesOk s
  | .regionRestartTimeout region => Sys2Proof.Machine.execRegionRestartTimeout region s
  | .gnonerWatchdog => Sys2Proof.Machine.execGnonerWatchdog s
  | .onionLoad m v => Sys2Proof.Machine.execOnionLoad m v s
  | .onionLoadComplete r => Sys2Proof.Machine.execOnionLoadComplete r s
  | .onionPassComplete set => Sys2Proof.Machine.execOnionPassComplete set s
  | .onionRevert m v => Sys2Proof.Machine.execOnionRevert m v s
  | .onionSave m v => Sys2Proof.Machine.execOnionSave m v s
  | .onionSaveComplete r => Sys2Proof.Machine.execOnionSaveComplete r s
  | .onionEvict m v => Sys2Proof.Machine.execOnionEvict m v s
  | .solsticeRequest m h => Sys2Proof.Machine.execSolsticeRequest m h s
  | .solsticeAbandonCommand m h => Sys2Proof.Machine.execSolsticeAbandonCommand m h s
  | .solsticeCommitComplete h => Sys2Proof.Machine.execSolsticeCommitComplete h s
  | .solsticeCloseTimeout h => Sys2Proof.Machine.execSolsticeCloseTimeout h s
  | .shutterStuck h => Sys2Proof.Machine.execShutterStuck h s
  | .shutterReopenRetry h => Sys2Proof.Machine.execShutterReopenRetry h s
  | .chEnergise m ch => Sys2Proof.Machine.execChEnergise m ch s
  | .chRelease m ch => Sys2Proof.Machine.execChRelease m ch s
  | .shutterClose m b => Sys2Proof.Machine.execShutterClose m b s
  | .shutterOpen m b => Sys2Proof.Machine.execShutterOpen m b s
  | .bankRunStart m b => Sys2Proof.Machine.execBankRunStart m b s
  | .bankStop m b => Sys2Proof.Machine.execBankStop m b s
  | .bankFaultClear m b => Sys2Proof.Machine.execBankFaultClear m b s
  | .boostStart ch => Sys2Proof.Machine.execBoostStart ch s
  | .peakReached ch current => Sys2Proof.Machine.execPeakReached ch current s
  | .boostTimeout ch => Sys2Proof.Machine.execBoostTimeout ch s
  | .motionDetected ch current => Sys2Proof.Machine.execMotionDetected ch current s
  | .holdEnd ch => Sys2Proof.Machine.execHoldEnd ch s
  | .holdOvercurrent ch => Sys2Proof.Machine.execHoldOvercurrent ch s
  | .decayEnd ch samples => Sys2Proof.Machine.execDecayEnd ch samples s
  | .decayTimeout ch samples => Sys2Proof.Machine.execDecayTimeout ch samples s
  | .clampEnergyExceeded ch samples => Sys2Proof.Machine.execClampEnergyExceeded ch samples s
  | .clampHoldoffEnd => Sys2Proof.Machine.execClampHoldoffEnd s
  | .operationComplete ch highest => Sys2Proof.Machine.execOperationComplete ch highest s
  | .switchOvercurrent ch => Sys2Proof.Machine.execSwitchOvercurrent ch s
  | .crossCurrent ch => Sys2Proof.Machine.execCrossCurrent ch s
  | .offstateTest => Sys2Proof.Machine.execOffstateTest s
  | .offstateTestEnd b found => Sys2Proof.Machine.execOffstateTestEnd b found s
  | .vsolReversed => Sys2Proof.Machine.execVsolReversed s
  | .vsolRecovered inRange => Sys2Proof.Machine.execVsolRecovered s inRange
  | .parkComplete => Sys2Proof.Machine.execParkComplete s
  | .tnrReseed m src => Sys2Proof.Machine.execTnrReseed m src s
  | .paletteLoad m v => Sys2Proof.Machine.execPaletteLoad m v s
  | .paletteCopyComplete p => Sys2Proof.Machine.execPaletteCopyComplete p s
  | .srcRunRequest m k => Sys2Proof.Machine.execSrcRunRequest m k s
  | .srcStop m k => Sys2Proof.Machine.execSrcStop m k s
  | .rxRunStart m k => Sys2Proof.Machine.execRxRunStart m k s
  | .rxStop m k => Sys2Proof.Machine.execRxStop m k s
  | .csiFrameStartPacket k vc hdr number => Sys2Proof.Machine.execCsiFrameStartPacket k vc hdr number s
  | .csiLongPacket k vc l => Sys2Proof.Machine.execCsiLongPacket k vc l s
  | .csiFrameEndPacket k vc hdr => Sys2Proof.Machine.execCsiFrameEndPacket k vc hdr s
  | .csiSourceTimeout k => Sys2Proof.Machine.execCsiSourceTimeout k s
  | .csiSubstituteFrame k => Sys2Proof.Machine.execCsiSubstituteFrame k s
  | .csiLaneWatchdog k lane => Sys2Proof.Machine.execCsiLaneWatchdog k lane s
  | .streamStart m n => Sys2Proof.Machine.execStreamStart m n s
  | .streamStop m n => Sys2Proof.Machine.execStreamStop m n s
  | .streamLineOutput n => Sys2Proof.Machine.execStreamLineOutput n s
  | .streamFrameComplete n => Sys2Proof.Machine.execStreamFrameComplete n s
  | .streamWatchdog n writer fits => Sys2Proof.Machine.execStreamWatchdog n writer fits s
  | .statRecordComplete src => Sys2Proof.Machine.execStatRecordComplete src s
  | .statHostCopyStart ch => Sys2Proof.Machine.execStatHostCopyStart ch s
  | .statHostCopyComplete ch status => Sys2Proof.Machine.execStatHostCopyComplete ch status s
  | .perstAssert => Sys2Proof.Machine.execPerstAssert s
  | .perstDeassert => Sys2Proof.Machine.execPerstDeassert s
  | .hotReset => Sys2Proof.Machine.execHotReset s
  | .flrF0 => Sys2Proof.Machine.execFlrF0 s
  | .flrF1 => Sys2Proof.Machine.execFlrF1 s
  | .linkDown => Sys2Proof.Machine.execLinkDown s
  | .busMasterDisable => Sys2Proof.Machine.execBusMasterDisable s
  | .pmeTurnOff => Sys2Proof.Machine.execPmeTurnOff s
  | .pcieEventAck m v => Sys2Proof.Machine.execPcieEventAck m v s
  | .bar2Access off acc fixed => Sys2Proof.Machine.execBar2Access off acc s fixed
  | .pcieErrorReceived e => Sys2Proof.Machine.execPcieErrorReceived e s
  | .canFrameReceived f => Sys2Proof.Machine.execCanFrameReceived f s
  | .canWake => Sys2Proof.Machine.execCanWake s
  | .nmtStartRemote => Sys2Proof.Machine.execNmtStartRemote s
  | .nmtStopRemote => Sys2Proof.Machine.execNmtStopRemote s
  | .nmtEnterPreOperational => Sys2Proof.Machine.execNmtEnterPreOperational s
  | .nmtResetCommunication found => Sys2Proof.Machine.execNmtResetCommunication s found
  | .nmtResetNode found => Sys2Proof.Machine.execNmtResetNode s found
  | .usdoInitiate r found => Sys2Proof.Machine.execUsdoInitiate r s found
  | .usdoSegment r => Sys2Proof.Machine.execUsdoSegment r s
  | .usdoTimeout => Sys2Proof.Machine.execUsdoTimeout s
  | .rpdoReceived n data => Sys2Proof.Machine.execRpdoReceived n data s
  | .tpdoEventTimer n => Sys2Proof.Machine.execTpdoEventTimer n s
  | .tpdoInhibitEnd n => Sys2Proof.Machine.execTpdoInhibitEnd n s
  | .emcyInhibitEnd => Sys2Proof.Machine.execEmcyInhibitEnd s
  | .heartbeat => Sys2Proof.Machine.execHeartbeat s
  | .canTrigger m v => Sys2Proof.Machine.execCanTrigger m v s
  | .psirelMarkSend => Sys2Proof.Machine.execPsirelMarkSend s
  | .psirelMarkReceived mk => Sys2Proof.Machine.execPsirelMarkReceived mk s
  | .psirelHoldover => Sys2Proof.Machine.execPsirelHoldover s
  | .psirelReturnMeasure r => Sys2Proof.Machine.execPsirelReturnMeasure r s
  | .psirelCableDelayPublish => Sys2Proof.Machine.execPsirelCableDelayPublish s
  | .psirelTrigger m v => Sys2Proof.Machine.execPsirelTrigger m v s
  | .psirelPeriodicTrigger => Sys2Proof.Machine.execPsirelPeriodicTrigger s
  | .psirelTriggerReceived t => Sys2Proof.Machine.execPsirelTriggerReceived t s
  | .psirelTimeSet m v => Sys2Proof.Machine.execPsirelTimeSet m v s
  | .psirelTimeAdjust m v => Sys2Proof.Machine.execPsirelTimeAdjust m v s
  | .psirelWake m v => Sys2Proof.Machine.execPsirelWake m v s
  | .psirelWakeDetect => Sys2Proof.Machine.execPsirelWakeDetect s
  | .psirelInputInvalid violations => Sys2Proof.Machine.execPsirelInputInvalid violations s
  | .mbxSend m ch => Sys2Proof.Machine.execMbxSend m ch s
  | .mbxRecall m ch => Sys2Proof.Machine.execMbxRecall m ch s
  | .mbxD2hRelease m ch => Sys2Proof.Machine.execMbxD2hRelease m ch s
  | .mbxIrqAck m ch v => Sys2Proof.Machine.execMbxIrqAck m ch v s
  | .mbxTimeout ch d2h => Sys2Proof.Machine.execMbxTimeout ch d2h s
  | .mbxTake ch => Sys2Proof.Machine.execMbxTake ch s
  | .mbxD2hSend ch => Sys2Proof.Machine.execMbxD2hSend ch s
  | .mbxChannelWatchdog ch => Sys2Proof.Machine.execMbxChannelWatchdog ch s
  | .mbxObjectRead ch => Sys2Proof.Machine.execMbxObjectRead ch s
  | .mbxObjectWrite ch => Sys2Proof.Machine.execMbxObjectWrite ch s
  | .mbxObjectReadMulti ch => Sys2Proof.Machine.execMbxObjectReadMulti ch s
  | .mbxEcho ch => Sys2Proof.Machine.execMbxEcho ch s
  | .fwImageWrite ch data => Sys2Proof.Machine.execFwImageWrite ch data s
  | .fwCommit ch sigOk => Sys2Proof.Machine.execFwCommit ch sigOk s
  | .fwSlotStatus ch => Sys2Proof.Machine.execFwSlotStatus ch s
  | .dmaStart m ch => Sys2Proof.Machine.execDmaStart m ch s
  | .dmaAbort m ch => Sys2Proof.Machine.execDmaAbort m ch s
  | .dmaRequestAssert req => Sys2Proof.Machine.execDmaRequestAssert req s
  | .dmaRequestWithdraw req => Sys2Proof.Machine.execDmaRequestWithdraw req s
  | .dmaGrant src fixed => Sys2Proof.Machine.execDmaGrant src s fixed
  | .dmaComplete fixed => Sys2Proof.Machine.execDmaComplete s fixed
  | .dmaBeatError bytes status dst => Sys2Proof.Machine.execDmaBeatError bytes status dst s
  | .dmaTimeout bytes dst => Sys2Proof.Machine.execDmaTimeout bytes dst s
  | .spRoleWrite m v => Sys2Proof.Machine.execSpRoleWrite m v s
  | .spsFrameStart => Sys2Proof.Machine.execSpsFrameStart s
  | .spsFrameEnd bytes => Sys2Proof.Machine.execSpsFrameEnd bytes s
  | .spsNop => Sys2Proof.Machine.execSpsNop s
  | .spsReadSlot => Sys2Proof.Machine.execSpsReadSlot s
  | .spsWriteSlot => Sys2Proof.Machine.execSpsWriteSlot s
  | .spsReadSlots => Sys2Proof.Machine.execSpsReadSlots s
  | .spsDomainRead found => Sys2Proof.Machine.execSpsDomainRead s found
  | .spsDomainWrite => Sys2Proof.Machine.execSpsDomainWrite s
  | .spsDomainEnd => Sys2Proof.Machine.execSpsDomainEnd s
  | .spsReplyReady => Sys2Proof.Machine.execSpsReplyReady s
  | .xipRead off len => Sys2Proof.Machine.execXipRead off len s
  | .xipProgramWrite off data => Sys2Proof.Machine.execXipProgramWrite off data s
  | .pageBufferTimeout => Sys2Proof.Machine.execPageBufferTimeout s
  | .spmFlush m => Sys2Proof.Machine.execSpmFlush m s
  | .spmErase m off => Sys2Proof.Machine.execSpmErase m off s
  | .spmStatusPoll status fixed => Sys2Proof.Machine.execSpmStatusPoll status s fixed
  | .spmSequenceTimeout => Sys2Proof.Machine.execSpmSequenceTimeout s
  | .spmCopyStart m => Sys2Proof.Machine.execSpmCopyStart m s
  | .spmCopyComplete result => Sys2Proof.Machine.execSpmCopyComplete result s
  | .dramScrubPass ch corrected uncorrectable link => Sys2Proof.Machine.execDramScrubPass ch corrected uncorrectable s link
  | .nvmWriteWatchdog => Sys2Proof.Machine.execNvmWriteWatchdog s
  | .nvmHoldRelease => Sys2Proof.Machine.execNvmHoldRelease s
  | .pcieLinkUp speed width power => Sys2Proof.Machine.execPcieLinkUp speed width s power
  | .pcieConfigWrite w => Sys2Proof.Machine.execPcieConfigWrite w s
  | .msixVectorUnmask f1 vec => Sys2Proof.Machine.execMsixVectorUnmask f1 vec s
  | .canErrorDetected tx weight => Sys2Proof.Machine.execCanErrorDetected tx weight s
  | .canBusOffRecovery => Sys2Proof.Machine.execCanBusOffRecovery s
  | .csiSotError k => Sys2Proof.Machine.execCsiSotError k s
  | .csiDeskewSequence k => Sys2Proof.Machine.execCsiDeskewSequence k s
  | .psirelInInverted => Sys2Proof.Machine.execPsirelInInverted s
  | .hkConverterRoundEnd k => Sys2Proof.Machine.execHkConverterRoundEnd k s
  | .blockResetComplete region block fits => Sys2Proof.Machine.execBlockResetComplete region block fits s
  | .cellResetComplete region block cell => Sys2Proof.Machine.execCellResetComplete region block cell s

end Sys2Proof.Machine
end

