-- ==== Sys2Proof/Machine/Idle.lean ====
section
/-! DEFINITION. What passes when no command waits: one CLK_MGT cycle (R29), which timestamps see until the next
CLK_TICK. -/

namespace Sys2Proof.Machine

/-- CLK_MGT cycles of one CLK_TICK: 200 from the root PLL, 20 from the backup oscillator (Table 1.5, R30). -/
def Clk.perTick (k : Clk) : Nat := if k.onBackup then 20 else 200

/-- The part one CLK_MGT cycle later: the cycles since the tick count up to the last one before the next tick. -/
def Chip.cyclePasses (c : Chip) : Chip :=
  { c with out := [], clk := { c.clk with sub := if c.clk.sub + 1 < c.clk.perTick then c.clk.sub + 1 else c.clk.sub } }

/-- The state after a step on an empty queue. -/
def idle (s : State) : State := { s with chip := s.chip.cyclePasses }

end Sys2Proof.Machine
end

