-- ==== Sys2Proof/WellFormed.lean ====
section
/-! DEFINITION. What the world outside can supply as the operands of a command: the limits that the rules or the
standards they name set on operands whose type does not. The meanings take any operands. -/

namespace Sys2Proof

/-- Whether the masters of one cycle differ in rank: the management controller and the CAN FD client never meet in one (R96). -/
def distinctRanks : List Master → Bool
  | [] => true
  | m :: l => !l.any (fun x => decide (x = m ∨ (x = .mc ∧ m = .can) ∨ (x = .can ∧ m = .mc))) && distinctRanks l

/-- Whether the operands of a command lie within these limits: at most 16 tap responses of a leap line (R119), 30 and 39
members of a housekeeping round (R162), one or two integrations of a line (R312), a CSI-2 word count, a PCIe access
of 1 to 4096 bytes, a CAN FD frame of at most 64 bytes with an 11-bit identifier unless it is extended, USDO frames of
at most 60 bytes (assumption 22), a firmware write of at most 65 536 bytes (R461), a non-empty XIP access (R437), one of
the 8 vectors of Function 1 (R367), a channel capacity of at least 1 GiB once a DRAM channel is trained (R440), inputs of at most 69 members for a round, masters of
different rank for the accesses of one cycle (R81, R96), and a read of 1 to 512 slots. -/
def Instr.wf : Instr → Bool
  | .leapLine _ responses _ _ => decide (responses.length ≤ 16)
  | .hkRoundComplete hk0 hk1 _ _ inputs => decide (hk0.length ≤ 30 ∧ hk1.length ≤ 39 ∧ inputs.length ≤ 69)
  | .lineEligible _ samples => decide (1 ≤ samples.length ∧ samples.length ≤ 2)
  | .csiLongPacket _ _ l => decide (l.pixels.length ≤ 0xFFFF)
  | .bar2Access _ acc _ => match acc with
    | .read len _ => decide (1 ≤ len.toNat ∧ len.toNat ≤ 4096)
    | .write data _ => decide (1 ≤ data.length ∧ data.length ≤ 4096)
  | .canFrameReceived f => decide (f.data.length ≤ 64) && (f.extended || decide (f.ident.toNat < 2048))
  | .usdoInitiate r _ => decide (r.data.length ≤ 60)
  | .usdoSegment r => decide (r.data.length ≤ 60)
  | .rpdoReceived _ data => decide (data.length ≤ 64)
  | .fwImageWrite _ data => decide (data.length ≤ 65536)
  | .xipRead _ len => decide (1 ≤ len.toNat)
  | .xipProgramWrite _ data => decide (1 ≤ data.length)
  | .msixVectorUnmask f1 vec => !f1 || decide (vec.val < 8)
  | .dramTrainingComplete _ ok gib => !ok || decide (1 ≤ gib.val)
  | .objectWrite m _ _ _ _ also => distinctRanks (m :: also.map (·.m))
  | .lockRead m _ also => distinctRanks (m :: also)
  | .halfReadLow _ _ _ part => match part with
    | .slots n => decide (1 ≤ n.toNat ∧ n.toNat ≤ 512)
    | _ => true
  | .internalPorRelease .. | .sysRst | .railTripCrossing .. | .railFault .. | .frontDieResetHoldEnd ..
  | .pixelDieRetry | .pixSupplyTimeout .. | .gnonerStart .. | .gnonerStartTimeout | .gnonerReady ..
  | .dramInitComplete .. | .chipReset .. | .modeRequestRun .. | .modeRequestStandby .. | .modeRequestDeepStandby ..
  | .standbyReached | .mcWakeComplete | .spsWake | .clkTick | .timeBaseCompare | .backupOscTrim ..
  | .refclkMonitorWindow .. | .clkPixDividerSwitch | .dieLinkAlignmentLost | .stageHoldWrite ..
  | .halfWriteLow .. | .halfWriteExpiry .. | .halfReadLatchExpiry .. | .lockWrite ..
  | .lockForce .. | .store .. | .restore .. | .storeComplete | .regionReset .. | .errqAck .. | .headRunRequest ..
  | .headStopRequest .. | .headLastFrameEnd .. | .headStopComplete .. | .headSupplySettled .. | .headBiasSettled ..
  | .cfgRequest .. | .cfgTransactionStart .. | .cfgTransactionComplete .. | .cfgScriptWaitEnd ..
  | .cfgCheckFailure .. | .headFrameStart .. | .blankingStart .. | .headVerificationEnd .. | .tapRailShort ..
  | .headSupplyOvercurrent .. | .headSupplyUndercurrent .. | .biasOvercurrent .. | .biasOpen .. | .headRetry ..
  | .triggerDelivery .. | .triggerTimeout .. | .converterWatchdog .. | .converterResetEnd .. | .hkRoundTrigger
  | .throttleStepDown | .throttleFloorEnd .. | .l4Exit | .levelTrip .. | .hkUrgentRequest .. | .hkUrgentComplete ..
  | .hkConverterWatchdog .. | .calCommand .. | .calRunStart .. | .converterCalibrationComplete .. | .calRunComplete
  | .calRevert .. | .lineGrant .. | .lineComplete .. | .nucLaneWatchdog .. | .blockResetTimeout ..
  | .regionRestart .. | .regionRestartComplete .. | .regionRestartTimeout .. | .gnonerWatchdog | .onionLoad ..
  | .onionLoadComplete .. | .onionPassComplete .. | .onionRevert .. | .onionSave .. | .onionSaveComplete ..
  | .onionEvict .. | .solsticeRequest .. | .solsticeAbandonCommand .. | .solsticeCommitComplete ..
  | .solsticeCloseTimeout .. | .shutterStuck .. | .shutterReopenRetry .. | .chEnergise .. | .chRelease ..
  | .shutterClose .. | .shutterOpen .. | .bankRunStart .. | .bankStop .. | .bankFaultClear .. | .boostStart ..
  | .peakReached .. | .boostTimeout .. | .motionDetected .. | .holdEnd .. | .holdOvercurrent .. | .decayEnd ..
  | .decayTimeout .. | .clampEnergyExceeded .. | .clampHoldoffEnd | .operationComplete .. | .switchOvercurrent ..
  | .crossCurrent .. | .offstateTest | .offstateTestEnd .. | .vsolReversed | .vsolRecovered .. | .parkComplete
  | .tnrReseed .. | .paletteLoad .. | .paletteCopyComplete .. | .srcRunRequest .. | .srcStop .. | .rxRunStart ..
  | .rxStop .. | .csiFrameStartPacket .. | .csiFrameEndPacket .. | .csiSourceTimeout .. | .csiSubstituteFrame ..
  | .csiLaneWatchdog .. | .streamStart .. | .streamStop .. | .streamLineOutput .. | .streamFrameComplete ..
  | .streamWatchdog .. | .statRecordComplete .. | .statHostCopyStart .. | .statHostCopyComplete .. | .perstAssert
  | .perstDeassert | .hotReset | .flrF0 | .flrF1 | .linkDown | .busMasterDisable | .pmeTurnOff | .pcieEventAck ..
  | .pcieErrorReceived .. | .canWake | .nmtStartRemote | .nmtStopRemote | .nmtEnterPreOperational
  | .nmtResetCommunication .. | .nmtResetNode .. | .usdoTimeout | .tpdoEventTimer .. | .tpdoInhibitEnd .. | .emcyInhibitEnd
  | .heartbeat | .canTrigger .. | .psirelMarkSend | .psirelMarkReceived .. | .psirelHoldover
  | .psirelReturnMeasure .. | .psirelCableDelayPublish | .psirelTrigger .. | .psirelPeriodicTrigger
  | .psirelTriggerReceived .. | .psirelTimeSet .. | .psirelTimeAdjust .. | .psirelWake .. | .psirelWakeDetect
  | .psirelInputInvalid .. | .mbxSend .. | .mbxRecall .. | .mbxD2hRelease .. | .mbxIrqAck .. | .mbxTimeout ..
  | .mbxTake .. | .mbxD2hSend .. | .mbxChannelWatchdog .. | .mbxObjectRead .. | .mbxObjectWrite ..
  | .mbxObjectReadMulti .. | .mbxEcho .. | .fwCommit .. | .fwSlotStatus .. | .dmaStart .. | .dmaAbort ..
  | .dmaRequestAssert .. | .dmaRequestWithdraw .. | .dmaGrant .. | .dmaComplete .. | .dmaBeatError .. | .dmaTimeout ..
  | .spRoleWrite .. | .spsFrameStart | .spsFrameEnd .. | .spsNop | .spsReadSlot | .spsWriteSlot | .spsReadSlots
  | .spsDomainRead .. | .spsDomainWrite | .spsDomainEnd | .spsReplyReady | .pageBufferTimeout | .spmFlush ..
  | .spmErase .. | .spmStatusPoll .. | .spmSequenceTimeout | .spmCopyStart .. | .spmCopyComplete ..
  | .dramScrubPass .. | .nvmWriteWatchdog | .nvmHoldRelease | .pcieLinkUp .. | .pcieConfigWrite ..
  | .canErrorDetected .. | .canBusOffRecovery | .csiSotError .. | .csiDeskewSequence .. | .psirelInInverted
  | .hkConverterRoundEnd .. | .blockResetComplete .. | .cellResetComplete .. => true

end Sys2Proof
end

