-- ==== Sys2Proof/Safety.lean ====
section
/-! DEFINITION. The terms in which claims are stated: a command that completes with a given effect, what every command
may change beside its effect, and the invariants. -/

namespace Sys2Proof.Machine

/-- The objects that the part derives after every command: ERROR_REGISTER (R106), PCIE_EVENT_STATUS (R368), CAN_STATE
while its error counts recover, and the counts that the messages it then sends may move: CAN_TEC (R374), EMCY_DROPPED
(R379), TPDO_LOST and TPDO_COALESCED (R381). -/
def statusKeys : List Nat :=
  [K.errorRegister, K.pcieEventStatus, K.canState, K.canTec, K.emcyDropped, K.tpdoLost, K.tpdoCoalesced]

/-- A part with the values of its objects set aside, and with them the messages of the latest command, the notes of what hardware has
counted or set in the current cycle (R82), and what sending status messages may move: ALERT_N and WAKE_N, PME_Status, the pending bits of Function 0's MSI-X table, the transmit
error count, the transmit PDOs' inhibit times and the EMCY queue. -/
def Chip.body (c : Chip) : Chip :=
  { c with
    dict := [], out := [], happened := []
    pins := { c.pins with alertLow := false, wakeLow := false }
    pcie := { c.pcie with pmeStatus := false, pend0 := 0 }
    can := { c.can with tec := 0, tpdo := [], emcyQueue := [], emcyInhibited := false } }

/-- The part as a command finds it: the messages of the previous command are gone. -/
def Chip.fresh (c : Chip) : Chip := { c with out := [] }

/-- Two parts agree but for derived status: the same state beside the objects, and every object but those of
`statusKeys` reads the same. -/
def Chip.agrees (a b : Chip) : Prop := a.body = b.body ∧ ∀ k, k ∉ statusKeys → a.get k = b.get k

/-- The command completes, leaves the queue as it is, and leaves the part as `c` but for derived status: `c` is its
whole effect, and its frame. -/
def Effect (i : Instr) (s : State) (c : Chip) : Prop :=
  ∃ t, exec i s = .next t ∧ t.pending = s.pending ∧ t.chip.agrees c

/-- The same, and the messages sent begin with those listed. -/
def Answer (i : Instr) (s : State) (msgs : List OutMsg) (c : Chip) : Prop :=
  ∃ t, exec i s = .next t ∧ t.pending = s.pending ∧ t.chip.agrees c ∧ msgs <+: t.chip.out

/-- The command completes, leaves the queue as it is, and what it leaves has a property. -/
def Leaves (i : Instr) (s : State) (P : Chip → Prop) : Prop :=
  ∃ t, exec i s = .next t ∧ t.pending = s.pending ∧ P t.chip

/-- Whether a message goes out on Psirel with a start character. -/
def OutMsg.isPsirel (o : OutMsg) (k : Nat) : Bool :=
  match o with
  | .psirel x _ => decide (x = k)
  | _ => false

/-- An access of a master reaches the dictionary and is not one that fails for hardware reasons (Table 3.5, R483). -/
abbrev Chip.serves (c : Chip) (m : Master) (key : Nat) : Prop := c.reachesKey m key = true ∧ c.accessFails m key = false

/-- ERROR_REGISTER and ALERT_N stand as their conditions do (R106, R473). -/
abbrev Chip.statusRight (c : Chip) : Prop :=
  c.get K.errorRegister = c.errorRegisterOf ∧ c.pins.alertLow = c.alertOf

/-- The canonical form of the two sparse stores. -/
abbrev Chip.storesCanonical (c : Chip) : Prop := c.dict.wf = true ∧ c.dram.wf = true

end Sys2Proof.Machine
end

