-- ==== Sys2Proof/Certificates/Slice0/Obligations.lean ====
section
/-! DEFINITION. The statements for the provers. -/

open Sys2Proof Sys2Proof.Machine

/-! ### Resets and the boot ROM -/

/-- R44, R53, R455: at the internal power-on release, or when the front-die hold ends with SYS_RST_N high, the front rails in range, the
straps are sampled, the serial port takes the role of bit 4 and the boot ROM begins to verify; a power-on is counted (counter 0, R447; at
the release is the model's choice, assumption 50); a hold that ends with SYS_RST_N low leaves the front die in reset. R455, R456: the
verified slot of the higher release starts, slot 0 where they are equal, and one is verified whose magic, length and digest are right and
whose signature is, as the operand says (assumptions 80 and 116); without one the part stays dead; a start that does not report ready is
tried again, and after the third failure the other verified slot once, without which the part is dead. R457: when Gnoner reports ready it
takes what the NVM keeps (the reads that find corrected or lost groups are an operand, the model's choice, assumption 113), the stored
values and the records of the start, starts the CAN node, the Psirel link and the park of the actuators, begins rounds and the calibration,
configures the flash, and starts the pixel die and the heads, in this order; the rail faults declared before act then, those that have ended
before the pixel die starts and those that last after it (the model's choice, assumption 115). -/
def Obligations.StartUpSequence : Prop :=
  (∀ (s : State) (straps : BitVec 6) (i : Instr),
     i = .internalPorRelease straps ∨ (i = .frontDieResetHoldEnd straps ∧ s.chip.pins.sysRstLow = false) →
     s.chip.boot.phase = .held → s.chip.frontRailsIn = true →
     let c := ({ s.chip with
       pins := { s.chip.pins with sysRstLow := false }
       boot := { s.chip.boot with phase := .verifying } } : Chip).setAll
         [(K.straps, straps.toNat), (K.spRole, if straps[4] then 1 else 0), (K.spsState, if straps[4] then 1 else 0),
          (K.spmState, if straps[4] then 0 else 1)] |>.setTrips
     Effect i s (if s.chip.boot.cause = 1 then c.nvmWrite (.count 0 1) else c)) ∧
  (∀ (s : State) (straps : BitVec 6), s.chip.pins.sysRstLow = true → Effect (.frontDieResetHoldEnd straps) s s.chip) ∧
  ((∀ (s : State) (ok0 ok1 : Bool) (a b : Slot'), s.chip.boot.phase = .verifying → s.chip.nvm.slots = [a, b] →
     Effect (.gnonerStart ok0 ok1) s
       (let v0 := ok0 && a.magic && a.sound 0
        let v1 := ok1 && b.magic && b.sound 1
        if v0 || v1 then
          { s.chip with boot := { s.chip.boot with
            phase := .starting, verified := [v0, v1], failures := 0, fellFrom := none
            slot := if v0 = true ∧ (v1 = false ∨ b.release ≤ a.release) then 0 else 1 } }
        else
          { s.chip with
            boot := { s.chip.boot with phase := .dead, verified := [false, false], failures := 0, fellFrom := none, slot := 1 }
            pins := { s.chip.pins with canStbyHigh := true, pixPwrEn := false } })) ∧
   (∀ s : State, s.chip.boot.phase = .starting → s.chip.boot.failures < 2 →
     Effect .gnonerStartTimeout s { s.chip with boot := { s.chip.boot with failures := s.chip.boot.failures + 1 } }) ∧
   (∀ s : State, s.chip.boot.phase = .starting → 2 ≤ s.chip.boot.failures → s.chip.boot.fellFrom = none →
     s.chip.boot.slot ≤ 1 → s.chip.boot.verified.getD (1 - s.chip.boot.slot) false = true →
     Effect .gnonerStartTimeout s { s.chip with boot := { s.chip.boot with
       failures := 0, fellFrom := some s.chip.boot.slot, slot := 1 - s.chip.boot.slot } }) ∧
   (∀ s : State, s.chip.boot.phase = .starting → 2 ≤ s.chip.boot.failures →
     (s.chip.boot.fellFrom.isSome = true ∨ s.chip.boot.verified.getD (1 - s.chip.boot.slot) false = false) →
     Effect .gnonerStartTimeout s { s.chip with
       boot := { s.chip.boot with phase := .dead }, pins := { s.chip.pins with canStbyHigh := true, pixPwrEn := false } })) ∧
  (∀ (s : State) (vsol : BitVec 32) (flash : FlashReport) (found : List NvmFind), s.chip.boot.phase = .starting →
     let c0 : Chip := { s.chip with
       out := [], rails := { s.chip.rails with fault := List.replicate 11 false, waiting := [] }
       boot := { s.chip.boot with phase := .ready }, pins := { s.chip.pins with canStbyHigh := false } }
     let c1 := (((((c0.nvmFound found).nvmStart.valuesStart vsol.toInt).startRecords).canRestart.canBootUp).psirelStart.chipStartPark).vsolUpdate
     let c2 := ({ c1 with hk := { c1.hk with on := true } } : Chip).calTrigger.flashStart flash
     let c3 := (s.chip.rails.waiting.filter (fun f => c2.railIn f.1)).foldl Chip.replayFault c2
     Effect (.gnonerReady vsol flash found) s ((s.chip.rails.waiting.filter (fun f => !c2.railIn f.1)).foldl Chip.replayFault
       (if c3.inSafe then c3 else (c3.pixelUp .full).startHeads)))

/-- R467: a SYS_RST, and an undervoltage of a front-die rail (R49), reset the front die: every object reads its default, every record and
every staged write is gone, and pending values outlast a SYS_RST, which cuts no supply, only (R80); the NVM's log, counters and images,
where no write is interrupted (R444), and the levels outside remain. Before Gnoner is ready, any other trip is declared, and waits to act
(the model's choice, assumptions 47 and 115). R467, R468: a signature write to CHIP_RESET restarts the boot ROM with cause 3; straps, time
base, error queues and the NVM log remain, and of the objects only those that describe them (which these are is the model's choice,
assumption 50). -/
def Obligations.ChipAndFrontDieResets : Prop :=
  ((∀ s : State, (∀ b ∈ s.chip.nvm.writing, b.ends ≤ s.chip.mono) → Leaves .sysRst s (fun c =>
     c.boot.phase = .held ∧ c.boot.cause = 2 ∧ c.errq = List.replicate 5 {} ∧ c.staged = [] ∧ c.dram = [] ∧
     c.pendingP = s.chip.pendingP ∧
     c.clk = {} ∧ c.rails.level = s.chip.rails.level ∧ c.nvm.log = s.chip.nvm.log ∧ c.nvm.counters = s.chip.nvm.counters ∧
     c.nvm.imageA = s.chip.nvm.imageA ∧ c.nvm.imageB = s.chip.nvm.imageB ∧
     ∀ k, k ∉ statusKeys → c.get k = objDefault k)) ∧
   (∀ (s : State) (r : Fin 11), 6 ≤ r.val → r.val ≤ 8 → (∀ b ∈ s.chip.nvm.writing, b.ends ≤ s.chip.mono) →
     Leaves (.railFault r false) s (fun c =>
     c.boot.phase = .held ∧ c.boot.cause = 1 ∧ c.errq = List.replicate 5 {} ∧ c.staged = [] ∧ c.pendingP = [] ∧ c.dram = [] ∧
     c.clk = {} ∧ c.rails.level = s.chip.rails.level.set r.val .under ∧ c.nvm.log = s.chip.nvm.log ∧
     ∀ k, k ∉ statusKeys → c.get k = objDefault k)) ∧
   (∀ (s : State) (r : Fin 11) (above : Bool), (r.val < 6 ∨ 8 < r.val ∨ above = true) →
     (s.chip.boot.phase = .verifying ∨ s.chip.boot.phase = .starting) →
     let level := if above then RailLevel.above else RailLevel.under
     ((r.val < 6 ∧ s.chip.pins.pixPwrEn = false) ∨
         (s.chip.rails.fault.getD r.val false = true ∧ s.chip.rails.level.getD r.val .inRange = level) →
       Effect (.railFault r above) s s.chip) ∧
     ((6 ≤ r.val ∨ s.chip.pins.pixPwrEn = true) → s.chip.rails.fault.getD r.val false = false →
       Effect (.railFault r above) s { s.chip with rails := { s.chip.rails with
         fault := s.chip.rails.fault.set r.val true, level := s.chip.rails.level.set r.val level
         waiting := s.chip.rails.waiting ++ [(r.val, above)] } }))) ∧
  (∀ (s : State) (m : Master), s.chip.serves m K.chipReset →
     Leaves (.chipReset m 0x746F6F62) s (fun c =>
       c.boot.phase = .verifying ∧ c.boot.cause = 3 ∧ c.errq = s.chip.errq ∧ c.clk.time = s.chip.clk.time ∧
       c.nvm.log = s.chip.nvm.log ∧ c.pendingP = s.chip.pendingP ∧ c.staged = [] ∧ c.dram = [] ∧
       c.get K.straps = s.chip.get K.straps ∧
       ∀ k, k ∉ statusKeys → k ∉ [K.straps, K.actuatorFitted, K.refclkState, K.nvmGroupWrites, K.nvmHeld, K.nvmState] → c.get k = objDefault k))

/-! ### Supplies and modes -/

/-- R49, R54: a rail that crosses a trip level is known at its new level and no longer faulty once in range; the NVM writes that waited for
VANA, an image among them, begin when it returns, and then the requests of Gnoner's slots that waited; VSOL brings its own state up to date.
R29, R394, R396: at a CLK_TICK without slew and rate correction the time base advances by 1000 ns, and a REFCLK that has been restored takes
over there; the pixel die's copy is corrected when it is more than 5 ns away on either side. R28, R30, R33: the backup oscillator trims the
monitor window within 0.1 % of 1000 periods; a window of edges within 98 to 102 % clears the count of bad ones, one outside counts, and the
second in a row puts the front die on the backup oscillator and REFCLK_STATE to 1; once Gnoner is ready the pixel die then stands down and
record 0x0007 is raised (R479). R32: good windows count to 100, with REFCLK_STATE 2 until the last, which restores REFCLK: its count is the
window from then on (the model's choice, assumption 45), CAN FD and Psirel go on, record 0x0008 tells the time lost, and what called for the
pixel die starts it again. The divider switches where the pixel die starts or runs. -/
def Obligations.SuppliesAndClocks : Prop :=
  (∀ (s : State) (r : Fin 11) (l : RailLevel),
     let c : Chip := { s.chip.fresh with rails := { s.chip.rails with
       level := s.chip.rails.level.set r.val l
       fault := if l = .inRange then s.chip.rails.fault.set r.val false else s.chip.rails.fault } }
     Effect (.railTripCrossing r l) s
       (let d := if r.val = 10 then c.vsolUpdate else if r.val = 8 ∧ l ≠ .under then c.beginImage.nvmVanaBack else c
        if d.vanaLow then d
        else d.nvm.gnonerWaits.foldl (fun (c : Chip) (w : SlotRequest) => serveSlot w c)
          { d with nvm := { d.nvm with gnonerWaits := [] } })) ∧
  ((∀ s : State, s.chip.psi.slew = 0 → s.chip.get K.psirelRateAdj = 0 → s.chip.clk.frac = 0 →
     Leaves .clkTick s (fun c => c.clk.time = (s.chip.clk.time + 1000) % 2 ^ 64 ∧ c.clk.sub = 0 ∧
       c.clk.ticks = s.chip.clk.ticks + 1 ∧ c.clk.pixSkew = s.chip.clk.pixSkew)) ∧
   (∀ s : State, s.chip.clk.rootReturn = true →
     Leaves .clkTick s (fun c => c.clk.rootReturn = false ∧ c.clk.onBackup = false)) ∧
   (∀ s : State, s.chip.pixelRuns = true → 5 < s.chip.clk.pixSkew ∨ s.chip.clk.pixSkew < -5 →
     Effect .timeBaseCompare s { s.chip with clk := { s.chip.clk with pixSkew := 0 } }) ∧
   (∀ s : State, s.chip.pixelRuns = true → -5 ≤ s.chip.clk.pixSkew → s.chip.clk.pixSkew ≤ 5 →
     Effect .timeBaseCompare s s.chip)) ∧
  ((∀ (s : State) (p : BitVec 32), s.chip.refPresent = true →
     Effect (.backupOscTrim p) s { s.chip with clk := { s.chip.clk with window := max 999 (min 1001 p.toNat) } }) ∧
   (∀ (s : State) (e : BitVec 32), s.chip.refPresent = true →
     98 * s.chip.clk.window ≤ e.toNat * 100 → e.toNat * 100 ≤ 102 * s.chip.clk.window →
     Effect (.refclkMonitorWindow e) s { s.chip with clk := { s.chip.clk with badRun := 0 } }) ∧
   (∀ (s : State) (e : BitVec 32), s.chip.refPresent = true → s.chip.clk.badRun = 0 →
     (e.toNat * 100 < 98 * s.chip.clk.window ∨ 102 * s.chip.clk.window < e.toNat * 100) →
     Effect (.refclkMonitorWindow e) s { s.chip with clk := { s.chip.clk with badRun := 1 } }) ∧
   (∀ (s : State) (e : BitVec 32), s.chip.refPresent = true → 1 ≤ s.chip.clk.badRun → s.chip.boot.phase ≠ .ready →
     (e.toNat * 100 < 98 * s.chip.clk.window ∨ 102 * s.chip.clk.window < e.toNat * 100) →
     Leaves (.refclkMonitorWindow e) s (fun c => c.get K.refclkState = 1 ∧ c.clk.onBackup = true ∧ c.clk.badRun = 0 ∧
       c.psi.linkOff = true ∧ c.can.calibrating = true)) ∧
   (∀ (s : State) (e : BitVec 32), s.chip.refPresent = true → 1 ≤ s.chip.clk.badRun → s.chip.boot.phase = .ready →
     (e.toNat * 100 < 98 * s.chip.clk.window ∨ 102 * s.chip.clk.window < e.toNat * 100) →
     let c : Chip := { s.chip.fresh with
       clk := { s.chip.clk with
         onBackup := true, rootReturn := false, sub := (s.chip.clk.sub + 9) / 10, badRun := 0, goodRun := 0, lostAt := s.chip.now }
       psi := { s.chip.psi with linkOff := true }
       can := { s.chip.can with calibrating := true, locked := false, times := [] } }
     Effect (.refclkMonitorWindow e) s (((c.set K.refclkState 1).canStatus.standDown 0).raise 3 0 0xFF 0xFF 0x0007 0 0)) ∧
   (∀ (s : State) (e : BitVec 32), s.chip.refPresent = false → s.chip.clk.rootReturn = false → s.chip.get K.refclkState ≠ 0 →
     930 ≤ e.toNat → e.toNat ≤ 1070 → e.toNat ≤ s.chip.clk.lastEdges + 2 → s.chip.clk.lastEdges ≤ e.toNat + 2 →
     (s.chip.clk.goodRun < 99 → Effect (.refclkMonitorWindow e) s (({ s.chip with clk := { s.chip.clk with
       goodRun := s.chip.clk.goodRun + 1, lastEdges := e.toNat } } : Chip).set K.refclkState 2)) ∧
     (99 ≤ s.chip.clk.goodRun →
       let c := (({ s.chip.fresh with
         clk := { s.chip.clk with rootReturn := true, goodRun := 0, badRun := 0, lastEdges := e.toNat, window := e.toNat }
         psi := { s.chip.psi with linkOff := s.chip.mode.asleep }
         can := { s.chip.can with calibrating := false, locked := false, times := [] } } : Chip).set K.refclkState 0).canStatus
       (s.chip.boot.phase ≠ .ready → Effect (.refclkMonitorWindow e) s c) ∧
       (s.chip.boot.phase = .ready → Effect (.refclkMonitorWindow e) s
         (let d := (if c.cal.running ∧ c.cal.refbuf.isEmpty then c.calBanks else c).raise 3 0 0xFF 0xFF 0x0008
           (((s.chip.now + 2 ^ 64 - s.chip.clk.lostAt) % 2 ^ 64) / 1000000) 0
          match d.wantedUse with
          | .off => d
          | .hostOnly => d.pixelUp .hostOnly
          | .full => d.resume)))) ∧
   (∀ (s : State) (d : Nat), s.chip.clk.divNext = some d → s.chip.pixelOn = true →
     Effect .clkPixDividerSwitch s (({ s.chip with clk := { s.chip.clk with divNext := none } } : Chip).set K.clkPixDiv d)))

/-- R440, R457: a channel that trains at a pixel-die start reads DRAM_CH_STATE 2, and DRAM_INSTALLED and DRAM_CAPACITY (31 of 32 parts of
what is served) follow from its size; with it the isolation of the die ends (the instant is the model's choice, assumption 88). R457, R477:
one that fails its training reads 3 and is recorded (0x3002), and the start goes on in single-channel mode on the other; the only channel's
failure fails the start; one that fails in a restart of MEM restarts the die in single-channel mode. R457, R464: once every channel has
trained and every lane group passes its test, the pixel die runs: its blocks start and its regions read as working; in full use CHIP_MODE 1
and the loads of the sets follow. -/
def Obligations.PixelDieStarts : Prop :=
  (∀ (s : State) (ch : Fin 2) (gib : Fin 9), s.chip.pixelStarts = true → s.chip.mode.single = false → gib.val ≠ 0 →
     s.chip.get (K.dramChState ch) ≠ 3 →
     Effect (.dramTrainingComplete ch true gib) s
       (((({ s.chip with
         mode := { s.chip.mode with trained := s.chip.mode.trained.set ch.val true }
         pins := { s.chip.pins with dieLinkIsolated := false } } : Chip).set K.pixelDieState 1).set (K.dramChState ch) 2).setAll
           [(K.dramInstalled, if bitOf (s.chip.nat K.straps) 5 then gib.val * 2 ^ 30 else 2 * (gib.val * 2 ^ 30)),
            (K.dramCapacity, (2 * (gib.val * 2 ^ 30) / 32 * 31 : Nat)), (K.dramChannels, 2)])) ∧
  (∀ (s : State) (ch : Fin 2) (gib : Fin 9), s.chip.get (K.dramChState ch) ≠ 3 →
     (s.chip.pixelStarts = true → s.chip.mode.single = false →
       let c := (s.chip.fresh.releaseIsolation.channelFailed ch.val).toSingle ch.val
       let size := if gib.val = 0 then c.dramGib else gib.val
       Effect (.dramTrainingComplete ch false gib) s (if size = 0 then c else c.dramSize size)) ∧
     (s.chip.pixelStarts = true → s.chip.mode.single = true → s.chip.mode.onCh = ch.val →
       Effect (.dramTrainingComplete ch false gib) s
         (s.chip.fresh.releaseIsolation.startFailed 3 0x3002 (fun c _ => c.channelFailed ch.val))) ∧
     (s.chip.pixelStarts = false → s.chip.pixelRuns = true → s.chip.regionRestarting 3 = true → s.chip.mode.single = false →
       Effect (.dramTrainingComplete ch false gib) s (s.chip.fresh.singleRestart ch.val))) ∧
  (∀ s : State, s.chip.get K.pixelDieState = 1 → s.chip.mode.single = false → s.chip.mode.trained.all id = true →
     let c := (s.chip.fresh.pixelBlocks.laneTest 0xF 0xF).pixelRegions
     (c.mode.lanes = 0xF ∧ c.mode.single = false ∧ c.get K.pixelDieState = 2 ∧ c.get (K.regionState 1) = 1 ∧
       c.get (K.regionState 2) = 1 ∧ c.get (K.regionState 3) = 1 ∧ c.get K.nucLanesInService = 0xF) ∧
     (s.chip.mode.pixelUse = .hostOnly → Effect (.dramInitComplete 0xF) s c) ∧
     (s.chip.mode.pixelUse = .full → Effect (.dramInitComplete 0xF) s c.pixelInUse))

/-- R15, R52, R472, R480: a supply timeout fails the start of the pixel die with chip-level record 0x0009, and the third in a row leads to
the safe state; a loss of the die link raises record 0x000A and fails the pixel die, or the start that is under way; a fault of one of the
die's rails raises 0x5008 and 0x0009 and does the same (attempt 0 in the record of a fault, a fault during a start as a failed start, and
the recovery as a retry are the model's choice, assumption 47); a second after a failure the pixel die starts again where something calls
for it. -/
def Obligations.PixelDieFailures : Prop :=
  (∀ (s : State) (r : Fin 6), s.chip.pixelStarts = true →
    Effect (.pixSupplyTimeout r) s
      (let n := s.chip.rails.failedStarts + 1
       let c := s.chip.fresh.standDown 3
       let c := ({ c with rails := { c.rails with failedStarts := n } } : Chip).raise 3 0 0xFF 0xFF 0x0009 (r.val + 1) n
       if 3 ≤ n ∨ c.get K.chipMode = 4 then
         ({ c with rails := { c.rails with failedStarts := 0 } } : Chip).safeState 0 0x0009
       else c)) ∧
  (∀ s : State,
    (s.chip.pixelRuns = true → Effect .dieLinkAlignmentLost s (s.chip.fresh.raise 3 0 0xFF 0xFF 0x000A 0 0).pixelFault) ∧
    (s.chip.pixelStarts = true →
      Effect .dieLinkAlignmentLost s (s.chip.fresh.startFailed 0 0x000A (fun c _ => c.raise 3 0 0xFF 0xFF 0x000A 0 0)))) ∧
  (∀ (s : State) (r : Fin 11) (above : Bool), r.val < 6 → s.chip.boot.phase = .ready → s.chip.pins.pixPwrEn = true →
    s.chip.rails.fault.getD r.val false = false →
    let c : Chip := { s.chip.fresh with rails := { s.chip.rails with
      fault := s.chip.rails.fault.set r.val true, level := s.chip.rails.level.set r.val (if above then .above else .under) } }
    let c := (c.raise 1 5 5 0xFF 0x5008 (r.val + 1) (if above then 2 else 1)).emcyFor 0x3000 5 0x5008
    (s.chip.pixelRuns = true → Effect (.railFault r above) s (c.pixelFault.raise 3 0 0xFF 0xFF 0x0009 (r.val + 1) 0)) ∧
    (s.chip.pixelStarts = true →
      Effect (.railFault r above) s (c.startFailed 0 0x0009 (fun c n => c.raise 3 0 0xFF 0xFF 0x0009 (r.val + 1) n)))) ∧
  (∀ s : State, s.chip.get K.pixelDieState = 3 → s.chip.get K.refclkState = 0 → s.chip.get K.throttleLevel ≠ 4 →
    s.chip.boot.phase = .ready →
    (s.chip.wantedUse = .full → Effect .pixelDieRetry s s.chip.fresh.resume) ∧
    (s.chip.wantedUse = .hostOnly → Effect .pixelDieRetry s (s.chip.fresh.pixelUp .hostOnly)) ∧
    (s.chip.wantedUse = .off → Effect .pixelDieRetry s s.chip))

/-- R462, R465, R466: what MODE_REQUEST 1, 2 and 3 do in start-up (held), while running, and in standby, when no transition is
under way. R462, R463: once the heads have stopped and the park has finished, standby reads CHIP_MODE 2, and on the way to deep standby the
controller sleeps: CAN_STBY rises, the link and the rounds stop, HK_VALID reads 0 and CHIP_MODE reads 3. A wake reads CHIP_MODE 2
and MODE_REQUEST 2 again, and starts the rounds and a calibration. -/
def Obligations.OperatingModes : Prop :=
  (∀ (s : State) (m : Master), s.chip.serves m K.modeRequest → s.chip.mode.going = 0 →
     (s.chip.get K.chipMode = 0 →
       (∀ (v : Nat) (i : Instr), (v = 1 ∧ i = .modeRequestRun m) ∨ (v = 2 ∧ i = .modeRequestStandby m) ∨
           (v = 3 ∧ i = .modeRequestDeepStandby m) →
         Effect i s (({ s.chip with mode := { s.chip.mode with heldRequest := v } } : Chip).set K.modeRequest v))) ∧
     (s.chip.get K.chipMode = 1 →
       Effect (.modeRequestRun m) s s.chip ∧
       Effect (.modeRequestStandby m) s (s.chip.fresh.toStandby 2) ∧
       Effect (.modeRequestDeepStandby m) s (s.chip.fresh.toStandby 3)) ∧
     (s.chip.get K.chipMode = 2 →
       Effect (.modeRequestRun m) s s.chip.fresh.toRun ∧
       Effect (.modeRequestStandby m) s s.chip ∧
       (s.chip.get K.pixelDieState = 0 →
         Effect (.modeRequestDeepStandby m) s
           (({ s.chip with mode := { s.chip.mode with going := 3, hostCall := false } } : Chip).set K.modeRequest 3)))) ∧
  ((∀ s : State, s.chip.act.parked = true → (∀ h : Fin 4, s.chip.get (K.runState h) = 0) →
     (s.chip.mode.going = 2 →
       Effect .standbyReached s (({ s.chip with mode := { s.chip.mode with going := 0 } } : Chip).set K.chipMode 2)) ∧
     (s.chip.mode.going = 3 → Leaves .standbyReached s (fun c =>
       c.mode.asleep = true ∧ c.mode.going = 0 ∧ c.pins.canStbyHigh = true ∧ c.psi.linkOff = true ∧ c.hk.on = false ∧
       c.get K.hkValid = 0 ∧ c.get K.chipMode = 3 ∧ c.get K.canState = 4 ∧ c.dram = s.chip.dram))) ∧
   (∀ s : State, s.chip.mode.asleep = true → s.chip.mode.waking = true →
     Effect .mcWakeComplete s
       (let c := ((s.chip.fresh.controllerWakes.canStatus.setAll [(K.chipMode, 2), (K.modeRequest, 2)]).hostP).calTrigger
        if c.mode.hostCall then c.pixelUp .hostOnly else c)) ∧
   (∀ s : State, s.chip.mode.asleep = true → s.chip.get K.spRole = 1 → s.chip.boot.phase = .ready →
     Effect .spsWake s ({ s.chip with sps := { s.chip.sps with bad := true } } : Chip).wake))

/-- R369, R464: PERST_N. Its assertion takes the link down and resets both functions, and in standby the pixel die, which ran for the host
link alone, is powered down again; its deassertion releases WAKE_N, and trains the link where the pixel die is on, starts the pixel die for
the host link in standby, and wakes the controller in deep standby, or once it is reached where the entry is under way (the model's choice,
assumption 50). How much of a running grant had settled when the reset came is open (assumption 74). -/
def Obligations.PerstEdges : Prop :=
  (∀ s : State, s.chip.pins.perstLow = false →
    let c : Chip := { s.chip.fresh with pins := { s.chip.pins with perstLow := true } }
    let r := (c.bump K.pcieResets).dmaOutstanding [1, 3]
    let d := if s.chip.pixelOn then (r.2.linkTo 0).hostResets r.1 else c
    (s.chip.mode.hostCall = false → Effect .perstAssert s d) ∧
    (s.chip.mode.hostCall = true → d.get K.chipMode = 2 → d.mode.going = 0 → d.get K.pixelDieState ≠ 0 →
      Effect .perstAssert s (({ d with mode := { d.mode with hostCall := false } } : Chip).pixelLost 0 false))) ∧
  (∀ s : State, s.chip.pins.perstLow = true →
    let c : Chip := { s.chip.fresh with
      pins := { s.chip.pins with perstLow := false, wakeLow := false }, pcie := { s.chip.pcie with l2 := false } }
    (s.chip.pixelOn = true → Effect .perstDeassert s (c.linkTo 1)) ∧
    (s.chip.pixelOn = false → s.chip.boot.phase = .ready → s.chip.get K.chipMode = 3 → s.chip.mode.asleep = true →
      s.chip.mode.going ≠ 1 →
      Effect .perstDeassert s ({ c with mode := { c.mode with hostCall := true } } : Chip).wake) ∧
    (s.chip.pixelOn = false → s.chip.boot.phase = .ready → s.chip.get K.chipMode = 2 → s.chip.mode.asleep = false →
      (s.chip.mode.going ≠ 1 → s.chip.mode.going ≠ 3 →
        Effect .perstDeassert s (({ c with mode := { c.mode with hostCall := true } } : Chip).pixelUp .hostOnly)) ∧
      (s.chip.mode.going = 3 → Effect .perstDeassert s { c with mode := { c.mode with hostCall := true, waking := true } })))

/-! ### Clocks and regions -/

/-- R470, R471: the ends of a cell reset and of a block reset; a block that cannot recover schedules its region's restart. R471, R472:
REGION_RESET schedules the restart of the region it names, which begins at its boundary, that of HOST after that of MEM where both are due
(R474); at its end the region reads working or degraded, and one that does not end in time takes the chip to its safe state and reads
REGION_STATE 4. -/
def Obligations.Recovery : Prop :=
  ((∀ (s : State) (cell : BitVec 8), Effect (.cellResetComplete 1 1 cell) s { s.chip with pix := { s.chip.pix with laneReset := false } }) ∧
   (∀ (s : State) (r : Fin 5) (b fits : BitVec 8), s.chip.blockResetting (r.val + 1) b.toNat = true →
     let c := (s.chip.fresh.modBlock (r.val + 1) b.toNat (fun h => { h with resetting := false })).resetEnded (r.val + 1)
     Effect (.blockResetComplete r b fits) s
       (if r.val = 0 ∧ 4 ≤ b.toNat ∧ b.toNat ≤ 7 then c.bankResetEnded (b.toNat - 4)
        else if r.val = 3 ∧ b.toNat = 2 then c.dmaBlockReset
        else if (r.val = 3 ∧ b.toNat = 1) ∨ (r.val = 1 ∧ b.toNat = 6) then c.rewriteFrames fits.toNat
        else c)) ∧
   (∀ (s : State) (r : Fin 5) (b : BitVec 8), s.chip.blockResetting (r.val + 1) b.toNat = true →
     (s.chip.regionOf (r.val + 1)).restarting = false → (s.chip.regionOf (r.val + 1)).scheduled = none →
     Effect (.blockResetTimeout r b) s
       (s.chip.modRegion (r.val + 1) (fun x => { x with scheduled := some (b.toNat, 1) })))) ∧
  ((∀ (s : State) (m : Master) (v : BitVec 8), s.chip.serves m K.regionReset → 1 ≤ v.toNat → v.toNat ≤ 5 →
     (s.chip.regionOf v.toNat).restarting = false → (s.chip.regionOf v.toNat).scheduled = none →
     Effect (.regionReset m v) s (s.chip.modRegion v.toNat (fun x => { x with scheduled := some (0xFF, 2) }))) ∧
   (∀ (s : State) (r : Fin 5) (block : Nat), (s.chip.regionOf (r.val + 1)).scheduled = some (block, 2) →
     (s.chip.regionOf (r.val + 1)).restarting = false → s.chip.boot.phase = .ready →
     (r.val = 1 → s.chip.pixelRuns = true) → (∀ q ∈ restartsBefore (r.val + 1), (s.chip.regionOf q).scheduled = none) →
     Effect (.regionRestart r) s (s.chip.fresh.restartRegion (r.val + 1) block 2)) ∧
   (∀ (s : State) (b3 b4 : Nat), (s.chip.regionOf 3).scheduled = some (b3, 2) → (s.chip.regionOf 4).scheduled = some (b4, 2) →
     s.chip.regionRestarting 3 = false → s.chip.regionRestarting 4 = false → s.chip.boot.phase = .ready → s.chip.spm.seq = none →
     Effect (.regionRestart 3) s ((s.chip.fresh.restartRegion 3 b3 2).restartRegion 4 b4 2)) ∧
   (∀ (s : State) (r : Fin 5) (lanesOk : BitVec 4), s.chip.regionRestarting (r.val + 1) = true →
     let c := ((s.chip.fresh.modRegion (r.val + 1) (fun x => { x with restarting := false })).resetEnded (r.val + 1)).restartEnds
       (r.val + 1) lanesOk.toNat
     Effect (.regionRestartComplete r lanesOk) s (c.set (K.regionState r.val) (c.regionWorks (r.val + 1)))) ∧
   (∀ (s : State) (r : Fin 5), s.chip.regionRestarting (r.val + 1) = true →
     let c := (s.chip.fresh.modRegion (r.val + 1) (fun x => { x with restarting := false })).resetEnded (r.val + 1)
     let c := if r.val = 4 then ({ c with boot := { c.boot with hkpRestart := false } } : Chip) else c
     Effect (.regionRestartTimeout r) s ((c.safeState (r.val + 1) 0x00F1).set (K.regionState r.val) 4) ∧
     Leaves (.regionRestartTimeout r) s (fun c => c.get (K.regionState r.val) = 4 ∧ c.get K.chipMode = 4)) ∧
   (∀ s : State, s.chip.boot.phase = .ready → s.chip.mode.asleep = false → s.chip.boot.hkpRestart = false →
     Effect .gnonerWatchdog s ((s.chip.fresh.raise 2 5 0xFF 0xFF 0x500A s.chip.boot.slot 0).countedRestart 5 0xFF)))

/-! ### PCIe -/

/-- R369: a hot reset, the function-level resets and a link down while the endpoint works: the reset is counted, the link is taken down or
trains again, and host work, locks, mailboxes and DMA channels stop as Tables 13.3, 14.5 and 14.9 list, a running grant after what had
settled of it (assumption 74). R371, R372, R413: the link reaches L0 at the lesser of the rate reported and PCIE_SPEED_LIMIT, or at a
low-power state where the operand names one (both the model's choice, assumptions 73 and 111), and what waited is sent; Bus Master Enable,
the power states, PME_En and the AER status bits are as the host writes them; PME_Turn_Off brings the link to L2. -/
def Obligations.PcieLinkAndResets : Prop :=
  (∀ s : State, s.chip.pixelOn = true →
     (s.chip.get K.pcieLinkState ≠ 0 →
       let r := (s.chip.fresh.bump K.pcieResets).dmaOutstanding [1, 3]
       Effect .hotReset s ((r.2.linkTo 1).hostResets r.1)) ∧
     (s.chip.linkUp = true →
       (let r := (s.chip.fresh.bump K.pcieFlrs).dmaOutstanding [1]
        Effect .flrF0 s ((((r.2.modPcie Pcie.reset0).stopHostWork.releaseLocks 3).mbxEmptyAll (List.range 6)).dmaResetSpaces [1] r.1)) ∧
       (s.chip.f1Present = true →
         let r := (s.chip.fresh.bump K.pcieFlrs).dmaOutstanding [3]
         Effect .flrF1 s ((((r.2.modPcie Pcie.reset1).releaseLocks 2).mbxEmptyAll [6, 7]).dmaResetSpaces [3] r.1))) ∧
     (2 ≤ s.chip.get K.pcieLinkState → Effect .linkDown s (((s.chip.fresh.linkTo 0).releaseLocks 3).releaseLocks 2))) ∧
  (∀ s : State, s.chip.pixelOn = true →
     (∀ (sp : Fin 6) (w : Fin 5), s.chip.pins.perstLow = false → s.chip.get K.pcieLinkState ≤ 1 → sp.val ≠ 0 →
       (w.val = 1 ∨ w.val = 2 ∨ w.val = 4) →
       Effect (.pcieLinkUp sp w) s ((((s.chip.fresh.setAll [(K.pcieLinkState, 2),
         (K.pcieLinkSpeed, (min sp.val (s.chip.nat K.pcieSpeedLimit) : Nat)), (K.pcieLinkWidth, w.val)]).modPcie
           (fun (p : Pcie) => { p with l2 := false })).flush0).flush1)) ∧
     (∀ (sp : Fin 6) (w : Fin 5) (power : LinkPower), 2 ≤ s.chip.get K.pcieLinkState →
       Effect (.pcieLinkUp sp w power) s (s.chip.fresh.linkPower power)) ∧
     (s.chip.linkUp = true →
       (Effect .pmeTurnOff s
         (({ s.chip with pcie := { s.chip.pcie with l2 := true } } : Chip).set K.pcieLinkState 6)) ∧
       (Effect .busMasterDisable s { s.chip with pcie := { s.chip.pcie with busMaster0 := false } }) ∧
       (∀ b : Bool, Effect (.pcieConfigWrite (.pmeEnable b)) s { s.chip with pcie := { s.chip.pcie with pmeEn := b } }) ∧
       (∀ mask : BitVec 32, Effect (.pcieConfigWrite (.clearUncorrectable mask)) s
         { s.chip with pcie := { s.chip.pcie with aerUnc := clearBits s.chip.pcie.aerUnc mask.toNat } }) ∧
       (∀ mask : BitVec 32, Effect (.pcieConfigWrite (.clearCorrectable mask)) s
         { s.chip with pcie := { s.chip.pcie with aerCor := clearBits s.chip.pcie.aerCor mask.toNat } }) ∧
       (∀ b : Bool, s.chip.pcie.pend0 = 0 →
         Effect (.pcieConfigWrite (.busMaster false b)) s { s.chip with pcie := { s.chip.pcie with busMaster0 := b } } ∧
         Effect (.pcieConfigWrite (.power false b)) s { s.chip with pcie := { s.chip.pcie with d3hot0 := b } }) ∧
       (∀ b : Bool, s.chip.f1Present = true → s.chip.pcie.pend1 = 0 →
         Effect (.pcieConfigWrite (.busMaster true b)) s { s.chip with pcie := { s.chip.pcie with busMaster1 := b } } ∧
         Effect (.pcieConfigWrite (.power true b)) s { s.chip with pcie := { s.chip.pcie with d3hot1 := b } }) ∧
       (∀ l0s l1 l12 : Bool, Effect (.pcieConfigWrite (.aspm l0s l1 l12)) s
         (({ s.chip.fresh with pcie := { s.chip.pcie with aspmL0s := l0s, aspmL1 := l1, aspmL12 := l12 } } : Chip).linkPower .l0))))

/-- R367: unmasking a vector whose pending bit is set sends one message, and the pending bit is 0 again. R368: the event bits written as 1
are cleared, but for those that an event of the same cycle sets (R82; CAN_STATE stands as its error counts do). R372: received errors are
logged in AER and counted; the numbers of the AER bits, that of a poisoned write among them, are the model's choice (assumption 19). -/
def Obligations.PcieInterruptsAndErrors : Prop :=
  ((∀ (s : State) (v : Fin 64), s.chip.pixelOn = true → s.chip.linkUp = true → s.chip.canSend0 = true →
     s.chip.pcie.pend0 = 2 ^ v.val →
     Answer (.msixVectorUnmask false v) s [.msix false v.val]
       { s.chip with pcie := { s.chip.pcie with mask0 := putBit s.chip.pcie.mask0 v.val false } }) ∧
   (∀ (s : State) (v : Fin 64), s.chip.pixelOn = true → s.chip.linkUp = true → s.chip.canSend1 = true → s.chip.f1Present = true →
     v.val < 8 → s.chip.pcie.pend1 = 2 ^ v.val →
     Answer (.msixVectorUnmask true v) s [.msix true v.val]
       { s.chip with pcie := { s.chip.pcie with mask1 := putBit s.chip.pcie.mask1 v.val false, pend1 := 0 } })) ∧
  (∀ (s : State) (m : Master) (v : BitVec 8), s.chip.serves m K.pcieEventAck → s.chip.statusRight →
     (s.chip.get K.canState = 1 ∨ s.chip.get K.canState = 2 → s.chip.get K.canState = s.chip.can.level) →
     Leaves (.pcieEventAck m v) s (fun c =>
       c.get K.pcieEventStatus = (Nat.lor (clearBits (s.chip.nat K.pcieEventStatus) v.toNat)
         (Nat.land (s.chip.nat K.pcieEventStatus) (s.chip.raisedBits K.pcieEventStatus)) : Nat) ∧ c.body = s.chip.body ∧
       ∀ k, k ≠ K.pcieEventStatus → c.get k = s.chip.get k)) ∧
  (∀ s : State, s.chip.pixelOn = true → s.chip.get K.pcieLinkState ≠ 0 →
     (∀ b : Fin 16, b.val ∈ aerCorBits → Effect (.pcieErrorReceived (.correctable b)) s
       (({ s.chip with pcie := { s.chip.pcie with aerCor := putBit s.chip.pcie.aerCor b.val true } } : Chip).bump K.pcieCorrectable)) ∧
     (∀ b : Fin 32, b.val ∈ aerUncBits → Effect (.pcieErrorReceived (.uncorrectable b)) s
       (({ s.chip with pcie := { s.chip.pcie with aerUnc := putBit s.chip.pcie.aerUnc b.val true } } : Chip).bump
         K.pcieUncorrectable)) ∧
     Effect (.pcieErrorReceived .poisonedWrite) s
       ((({ s.chip with pcie := { s.chip.pcie with aerUnc := putBit s.chip.pcie.aerUnc 12 true } } : Chip).bump
         K.pciePoisonedRx).bump K.pcieUncorrectable) ∧
     Effect (.pcieErrorReceived .retrain) s (s.chip.bump K.pcieRetrains))

/-- R366: BAR2 reaches device DRAM at the base offset. A write inside DRAM_CAPACITY, below the reserved area and outside the images
of the sets changes exactly its bytes; a read there answers the bytes that memory holds and changes nothing. -/
def Obligations.Bar2ReachesDram : Prop :=
  (∀ (s : State) (off : BitVec 26) (data : List Byte), s.chip.pixelOn = true → s.chip.linkUp = true → s.chip.pcie.d3hot0 = false →
    let a := s.chip.nat K.pcieBar2Base + off.toNat
    a + data.length ≤ s.chip.reservedBase → s.chip.imagesIn a data.length = [] →
    Effect (.bar2Access off (.write data false)) s { s.chip with dram := s.chip.dram.write a data }) ∧
  (∀ (s : State) (off : BitVec 26) (len : BitVec 13), s.chip.pixelOn = true → s.chip.linkUp = true → s.chip.pcie.d3hot0 = false →
    let a := s.chip.nat K.pcieBar2Base + off.toNat
    a + len.toNat ≤ s.chip.reservedBase → s.chip.imagesIn a len.toNat = [] →
    Answer (.bar2Access off (.read len [])) s [.bar2 (s.chip.dram.read a len.toNat) false] s.chip)

/-! ### CAN FD -/

/-- R375, R377: NMT commands enter operational, stopped and pre-operational; reset communication ends in pre-operational; a dominant level
wakes a sleeping controller. R377, R379, R381: the heartbeat, the next queued EMCY message at the end of the inhibit time, and a transmit
PDO at its event timer or at the end of its inhibit time are sent while the controller may transmit. R374, R379: a bus error adds its
weight to the count of its direction; a transmit count past 255 takes the controller off the bus, which is counted, until the recovery
sequence clears both counts (the weights, the cap of 255 and the limit of bus-off are those of CAN, the model's choice, assumption 14). -/
def Obligations.CanNode : Prop :=
  ((∀ s : State, s.chip.nmtListens = true →
     Effect .nmtStartRemote s (s.chip.set K.nmtState 5) ∧
     Effect .nmtStopRemote s (s.chip.set K.nmtState 4) ∧
     Effect .nmtEnterPreOperational s (s.chip.set K.nmtState 0x7F) ∧
     Effect .nmtResetCommunication s s.chip.fresh.resetCommunication ∧
     Leaves .nmtResetCommunication s (fun c => c.get K.nmtState = 0x7F)) ∧
   (∀ s : State, s.chip.mode.asleep = true → s.chip.boot.phase = .ready →
     Effect .canWake s { s.chip with mode := { s.chip.mode with waking := true } })) ∧
  (∀ s : State, s.chip.canMayTransmit = true →
     (s.chip.nmtListens = true → s.chip.get K.heartbeatTime ≠ 0 →
       Answer .heartbeat s [.can (0x700 + s.chip.nat K.canNodeId) [BitVec.ofNat 8 (s.chip.nat K.nmtState)]
         s.chip.canSwitches] s.chip) ∧
     (∀ (e : Emcy) (rest : List Emcy), s.chip.can.emcyQueue = e :: rest → s.chip.emcyAllowed = true →
       Answer .emcyInhibitEnd s [.can (s.chip.nat K.emcyCobId % 2048) e.bytes s.chip.canSwitches] s.chip) ∧
     (∀ n : Fin 4, s.chip.get (K.tpdoEventTimer n) ≠ 0 → s.chip.boot.phase = .ready → s.chip.mode.asleep = false →
       s.chip.tpdoValid n = true → s.chip.boot.hkpRestart = false → s.chip.get K.nmtState = 5 →
       (s.chip.can.tpdo.getD n.val default).inhibited = false →
       Answer (.tpdoEventTimer n) s [.can (s.chip.nat (K.tpdoCobId n) % 2048) (s.chip.fresh.tpdoData n) s.chip.canSwitches]
         s.chip) ∧
     (∀ n : Fin 4, (s.chip.can.tpdo.getD n.val default).inhibited = true → (s.chip.can.tpdo.getD n.val default).waiting = true →
       s.chip.get K.nmtState = 5 → s.chip.boot.hkpRestart = false →
       let c := s.chip.fresh.modCan (fun k => { k with
         tpdo := modAt k.tpdo n.val (fun t => { t with inhibited := false, waiting := false }) })
       Answer (.tpdoInhibitEnd n) s [.can (c.nat (K.tpdoCobId n) % 2048) (c.tpdoData n) s.chip.canSwitches] s.chip)) ∧
  ((∀ (s : State) (w : BitVec 8), s.chip.canOnBus = true →
     Leaves (.canErrorDetected false w) s (fun c =>
       c.can.rec' = min (s.chip.can.rec' + w.toNat) 255 ∧ c.get K.canRec = (min (s.chip.can.rec' + w.toNat) 255 : Nat))) ∧
   (∀ (s : State) (w : BitVec 8), s.chip.canOnBus = true → s.chip.can.calibrating = false → 256 ≤ s.chip.can.tec + w.toNat →
     Leaves (.canErrorDetected true w) s (fun c => c.can.off = true ∧ c.get K.canState = 3 ∧
       c.get K.canBusOffs = min (s.chip.get K.canBusOffs + 1) 0xFFFFFFFF)) ∧
   (∀ s : State, s.chip.can.off = true → s.chip.pins.canStbyHigh = false → s.chip.can.calibrating = false →
     Leaves .canBusOffRecovery s (fun c => c.can.off = false ∧ c.can.rec' = 0 ∧ c.get K.canState = 0 ∧ c.get K.canRec = 0)))

/-! ### Psirel -/

/-- R390, R391, R396: the master sends a mark for the latest multiple of 1 ms with its own return measurement, and a node that is no
member takes a time that waits in PSIREL_TIME_SET. R391, R394: a locked member takes a valid mark that lies within 1 µs: it stays locked,
reports the error and the hops, and steers its rate by the proportional and integral loop, within 700 ppm (how the error is formed from the
bytes of a mark and the start symbols are the model's choice, assumptions 42 and 43). Without a valid mark for 3 ms
it enters holdover, which is counted. -/
def Obligations.PsirelMarks : Prop :=
  ((∀ s : State, s.chip.get K.psirelRole = 1 → s.chip.psiLinkOn = true → s.chip.psi.setTime = none →
     Answer .psirelMarkSend s [.psirel 0x3C (psiMarkBytes true (s.chip.now / 1000000 * 1000000) 0 s.chip.psi.ownC.1 0
       (s.chip.nat K.psirelTimescale + s.chip.psi.ownC.2 + s.chip.psi.stepSeq * 16))] s.chip) ∧
   (∀ (s : State) (t : Nat), s.chip.get K.psirelRole = 0 → s.chip.psi.setTime = some t → s.chip.clk.sub = 0 → t < 2 ^ 64 →
     Leaves .psirelMarkSend s (fun c => c.clk.time = t ∧ c.psi.setTime = none ∧ c.psi.stepSeq = nextSeq s.chip.psi.stepSeq 15)) ∧
   (∀ (s : State) (m : Master) (v : BitVec 64), s.chip.serves m K.psirelTimeSet → v.toNat % 1000000 = 0 →
     s.chip.get K.psirelRole ≠ 2 →
     Effect (.psirelTimeSet m v) s { s.chip with psi := { s.chip.psi with setTime := some v.toNat } }) ∧
   (∀ (s : State) (m : Master) (v : BitVec 32), s.chip.serves m K.psirelTimeAdjust → -1000000 ≤ v.toInt → v.toInt ≤ 1000000 →
     s.chip.get K.psirelRole ≠ 2 →
     Effect (.psirelTimeAdjust m v) s { s.chip with psi := { s.chip.psi with slew := s.chip.psi.slew + v.toInt * 1000000 } })) ∧
  ((∀ (s : State) (mk : PsiMark), s.chip.get K.psirelRole = 2 → s.chip.psiLinkOn = true → s.chip.get K.psirelState = 4 →
     mk.crcOk = true → mk.hops.toNat < 64 → 1000000 ≤ mk.t.toNat → s.chip.psi.lastT = some (mk.t.toNat - 1000000) →
     -16000 ≤ s.chip.markError mk → s.chip.markError mk ≤ 16000 →
     let e := s.chip.markError mk
     let integ := clampI (s.chip.psi.integ + rne (e * 1000) 10) (-700000) 700000
     Leaves (.psirelMarkReceived mk) s (fun c =>
       c.get K.psirelState = 4 ∧ c.get K.psirelError = e ∧ c.get K.psirelHops = mk.hops.toNat + 1 ∧
       c.psi.lastT = some mk.t.toNat ∧ c.psi.integ = integ ∧
       c.get K.psirelRateAdj = -(clampI (rne (e * 1000) 6 + integ) (-700000) 700000) ∧ c.clk = s.chip.clk)) ∧
   (∀ s : State, s.chip.get K.psirelRole = 2 → s.chip.get K.psirelState = 4 →
     Leaves .psirelHoldover s (fun c =>
       c.get K.psirelState = 5 ∧ c.get K.psirelHoldovers = min (s.chip.get K.psirelHoldovers + 1) 0xFFFFFFFF)))

/-- R393: the return measurement and the mean published of it. R398, R399: a wake gap of the master, the wake it causes, and the faults of
the input. -/
def Obligations.PsirelLink : Prop :=
  (∀ s : State, s.chip.get K.psirelRole ≠ 0 → s.chip.psiLinkOn = true → s.chip.get K.psirelRetEnable ≠ 0 →
     (∀ x : BitVec 16, Effect (.psirelReturnMeasure (.valid x)) s
       (({ s.chip with psi := { s.chip.psi with
         lastC := some x.toNat, lastRet := 0, returns := (x.toNat :: s.chip.psi.returns).take 64 } } : Chip).set K.psirelRetState 0)) ∧
     (s.chip.psi.returns ≠ [] → Effect .psirelCableDelayPublish s
       (s.chip.set K.psirelCableDelay (rneDiv (sumN s.chip.psi.returns) s.chip.psi.returns.length)))) ∧
  ((∀ (s : State) (m : Master), s.chip.serves m K.psirelWake → s.chip.get K.psirelRole = 1 → s.chip.psiLinkOn = true →
     Answer (.psirelWake m 1) s [.psirelGap] s.chip) ∧
   (∀ s : State, s.chip.mode.asleep = true → s.chip.boot.phase = .ready →
     Effect .psirelWakeDetect s { s.chip with mode := { s.chip.mode with waking := true } }) ∧
   (∀ (s : State) (n : BitVec 8), s.chip.get K.psirelRole = 2 → s.chip.psiLinkOn = true →
     Effect (.psirelInputInvalid n) s (({ s.chip with psi := { s.chip.psi with
       inputInvalid := s.chip.psi.inputInvalid || decide (n.toNat = 0 ∨ 16 < n.toNat) } } : Chip).bumpBy K.psirelCodeErrors n.toNat) ∧
     Effect .psirelInInverted s (s.chip.set K.psirelInInverted 1)))

/-- R385, R397: what a trigger does in each role. The master sends it with its lead and takes it itself, and a periodic one for the latest
period target at or before the lead; a member forwards every trigger that arrives, and of those addressed to it, to all nodes or to its own,
keeps one until its target time and counts one that comes too late; CAN_TRIGGER of a member is only counted. Which heads take part is judged
when the trigger arrives, and the start symbol is K28.3 (the model's choice, assumptions 42 and 43). -/
def Obligations.Triggers : Prop :=
  (∀ (s : State) (m : Master) (v : BitVec 32), triggerInvalid v.toNat = false →
    (s.chip.serves m K.psirelTrigger → s.chip.get K.psirelRole = 1 →
      Effect (.psirelTrigger m v) s (s.chip.fresh.sendTrigger (s.chip.now + s.chip.nat K.psirelTriggerLead)
        (bits v.toNat 13 0) (bits v.toNat 23 16))) ∧
    (s.chip.serves m K.canTrigger → s.chip.get K.psirelRole = 0 →
      Effect (.canTrigger m v) s (s.chip.fresh.acceptTrigger (s.chip.now + s.chip.nat K.psirelTriggerLead)
        (bits v.toNat 13 0) (bits v.toNat 23 16))) ∧
    (s.chip.serves m K.canTrigger → s.chip.get K.psirelRole = 1 →
      Effect (.canTrigger m v) s (s.chip.fresh.sendTrigger (s.chip.now + s.chip.nat K.psirelTriggerLead)
        (bits v.toNat 13 0) (bits v.toNat 23 16))) ∧
    (s.chip.serves m K.canTrigger → s.chip.get K.psirelRole = 2 →
      Effect (.canTrigger m v) s (s.chip.bump K.canTriggersIgnored))) ∧
  (∀ (s : State) (target : Nat) (k : Int), s.chip.get K.psirelRole = 1 → s.chip.nat K.psirelTrigPeriod ≠ 0 →
    let ahead := s.chip.now + s.chip.nat K.psirelTriggerLead
    (target : Int) = s.chip.get K.psirelTrigPhase + k * s.chip.nat K.psirelTrigPeriod →
    target ≤ ahead → ahead < target + s.chip.nat K.psirelTrigPeriod →
    Effect .psirelPeriodicTrigger s (s.chip.fresh.sendTrigger target 0 (s.chip.nat K.psirelTrigGroups))) ∧
  (∀ (s : State) (t : PsiTrigger), s.chip.get K.psirelRole = 2 → s.chip.psiLinkOn = true →
    let msg := OutMsg.psirel 0x7C (psiTriggerBytes t.crcOk t.target.toNat t.node.toNat t.mask.toNat t.seq.toNat)
    (t.crcOk = false ∨ (t.node.toNat ≠ 0 ∧ t.node.toNat ≠ s.chip.nat K.psirelNode) →
      Answer (.psirelTriggerReceived t) s [msg] { s.chip with psi := { s.chip.psi with inputInvalid := false } }) ∧
    (t.crcOk = true → t.node.toNat = 0 ∨ t.node.toNat = s.chip.nat K.psirelNode →
      (t.target.toNat < s.chip.now → Answer (.psirelTriggerReceived t) s [msg]
        (({ s.chip with psi := { s.chip.psi with inputInvalid := false } } : Chip).bump K.psirelTriggersLate)) ∧
      (s.chip.now ≤ t.target.toNat → s.chip.triggeredHeads t.mask.toNat = 0 →
        Answer (.psirelTriggerReceived t) s [msg] { s.chip with psi := { s.chip.psi with inputInvalid := false } })) ∧
    (t.crcOk = true → t.node.toNat = 0 ∨ t.node.toNat = s.chip.nat K.psirelNode → s.chip.now ≤ t.target.toNat →
      s.chip.triggeredHeads t.mask.toNat ≠ 0 →
      Answer (.psirelTriggerReceived t) s [msg] { s.chip with psi := { s.chip.psi with
        inputInvalid := false
        waiting := s.chip.psi.waiting ++ [{ target := t.target.toNat, heads := s.chip.triggeredHeads t.mask.toNat }] } }))

/-! ### Housekeeping, thermal and calibration -/

/-- R162, R165, R168: one trigger comes with every 1000th CLK_TICK; the row at any other does nothing (the model's choice, assumptions 1 and
7). One that finds a converter still in the previous round is an overrun: HK_ROUND_OVERRUNS increments, and no round starts; the round that
runs goes on. One that finds both converters free of round work starts the next round, with HK_AVERAGE and HK_SETTLE as they read; a
converter with an urgent conversion joins it when that ends. -/
def Obligations.RoundTriggers : Prop :=
  (∀ s : State, s.chip.hk.on = true → s.chip.clk.ticks % 1000 = 0 → s.chip.hk.round = true →
    Effect .hkRoundTrigger s (s.chip.bump K.hkRoundOverruns)) ∧
  (∀ s : State, s.chip.hk.on = true → s.chip.clk.ticks % 1000 = 0 → s.chip.hk.round = false →
    Effect .hkRoundTrigger s { s.chip with hk := { s.chip.hk with
      round := true, roundTime := s.chip.now, average := s.chip.nat K.hkAverage, settle := s.chip.nat K.hkSettle
      busy := s.chip.hk.urgent.map (fun (u : Option Urgent) => u.isNone)
      waits := s.chip.hk.urgent.map (fun (u : Option Urgent) => u.isSome)
      starts := [s.chip.mono, s.chip.mono], judged := [] } }) ∧
  (∀ s : State, s.chip.clk.ticks % 1000 ≠ 0 → Effect .hkRoundTrigger s s.chip)

/-- R168, R469: a converter that ends its part is not busy, and one whose conversion hangs resets, which ends an urgent conversion on it
without a value. R163, R164, R172, R192: at the end of both
parts of a round its values are published at once, and then the FPA temperatures, the sensors, the limits, the shutdown, the throttle
level, the refresh of each channel, the head currents, VREF_EXT and the calibration follow. -/
def Obligations.HousekeepingRounds : Prop :=
  ((∀ (s : State) (k : Fin 2), Effect (.hkConverterRoundEnd k) s { s.chip.hkJudge with hk := { s.chip.hkJudge.hk with
     busy := modAt s.chip.hkJudge.hk.busy k.val (fun _ => false) } }) ∧
   (∀ (s : State) (k : Fin 2), s.chip.hkBusy k.val = true → s.chip.cellHeld 5 1 = false →
     let c := (s.chip.fresh.cellExpired 5 1 k.val 0x5007 k.val 0).modHk (fun (x : Hk) => { x with
       reset := modAt x.reset k.val (fun _ => some s.chip.mono) })
     (at' s.chip.hk.urgent k.val = none → Effect (.hkConverterWatchdog k) s c) ∧
     (∀ u : Urgent, at' s.chip.hk.urgent k.val = some u →
       Effect (.hkConverterWatchdog k) s ((c.urgentLeave k.val).set K.hkUrgentStatus (u.seq * 2 ^ 16 + 4 : Nat))))) ∧
  (∀ (s : State) (hk0 hk1 : List (BitVec 22)) (mr0 mr1 : Option (BitVec 5)) (inputs : List (List Int)), s.chip.hk.on = true →
     s.chip.hk.round = true → s.chip.hk.waits.any id = false →
     let sums := fun (k : Nat) (l : List (BitVec 22)) =>
       if inputs = [] then l.map (·.toNat) else hkSums k s.chip.hk.average (inputs.drop (30 * k))
     let published := s.chip.fresh.hkPublish (s.chip.fresh.hkValues 0 (sums 0 hk0) ++ s.chip.fresh.hkValues 1 (sums 1 hk1))
     let judged := ((((published.tfpaRound 0).tfpaRound 1).tfpaRound 2).tfpaRound 3).sensorRound.limitsRound.shutdownRound.throttleRound
     let refreshed := (judged.refreshRound 0 (mr0.map (·.toNat))).refreshRound 1 (mr1.map (·.toNat))
     Effect (.hkRoundComplete hk0 hk1 mr0 mr1 inputs) s
       ((((refreshed.headCurrents 0).headCurrents 1).headCurrents 2).headCurrents 3).vrefRound.calRound.nvmHoldCheck)

/-- R166, R167: an accepted urgent request takes the next sequence and settles from now; one on a busy converter is dropped and counted,
and one of a member that cannot be measured then, or on a converter that was reset in the round that runs, is invalid. Its end gives the
value, of the code that the input gives or of a code named (the model's choice, assumption 111), and the time. -/
def Obligations.UrgentConversions : Prop :=
  (∀ (s : State) (m : Master) (v : BitVec 16), s.chip.serves m K.hkUrgentRequest → v.toNat % 256 ≤ 31 →
    let ch := v.toNat % 256
    let seq := nextSeq s.chip.hk.urgentSeq 0xFFFF
    let c : Chip := { s.chip with hk := { s.chip.hk with urgentSeq := seq } }
    (v.toNat / 256 < hkCount ch → s.chip.hkMeasures ch = true → s.chip.hkBusy (ch / 16) = false →
      Effect (.hkUrgentRequest m v) s (({ c with hk := { c.hk with urgent := modAt c.hk.urgent (ch / 16) (fun _ => some {
        ch := ch, member := v.toNat / 256, time := (s.chip.now + s.chip.nat K.hkSettle) % 2 ^ 64, seq := seq }) } } : Chip).set
        K.hkUrgentStatus (seq * 2 ^ 16 + 1 : Nat))) ∧
    (v.toNat / 256 < hkCount ch → s.chip.hkMeasures ch = true → s.chip.hkBusy (ch / 16) = true →
      (at' s.chip.hk.busy (ch / 16) = true → s.chip.hkWasReset (ch / 16) = false) →
      Effect (.hkUrgentRequest m v) s ((c.set K.hkUrgentStatus (seq * 2 ^ 16 + 3 : Nat)).bump K.hkUrgentDropped)) ∧
    (hkCount ch ≤ v.toNat / 256 ∨ s.chip.hkMeasures ch = false ∨
        (at' s.chip.hk.busy (ch / 16) = true ∧ s.chip.hkWasReset (ch / 16) = true) →
      Effect (.hkUrgentRequest m v) s (c.set K.hkUrgentStatus (seq * 2 ^ 16 + 4 : Nat)))) ∧
  (∀ (s : State) (k : Fin 2) (code : BitVec 16) (input : Option Int) (u : Urgent), at' s.chip.hk.urgent k.val = some u →
    let read := match input with
      | some x => hkCode x (hkFull u.ch u.member)
      | none => code.toNat
    Effect (.hkUrgentComplete k code input) s ((s.chip.urgentLeave k.val).setAll [(K.hkUrgentStatus, (u.seq * 2 ^ 16 + 2 : Nat)),
      (K.hkUrgentResult, hkValue read 1 (hkFull u.ch u.member)), (K.hkUrgentTime, u.time)]))

/-- R173, R177, R180, R184, R186: the level steps down by one after a dwell below the hysteresis with no floor in force; a sensor's oldest
floor ends; L4 is left to L3 with no valid front sensor above the exit temperature; a comparator whose element has crossed its trip
voltage trips the shutdown with the element's reading, and one whose element has not does nothing. -/
def Obligations.ThrottleAndTrip : Prop :=
  (∀ s : State, 0 < s.chip.nat K.throttleLevel → s.chip.nat K.throttleLevel < 4 → s.chip.thermal.below = true →
    s.chip.throttleFloor < s.chip.nat K.throttleLevel →
    Leaves .throttleStepDown s (fun c => c.get K.throttleLevel = s.chip.get K.throttleLevel - 1 ∧ c.thermal.below = false ∧
      c.thermal.floors = s.chip.thermal.floors ∧ c.heads = s.chip.heads ∧ c.dram = s.chip.dram)) ∧
  (∀ (s : State) (j : Fin 17), Effect (.throttleFloorEnd j) s { s.chip with thermal := { s.chip.thermal with
    floors := s.chip.thermal.floors.eraseP (fun (f : Nat × Nat) => decide (f.1 = j.val)) } }) ∧
  (∀ s : State, s.chip.nat K.throttleLevel = 4 → s.chip.frontSensors.isEmpty = false →
    (∀ j ∈ s.chip.frontSensors, s.chip.get (K.sensorTemp j) ≤ s.chip.get K.thrL4Exit) → s.chip.throttleFloor < 4 →
    Leaves .l4Exit s (fun c => c.get K.throttleLevel = 3 ∧ c.heads = s.chip.heads ∧
      (s.chip.get K.refclkState ≠ 0 → c.mode = s.chip.mode))) ∧
  (∀ (s : State) (die : Fin 2) (v : BitVec 32), s.chip.boot.phase ≠ .held → (die.val = 1 → s.chip.pixelOn = true) →
    s.chip.mode.asleep = false →
    (s.chip.levelCrossed die.val v.toInt = true → Effect (.levelTrip die v) s (s.chip.fresh.thermalShutdown (12 + die.val)
      (dieReading v.toInt (s.chip.get (K.dieSensorV25 (11 + die.val))) (s.chip.get (K.dieSensorSlope (11 + die.val)))))) ∧
    (s.chip.levelCrossed die.val v.toInt = false → Effect (.levelTrip die v) s s.chip))

/-- R185, R186: a write of a value of its range to THR_ENTER, THR_L4_EXIT or THERMAL_SHUTDOWN is taken where the resulting levels rise,
leave 5 °C below the shutdown and twice the hysteresis above the exit, and is else refused with 0x0604_0043; a shutdown temperature that is
taken sets the trip voltages of the comparators. -/
def Obligations.ThrottleThresholds : Prop :=
  ∀ (s : State) (m : Master) (idx : BitVec 16) (sub : BitVec 8) (v : Slot) (r : Row) (x : Int),
    let key := keyOf idx sub
    key ∈ [K.thrEnter 0, K.thrEnter 1, K.thrEnter 2, K.thrEnter 3, K.thrL4Exit, K.thermalShutdown] →
    s.chip.serves m key → rowAt? key = some r → r.valueOf? v = some x → r.chk.abort? x = none →
    let level := fun (j : Nat) => if key = K.thrEnter j then x else s.chip.get (K.thrEnter j)
    let shutdown := if key = K.thermalShutdown then x else s.chip.get K.thermalShutdown
    let exit := if key = K.thrL4Exit then x else s.chip.get K.thrL4Exit
    let ordered := level 0 < level 1 ∧ level 1 < level 2 ∧ level 2 < level 3 ∧ level 3 ≤ shutdown - 320 ∧
      exit ≤ level 3 - 2 * s.chip.get K.thrHyst
    (ordered → Effect (.objectWrite m idx sub .full v) s
      (if key = K.thermalShutdown then (s.chip.set key x).setTrips else s.chip.set key x)) ∧
    (¬ ordered → Effect (.objectWrite m idx sub .full v) s (s.chip.noteAbort m key 0x06040043))

/-- R193 to R196, R199: a run is held by a command, starts with VREF_EXT in order and takes the buffers, the bank converters and the leap
targets in turn, while REFCLK is there (R31); a converter on the calibration node takes its new trims when its calibration ends, and one
that a spare stands in for keeps them until it has its slot back; a run ends when no target is left; a revert outside a run exchanges the
trims. R119, R120, R129, R136: once in a frame, the leap line of a running head tests a tap, compares a reference buffer, makes one
calibration step and reads the gap registers, in this order. -/
def Obligations.CalibrationAndLeapLine : Prop :=
  ((∀ (s : State) (m : Master), s.chip.serves m K.calCommand → s.chip.cal.running = false → s.chip.vrefGood = true →
     Effect (.calCommand m) s (({ s.chip with cal := { s.chip.cal with held := true } } : Chip).set K.calState 0)) ∧
   (∀ (s : State) (r0 r1 : CalStep) (t : Int), s.chip.cal.held = true → s.chip.cal.running = false → s.chip.vrefGood = true →
     s.chip.get K.refclkState = 0 →
     s.chip.frontMean = some t → (∀ r : Fin 2, (s.chip.bufferHeads r.val).isEmpty = false) →
     let c := s.chip.fresh.set K.calRunTemp t
     Effect (.calRunStart r0 r1) s (({ c with cal := { c.cal with
       running := true, held := false, stopping := false, refbuf := [0, 1], conv := tab 4 c.bankTargets
       leap := tab 4 (fun h => if c.headImages h then c.leapTargets h else []) } } : Chip).calBanks.refreshCal)) ∧
   (∀ (s : State) (b : Fin 4) (off gain : BitVec 10) (oc gc : BitVec 32) (j : Nat) (rest : List Nat) (x : Subst),
     at' s.chip.cal.conv b.val = j :: rest → s.chip.cal.running = true → s.chip.cal.refbuf = [] →
     s.chip.get (K.convState b.val j) ≠ 5 → s.chip.get K.refclkState = 0 → (s.chip.bank b.val).sub = some x → x.conv = j →
     x.phase = .standing ∨ x.phase = .rejoined → (s.chip.bank b.val).fresh = none →
     let t : Trim := {
       off := off.toNat, gain := gain.toNat, oc := clampI oc.toInt (-2048) 2047, gc := clampI gc.toInt 0x6000 0xA000 }
     Effect (.converterCalibrationComplete b off gain oc gc) s
       (s.chip.modBank b.val (fun (k : ConvBank) => { k with fresh := some (j, t) }))) ∧
   (∀ (s : State) (b : Fin 4) (off gain : BitVec 10) (oc gc : BitVec 32) (j : Fin 34) (rest : List Nat),
     at' s.chip.cal.conv b.val = j.val :: rest → s.chip.cal.running = true → s.chip.cal.refbuf = [] →
     s.chip.get (K.convState b j) = 4 → (s.chip.bank b.val).sub = none → s.chip.get K.refclkState = 0 →
     Leaves (.converterCalibrationComplete b off gain oc gc) s (fun c =>
       c.get (K.convTrimOffset b j) = off.toNat ∧ c.get (K.convTrimGain b j) = gain.toNat ∧
       c.get (K.convOffset b j) = clampI oc.toInt (-2048) 2047 ∧ c.get (K.convGain b j) = clampI gc.toInt 0x6000 0xA000 ∧
       c.get (K.calCountConv b j) = min (s.chip.get (K.calCountConv b j) + 1) 0xFFFFFFFF ∧
       c.get (K.calTimeConv b j) = s.chip.now)) ∧
   (∀ s : State, s.chip.cal.running = true → s.chip.cal.stopping = false → s.chip.calDone = true →
     s.chip.get K.vrefState = 0 → (s.chip.cal.held = true → s.chip.vrefGood = true) →
     Effect .calRunComplete s
       (({ s.chip.bump K.calRuns with cal := { s.chip.cal with running := false } } : Chip).setAll
         [(K.calLastRunTime, s.chip.now), (K.calState, 0)])) ∧
   (∀ (s : State) (m : Master) (h : Fin 4), s.chip.serves m K.calRevert → s.chip.cal.running = false →
     s.chip.solsticeRuns h.val = false →
     (s.chip.get (K.runState h) ≠ 0 →
       Effect (.calRevert m (BitVec.ofNat 8 h.val)) s ((s.chip.bump K.calReverts).modHead h.val (fun (p : HeadPort) =>
         { p with revert := !p.revert, calGap := true }))) ∧
     (s.chip.get (K.runState h) = 0 →
       Effect (.calRevert m (BitVec.ofNat 8 h.val)) s ((s.chip.fresh.bump K.calReverts).revertHead h.val)))) ∧
  (∀ (s : State) (h : Fin 4) (resp : List (BitVec 32)) (step refStep : Option CalStep),
     (s.chip.head h.val).timing = true → (s.chip.head h.val).gap = false →
     s.chip.get (K.runState h) = 2 ∨ s.chip.get (K.runState h) = 3 ∨ s.chip.get (K.runState h) = 5 →
     let c := s.chip.fresh.modHead h.val (fun (p : HeadPort) => { p with gap := true })
     Effect (.leapLine h resp step refStep) s
       ((((c.tapTest h.val (resp.map (·.toInt))).leapBuffer h.val refStep).leapStep h.val step).gapReads h.val))

/-! ### The dictionary -/

/-- R71, R73, R77: a write that passes every check is taken by its update class: at once for class I, and for class S where its block is
stopped; for class F as staged for its owner until the next frame start while the owner runs or is held, and else at once; for class P kept
until the block's next application point. A counter is cleared, but for events of the same cycle, which count after it (R82). -/
def Obligations.WritesByUpdateClass : Prop :=
  ∀ (s : State) (m : Master) (idx : BitVec 16) (sub : BitVec 8) (v : Slot) (r : Row) (x : Int),
    let key := keyOf idx sub
    s.chip.serves m key → m ≠ .f1 → rowAt? key = some r → r.acc ≠ .domain → r.valueOf? v = some x →
    s.chip.masterAbort? m key r = none → s.chip.valueAbort? key r x = none → (r.upd = .s → s.chip.blockStopped key = true) →
    commandOf m key x = none → s.chip.unfitted key r = false →
    (r.chk = .counter → Effect (.objectWrite m idx sub .full v) s (s.chip.clearCount key)) ∧
    (r.chk ≠ .counter → s.chip.conflict? key x = none → s.chip.raisesDemand key = false →
      (r.upd = .i ∨ r.upd = .s →
        Effect (.objectWrite m idx sub .full v) s (((s.chip.fresh.onWrite key).set key x).onWritten key)) ∧
      (r.upd = .p → Effect (.objectWrite m idx sub .full v) s
        { s.chip with pendingP := s.chip.pendingP.filter (fun (e : Nat × Int) => e.1 ≠ key) ++ [(key, x)] }) ∧
      (∀ o : Nat, r.upd = .f → ownerOf key = some o →
        (s.chip.ownerStopped o = false ∨ s.chip.ownerHeld o = true →
          Effect (.objectWrite m idx sub .full v) s
            { s.chip with staged := s.chip.staged ++ [{ owner := o, key := key, val := x, at' := s.chip.mono }] }) ∧
        (s.chip.ownerStopped o = true → s.chip.ownerHeld o = false →
          Effect (.objectWrite m idx sub .full v) s (s.chip.fresh.applyF key x))))

/-- R71, R72, R74, R79, R84, R262: a write that is refused changes nothing but the abort objects of its master, and its answer carries the
code: a read-only object, an actuator object with no driver fitted, bits beyond the width, a value outside its range, an S-class object of
a running block. -/
def Obligations.RefusedWriteChangesNothing : Prop :=
  ∀ (s : State) (m : Master) (idx : BitVec 16) (sub : BitVec 8) (v : Slot) (r : Row),
    let key := keyOf idx sub
    s.chip.serves m key → m = .can ∨ m = .sp → rowAt? key = some r → r.acc ≠ .domain →
    let refused := fun (code : Abort) => Answer (.objectWrite m idx sub .full v) s [.abort m key code] (s.chip.noteAbort m key code)
    (r.acc = .ro → refused 0x06010002) ∧
    (r.acc = .rws → refused 0x06010000) ∧
    (s.chip.masterAbort? m key r = none →
      (s.chip.unfitted key r = true → refused 0x06040043) ∧
      (s.chip.unfitted key r = false →
        (r.valueOf? v = none → refused 0x06090030) ∧
        (∀ x lo hi : Int, r.valueOf? v = some x → r.chk = .range lo hi →
          (hi < x → refused 0x06090031) ∧ (x < lo → lo ≤ hi → refused 0x06090032)) ∧
        (∀ x : Int, r.valueOf? v = some x → s.chip.valueAbort? key r x = none → r.upd = .s → s.chip.blockStopped key = false →
          refused 0x08000022)))

/-- R89, R92, R411: a low half is held for its master and its object until a high half completes it, as a write of the whole slot, and the
oldest one is dropped when it expires (one half an object, and the oldest first, are the model's choice, assumption 27); a high half alone
is joined with the low half that a read returns. A 32-bit read of a low half latches the high one, which the next read of that high half
gives, until the latch expires. An access of several slots reads each on its own; one of another width or alignment is refused (R84, R86,
R91). Function 1 reads the registers of its page, which have no high half. That a read of a high half, of several slots and of another width
come as operands of HALF_READ_LOW is the model's choice (assumptions 28 and 111). -/
def Obligations.HalvesOfSlots : Prop :=
  (∀ (s : State) (m : Master) (idx : BitVec 16) (sub : BitVec 8) (v : BitVec 32) (r : Row),
    let key := keyOf idx sub
    s.chip.serves m key → rowFor? m key = some r → r.acc ≠ .domain → 32 < r.width →
    Effect (.halfWriteLow m idx sub v) s (s.chip.holdHalf m key v.toNat)) ∧
  (∀ (s : State) (m : Master),
    (∀ h : Half, s.chip.halves.find? (fun (h : Half) => decide (h.m = m)) = some h →
      Effect (.halfWriteExpiry m) s { s.chip with halves := s.chip.halves.erase h }) ∧
    (s.chip.halves.find? (fun (h : Half) => decide (h.m = m)) = none → Effect (.halfWriteExpiry m) s s.chip)) ∧
  (∀ (s : State) (m : Master) (idx : BitVec 16) (sub : BitVec 8) (v : Slot) (r : Row),
    let key := keyOf idx sub
    let mine := fun (h : Half) => decide (h.m = m ∧ h.key = key)
    m ≠ .f1 → s.chip.serves m key → rowAt? key = some r → r.acc ≠ .domain → r.acc ≠ .wo → 32 < r.width →
    let low := match s.chip.halves.find? mine with
      | some h => h.word
      | none => (slotOf (s.chip.val key)).toNat % 2 ^ 32
    exec (.objectWrite m idx sub .high v) s =
      exec (.objectWrite m idx sub .full (BitVec.ofNat 64 (v.toNat % 2 ^ 32 * 2 ^ 32 + low)))
        { s with chip := { s.chip with halves := s.chip.halves.filter (fun h => !mine h) } }) ∧
  (∀ (s : State) (m : Master) (v : Slot), s.chip.serves m K.spmCopySrc → (∀ h ∈ s.chip.halves, h.word < 2 ^ 32) →
    let mine := fun (h : Half) => decide (h.m = m ∧ h.key = K.spmCopySrc)
    let low := match s.chip.halves.find? mine with
      | some h => h.word
      | none => (slotOf (s.chip.val K.spmCopySrc)).toNat % 2 ^ 32
    Effect (.objectWrite m 0x4882 1 .high v) s
      (({ s.chip with halves := s.chip.halves.filter (fun h => !mine h) } : Chip).set K.spmCopySrc
        (v.toNat % 2 ^ 32 * 2 ^ 32 + low : Nat))) ∧
  (∀ (s : State) (m : Master) (idx : BitVec 16) (sub : BitVec 8) (r : Row),
    let key := keyOf idx sub
    let v := (slotOf (s.chip.val key)).toNat
    m ≠ .f1 → s.chip.serves m key → rowAt? key = some r → r.acc ≠ .domain → r.acc ≠ .wo → key ≠ K.lockForce →
    copyOf K.lock 32 key = none → s.chip.noDataFor m key r = false →
    Answer (.halfReadLow m idx sub) s [.half m key (v % 2 ^ 32)] (if 32 < r.width then s.chip.latchHalf m key v else s.chip) ∧
    (s.chip.latches.find? (fun (h : Half) => decide (h.m = m ∧ h.key = key)) = none →
      Answer (.halfReadLow m idx sub .high) s [.half m key (v / 2 ^ 32)] s.chip)) ∧
  (∀ (s : State) (m : Master) (idx : BitVec 16) (sub : BitVec 8) (h : Half), m ≠ .f1 → s.chip.reaches m = true →
    s.chip.latches.find? (fun (h : Half) => decide (h.m = m ∧ h.key = keyOf idx sub)) = some h →
    Answer (.halfReadLow m idx sub .high) s [.half m (keyOf idx sub) h.word]
      { s.chip with latches := s.chip.latches.filter (fun (h : Half) => decide (h.m ≠ m)) }) ∧
  (∀ (s : State) (m : Master) (idx : BitVec 16) (sub : BitVec 8), m ≠ .f1 → s.chip.reaches m = true →
    let key := keyOf idx sub
    (∀ n : BitVec 10, Effect (.halfReadLow m idx sub (.slots n)) s
      ((List.range n.toNat).foldl (fun (c : Chip) (i : Nat) => c.readSlot m (key + i)) s.chip.fresh)) ∧
    (m = .f0 → Answer (.halfReadLow m idx sub .mismatch) s [.slot .f0 key 0] (s.chip.noteAbort .f0 key 0x06010000)) ∧
    (m ≠ .f0 → Answer (.halfReadLow m idx sub .mismatch) s [.abort m key 0x06070010] (s.chip.noteAbort m key 0x06070010))) ∧
  (∀ (s : State) (ch : Fin 8), 6 ≤ ch.val → s.chip.reaches .f1 = true →
    Answer (.halfReadLow .f1 (BitVec.ofNat 16 (K.mbxH2dState ch / 256)) (BitVec.ofNat 8 (K.mbxH2dState ch))) s
      [.half .f1 (K.mbxH2dState ch) (s.chip.nat (K.mbxH2dState ch) + 2 * s.chip.nat (K.mbxH2dFlags ch))] s.chip ∧
    Answer (.halfReadLow .f1 (BitVec.ofNat 16 (K.mbxTimeout ch / 256)) (BitVec.ofNat 8 (K.mbxTimeout ch))) s
      [.half .f1 (K.mbxTimeout ch) (s.chip.nat (K.mbxTimeout ch) / 1000)] s.chip) ∧
  (∀ (s : State) (m : Master),
    Effect (.halfReadLatchExpiry m) s { s.chip with latches := s.chip.latches.filter (fun (h : Half) => decide (h.m ≠ m)) })

/-- R95, R97: a read of a free lock answers 0 and makes the reader its owner by the codes of Table 3.6; one of a held lock answers the
owner and changes nothing; the owner releases it by its own code, and every other write is ignored and counted. -/
def Obligations.LocksAreOwned : Prop :=
  (ownerCode .mc = 1 ∧ ownerCode .f1 = 2 ∧ ownerCode .f0 = 3 ∧ ownerCode .sp = 4 ∧ ownerCode .can = 5) ∧
  (∀ (s : State) (m : Master) (n : Fin 32),
     (s.chip.serves m (K.lock n) →
       (s.chip.nat (K.lock n) = 0 →
         Answer (.lockRead m n) s [.slot m (K.lock n) 0] (s.chip.set (K.lock n) (ownerCode m : Nat))) ∧
       (s.chip.nat (K.lock n) ≠ 0 → Answer (.lockRead m n) s [.slot m (K.lock n) (s.chip.nat (K.lock n))] s.chip) ∧
       (∀ v : BitVec 8, s.chip.nat (K.lock n) = ownerCode m → v.toNat = ownerCode m →
         Effect (.lockWrite m n v) s (s.chip.set (K.lock n) 0)) ∧
       (∀ v : BitVec 8, s.chip.nat (K.lock n) ≠ ownerCode m ∨ v.toNat ≠ ownerCode m →
         Effect (.lockWrite m n v) s (s.chip.bump K.lockViolations))))

/-- R78, R107: STAGE_HOLD holds owners back, and the one whose bit is cleared has its writes wait for a cut after the clearing;
an acknowledgement marks every record of its region at or before the value written. A secure master releases the locks of a mask at
once (R98). -/
def Obligations.HoldAndAcknowledge : Prop :=
  (∀ (s : State) (m : Master) (v : BitVec 16), s.chip.serves m K.stageHold → clearBits v.toNat 0xFF3F = 0 →
    ((∀ o < 16, bitOf (s.chip.nat K.stageHold) o = true → bitOf v.toNat o = true) →
      Effect (.stageHoldWrite m (v.zeroExtend 64)) s (s.chip.set K.stageHold v.toNat)) ∧
    (∀ o < 16, bitOf (s.chip.nat K.stageHold) o = true → bitOf v.toNat o = false →
      (∀ p < 16, p ≠ o → bitOf (s.chip.nat K.stageHold) p = true → bitOf v.toNat p = true) →
      Effect (.stageHoldWrite m (v.zeroExtend 64)) s ((s.chip.fresh.set K.stageHold v.toNat).releaseHold o))) ∧
  (∀ (s : State) (m : Master) (r : Fin 5) (v : BitVec 16), s.chip.serves m (K.errqAck r) →
    Effect (.errqAck m r v) s { s.chip with errq := modAt s.chip.errq r.val (fun (q : ErrQ) => { q with
      recs := q.recs.map (fun (e : ErrRec) =>
        if (v.toNat + 0x10000 - e.seq) % 0x10000 < 0x8000 then { e with acked := true } else e) }) }) ∧
  (∀ (s : State) (m : Master) (v : BitVec 32), s.chip.serves m K.lockForce → m = .mc ∨ m = .f1 →
    Leaves (.lockForce m v) s (fun c => c.body = s.chip.body ∧
      ∀ j : Fin 32, c.get (K.lock j) = if v[j.val] then 0 else s.chip.get (K.lock j)))

/-- R54, R100, R101, R445, R451, R469: the signatures start a guarded write of an image; at its end the image is in place, and one that
waits for VANA does not end; a wrong signature, a write under way and the hold refuse with 0x0800_0020. A group write that did not complete
is written again, unless its block resets (R474). The hold ends by writing what it queued. -/
def Obligations.StoreAndRestore : Prop :=
  (∀ (s : State) (m : Master) (g : Fin 4), s.chip.nvm.job = none → s.chip.nvmHolds = false →
    (s.chip.serves m (K.storeAll + g.val) →
      Effect (.store m g 0x65766173) s (s.chip.fresh.startImage (s.chip.fresh.storeImage (groupMask g.val)))) ∧
    (s.chip.serves m (K.restore g.val) →
      Effect (.restore m g 0x64616F6C) s (s.chip.fresh.startImage (s.chip.fresh.restoreImage (groupMask g.val))))) ∧
  (∀ (s : State) (m : Master) (g : Fin 4) (v : BitVec 32), s.chip.serves m (K.storeAll + g.val) →
    v.toNat ≠ 0x65766173 ∨ s.chip.nvm.job.isSome = true ∨ s.chip.nvmHolds = true →
    Effect (.store m g v) s (s.chip.noteAbort m (K.storeAll + g.val) 0x08000020)) ∧
  (∀ (s : State) (j : StoreJob), s.chip.nvm.job = some j →
    (s.chip.nvmHolds = false → j.begun = true → s.chip.vanaLow = false → Leaves .storeComplete s (fun c =>
      c.nvm.job = none ∧ (if j.intoB then c.nvm.imageB = some j.image else c.nvm.imageA = some j.image) ∧
      c.get K.storeState = 0 ∧ c.get K.nvmState = 0)) ∧
    (j.begun = false ∨ s.chip.vanaLow = true → Effect .storeComplete s s.chip)) ∧
  (∀ s : State,
    (s.chip.cellHeld 3 2 = false → Effect .nvmWriteWatchdog s (s.chip.fresh.nvmAgain.cellExpired 3 2 0 0 0 0)) ∧
    (s.chip.cellHeld 3 2 = true → Effect .nvmWriteWatchdog s s.chip)) ∧
  (∀ s : State, s.chip.nvm.holding = true → s.chip.nvmHot = false → s.chip.nvm.job = none →
    Effect .nvmHoldRelease s
      (({ s.chip.fresh with nvm := { s.chip.nvm with holding := false } } : Chip).set K.nvmState 0).writeHeld)

/-! ### Head ports and converter banks -/

/-- R133, R134: an admitted RUN_REQUEST starts the supply; a supply above its minimum after SUP_SETTLE starts MCLK and the script; the end
of the bias ramp waits for the frame that begins verification; a head that keeps its taps is verified, and RUN_STATE reads 3 (that SUP_STATE
passes to 2 when SUP_SETTLE ends, but for a supply in current limit, which keeps 3, is the model's choice, assumption 89). R135, R142: a
stop of a running head waits for its last frame, then the biases ramp to 0 V, and at 0 V the head is off, or starts again where a request
came meanwhile (assumption 57); one of a head that starts for the first time ramps at once (the model's choice, assumption 99), and one of a
lost head turns its outputs off at once. -/
def Obligations.HeadSequences : Prop :=
  ((∀ (s : State) (m : Master) (h : Fin 4), s.chip.serves m (K.runRequest h) → s.chip.get (K.runState h) = 0 →
     s.chip.timingOk h = true → s.chip.geometryKeeps h = true → s.chip.headsMayRun = true → s.chip.rails.fault.getD 9 false = false →
     (s.chip.fresh.admitted (K.runRequest h) 1).2 = false →
     Effect (.headRunRequest m h) s (((s.chip.fresh.admitted (K.runRequest h) 1).1.set (K.runRequest h) 1).headStart h)) ∧
   (∀ (s : State) (h : Fin 4), (s.chip.head h.val).phase = .supply → s.chip.rails.fault.getD 9 false = false →
     (s.chip.get (K.supMinCurrent h) ≤ s.chip.get (K.supCurrent h) →
       let c := if s.chip.get (K.supState h) = 3 then s.chip.fresh else s.chip.fresh.set (K.supState h) 2
       Effect (.headSupplySettled h) s ((c.modHead h.val (fun (p : HeadPort) => { p with
         mclk := true, phase := .script, script := s.chip.domainImage (K.cfgInit h) })).scriptNext h.val)) ∧
     (s.chip.get (K.supCurrent h) < s.chip.get (K.supMinCurrent h) →
       Effect (.headSupplySettled h) s (s.chip.fresh.loseHead h.val 2))) ∧
   (∀ (s : State) (h : Fin 4), (s.chip.head h.val).phase = .ramp → s.chip.ramping h.val = false →
     Effect (.headBiasSettled h) s (s.chip.modHead h.val (fun (p : HeadPort) => { p with phase := .frame, timing := true }))) ∧
   (∀ (s : State) (h : Fin 4), s.chip.get (K.runState h) = 2 → s.chip.verifyFrames h.val ≤ (s.chip.head h.val).verified →
     (∀ t < 16, (s.chip.endSwing h.val |>.head h.val).vRun.getD t 0 < 4) → s.chip.nat (K.tapCount h) ≤ 16 → s.chip.tapsLost h.val = false →
     Effect (.headVerificationEnd h) s (((s.chip.endSwing h.val).set (K.runState h) 3).modHead h.val (fun (p : HeadPort) =>
       { p with firstGood := true, lost := false, failed := 0, retrying := false })))) ∧
  ((∀ (s : State) (m : Master) (h : Fin 4), s.chip.serves m (K.runRequest h) →
     let c := (s.chip.fresh.set (K.runRequest h) 0).modHead h.val (fun (p : HeadPort) => { p with restart := false })
     (s.chip.get (K.runState h) = 1 → (s.chip.head h.val).lost = false →
       Effect (.headStopRequest m h) s ((c.set (K.runState h) 5).headRampDown h.val)) ∧
     (s.chip.get (K.runState h) = 2 ∨ s.chip.get (K.runState h) = 3 → (s.chip.head h.val).lost = false →
       Effect (.headStopRequest m h) s (((((c.set (K.runState h) 5).modHead h.val (fun (p : HeadPort) =>
         { p with lastFrame := true })).solsticeHeadGone h.val true).headStopsStandin h.val false).calHeadGone h.val)) ∧
     (s.chip.get (K.runState h) = 4 →
       Effect (.headStopRequest m h) s (((c.biasOff h.val).solsticeHeadGone h.val true).headRest h.val)) ∧
     (s.chip.get (K.runState h) = 0 → Effect (.headStopRequest m h) s c)) ∧
   (∀ (s : State) (h : Fin 4), s.chip.get (K.runState h) = 5 → (s.chip.head h.val).lastFrame = true →
     Effect (.headLastFrameEnd h) s (s.chip.fresh.headRampDown h.val)) ∧
   (∀ (s : State) (h : Fin 4), s.chip.get (K.runState h) = 5 → (s.chip.head h.val).lastFrame = false → s.chip.ramping h.val = false →
     (s.chip.head h.val).bias = List.replicate 8 0 →
     let c := s.chip.fresh.headRest h.val
     ((s.chip.head h.val).restart = false → Effect (.headStopComplete h) s c) ∧
     ((s.chip.head h.val).restart = true → c.get (K.runRequest h) = 1 → c.headsMayRun = true →
       Effect (.headStopComplete h) s (c.headStart h.val))))

/-- R136 to R142, Table 4.8: the faults that lose a head, each with its cause, a rail short of a tap, and a retry, which runs the start
sequence again. -/
def Obligations.HeadFaults : Prop :=
  ∀ (s : State) (h : Fin 4),
    (s.chip.get (K.supState h) ≠ 0 → s.chip.get (K.supState h) ≠ 4 →
      Effect (.headSupplyOvercurrent h) s (s.chip.fresh.loseHead h.val 1)) ∧
    (10 ≤ (s.chip.head h.val).supLow → Effect (.headSupplyUndercurrent h) s (s.chip.fresh.loseHead h.val 2)) ∧
    (∀ b : Fin 8, bitOf (s.chip.nat (K.biasEnable h)) b.val = true → (s.chip.head h.val).mclk = true →
      Effect (.biasOvercurrent h b) s (s.chip.fresh.loseHead h.val 3)) ∧
    (∀ b : Fin 8, 10 ≤ (s.chip.head h.val).biasLow.getD b.val 0 → Effect (.biasOpen h b) s (s.chip.fresh.loseHead h.val 4)) ∧
    (3 ≤ (s.chip.head h.val).checkRun → Effect (.cfgCheckFailure h) s (s.chip.fresh.loseHead h.val 6)) ∧
    (∀ t : Fin 16, s.chip.tapServes h.val t.val = true →
      Effect (.tapRailShort h t) s (s.chip.fresh.tapFault h.val t.val 3 0x1002 (s.chip.get (K.tapTestResponse h t)))) ∧
    (s.chip.get (K.runState h) = 4 → s.chip.get (K.runRequest h) = 1 →
      (s.chip.get (K.retryMax h) = 0 ∨ (s.chip.head h.val).failed < s.chip.nat (K.retryMax h)) → s.chip.headsMayRun = true →
      Effect (.headRetry h) s ((s.chip.fresh.modHead h.val (fun (p : HeadPort) => { p with retrying := true })).headStart h.val))

/-- R140 to R142: a head that is lost reads RUN_STATE 4 with its cause and the time, is counted; its bias outputs
are at 0 V and MCLK is off. -/
def Obligations.LostHeadState : Prop :=
  ∀ (s : State) (h : Fin 4), 10 ≤ (s.chip.head h.val).supLow → s.chip.get (K.runState h) = 3 → s.chip.solsticeRuns h.val = false →
    (s.chip.bank h.val).sub = none → (s.chip.source h.val).open' = none → s.chip.heads.length = 4 →
    Leaves (.headSupplyUndercurrent h) s (fun c =>
      c.get (K.runState h) = 4 ∧ c.get (K.supState h) = 0 ∧ c.get (K.lastLostCause h) = 2 ∧
      c.get (K.lastLostTime h) = s.chip.now ∧ c.get (K.lostCount h) = min (s.chip.get (K.lostCount h) + 1) 0xFFFFFFFF ∧
      (c.head h.val).bias = List.replicate 8 0 ∧ (c.head h.val).mclk = false ∧ (c.head h.val).lost = true ∧
      ∀ g : Fin 4, g ≠ h → c.head g.val = s.chip.head g.val)

/-- R126 to R130: a request is queued with its address and data cut to their widths, and the 17th is refused; a transaction starts from the
front of the queue where the link is free, in the leap line or the blanking of a running head, and only a write sends data; its end gives
the data read and the sequence, goes on with the script, compares, or counts a check that fails; a wait goes on with the script. -/
def Obligations.ConfigurationLink : Prop :=
  (∀ (s : State) (m : Master) (h : Fin 4) (v : BitVec 64), s.chip.serves m (K.cfgRequest h) →
    ((((s.chip.head h.val).queue.filter (fun t => decide (t.user = .request))).length < 16 →
      Effect (.cfgRequest m h v) s ((s.chip.fresh.modHead h.val (fun (p : HeadPort) => { p with queue := p.queue ++ [{
        user := .request, read := v[63], addr := v.toNat / 2 ^ 32 % 2 ^ 16 % 2 ^ s.chip.nat (K.cfgAddrBits h)
        data := v.toNat % 2 ^ 32 % 2 ^ s.chip.nat (K.cfgDataBits h) }] })).cfgStatus h.val (s.chip.cfgBad h.val))) ∧
    (16 ≤ ((s.chip.head h.val).queue.filter (fun t => decide (t.user = .request))).length →
      Effect (.cfgRequest m h v) s (s.chip.noteAbort m (K.cfgRequest h) 0x08000021)))) ∧
  (∀ (s : State) (h : Fin 4) (t : CfgTx) (rest : List CfgTx), (s.chip.head h.val).active = none → (s.chip.head h.val).queue = t :: rest →
    s.chip.get (K.runState h) ≠ 4 → s.chip.get (K.runState h) ≤ 1 ∨ ((s.chip.head h.val).timing = true → (s.chip.head h.val).gap = true) →
    Answer (.cfgTransactionStart h) s [.config h t.read t.addr (if t.read then 0 else t.data)]
      ((s.chip.fresh.modHead h.val (fun (p : HeadPort) => { p with queue := rest, active := some t })).cfgStatus h.val (s.chip.cfgBad h.val))) ∧
  (∀ (s : State) (h : Fin 4) (data : BitVec 32) (t : CfgTx), (s.chip.head h.val).active = some t →
    let v := data.toNat % 2 ^ s.chip.nat (K.cfgDataBits h)
    let c := s.chip.fresh.modHead h.val (fun (p : HeadPort) => { p with active := none, cfgSeq := nextSeq p.cfgSeq 0xFFFF })
    let d := if t.read then c.set (K.cfgReadData h) v else c
    let same := d.cfgStatus h.val (s.chip.cfgBad h.val)
    (t.user = .request → Effect (.cfgTransactionComplete h data) s same) ∧
    (t.user = .script → Effect (.cfgTransactionComplete h data) s (same.scriptNext h.val)) ∧
    (t.user = .compare →
      (v = t.data → Effect (.cfgTransactionComplete h data) s ((d.cfgStatus h.val false).scriptNext h.val)) ∧
      (v ≠ t.data → Effect (.cfgTransactionComplete h data) s ((d.cfgStatus h.val true).loseHead h.val 9))) ∧
    (t.user = .check →
      (v = s.chip.nat (K.cfgCheckValue h) → Effect (.cfgTransactionComplete h data) s
        ((d.cfgStatus h.val false).modHead h.val (fun (p : HeadPort) => { p with checkRun := 0 }))) ∧
      (v ≠ s.chip.nat (K.cfgCheckValue h) → Effect (.cfgTransactionComplete h data) s
        (((d.cfgStatus h.val true).modHead h.val (fun (p : HeadPort) => { p with checkRun := p.checkRun + 1 })).bump
          (K.cfgCheckFails h)))) ∧
    (t.user = .tfpa → Effect (.cfgTransactionComplete h data) s (same.modHead h.val (fun (p : HeadPort) =>
      { p with tfpaReg := some (sx v (s.chip.nat (K.cfgDataBits h))) })))) ∧
  (∀ (s : State) (h : Fin 4), (s.chip.head h.val).scriptWait = true →
    Effect (.cfgScriptWaitEnd h) s
      ((s.chip.fresh.modHead h.val (fun (p : HeadPort) => { p with scriptWait := false })).scriptNext h.val))

/-- R22, R121, R154: a frame starts with the free-running timing or an accepted trigger; a trigger that does not come lets the port start
a frame itself; a delivered trigger reaches its head; the blanking opens the gap and the exchange of converters. R158, R159, R161: a
converter whose conversion hangs resets, and is counted with record 0x1020, and its third reset within 1 s retires it; while its bank resets
or ACQ restarts it is recorded only (R474); the reset ends. -/
def Obligations.FramesAndConverters : Prop :=
  ((∀ (s : State) (h : Fin 4), (s.chip.head h.val).timing = true → (s.chip.head h.val).lastFrame = false →
     (s.chip.get (K.triggerMode h) ≠ 1 ∨ (s.chip.head h.val).trigAt.isSome = true →
       Effect (.headFrameStart h) s (s.chip.fresh.headFrame h.val)) ∧
     (s.chip.get (K.triggerMode h) = 1 → (s.chip.head h.val).freeRun = false → (s.chip.head h.val).trigAt = none →
       Effect (.triggerTimeout h) s (((s.chip.fresh.modHead h.val (fun (p : HeadPort) => { p with freeRun := true })).bump
         (K.missedTriggers h)).headFrame h.val))) ∧
   (∀ (s : State) (h : Fin 4), (s.chip.head h.val).timing = true →
     Effect (.blankingStart h) s ((s.chip.fresh.modHead h.val (fun (p : HeadPort) => { p with gap := true })).blankStandin h.val)) ∧
   (∀ (s : State) (h : Fin 4) (t : Trigger), s.chip.psi.waiting = [t] → t.heads = 2 ^ h.val → t.target ≤ s.chip.now →
     Effect (.triggerDelivery h) s (({ s.chip with psi := { s.chip.psi with waiting := [] } } : Chip).triggerHead h.val))) ∧
  ((∀ (s : State) (b : Fin 4) (j : Fin 34), s.chip.get (K.convState b j) ≠ 5 → j.val ∉ (s.chip.bank b.val).inReset →
     (s.chip.cellHeld 1 (4 + b.val) = true → Effect (.converterWatchdog b j) s
       (s.chip.fresh.raise 0 1 (4 + b.val) j.val 0x1020 (s.chip.nat (K.convSlot b j)) (s.chip.nat (K.convResets b j)))) ∧
     (s.chip.cellHeld 1 (4 + b.val) = false →
       let c := s.chip.fresh.bump (K.convResets b j)
       let c := c.raise 0 1 (4 + b.val) j.val 0x1020 (s.chip.nat (K.convSlot b j)) (c.nat (K.convResets b j))
       let recent := (s.chip.bank b.val).resets.filter (fun (e : Nat × Nat) => decide (s.chip.mono < e.1 + 1000000000))
       let gap : ConvGap := { conv := j.val, since := s.chip.mono * 6 - 600 }
       ((recent.filter (fun (e : Nat × Nat) => decide (e.2 = j.val))).length < 2 →
         Effect (.converterWatchdog b j) s ((c.modBank b.val (fun (k : ConvBank) => { k with
           resets := (s.chip.mono, j.val) :: recent, inReset := k.inReset ++ [j.val], gaps := k.gaps ++ [gap] })).countCell
             1 (4 + b.val) j.val 0x1020)) ∧
       (2 ≤ (recent.filter (fun (e : Nat × Nat) => decide (e.2 = j.val))).length →
         Effect (.converterWatchdog b j) s ((c.modBank b.val (fun (k : ConvBank) => { k with
           resets := recent.filter (fun (e : Nat × Nat) => decide (e.2 ≠ j.val)), gaps := k.gaps ++ [gap] })).retire b.val j.val)))) ∧
   (∀ (s : State) (b : Fin 4) (j : Fin 34),
     (j.val ∈ (s.chip.bank b.val).inReset → Effect (.converterResetEnd b j) s (s.chip.modBank b.val (fun (k : ConvBank) =>
       { k.closeGap j.val (s.chip.mono * 6) with inReset := k.inReset.erase j.val }))) ∧
     (j.val ∉ (s.chip.bank b.val).inReset → Effect (.converterResetEnd b j) s s.chip)))

/-! ### Solstice and the actuators -/

/-- R247, R248, R255, R285: a request sets due bit 2 while no event runs, and is refused without a shutter; a withdrawal clears it,
abandons an event before it reopens with cause 1, and is refused from then on, in states 6 and 7 too (with 0x0800_0021, the model's choice,
assumption 65); a reseed marks the source's temporal filter. -/
def Obligations.SolsticeCommands : Prop :=
  (∀ (s : State) (m : Master) (h : Fin 4), s.chip.serves m (K.solsticeCommand h) →
    (s.chip.get (K.solsticeShutter h) = 3 → s.chip.solsticeRuns h.val = false →
      Effect (.solsticeRequest m h) s ((s.chip.set (K.solsticeDue h) (putBit (s.chip.nat (K.solsticeDue h)) 2 true)).solsticeIdle h.val)) ∧
    (s.chip.get (K.solsticeShutter h) = 0 →
      Effect (.solsticeRequest m h) s (s.chip.noteAbort m (K.solsticeCommand h) 0x06040043)) ∧
    (s.chip.get (K.solsticeState h) < 5 →
      (s.chip.solsticeRuns h.val = false →
        Effect (.solsticeAbandonCommand m h) s
          ((s.chip.set (K.solsticeDue h) (putBit (s.chip.nat (K.solsticeDue h)) 2 false)).solsticeIdle h.val)) ∧
      (s.chip.solsticeRuns h.val = true →
        Effect (.solsticeAbandonCommand m h) s (s.chip.fresh.solsticeAbandon h.val 1 false))) ∧
    (5 ≤ s.chip.get (K.solsticeState h) →
      Effect (.solsticeAbandonCommand m h) s (s.chip.noteAbort m (K.solsticeCommand h) 0x08000021))) ∧
  (∀ (s : State) (m : Master) (src : Fin 6), s.chip.serves m (K.tnrReseed src) → s.chip.pixelRuns = true →
    Effect (.tnrReseed m src) s (s.chip.modSource src.val (fun (x : Source) => { x with tnrNow := true })))

/-- R252, R253, R255, R256: a commit pass that completes puts the averaged layer, the shadow, the anchors and the counts in place and
clears the due bits; a close that is not reported in 30 frames is abandoned with cause 3; an open that is not reported is stuck, is
recorded, and is commanded again. -/
def Obligations.SolsticeEvents : Prop :=
  (∀ (s : State) (h : Fin 4) (set : Nat) (d : SetData), (s.chip.solstice h.val).pass = some set → s.chip.setData set = some d →
    set < 32 → s.chip.sol.length = 4 → s.chip.onion.sets.length = 32 →
    Leaves (.solsticeCommitComplete h) s (fun c =>
      (c.solstice h.val).pass = none ∧ (c.solstice h.val).newE = [] ∧
      (c.setData set).map (·.view) = some ((d.view.zip (s.chip.solstice h.val).newE).map (fun (r, e) => withE r e)) ∧
      (c.setData set).map (·.shadow) = some (d.view.map recE) ∧
      c.get (K.solsticeDue h) = 0 ∧ c.get (K.setStale set) = 0 ∧ c.get (K.setShadowValid set) = 1 ∧
      c.get (K.setFieldSequence set) = nextSeq (s.chip.nat (K.setFieldSequence set)) 0xFFFFFFFF ∧
      c.get (K.setAnchorTemp set) = (s.chip.solstice h.val).temp ∧ c.get (K.setAnchorTime set) = (s.chip.solstice h.val).cap)) ∧
  (∀ (s : State) (h : Fin 4), s.chip.get (K.solsticeState h) = 2 → s.chip.shutterIs h.val 1 = false → 30 ≤ s.chip.phaseFrames h.val →
    Effect (.solsticeCloseTimeout h) s (s.chip.fresh.solsticeAbandon h.val 3 true)) ∧
  (∀ (s : State) (h : Fin 4) (e : SolEvent) (b : Nat), (s.chip.solstice h.val).ev = some e → s.chip.shutterBank h.val = some b →
    s.chip.get (K.solsticeState h) = 5 → e.opening = false → s.chip.closeFaulty h.val = true →
    Effect (.shutterStuck h) s
      (let c := ((s.chip.fresh.modEvent h.val (fun (e : SolEvent) => { e with passed := s.chip.phaseFrames h.val })).solsticePhase
        h.val 7).bump (K.shutterStuck h)
       (c.raise 1 2 1 0xFF 0x2007 h.val b).emcyFor 0xFF01 2 0x2007)) ∧
  (∀ (s : State) (h : Fin 4), s.chip.get (K.solsticeState h) = 7 →
    Effect (.shutterReopenRetry h) s (s.chip.fresh.solsticeOpen h.val))

/-- R262, R263, R266, R273, R276, R277: the commands of the driver. An energise waits in its bank's queue; a release ends the operation with
result 2; a shutter command takes the bank's slot; a bank starts, and stops with its operation cut off with result 13, which boost and hold
leave by fast decay and decay and dwell keep on; where a park's operation still waits the park of the bank is done (the model's choice,
assumption 123); its latch is cleared, and with it the shorts of OFFSTATE_RESULT (the model's choice, assumption 67); a start is refused
with 0x0604_0043 where no driver is fitted, and by a latched bank with 0x0606_0000. -/
def Obligations.ActuatorCommands : Prop :=
  ∀ (s : State) (m : Master),
    (∀ ch : Fin 4, s.chip.serves m (K.chCommand ch) → s.chip.chAbort? ch.val = none →
      (s.chip.get (K.chState ch) = 0 →
        Effect (.chEnergise m ch) s (s.chip.fresh.enqueuePanel ch.val).clampUpdate.refreshBanks) ∧
      (s.chip.get (K.chState ch) = 3 → Effect (.chRelease m ch) s
        ((s.chip.modActCh ch.val (fun (a : ActCh) => { a with result := 2 })).set (K.chState ch) 4)) ∧
      (s.chip.get (K.chState ch) = 0 → Effect (.chRelease m ch) s s.chip)) ∧
    (∀ b : Fin 2, s.chip.serves m (K.shutterCommand b) → s.chip.actAbort? b.val = none → s.chip.get (K.bankMode b) = 3 →
      s.chip.bankActive b.val = false → (s.chip.actBank b.val).queue = [] → s.chip.solsticeHolds b.val = false →
      (bitOf (s.chip.nat (K.channelMask b)) 0 = true →
        Effect (.shutterClose m b) s (s.chip.fresh.takeSlot (2 * b.val) .panel).clampUpdate.refreshBanks) ∧
      (bitOf (s.chip.nat (K.channelMask b)) 1 = true →
        Effect (.shutterOpen m b) s (s.chip.fresh.takeSlot (2 * b.val + 1) .panel).clampUpdate.refreshBanks) ∧
      (bitOf (s.chip.nat (K.channelMask b)) 0 = false →
        Effect (.shutterClose m b) s (s.chip.noteAbort m (K.shutterCommand b) 0x06040043))) ∧
    (∀ b : Fin 2, s.chip.serves m (K.bankRun b) → s.chip.get K.actuatorFitted = 1 → (s.chip.actBank b.val).latched = false →
      Effect (.bankRunStart m b) s ((s.chip.set (K.bankRun b) 1).refreshBanks) ∧
      (s.chip.solsticeHolds b.val = false → (s.chip.actBank b.val).queue = [] → s.chip.bankActive b.val = false →
        Leaves (.bankStop m b) s (fun c => c.get (K.bankRun b) = 0 ∧ (c.actBank b.val).queue = [] ∧ c.act.chans = s.chip.act.chans)) ∧
      (s.chip.solsticeHolds b.val = false → s.chip.act.chans.length = 4 → ∀ ch : Fin 4, ch.val / 2 = b.val →
        (s.chip.get (K.chState ch) = 2 ∨ s.chip.get (K.chState ch) = 3 → Leaves (.bankStop m b) s (fun c =>
          c.get (K.bankRun b) = 0 ∧ c.get (K.chState ch) = 4 ∧ (c.actCh ch.val).result = 13)) ∧
        (s.chip.get (K.chState ch) = 4 ∨ s.chip.get (K.chState ch) = 5 → (s.chip.actCh ch.val).result ≠ 4 →
          Leaves (.bankStop m b) s (fun c => c.get (K.bankRun b) = 0 ∧ c.get (K.chState ch) = s.chip.get (K.chState ch) ∧
            (c.actCh ch.val).result = 13))) ∧
      (s.chip.solsticeHolds b.val = false → s.chip.bankActive b.val = false → (s.chip.actBank b.val).park = 2 →
        s.chip.act.banks.length = 2 →
        Leaves (.bankStop m b) s (fun c => c.get (K.bankRun b) = 0 ∧ (c.actBank b.val).park = 3))) ∧
    (∀ b : Fin 2, s.chip.serves m (K.bankFaultClear b) → s.chip.get K.actuatorFitted = 1 → (s.chip.actBank b.val).latched = true →
      Effect (.bankFaultClear m b) s
        ((((s.chip.modActBank b.val (fun (k : ActBank) => { k with latched := false, overcurrent := false, found := 0 })).set (K.offstateResult b)
          (s.chip.nat (K.offstateResult b) % 4 : Nat)).setAll [(K.chState (2 * b.val), 0), (K.chState (2 * b.val + 1), 0)]).refreshBanks)) ∧
    (∀ b : Fin 2, s.chip.serves m (K.bankRun b) → s.chip.get K.actuatorFitted = 0 →
      Effect (.bankRunStart m b) s (s.chip.noteAbort m (K.bankRun b) 0x06040043)) ∧
    (∀ b : Fin 2, s.chip.serves m (K.bankRun b) → s.chip.get K.actuatorFitted = 1 → (s.chip.actBank b.val).latched = true →
      Effect (.bankRunStart m b) s (s.chip.noteAbort m (K.bankRun b) 0x06060000))

/-- R264 to R267, R270 to R272: the phases of an operation. Boost begins with the profile of that instant; the peak is judged against the
window of the profile; each end passes to fast decay with its result; a decay adds its clamp energy and passes to dwell, and
latches above 30 mJ and after an early peak; the end of dwell publishes the results. That the latch of an early peak comes with the end
of its decay is the model's choice (assumption 104). -/
def Obligations.ActuatorPhases : Prop :=
  ∀ (s : State) (ch : Fin 4),
    (s.chip.mayBoost ch.val = true → s.chip.get (K.bankMode (ch.val / 2)) ≠ 3 → s.chip.act.chans.length = 4 →
      Leaves (.boostStart ch) s (fun c => c.get (K.chState ch) = 2 ∧ (c.actCh ch.val).profile = s.chip.profileOf ch.val ∧
        (c.actCh ch.val).boostAt = s.chip.mono ∧ ∀ q ∈ (c.actBank (ch.val / 2)).queue, q.1 ≠ ch.val)) ∧
    (∀ i : BitVec 32, s.chip.get (K.chState ch) = 2 →
      let a := s.chip.actCh ch.val
      let t : Nat := s.chip.phaseTime ch.val
      let norm := (rneDiv ((t : Int) * s.chip.get (K.hkRail 10)) 24000000).toNat
      let judged := (s.chip.fresh.sensed ch.val [s.chip.sample ch.val i.toNat]).modActCh ch.val (fun (a : ActCh) => { a with tPeak := t, tNorm := norm })
      (norm < a.profile.tMin → Effect (.peakReached ch i) s (judged.toDecay ch.val 4).refreshBanks) ∧
      (a.profile.motionCheck = false → a.profile.tMin ≤ norm → norm ≤ a.profile.tMax →
        Effect (.peakReached ch i) s ((judged.modActCh ch.val (fun (a : ActCh) => { a with result := 1 })).set (K.chState ch)
          (if a.profile.hold = 0 then 4 else 3)).refreshBanks)) ∧
    (s.chip.get (K.chState ch) = 2 → Effect (.boostTimeout ch) s
      ((s.chip.modActCh ch.val (fun (a : ActCh) => { a with result := 5 })).set (K.chState ch) 4)) ∧
    (∀ i : BitVec 32, s.chip.get (K.chState ch) = 2 → (s.chip.actCh ch.val).profile.motionCheck = true → (s.chip.actCh ch.val).motion = 0 →
      Effect (.motionDetected ch i) s ((s.chip.fresh.sensed ch.val [s.chip.sample ch.val i.toNat]).modActCh ch.val (fun (a : ActCh) =>
        { a with motion := s.chip.phaseTime ch.val }))) ∧
    (s.chip.get (K.chState ch) = 3 → (s.chip.actCh ch.val).profile.holdTime ≠ 0 →
      Effect (.holdEnd ch) s (s.chip.fresh.toDecay ch.val (s.chip.actCh ch.val).result)) ∧
    (∀ l : List (BitVec 32), s.chip.get (K.chState ch) = 4 → s.chip.act.chans.length = 4 →
      let e := clampEnergy (s.chip.samples ch.val l)
      let c := fun (r : Nat) => ((s.chip.fresh.sensed ch.val (s.chip.samples ch.val l)).modActCh ch.val (fun (a : ActCh) =>
        { a with energy := e, result := r })).clampAdd e
      let r := (s.chip.actCh ch.val).result
      (e ≤ 30000 → r ≠ 4 → Effect (.decayEnd ch l) s ((c r).set (K.chState ch) 5).refreshBanks) ∧
      (e ≤ 30000 → decayResult r ≠ 4 → Effect (.decayTimeout ch l) s ((c (decayResult r)).set (K.chState ch) 5).refreshBanks) ∧
      (e ≤ 30000 → r = 4 → Effect (.decayEnd ch l) s ((c 4).endLatching ch.val 4)) ∧
      Effect (.clampEnergyExceeded ch l) s ((c r).endLatching ch.val 10)) ∧
    (∀ i : BitVec 32, s.chip.get (K.chState ch) = 5 →
      let r := (s.chip.actCh ch.val).result
      Effect (.operationComplete ch i) s ((s.chip.fresh.publish ch.val r (max (s.chip.actCh ch.val).highest
        (s.chip.sample ch.val i.toNat) : Nat)).afterOperation (ch.val / 2) r))

/-- R265, R270, R273 to R275, R278: the faults and tests of the driver. An overcurrent ends the operation with its result and latches the
bank; an off-state test runs on banks at rest, and what one test alone found is not reported; VSOL
follows its conditions, and whether it is back in range or only no longer reversed comes as an operand (the model's choice, assumptions 110
and 111); the clamp hold ends at 500 000 µW; a park is complete when both banks are parked. -/
def Obligations.ActuatorFaults : Prop :=
  ∀ s : State,
    (∀ ch : Fin 4, s.chip.get (K.chState ch) = 3 → s.chip.get (K.chState (s.chip.actOf ch.val)) = 3 →
      Effect (.switchOvercurrent ch) s (s.chip.fresh.endLatching (s.chip.actOf ch.val) 7) ∧
      (s.chip.get (K.bankMode (ch.val / 2)) = 1 → Effect (.holdOvercurrent ch) s (s.chip.fresh.endLatching ch.val 8))) ∧
    (∀ ch : Fin 4, s.chip.get (K.bankMode (ch.val / 2)) ≠ 1 → s.chip.chActive (s.chip.actOf ch.val) = false → (s.chip.actBank (ch.val / 2)).latched = false →
      let other := 2 * (ch.val / 2) + (1 - ch.val % 2)
      Effect (.crossCurrent ch) s
        (if s.chip.chActive other then s.chip.fresh.endLatching other 11 else s.chip.fresh.latchBank (ch.val / 2) 11)) ∧
    (s.chip.get K.vsolState = 0 → s.chip.bankActive 0 = false → s.chip.bankActive 1 = false → (s.chip.actBank 0).queue = [] →
      (s.chip.actBank 1).queue = [] →
      Effect .offstateTest s ((s.chip.modActBank 0 (fun (k : ActBank) => { k with testing := true })).modActBank 1
        (fun (k : ActBank) => { k with testing := true }))) ∧
    (∀ (b : Fin 2) (found : BitVec 4), (s.chip.actBank b.val).testing = true → (s.chip.actBank b.val).found = 0 →
      s.chip.nat (K.offstateResult b) = 0 →
      Leaves (.offstateTestEnd b found) s (fun c => c.get (K.offstateResult b) = 0 ∧ c.heads = s.chip.heads ∧
        c.act.chans = s.chip.act.chans)) ∧
    (sumN (s.chip.clampRecent.map (·.2)) ≤ 500000 →
      Effect .clampHoldoffEnd s
        (((({ s.chip.fresh with
          act := { s.chip.act with holdoff := false, clamp := s.chip.clampRecent } } : Chip).modActBank 0
            (fun (k : ActBank) => { k with clampHeld := false })).modActBank 1 (fun (k : ActBank) => { k with clampHeld := false })).refreshBanks)) ∧
    Effect .vsolReversed s ({ s.chip.fresh with act := { s.chip.act with reversed := true } } : Chip).vsolUpdate ∧
    Effect .vsolRecovered s ({ s.chip.fresh with
      act := { s.chip.act with reversed := false }
      rails := { s.chip.rails with
        fault := modAt s.chip.rails.fault 10 (fun _ => false)
        level := modAt s.chip.rails.level 10 (fun _ => .inRange) } } : Chip).vsolUpdate ∧
    Effect (.vsolRecovered false) s ({ s.chip.fresh with act := { s.chip.act with reversed := false } } : Chip).vsolUpdate ∧
    (s.chip.act.parking = true → s.chip.act.banks.all (fun k => decide (k.park = 3)) = true →
      Effect .parkComplete s ({ s.chip with act := { s.chip.act with parking := false, parked := true } } : Chip).refreshBanks)

/-! ### Lines, coefficient sets and palettes -/

/-- R145, R311, R314: the next row of a verified head is converted and joins the FIFO of its source, behind what waits there; no other
source or head changes. -/
def Obligations.HeadRowsReachTheirFifo : Prop :=
  ∀ (s : State) (h : Fin 4) (samples : List (List (Option (BitVec 16)))) (w : Work),
    let p := s.chip.head h.val
    p.timing = true → p.gap = false → s.chip.get (K.runState h) = 3 → p.rows + 1 < (geoOf s.chip.dict h.val).h →
    s.chip.regionRestarting 1 = false → s.chip.pixelRuns = true → (s.chip.source h.val).open' = some w → w.front = true →
    (s.chip.source h.val).fifo.length < s.chip.fifoRoom h.val → s.chip.pix.sources.length = 6 → s.chip.heads.length = 4 →
    Leaves (.lineEligible h samples) s (fun c =>
      (c.head h.val).rows = p.rows + 1 ∧
      ((c.source h.val).fifo.dropLast = (s.chip.source h.val).fifo ∧
        (c.source h.val).fifo.getLast?.map (fun (l : Line) => (l.frame, l.row, l.done)) = some (w.id, p.rows, false)) ∧
      (∀ g : Fin 4, g ≠ h → c.head g.val = s.chip.head g.val) ∧
      (∀ g : Fin 6, g.val ≠ h.val → c.source g.val = s.chip.source g.val) ∧ c.dram = s.chip.dram ∧ c.onion = s.chip.onion)

/-- R312, R313, R469: a resource is granted to the source whose waiting line has the earliest deadline, and the line is processed and
counted; it leaves its FIFO when the grant is complete; a lane group that hangs resets its lanes, is counted, and releases its line, which
is granted again; while its block resets or PIX restarts it is recorded only, and while MEM is under reset its watchdog is suspended
(R474; which blocks wait on which is the model's choice, assumption 117). -/
def Obligations.LinesAreGranted : Prop :=
  (∀ (s : State) (r : Fin 2) (b1 b2 b3 : List (BitVec 16)) (src : Nat) (l : Line), at' s.chip.pix.grants r.val = none →
    s.chip.lanesWork r.val = true → s.chip.arbitrate r.val = some (src, l) → l.done = false → s.chip.mono * 6 ≤ l.deadline →
    let c : Chip := { s.chip.fresh with pix := { s.chip.pix with grants := modAt s.chip.pix.grants r.val (fun _ => some src) } }
    Effect (.lineGrant r b1 b2 b3) s
      (((c.total (K.linesGranted src) 1).processLine src l b1 b2 b3).modSource src
        (fun (x : Source) => { x with fifo := modAt x.fifo 0 (fun l => { l with done := true }) }))) ∧
  (∀ (s : State) (src : Fin 6) (l : Line), s.chip.arbitrate 0 = some (src.val, l) →
    ∀ g : Fin 6, s.chip.isThermal g.val = true → ∀ k : Line, (s.chip.source g.val).fifo.head? = some k → l.deadline ≤ k.deadline) ∧
  (∀ (s : State) (r : Fin 2) (src : Nat) (l : Line) (rest : List Line), at' s.chip.pix.grants r.val = some src →
    (s.chip.source src).fifo = l :: rest →
    Effect (.lineComplete r) s ((((s.chip.fresh.release r.val).modSource src (fun (x : Source) => { x with fifo := x.fifo.drop 1 })).modWork src
      l.frame (fun (w : Work) => { w with left := w.left - 1 })).finishAll src)) ∧
  (∀ (s : State) (lane : Fin 4) (src : Nat), at' s.chip.pix.grants 0 = some src →
    (s.chip.suspended 2 1 = true → Effect (.nucLaneWatchdog lane) s s.chip) ∧
    (s.chip.suspended 2 1 = false → s.chip.cellHeld 2 1 = true →
      Effect (.nucLaneWatchdog lane) s (s.chip.fresh.raise 0 2 1 lane.val 0x2010 lane.val src)) ∧
    (s.chip.suspended 2 1 = false → s.chip.cellHeld 2 1 = false →
      let c := (s.chip.fresh.cellExpired 2 1 lane.val 0x2010 lane.val src).bump K.nucLaneResets
      Effect (.nucLaneWatchdog lane) s
        ((if c.cellHeld 2 1 then c else { c with pix := { c.pix with laneReset := true } }).release 0)))

/-- R233, R234, R238, R259, R428: a load begins where nothing stands against it; one whose image passes its checks has moved its records on
its channel and leaves the set resident, and one that ends in a DMA error ends that transfer and leaves the set failed; a save erases the
slot that is not valid or has the lower sequence, writes the E array and then the header, counts the sectors and pages, and reports its
sequence, or finds another image there, or fails while the port is slave; an eviction frees the set. That the steps of a load and of a save
are not seen apart is the model's choice (assumptions 101 and 119). -/
def Obligations.SetsLoadSaveEvict : Prop :=
  (∀ (s : State) (m : Master) (v : BitVec 64), s.chip.serves m K.onionLoad → v.toNat < 1024 → v.toNat % 256 ≤ 31 →
    let n := v.toNat % 256
    (v[8] = true ∨ s.chip.get (K.setFlashOffset n) ≠ 0xFFFFFFFF) → s.chip.pixelRuns = true → s.chip.onion.load = none →
    s.chip.get (K.setState n) ≠ 1 → s.chip.passDue n = false → s.chip.setUsers n = [] → s.chip.solsticeOwns n = false →
    s.chip.dmaCopies (s.chip.nat K.onionDmaChannel) = false →
    Effect (.onionLoad m v) s (s.chip.fresh.startLoad { set := n, host := v[8], zero := v[9] })) ∧
  (∀ (s : State) (l : SetLoad), s.chip.onion.load = some l →
    Effect (.onionLoadComplete .dmaError) s (s.chip.fresh.dmaEnd l.ch (s.chip.loadError l) 0 0) ∧
    (s.chip.onion.boot = [] → l.set < 32 → l.ch < 16 → s.chip.dmaCopy? l.ch = none →
      Leaves (.onionLoadComplete .dmaError) s (fun c => c.onion.load = none ∧ c.get (K.setState l.set) = 5 ∧
        c.get K.onionLoadStatus = (s.chip.onion.loadSeq * 2 ^ 16 + l.set * 2 ^ 8 + 6 : Nat) ∧
        c.get (K.dmaLastStatus l.ch) = (s.chip.loadError l : Nat) ∧ c.get (K.dmaState l.ch) = 5))) ∧
  (∀ (s : State) (l : SetLoad) (h recs a b : List Byte) (base : Nat), s.chip.onion.load = some l →
    s.chip.loadReaches l = true → headerOk h = true → s.chip.setPlace (setBytes (fieldAt h 6 2) (fieldAt h 8 2)) = some base →
    recs.length = 16 * (fieldAt h 6 2 * fieldAt h 8 2) →
    let c := ({ s.chip.fresh with onion := { s.chip.onion with load := none } } : Chip).loadMoved l (fieldAt h 6 2) (fieldAt h 8 2) base
    (crc32 recs = fieldAt h 16 4 → Effect (.onionLoadComplete (.parts h recs a b)) s
      (c.loadDone l h recs (if l.zero then none else chooseSlot h a b (fieldAt h 6 2 * fieldAt h 8 2)) base).bootLoads) ∧
    (crc32 recs ≠ fieldAt h 16 4 → Effect (.onionLoadComplete (.parts h recs a b)) s (c.loadFailed l.set 4).bootLoads)) ∧
  (∀ (s : State) (m : Master) (v : BitVec 8), s.chip.serves m K.onionSave → v.toNat ≤ 31 → s.chip.pixelRuns = true →
    s.chip.inDram v.toNat = true → Effect (.onionSave m v) s (s.chip.fresh.wantSave v.toNat)) ∧
  (∀ (s : State) (n : Nat) (d : SetData) (h a b : List Byte), s.chip.onion.save = some (n, s.chip.nat (K.setFieldSequence n)) →
    s.chip.spm.seq.any (fun q => decide (q.user ≠ .save n)) = false → s.chip.setData n = some d →
    s.chip.onion.saves = [] → s.chip.spm.waitPages = [] → s.chip.spm.waitReads = [] → s.chip.spm.copy = none →
    let off := s.chip.slotOffset n (saveSecond h a b d.view.length)
    let size := up64k (64 + 2 * d.view.length)
    let ended := fun (c : Chip) => ({ c with onion := { c.onion with save := none }, spm := { c.spm with seq := none } } : Chip)
    (s.chip.get K.spRole = 0 → headerOk h = true → fieldAt h 13 1 = 2 →
      (fieldAt h 16 4 = d.factoryCrc → Answer (.onionSaveComplete (.parts h a b)) s
        [.erased off size, .saved (off + 64) d.fieldBytes, .saved off (s.chip.slotHeader n (s.chip.nat (K.setFieldSequence n)) d)]
        ((ended (((s.chip.fresh.bumpBy K.spmErases (size / 4096)).bumpBy K.spmPrograms (slotPages (2 * d.view.length))).bump
          K.spmPrograms)).setAll [(K.setSavedSequence n, s.chip.nat (K.setFieldSequence n)), (K.onionSaveStatus, (n * 256 + 2 : Nat)),
            (K.spmState, 1)])) ∧
      (fieldAt h 16 4 ≠ d.factoryCrc → Effect (.onionSaveComplete (.parts h a b)) s
        ((ended s.chip.fresh).setAll [(K.onionSaveStatus, (n * 256 + 4 : Nat)), (K.spmState, 1)]))) ∧
    (s.chip.get K.spRole ≠ 0 → s.chip.spm.seq = none → Effect (.onionSaveComplete (.parts h a b)) s
      ((ended s.chip.fresh).set K.onionSaveStatus (n * 256 + 5 : Nat)))) ∧
  (∀ (s : State) (m : Master) (v : BitVec 8), s.chip.serves m K.onionEvict → v.toNat ≤ 31 → s.chip.pixelRuns = true →
    s.chip.get (K.setState v.toNat) ≠ 1 → s.chip.passDue v.toNat = false → s.chip.setUsers v.toNat = [] →
    Effect (.onionEvict m v) s
      ((((s.chip.fresh.dropSet v.toNat).set (K.setState v.toNat) 0).set (K.setShadowValid v.toNat) 0).refreshSets))

/-- R237, R239: a revert is queued and counted where a shadow is valid; its pass exchanges the field layer of every record with the shadow,
and the anchors with those of the shadow, and takes the next field sequence. -/
def Obligations.RevertExchangesFields : Prop :=
  (∀ (s : State) (m : Master) (v : BitVec 8), s.chip.serves m K.onionRevert → v.toNat ≤ 31 → s.chip.pixelRuns = true →
    s.chip.get (K.setShadowValid v.toNat) = 1 → s.chip.passOn v.toNat = false → 4 ≤ s.chip.nat (K.setOwner v.toNat) →
    Effect (.onionRevert m v) s
      ((({ s.chip with onion := { s.chip.onion with passes := s.chip.onion.passes ++
        [{ set := v.toNat, kind := .revert, waits := !(s.chip.setUsers v.toNat).isEmpty }] } } : Chip).bump K.onionReverts).refreshSets)) ∧
  (∀ (s : State) (n : Fin 32) (p : Pass) (d : SetData),
    s.chip.onion.passes.find? (fun p => decide (p.set = n.val ∧ p.kind = .revert) && !p.waits) = some p →
    s.chip.setData n.val = some d → s.chip.onion.sets.length = 32 →
    Leaves (.onionPassComplete n) s (fun c =>
      (c.setData n.val).map (·.view) = some ((d.view.zip d.shadow).map (fun (r, e) => withE r e)) ∧
      (c.setData n.val).map (·.shadow) = some (d.view.map recE) ∧
      c.get (K.setAnchorTemp n) = d.shadowTemp ∧ c.get (K.setAnchorTime n) = d.shadowTime ∧
      (c.setData n.val).map (·.shadowTemp) = some (s.chip.get (K.setAnchorTemp n)) ∧
      c.get (K.setFieldSequence n) = nextSeq (s.chip.nat (K.setFieldSequence n)) 0xFFFFFFFF ∧
      c.onion.passes.map (fun (q : Pass) => (q.set, q.kind)) = (s.chip.onion.passes.erase p).map (fun (q : Pass) => (q.set, q.kind))))

/-! ### CSI-2, streams, statistics -/

/-- R300 to R307, R324, R469: receivers and sources start and stop; a frame start opens the frame of the source that its virtual channel
names and an end closes it; a long packet is the next line of an open frame, and an orphan without one; a lost source is counted, recorded
and delivers substitutes; the receiver's errors are counted; a lane that hangs resets, and is recorded only while its block resets or its
region restarts (R474). -/
def Obligations.CsiReception : Prop :=
  (∀ (s : State) (m : Master) (k : Fin 2), s.chip.serves m (K.rxRun k) →
    (s.chip.pathRuns = true → s.chip.get (K.rxState k) = 0 →
      Effect (.rxRunStart m k) s (s.chip.setAll [(K.rxRun k, 1), (K.rxState k, 1)])) ∧
    ((∀ i : Fin 2, s.chip.get (K.srcState i) = 0) →
      Effect (.rxStop m k) s (s.chip.setAll [(K.rxRun k, 0), (K.rxState k, 0)]))) ∧
  (∀ (s : State) (m : Master) (i : Fin 2), s.chip.serves m (K.srcRun i) →
    (s.chip.pathRuns = true → s.chip.get (K.srcState i) = 0 → s.chip.srcStartOk i.val = true →
      (s.chip.fresh.admitted (K.srcRun i) 1).2 = false →
      Effect (.srcRunRequest m i) s ((((((s.chip.fresh.admitted (K.srcRun i) 1).1).set (K.srcRun i) 1).set (K.srcState i) 1).modSource (4 + i.val)
        (fun (x : Source) => { x with isOpen := false, lines := 0, sender := none, tnrSeed := true })).refreshSets)) ∧
    (s.chip.get (K.srcState i) ≠ 0 → Effect (.srcStop m i) s ((s.chip.fresh.set (K.srcRun i) 0).srcRest i.val))) ∧
  (∀ (s : State) (k : Fin 2) (vc : Fin 4) (i : Nat), s.chip.rxWorks k.val = true → s.chip.rxRoute k.val vc.val = some i →
    let c := s.chip.fresh.set (K.rxState k) 2
    (∀ number : BitVec 16, senderGap (s.chip.source (4 + i)).sender number.toNat = false →
      Effect (.csiFrameStartPacket k vc .good number) s
        (((c.bump (K.vcFrameStarts k vc)).csiOpen i 0).modSource (4 + i) (fun (x : Source) => { x with sender := some number.toNat }))) ∧
    Effect (.csiFrameEndPacket k vc .good) s (c.csiClose i) ∧
    (∀ l : CsiLine, l.hdr = .good → l.dt.toNat ∈ [0x2A, 0x2B, 0x2C, 0x2D, 0x2E, 0x1E, 0x24] → s.chip.nat (K.srcDataType i) = l.dt.toNat →
      ((s.chip.source (4 + i)).isOpen = true → Effect (.csiLongPacket k vc l) s (c.csiLine k.val i l)) ∧
      ((s.chip.source (4 + i)).isOpen = false → (s.chip.source (4 + i)).ecc = false →
        Effect (.csiLongPacket k vc l) s (c.bump (K.orphanPackets i))))) ∧
  (∀ (s : State) (i : Fin 2), s.chip.pathRuns = true →
    (s.chip.get (K.srcState i) = 2 → Effect (.csiSourceTimeout i) s
      (((s.chip.fresh.bump (K.srcLostCount i)).raise 0 1 (8 + s.chip.nat (K.srcReceiver i)) 4 0x1030 (4 + i.val)
        (s.chip.nat (K.srcFrameNumber i))).csiLose i.val)) ∧
    (s.chip.get (K.srcState i) = 3 → Effect (.csiSubstituteFrame i) s (s.chip.fresh.csiSubstitute i.val))) ∧
  (∀ (s : State) (k : Fin 2),
    (s.chip.rxWorks k.val = true →
      Effect (.csiSotError k) s ((s.chip.bump (K.sotErrors k)).set (K.rxState k) 3) ∧
      Effect (.csiDeskewSequence k) s ((s.chip.bump (K.deskews k)).set (K.rxState k) 2)) ∧
    (∀ lane : Fin 4, s.chip.get (K.rxState k) = 2 → lane.val < s.chip.nat (K.rxLanes k) →
      (s.chip.cellHeld 1 (8 + k.val) = false →
        Effect (.csiLaneWatchdog k lane) s ((s.chip.fresh.cellExpired 1 (8 + k.val) lane.val 0x1032 k.val lane.val).set (K.rxState k) 1)) ∧
      (s.chip.cellHeld 1 (8 + k.val) = true →
        Effect (.csiLaneWatchdog k lane) s (s.chip.fresh.raise 0 1 (8 + k.val) lane.val 0x1032 k.val lane.val))))

/-- R329 to R333, R344 to R347: a stream that starts numbers its deliveries from 0 at the beginning of its ring; one that is stopped stops
at once where no frame is in progress, and reads 3 to the end of its frames otherwise; a line goes to its place in the slot; the end of a
frame, of a running stream or of one that stops, writes the header at the start of the slot, advances RING_WRITE and reports the frame, and
the last frame of a stream that stops leaves it stopped. R347, R469, R474: a stream writer or scaler that hangs writes its frame again from
the first line, or abandons it where that could not end in time; while its block resets or its region restarts it is recorded only, and
while what it waits on is under reset its watchdog is suspended (which blocks wait on which is the model's choice, assumption 117). -/
def Obligations.StreamsDeliver : Prop :=
  (∀ (s : State) (m : Master) (n : Fin 8), s.chip.serves m (K.streamRun n) →
    (s.chip.get (K.streamState n) = 0 → Effect (.streamStop m n) s (s.chip.set (K.streamRun n) 0)) ∧
    (s.chip.get (K.streamState n) ≠ 0 → (s.chip.stream n.val).jobs = [] →
      Effect (.streamStop m n) s ((s.chip.fresh.setAll [(K.streamRun n, 0), (K.streamState n, 0)]).applyStopped (8 + n.val)) ∧
      ((∀ w ∈ s.chip.staged, w.owner ≠ 8 + n.val) →
        Effect (.streamStop m n) s (s.chip.setAll [(K.streamRun n, 0), (K.streamState n, 0)]))) ∧
    (s.chip.get (K.streamState n) = 2 ∨ s.chip.get (K.streamState n) = 3 → (s.chip.stream n.val).jobs ≠ [] →
      Effect (.streamStop m n) s (s.chip.setAll [(K.streamRun n, 0), (K.streamState n, 3)])) ∧
    (s.chip.pixelOn = true → s.chip.get (K.streamState n) = 0 → s.chip.nv (K.streamSource n) < 16 →
      s.chip.sourceWanted (s.chip.nv (K.streamSource n)) = true → s.chip.val (K.ringBase n) ≠ 0 → s.chip.val (K.slotSize n) ≠ 0 →
      s.chip.streamFormatOk n.val = true → s.chip.streamShape n.val = true → (s.chip.fresh.admitted (K.streamRun n) 1).2 = false →
      s.chip.pix.streams.length = 8 →
      Leaves (.streamStart m n) s (fun c => c.get (K.streamRun n) = 1 ∧ c.get (K.streamState n) = 1 ∧ c.get (K.ringWrite n) = 0 ∧
        c.get (K.deliverySequence n) = 0 ∧ (c.stream n.val).jobs = [] ∧ (c.stream n.val).nextSeq = 0 ∧ c.heads = s.chip.heads ∧
        c.dram = s.chip.dram))) ∧
  (∀ (s : State) (n : Fin 8) (j : Job) (rest : List Job) (img : Stored) (slot : Nat) (win : Nat × Nat),
    (s.chip.stream n.val).jobs = j :: rest → j.img = some img → j.slot = some slot →
    (j.window = some win → j.line < j.par.natAt (K.outHeight n) → s.chip.canSend0 = true →
      let bytes := outLine j n.val j.line (s.chip.kindOf (s.chip.nat (K.streamSource n))) img win
      Answer (.streamLineOutput n) s
        [.hostWrite 1 (s.chip.slotBase n.val slot + 64 + j.line * j.par.natAt (K.lineStride n)) bytes.1
          (j.par.onAt (K.relaxedOrdering n))]
        (s.chip.fresh.writeLine n.val j img slot win)) ∧
    (j.par.natAt (K.outHeight n) ≤ j.line → s.chip.pix.streams.length = 8 →
      s.chip.get (K.streamState n) = 2 ∨ s.chip.get (K.streamState n) = 3 → (∀ w ∈ s.chip.staged, w.owner ≠ 8 + n.val) →
      Leaves (.streamFrameComplete n) s (fun c =>
        c.get (K.streamState n) = (if rest ≠ [] then s.chip.get (K.streamState n) else if s.chip.get (K.streamState n) = 3 then 0
          else if s.chip.sourceRuns (streamSourceOf (s.chip.nat (K.streamSource n))) then 2 else 4) ∧
        [OutMsg.hostWrite 1 (s.chip.slotBase n.val slot) (s.chip.frameHeader n.val j img) (j.par.onAt (K.relaxedOrdering n))] <+: c.out ∧
        (c.stream n.val).jobs = rest ∧ (c.stream n.val).full = false ∧
        c.get (K.ringWrite n) = ((slot + 1) % max 1 (s.chip.nat (K.ringSlots n)) : Nat) ∧ c.get (K.lastFrameNumber n) = img.number ∧
        c.get (K.lastCaptureTime n) = img.cap ∧ c.get (K.lastMarks n) = (j.marks img : Nat) ∧
        c.get (K.framesWritten n) = min (s.chip.get (K.framesWritten n) + 1) 0xFFFFFFFF)) ∧
    (∀ writer fits : Bool,
      let region := if writer then 4 else 2
      let block := if writer then 1 else 6
      let code := if writer then 0x4001 else 0x2012
      let c := s.chip.fresh.cellExpired region block n.val code n.val img.number
      (s.chip.suspended region block = true → Effect (.streamWatchdog n writer fits) s s.chip) ∧
      (s.chip.suspended region block = false → s.chip.cellHeld region block = true →
        Effect (.streamWatchdog n writer fits) s (s.chip.fresh.raise 0 region block n.val code n.val img.number)) ∧
      (s.chip.suspended region block = false → s.chip.cellHeld region block = false →
        Effect (.streamWatchdog n writer fits) s
          (if fits then c.putJob n.val { j with line := 0, repeated := true } else (c.discardFrame n.val).popJob n.val))))

/-- R354 to R357, R424: a record that completes takes the next sequence of its source and joins its records; a copy to the host starts in
the slot that STAT_HOST_WRITE names, as a transfer of the engine, with the record as it stands then (the model's choice, assumption 101),
and its end writes that record there, ends the transfer and advances the slot. R357 to R360: a palette load takes the image as it stands,
and its end puts it in place and counts it. -/
def Obligations.StatisticsAndPalettes : Prop :=
  ((∀ (s : State) (i : Fin 6) (d : StatDue) (rest : List StatDue), (s.chip.source i.val).due = d :: rest → s.chip.pix.sources.length = 6 →
     Leaves (.statRecordComplete i) s (fun c =>
       c.get (K.statSequence i) = nextSeq (s.chip.nat (K.statSequence i)) 0xFFFFFFFF ∧ (c.source i.val).due = rest ∧
       ((c.source i.val).records.head?.map (fun (r : StatRec) => (r.seq, r.number))) =
         some (nextSeq (s.chip.nat (K.statSequence i)) 0xFFFFFFFF, d.rec'.number) ∧
       (c.source i.val).records.tail = (s.chip.source i.val).records.take 7 ∧ c.heads = s.chip.heads)) ∧
   (∀ (s : State) (ch : Fin 16) (x : StatCopy), s.chip.firstCopy ch.val = some x → x.started = false →
     ¬ (1 ≤ s.chip.get (K.dmaState ch) ∧ s.chip.get (K.dmaState ch) ≤ 3) → s.chip.canSend0 = true →
     (s.chip.source x.source).records.any (fun r => r.seq = x.seq) = true →
     (s.chip.nat (K.statHostWrite x.source) + 1) % max 1 (s.chip.nat (K.statHostSlots x.source)) ≠ s.chip.nat (K.statHostRead x.source) →
     let c := s.chip.fresh.dmaBegin ch.val (s.chip.copyDesc x.source x.seq (s.chip.nat (K.statHostWrite x.source)))
     Effect (.statHostCopyStart ch) s { c with pix := { c.pix with copies := s.chip.pix.copies.map (fun y =>
       if y = x then { x with started := true, slot := s.chip.nat (K.statHostWrite x.source)
                              data := (s.chip.source x.source).records.find? (fun r => r.seq = x.seq) } else y) } }) ∧
   (∀ (s : State) (ch : Fin 16) (status : BitVec 8) (x : StatCopy) (r : StatRec), s.chip.dmaCopy? ch.val = some x → x.data = some r →
     x.source < 6 → status.toNat ≤ 2 → s.chip.canSend0 = true → s.chip.dmaWorks = true → s.chip.dmaMayEnd ch.val = true →
     Leaves (.statHostCopyComplete ch status) s (fun c =>
       OutMsg.hostWrite 1 (s.chip.nat (K.statHostBase x.source) + 4672 * x.slot) r.bytes ∈ c.out ∧
       c.pix.copies = s.chip.pix.copies.erase x ∧ c.get (K.dmaLastStatus ch) = 1 ∧ c.dma.grant = none ∧
       c.get (K.statHostWrite x.source) = ((x.slot + 1) % max 1 (s.chip.nat (K.statHostSlots x.source)) : Nat) ∧
       c.get (K.statHostDrops x.source) = s.chip.get (K.statHostDrops x.source) ∧ c.heads = s.chip.heads ∧ c.onion = s.chip.onion))) ∧
  ((∀ (s : State) (m : Master) (v : BitVec 8), s.chip.serves m K.paletteLoad → s.chip.pixelRuns = true → v.toNat ≤ 7 →
     Effect (.paletteLoad m v) s { s.chip with pix := { s.chip.pix with
       palLoads := s.chip.pix.palLoads ++ [(v.toNat, paletteOf (s.chip.domainImage (K.paletteImage v.toNat)))] } }) ∧
   (∀ (s : State) (m : Master) (v : BitVec 8), s.chip.serves m K.paletteLoad → 7 < v.toNat →
     Effect (.paletteLoad m v) s (s.chip.noteAbort m K.paletteLoad 0x06090031)) ∧
   (∀ (s : State) (p : Fin 8) (x : Nat × List Nat), s.chip.pix.palLoads.find? (fun x => x.1 = p.val) = some x →
     Effect (.paletteCopyComplete p) s (({ s.chip with pix := { s.chip.pix with
       palLoads := s.chip.pix.palLoads.erase x, palettes := modAt (tab 8 (fun i => at' s.chip.pix.palettes i)) p.val (fun _ => x.2) } } : Chip).bump (K.paletteLoads p))))

/-! ### Mailboxes and CANopen transfers -/

/-- R404 to R413: a send fills H2D, which is refused while it is full; a recall empties it; a release takes the reply; an acknowledgement
clears the bits written, but those that hardware sets in the same cycle stand, with their message where they rise again (R82; what the same
cycle is, is the model's choice, assumption 1); an untaken message times out once; a take moves the words into the request store; a reply
fills D2H; a channel that hangs is emptied, is recorded only while its block resets or HOST restarts, and is not judged while HKP is under
reset (R469, R474; which blocks wait on which is the model's choice, assumption 117). -/
def Obligations.MailboxMessages : Prop :=
  ∀ (s : State) (m : Master) (ch : Fin 8), mbxHost ch.val m = true →
    (s.chip.serves m (K.mbxH2dCommand ch) →
      (s.chip.h2dFull ch.val = false → s.chip.boot.hkpRestart = false → s.chip.gnonerBusy = true →
        0 < hdrLength (s.chip.nat (K.mbxH2dWord ch 0)) → hdrLength (s.chip.nat (K.mbxH2dWord ch 0)) ≤ 8 →
        Effect (.mbxSend m ch) s ((((s.chip.set (K.mbxH2dState ch) 1).mbxFlag ch.val 0 false).modMbx ch.val (fun (x : Mbx) =>
          { x with timeoutRaised := false, takenAt := none })).bump (K.mbxSent ch))) ∧
      (s.chip.h2dFull ch.val = true → s.chip.boot.hkpRestart = false →
        Effect (.mbxSend m ch) s (s.chip.noteAbort m (K.mbxH2dCommand ch) 0x08000021)) ∧
      (s.chip.h2dFull ch.val = true →
        Effect (.mbxRecall m ch) s ((((s.chip.set (K.mbxH2dState ch) 0).mbxFlag ch.val 1 true).mbxFlag ch.val 2 false).bump
          (K.mbxRecalls ch)))) ∧
    (s.chip.serves m (K.mbxD2hRelease ch) →
      Effect (.mbxD2hRelease m ch) s ((s.chip.set (K.mbxD2hState ch) 0).modMbx ch.val (fun (x : Mbx) => { x with d2hTimedOut := false }))) ∧
    (∀ v : BitVec 8, s.chip.serves m (K.mbxIrqAck ch) →
      let st := s.chip.nat (K.mbxIrqStatus ch)
      let again := Nat.land (s.chip.risesAgain (K.mbxIrqStatus ch) v.toNat) (s.chip.nat (K.mbxIrqEnable ch))
      Effect (.mbxIrqAck m ch v) s ((List.range 4).foldl (fun (c : Chip) b => if bitOf again b then c.mbxMessage ch.val else c)
        (s.chip.fresh.set (K.mbxIrqStatus ch) (Nat.lor (clearBits st v.toNat) (Nat.land st (s.chip.raisedBits (K.mbxIrqStatus ch))) : Nat)))) ∧
    (s.chip.pixelRuns = true →
      (s.chip.d2hFull ch.val = true → (s.chip.mbxOf ch.val).d2hTimedOut = false →
        Effect (.mbxTimeout ch true) s ((s.chip.modMbx ch.val (fun (x : Mbx) => { x with d2hTimedOut := true })).bump
          (K.mbxD2hTimeouts ch))) ∧
      (s.chip.h2dFull ch.val = true → (s.chip.mbxOf ch.val).store.length < 2 → s.chip.boot.hkpRestart = false →
        bitOf (s.chip.nat (K.mbxIrqStatus ch)) 1 = true →
        Effect (.mbxTake ch) s ((s.chip.set (K.mbxH2dState ch) 0).modMbx ch.val (fun (x : Mbx) => { x with
          store := x.store ++ [{ words := s.chip.h2dWords ch.val, reply := mbxRefusal? ch.val (s.chip.h2dWords ch.val) }]
          takenAt := some s.chip.mono }))) ∧
      (∀ (r : MbxRequest) (rest : List MbxRequest) (words : List Nat), (s.chip.mbxOf ch.val).store = r :: rest → r.reply = some words →
        s.chip.d2hFull ch.val = false → s.chip.boot.hkpRestart = false → s.chip.mbx.length = 8 →
        Leaves (.mbxD2hSend ch) s (fun c => (∀ j : Fin 8, c.get (K.mbxD2hWord ch j) = (words.getD j.val 0 : Nat)) ∧
          c.get (K.mbxD2hState ch) = 1 ∧ (c.mbxOf ch.val).store = rest ∧
          c.get (K.mbxReceived ch) = min (s.chip.get (K.mbxReceived ch) + 1) 0xFFFFFFFF ∧
          bitOf (c.nat (K.mbxIrqStatus ch)) 0 = true)) ∧
      (s.chip.suspended 4 3 = true → Effect (.mbxChannelWatchdog ch) s s.chip) ∧
      (s.chip.suspended 4 3 = false → s.chip.cellHeld 4 3 = true →
        Effect (.mbxChannelWatchdog ch) s (s.chip.fresh.raise 0 4 3 ch.val 0x4003 ch.val 0)) ∧
      (s.chip.suspended 4 3 = false → s.chip.cellHeld 4 3 = false →
        Effect (.mbxChannelWatchdog ch) s ((s.chip.fresh.cellExpired 4 3 ch.val 0x4003 ch.val 0).mbxRestarted ch.val)))

/-- R414, R461: the oldest request that waits is answered with the words of its type: the slot's value, the outcome of the write, the run of
slots, an echo; an image write reads its bytes from host memory and writes them to the slot that does not run, whose magic stays cleared
until a commit verifies it: magic, length and digest as they stand there, and the signature as the operand says (assumptions 80 and 116).
What the reply says where host memory cannot be read is the model's choice (assumption 120). -/
def Obligations.MailboxRequests : Prop :=
  ∀ (s : State) (ch : Fin 8) (r : MbxRequest), s.chip.mbxOldest ch.val = some r → s.chip.boot.hkpRestart = false →
    let w := r.words
    let type := hdrType (w.headD 0)
    let put := fun (c : Chip) (reply : List Nat) => c.modMbx ch.val (fun (x : Mbx) => { x with store := replyOldest type reply x.store })
    (type = 0x0001 → ∀ (v : Nat) (c : Chip), s.chip.fresh.slotRead (mbxMaster ch.val) (requestKey (at' w 1)) = .ok (v, c) →
      Effect (.mbxObjectRead ch) s (put c (0 :: slotWords v))) ∧
    (type = 0x0002 → ∀ c : Chip,
      s.chip.fresh.slotWrite (mbxMaster ch.val) (requestKey (at' w 1)) (BitVec.ofNat 64 (at' w 2 + at' w 3 * 2 ^ 32)) = (c, none) →
      Effect (.mbxObjectWrite ch) s (put c [0])) ∧
    (type = 0x0003 → ∀ (l : List Nat) (c : Chip), 1 ≤ at' w 1 % 256 → at' w 1 % 256 ≤ 3 →
      requestKey (at' w 1) % 256 + at' w 1 % 256 ≤ 256 →
      s.chip.fresh.slotRun (mbxMaster ch.val) (requestKey (at' w 1)) (at' w 1 % 256) = .ok (l, c) →
      Effect (.mbxObjectReadMulti ch) s (put c (0 :: l))) ∧
    (type = 0x0010 → Effect (.mbxEcho ch) s (put s.chip ((w.take (hdrLength (w.headD 0))).drop 1))) ∧
    (type = 0x0100 → ∀ data : List Byte, s.chip.vanaLow = false → s.chip.imageAbort? (at' w 1) (at' w 4) = none →
      let c := s.chip.fresh.firmwareRead (at' w 2 + at' w 3 * 2 ^ 32) (at' w 4) 1
      (s.chip.canSend1 = true → Effect (.fwImageWrite ch data) s (put
        { c with
          nvm := { c.nvm with slots := modAt c.nvm.slots (1 - s.chip.boot.slot) (fun (x : Slot') =>
            x.write (at' w 1) (padTo (at' w 4) data)) }
          boot := { c.boot with verified := modAt c.boot.verified (1 - s.chip.boot.slot) (fun _ => false) } } [0])) ∧
      (s.chip.canSend1 = false → Effect (.fwImageWrite ch data) s
        (put (s.chip.fresh.firmwareRead (at' w 2 + at' w 3 * 2 ^ 32) (at' w 4) 5) [0x06060000]))) ∧
    (type = 0x0101 → s.chip.vanaLow = false →
      let release := (at' s.chip.nvm.slots (1 - s.chip.boot.slot)).release
      let slots := modAt s.chip.nvm.slots (1 - s.chip.boot.slot) (fun (x : Slot') => { x with magic := true })
      let c : Chip := { s.chip.fresh with nvm := { s.chip.nvm with slots := slots } }
      ∀ b : Bool, let good := b && (at' s.chip.nvm.slots (1 - s.chip.boot.slot)).sound (1 - s.chip.boot.slot)
      (good = true → Effect (.fwCommit ch b) s
        (put ((c.slotVerified (1 - s.chip.boot.slot) true).logOnly 0 0xFF 0xFF 0x000D (1 - s.chip.boot.slot) release) [0, release])) ∧
      (good = false → Effect (.fwCommit ch b) s (put (s.chip.slotVerified (1 - s.chip.boot.slot) false) [0x08000020, release]))) ∧
    (type = 0x0102 → Effect (.fwSlotStatus ch) s (put s.chip
      [0, s.chip.boot.slot + (if at' s.chip.boot.verified 0 then 256 else 0) + (if at' s.chip.boot.verified 1 then 512 else 0),
       (at' s.chip.nvm.slots 0).release + (at' s.chip.nvm.slots 1).release * 2 ^ 16]))

/-- R374, R377, R378, R383: a request on 0x600 + node-ID ends a running session; a download whose bytes have all come is written at once, a
longer one opens a session, and an upload, of a sub-index or of a whole object, answers its first bytes; a segment adds to a download or
takes the next bytes of an upload, and one that does not complete the declared length ends it with 0x0607_0010; a session that waits too
long is dropped; receive PDOs are written in operational state and otherwise counted; a reset of the node resets communication, and the chip
where so configured; a frame with an 11-bit identifier is an NMT command or a receive PDO, one with 29 bits is ignored. The layout of the
USDO frames, the bytes of a segment and the transfer of a whole object are the model's choice (assumption 22), and so are the requests as
commands of their own, the record of a short receive PDO and that both act where they share a COB-ID (assumption 40). -/
def Obligations.UsdoAndPdos : Prop :=
  (∀ (s : State) (r : UsdoRequest), s.chip.usdoServes = true → r.ident.toNat = 0x600 + s.chip.nat K.canNodeId →
    s.chip.boot.hkpRestart = false →
    let key := keyOf r.idx r.sub
    let c0 : Chip := match s.chip.can.usdo with
      | some u => ({ s.chip.fresh with can := { s.chip.can with usdo := none } } : Chip).noteAbort .can u.key 0x08000021
      | none => s.chip.fresh
    (r.isWrite = true → r.whole = false → c0.downloadAbort? key r.len = none →
      (r.data.length = r.len → Effect (.usdoInitiate r) s (c0.downloadNow key r.data)) ∧
      (r.data.length < r.len → Effect (.usdoInitiate r) s
        { c0 with can := { c0.can with usdo := some { isWrite := true, key := key, len := r.len, data := r.data } } }) ∧
      (r.data.length < r.len → s.chip.can.usdo = none → s.chip.canMayTransmit = true →
        Leaves (.usdoInitiate r) s (fun c => OutMsg.usdo (0x580 + s.chip.nat K.canNodeId) [] false ∈ c.out))) ∧
    (r.isWrite = false → ∀ (l : List Byte) (c : Chip), c0.uploadAll r.whole key = .ok (l, c) →
      Effect (.usdoInitiate r) s (c.uploadNext key l))) ∧
  (∀ (s : State) (r : UsdoSegment) (u : Usdo), s.chip.can.usdo = some u → s.chip.usdoServes = true →
    r.ident.toNat = 0x600 + s.chip.nat K.canNodeId → s.chip.boot.hkpRestart = false →
    let ended : Chip := { s.chip.fresh with can := { s.chip.can with usdo := none } }
    (u.isWrite = true →
      (r.last = true → (u.data ++ r.data).length = u.len → Effect (.usdoSegment r) s (ended.downloadNow u.key (u.data ++ r.data))) ∧
      (r.last = true → (u.data ++ r.data).length ≠ u.len →
        Effect (.usdoSegment r) s (ended.noteAbort .can u.key 0x06070010)) ∧
      (r.last = false → (u.data ++ r.data).length ≤ u.len →
        Effect (.usdoSegment r) s { s.chip with can := { s.chip.can with usdo := some { u with data := u.data ++ r.data } } })) ∧
    (u.isWrite = false → Effect (.usdoSegment r) s (s.chip.fresh.uploadNext u.key u.data))) ∧
  (∀ (s : State) (u : Usdo), s.chip.can.usdo = some u →
    Effect .usdoTimeout s (({ s.chip with can := { s.chip.can with usdo := none } } : Chip).bump K.usdoTimeouts)) ∧
  (∀ (s : State) (n : Fin 2) (data : List Byte), s.chip.canOnBus = true → s.chip.rpdoValid n.val = true →
    (s.chip.get K.nmtState = 5 → s.chip.boot.hkpRestart = false → sumN ((s.chip.rpdoEntries n.val).map (· % 256)) ≤ 8 * data.length →
      Effect (.rpdoReceived n data) s ((pdoValues (s.chip.rpdoEntries n.val) (fieldAt data 0 data.length)).foldl
        (fun (c : Chip) (x : Nat × Nat × Nat) => c.pdoWrite x.1 x.2.1 x.2.2) s.chip.fresh)) ∧
    (s.chip.get K.nmtState ≠ 5 → Effect (.rpdoReceived n data) s (s.chip.bump K.rpdoIgnored))) ∧
  (∀ s : State, s.chip.nmtListens = true →
    (s.chip.get K.nmtResetAction ≠ 1 → Effect .nmtResetNode s s.chip.fresh.resetCommunication) ∧
    (s.chip.get K.nmtResetAction = 1 → Effect .nmtResetNode s (s.chip.fresh.resetCommunication.chipReset 4))) ∧
  (∀ (s : State) (f : CanFrame), s.chip.canOnBus = true →
    let c := (s.chip.fresh.canReceivedWell).canCalibrate f.bitTime.toNat
    (f.extended = true → Effect (.canFrameReceived f) s c) ∧
    (f.extended = false → f.ident.toNat = 0 → Effect (.canFrameReceived f) s (c.nmtFrame f.data)) ∧
    (f.extended = false → f.ident.toNat ≠ 0 → Effect (.canFrameReceived f) s ([0, 1].foldl (fun (c : Chip) (n : Nat) =>
      if c.nat (K.rpdoCobId n) % 2048 = f.ident.toNat then rpdoReceived n f.data c else c) c)))

/-! ### The serial port, the flash and the NVM -/

/-- R429, R433, R434: SP_CS0_N brings the status byte and the reply, and clears the flags told; a frame that fails its CRC is bad and
counted; one that passes gives its request; each opcode is carried out and answered, with the reply ready for the next frames. -/
def Obligations.SlaveFrames : Prop :=
  (∀ s : State, s.chip.reaches .sp = true →
    Answer .spsFrameStart s [.spFrame s.chip.sps.frame]
      (({ s.chip with pins := { s.chip.pins with spCs0Low := true },
                      sps := { s.chip.sps with bad := false, alive := false, dropped := false } } : Chip).set K.spsState 2)) ∧
  (∀ (s : State) (bytes : List Byte), s.chip.sps.toMaster = false → s.chip.nat K.spsState = 2 → requestOf bytes = none →
    Effect (.spsFrameEnd bytes) s (({ s.chip with pins := { s.chip.pins with spCs0Low := false },
                                                  sps := { s.chip.sps with bad := true } } : Chip).set K.spsState 1 |>.bump K.spsCrcErrors)) ∧
  (∀ (s : State) (bytes : List Byte) (r : SpRequest), s.chip.sps.toMaster = false → s.chip.nat K.spsState = 2 →
    requestOf bytes = some r →
    Effect (.spsFrameEnd bytes) s
      ((({ s.chip.fresh with pins := { s.chip.pins with spCs0Low := false } } : Chip).set K.spsState 1).spsFramed r)) ∧
  (∀ s : State, Effect .spsNop s s.chip) ∧
  (∀ (s : State) (r : SpRequest), s.chip.sps.request = some r → s.chip.reaches .sp = true →
    let done := fun (c : Chip) (rest : List Byte) =>
      ({ c with sps := { c.sps with request := none, answer := some (r.alive, leBytes 4 0 ++ rest) } } : Chip)
    (r.opcode = 1 → ∀ (v : Nat) (c : Chip), s.chip.fresh.slotRead .sp r.key = .ok (v, c) →
      Effect .spsReadSlot s (done c (leBytes 8 v))) ∧
    (r.opcode = 2 → ∀ c : Chip, s.chip.fresh.slotWrite .sp r.key (BitVec.ofNat 64 (fieldAt r.data 0 8)) = (c, none) →
      c.boot.phase = .ready → Effect .spsWriteSlot s (done c [])) ∧
    (r.opcode = 3 → ∀ (h : Nat) (l : List Nat), highestSub r.idx = some h → 1 ≤ r.count → r.count ≤ 16 → r.sub ≤ h → r.idx ≠ 0x2020 →
      s.chip.fresh.slotsFrom r.key (min r.count (h - r.sub + 1)) = .ok l →
      Effect .spsReadSlots s (done s.chip (leBytes 1 (min r.count (h - r.sub + 1)) ++ (l.map (leBytes 8)).flatten))) ∧
    (r.opcode = 4 → ∀ l : List Byte, 1 ≤ r.count → r.count ≤ 8 → s.chip.fresh.domainRead .sp r.key = .ok l →
      let part := (l.drop (fieldAt r.data 0 4)).take (8 * r.count)
      Effect .spsDomainRead s (done s.chip (leBytes 1 part.length ++ part))) ∧
    (r.opcode = 5 → 1 ≤ r.count → r.count ≤ 8 → s.chip.fresh.domainAbort? .sp r.key = none → fieldAt r.data 0 4 = 0 →
      Effect .spsDomainWrite s (done { s.chip with sps := { s.chip.sps with transfer := some (r.key, r.data.drop 4) } } [])) ∧
    (r.opcode = 6 → ∀ (l : List Byte) (c : Chip), s.chip.sps.transfer = some (r.key, l) → l.length = fieldAt r.data 0 4 →
      ({ s.chip.fresh with sps := { s.chip.sps with transfer := none } } : Chip).domainWrite .sp r.key l = (c, none) →
      c.boot.phase = .ready → Effect .spsDomainEnd s (done c []))) ∧
  (∀ (s : State) (a : Nat × List Byte), s.chip.sps.answer = some a →
    Effect .spsReplyReady s { s.chip with sps := { s.chip.sps with reply := some a, answer := none } }) ∧
  (∀ (s : State) (m : Master), s.chip.serves m K.spRole →
    (s.chip.get K.spRole = 0 → s.chip.get K.spmState = 1 → Effect (.spRoleWrite m 1) s (s.chip.fresh.portBecomes 1)) ∧
    (s.chip.get K.spRole = 0 → s.chip.get K.spmState ≠ 1 → Effect (.spRoleWrite m 1) s (s.chip.noteAbort m K.spRole 0x08000021)) ∧
    (s.chip.get K.spRole = 1 → Effect (.spRoleWrite m 0) s { s.chip with sps := { s.chip.sps with toMaster := true } }))

/-- R435 to R439, R442: a window read goes to its device with SPM_READ_CMD, its address and its dummy cycles, and SPM_STATE reads 2 then
(the model's choice, assumption 112), or waits while the device programs or erases; writes gather in the page buffer, which a pause or a
flush programs; an erase is sent with its sector; a poll ends the sequence, or a save goes on to its programs, or an error ends it; copies
of DRAM end with their status, with a DRAM error at the block that the next read meets; a scrub pass counts what it found. What the device
answers is an operand, and the order of the address bytes is the model's choice (assumption 12). -/
def Obligations.FlashAndScrub : Prop :=
  (∀ (s : State) (off : BitVec 28) (len : BitVec 16), s.chip.get K.spRole = 0 →
    (s.chip.flashBusy off.toNat = true → Effect (.xipRead off len) s
      { s.chip with spm := { s.chip.spm with waitReads := s.chip.spm.waitReads ++ [(off.toNat, len.toNat)] } }) ∧
    (s.chip.flashBusy off.toNat = false → s.chip.spm.lastRead = none →
      Answer (.xipRead off len) s [.flashRead (s.chip.flashPlace off.toNat).1 (s.chip.flashPlace off.toNat).2 false
          (s.chip.flashCommand (s.chip.nat K.spmReadCmd) ++ flashAddress (s.chip.flashPlace off.toNat).2) (s.chip.nat K.spmDummyCycles)]
        (let c : Chip := { s.chip with spm := { s.chip.spm with lastRead := some (off.toNat + len.toNat, s.chip.mono) } }
         if s.chip.get K.spmState = 1 then c.set K.spmState 2 else c))) ∧
  (∀ (s : State) (off : BitVec 28) (b : Byte), s.chip.get K.spRole = 0 →
    (s.chip.spm.page = none → Effect (.xipProgramWrite off [b]) s
      { s.chip with spm := { s.chip.spm with page := some (off.toNat, [b]) } }) ∧
    (∀ (base : Nat) (data : List Byte), s.chip.spm.page = some (base, data) → off.toNat = base + data.length →
      off.toNat / 256 = base / 256 →
      Effect (.xipProgramWrite off [b]) s { s.chip with spm := { s.chip.spm with page := some (base, data ++ [b]) } })) ∧
  (∀ (s : State) (m : Master) (off : Nat) (data : List Byte), s.chip.spm.page = some (off, data) → s.chip.spm.seq = none →
    let c := ({ s.chip.fresh with spm := { s.chip.spm with page := none } } : Chip).startProgram off data .xip
    Effect .pageBufferTimeout s c ∧
    (s.chip.serves m K.spmFlush → s.chip.get K.spRole = 0 → Effect (.spmFlush m) s c)) ∧
  (∀ (s : State) (m : Master) (off : BitVec 32), s.chip.serves m K.spmErase → s.chip.get K.spRole = 0 → s.chip.spm.seq = none →
    s.chip.spm.copy = none → off.toNat < 0x10000000 → Effect (.spmErase m off) s (s.chip.fresh.startErase off.toNat .xip)) ∧
  (∀ (s : State) (q : FlashSeq), s.chip.spm.seq = some q →
    (∀ st : BitVec 8, Nat.land st.toNat (s.chip.nat K.spmErrorMask) = 0 → st.toNat % 2 = 0 → s.chip.spm.waitPages = [] →
      s.chip.spm.copy = none → s.chip.spm.waitReads = [] → s.chip.onion.save = none → s.chip.onion.saves = [] → q.user = .xip ∨ q.user = .copy →
      Answer (.spmStatusPoll st) s [.flash (s.chip.flashPlace q.off).1 (s.chip.flashCommand 0x05)]
        (({ s.chip with spm := { s.chip.spm with seq := none } } : Chip).setAll [(K.spmLastStatus, st.toNat), (K.spmState, 1)])) ∧
    (∀ (st : BitVec 8) (n : Nat), Nat.land st.toNat (s.chip.nat K.spmErrorMask) = 0 → st.toNat % 2 = 0 → q.user = .save n →
      Answer (.spmStatusPoll st) s [.flash (s.chip.flashPlace q.off).1 (s.chip.flashCommand 0x05)]
        (({ s.chip with spm := { s.chip.spm with seq := some { q with erase := false } } } : Chip).setAll
          [(K.spmLastStatus, st.toNat), (K.spmState, 3)])) ∧
    Effect .spmSequenceTimeout s (s.chip.fresh.flashError q)) ∧
  (∀ (s : State) (m : Master), s.chip.serves m K.spmCopyStart → s.chip.get K.spRole = 0 → s.chip.spm.copy = none →
    s.chip.onion.save = none → s.chip.nat K.spmCopyDst % 4096 = 0 → s.chip.nat K.spmCopyLength ≠ 0 →
    s.chip.nat K.spmCopyDst + s.chip.nat K.spmCopyLength ≤ 0x10000000 →
    s.chip.nat K.spmCopySrc + s.chip.nat K.spmCopyLength ≤ s.chip.nat K.dramCapacity →
    let c := s.chip.fresh.set K.spmCopyStatus (nextSeq (s.chip.nat K.spmCopyStatus / 65536) 0xFFFF * 65536 + 1 : Nat)
    let c : Chip := { c with spm := { c.spm with copy := some (s.chip.nat K.spmCopyDst, s.chip.nat K.spmCopySrc, s.chip.nat K.spmCopyLength, false) } }
    Effect (.spmCopyStart m) s (if s.chip.spm.seq.isSome then c else c.copyNext)) ∧
  (∀ (s : State) (off src : Nat) (e : Bool), s.chip.spm.copy = some (off, src, 0, e) → s.chip.spm.seq = none →
    Effect (.spmCopyComplete 2) s (({ s.chip with spm := { s.chip.spm with copy := none } } : Chip).set K.spmCopyStatus
      (s.chip.nat K.spmCopyStatus / 65536 * 65536 + 2 : Nat))) ∧
  (∀ (s : State) (x : Nat × Nat × Nat × Bool), s.chip.spm.copy = some x →
    Effect (.spmCopyComplete 4) s ((({ s.chip.fresh with spm := { s.chip.spm with copy := none } } : Chip).dramMeets 5 [x.2.1]).copyStatus 4)) ∧
  (∀ (s : State) (ch : Fin 2) (found lost : List (BitVec 40)) (link : BitVec 32), s.chip.pixelRuns = true →
    s.chip.get (K.dramChState ch) = 2 →
    let c := if s.chip.on K.dramLinkEcc then s.chip.fresh.bumpBy (K.dramLinkEccErrors ch) link.toNat else s.chip.fresh
    Effect (.dramScrubPass ch found lost link) s
      ((c.dramFinds ch.val 6 (found.map (·.toNat)) (lost.map (·.toNat))).bump (K.dramScrubPasses ch)))

/-! ### DMA -/

/-- R415 to R423: a sound descriptor starts a channel, armed where a request paces it; an abort ends it with status 2; a request arms and
readies the channels it paces; the free engine grants the next ready channel, at which no byte of the destination changes yet and the
source's bytes outside DRAM are taken (the model's choice, assumptions 18 and 74); the last unit ends the transfer with status 1, a beat
that fails with 3 or 4, and one that makes no progress with 7. R442: what the controller corrects in a client's read is counted, and a DRAM
read that fails is an uncorrectable block. R474: a timeout is not judged while a reset in MEM holds the beat (the model's choice, assumption
117). -/
def Obligations.DmaTransfers : Prop :=
  (∀ (s : State) (m : Master) (ch : Fin 16), s.chip.dmaMay m ch.val = true → s.chip.dmaHeld ch.val = false →
    (s.chip.serves m (K.dmaStart ch) → s.chip.get (K.dmaState ch) = 0 → s.chip.dmaSound ch.val = true → s.chip.pixelOn = true →
      Effect (.dmaStart m ch) s ((s.chip.modDma ch.val (fun _ => {})).set (K.dmaState ch)
        (if s.chip.get (K.dmaReqSource ch) = 0 then 2 else 1))) ∧
    (s.chip.serves m (K.dmaStart ch) → 1 ≤ s.chip.get (K.dmaState ch) → s.chip.get (K.dmaState ch) ≤ 3 →
      Effect (.dmaStart m ch) s (s.chip.noteAbort m (K.dmaStart ch) 0x08000022)) ∧
    (s.chip.serves m (K.dmaAbort ch) →
      (s.chip.get (K.dmaState ch) = 2 → Effect (.dmaAbort m ch) s (s.chip.fresh.dmaEnd ch.val 2 0 0)) ∧
      (s.chip.get (K.dmaState ch) = 0 → Effect (.dmaAbort m ch) s s.chip))) ∧
  (∀ (s : State) (req : Fin 12) (ch : Nat), s.chip.dmaPaced req.val = [ch] →
    (s.chip.pixelRuns = true → s.chip.get (K.dmaState ch) = 1 →
      Effect (.dmaRequestAssert req) s (({ s.chip with dma := { s.chip.dma with
        reqs := modAt s.chip.dma.reqs req.val (fun _ => true)
        chans := modAt s.chip.dma.chans ch (fun (x : DmaCh) => { x with asserted := some (s.chip.dmaFrame req.val) }) } } : Chip).set
          (K.dmaState ch) 2)) ∧
    (at' s.chip.dma.reqs req.val = true → (s.chip.dmaCh ch).asserted.isSome = true → s.chip.get (K.dmaState ch) = 2 →
      Effect (.dmaRequestWithdraw req) s ((({ s.chip with dma := { s.chip.dma with
        reqs := modAt s.chip.dma.reqs req.val (fun _ => false)
        chans := modAt s.chip.dma.chans ch (fun (x : DmaCh) => { x with frame := x.asserted.getD x.frame, asserted := none })
        } } : Chip).bump (K.dmaReqMissed ch)).set
          (K.dmaState ch) 1))) ∧
  (∀ (s : State) (src : List Byte) (ch : Nat), s.chip.dmaWorks = true → s.chip.dma.grant = none → s.chip.dmaNext = some ch →
    Effect (.dmaGrant src) s
      (let c := (({ s.chip with dma := { s.chip.dma with
         chans := modAt s.chip.dma.chans ch (fun (x : DmaCh) => { x with frame := x.asserted.getD x.frame, asserted := none })
         grant := some { ch := ch, src := src, withdrawn := false }, lastGranted := ch } } : Chip).setAll
           [(K.dmaState ch, 3), (K.dmaActiveChannel, ch)]).total K.dmaGrants 1
       if s.chip.get (K.dmaSrcSpace ch) = 2 ∧ s.chip.get K.spmState = 1 then c.set K.spmState 2 else c)) ∧
  (∀ (s : State) (src : List Byte) (a : BitVec 40), s.chip.pixelRuns = true → s.chip.dma.grant = none →
    let k := s.chip.dramChannel (64 * (a.toNat / 64))
    Leaves (.dmaGrant src [a]) s (fun c => c.get (K.dramCorrected k) = min (s.chip.get (K.dramCorrected k) + 1) 0xFFFFFFFF)) ∧
  (∀ (s : State) (g : Grant), s.chip.dma.grant = some g → s.chip.dmaWorks = true →
    let d := s.chip.dmaDesc g.ch
    (s.chip.dmaLastUnit g.ch = true → s.chip.dmaLoads g.ch = false → s.chip.dmaStalled g.ch = false →
      Effect .dmaComplete s (s.chip.fresh.dmaStop g.ch 1 (d.unitLength * d.elem) false)) ∧
    (∀ (bytes : Nat) (st : BitVec 8) (dst : Bool), st.toNat = 3 ∨ st.toNat = 4 →
      let c := s.chip.fresh.dmaStop g.ch st.toNat (min bytes (d.unitLength * d.elem - 1)) dst
      Effect (.dmaBeatError bytes st dst) s
        (if st.toNat = 3 ∧ dst = false ∧ d.srcSpace = 0 ∧ c.get (K.dmaLastStatus g.ch) = 3 then c.dramMeets 4 [c.nat (K.dmaFailAddr g.ch)] else c)) ∧
    (∀ (bytes : Nat) (dst : Bool), s.chip.suspended 4 2 = false →
      let c := s.chip.fresh.dmaStop g.ch 7 (min bytes (d.unitLength * d.elem - 1)) dst
      Effect (.dmaTimeout bytes dst) s
        (if c.get (K.dmaLastStatus g.ch) = 7 then c.cellExpired 4 2 g.ch 0x4002 g.ch (c.nat (K.dmaFailAddr g.ch)) else c))) ∧
  (∀ (s : State) (ch : Nat), s.chip.dmaNext = some ch → s.chip.get (K.dmaState ch) = 2 ∧
    ∀ k < 16, s.chip.get (K.dmaState k) = 2 → s.chip.get (K.dmaPriority k) ≤ s.chip.get (K.dmaPriority ch))

/-! ### Every command takes effect -/

/-- That every command takes effect, from the halves of a slot on in the order of the table: on these conditions, of the state and the
operands alone, it completes, and one object, message or place of the state then stands as its rule says. The statements above say
the whole of each effect, with its frame; this one says where each is met. It has the leap line (R119, R136); housekeeping and the thermal
manager (R162 to R186); calibration (R193 to R199); lines (R145, R311 to R314); sets and Solstice (R234 to R259); the actuators (R262 to
R278); CSI-2, streams, statistics and palettes (R300 to R360); PCIe (R363 to R372); CAN FD and Psirel (R374 to R399); mailboxes (R404 to
R414, R461); DMA (R415 to R423); the serial port and the flash (R429 to R442). -/
def Obligations.CommandsTakeEffect : Prop :=
  ∀ s : State,
    -- Halves of a slot, the leap line
    ((∀ (m : Master) (idx : BitVec 16) (sub : BitVec 8),
      let key := keyOf idx sub
      (∀ (v : BitVec 32) (r : Row), s.chip.serves m key → rowFor? m key = some r → r.acc ≠ .domain → 32 < r.width →
        Leaves (.halfWriteLow m idx sub v) s (fun c => (⟨m, key, v.toNat, s.chip.mono⟩ : Half) ∈ c.halves)) ∧
      (∀ h : Half, s.chip.halves.find? (fun h => decide (h.m = m)) = some h →
        Leaves (.halfWriteExpiry m) s (fun c => c.halves = s.chip.halves.erase h)) ∧
      (∀ r : Row, m ≠ .f1 → s.chip.serves m key → rowAt? key = some r → r.acc ≠ .domain → r.acc ≠ .wo → key ≠ K.lockForce →
        copyOf K.lock 32 key = none → s.chip.noDataFor m key r = false →
        Leaves (.halfReadLow m idx sub) s (fun c => OutMsg.half m key ((slotOf (s.chip.val key)).toNat % 2 ^ 32) ∈ c.out)) ∧
      (∀ h : Half, m ≠ .f1 → s.chip.reaches m = true → s.chip.latches.find? (fun h => decide (h.m = m ∧ h.key = key)) = some h →
        Leaves (.halfReadLow m idx sub .high) s (fun c => OutMsg.half m key h.word ∈ c.out)) ∧
      Leaves (.halfReadLatchExpiry m) s (fun c => ∀ h ∈ c.latches, h.m ≠ m)) ∧
     (∀ (h : Fin 4) (resp : List (BitVec 32)) (step refStep : Option CalStep), (s.chip.head h.val).timing = true →
       (s.chip.head h.val).gap = false → s.chip.get (K.runState h) = 2 ∨ s.chip.get (K.runState h) = 3 ∨ s.chip.get (K.runState h) = 5 →
       let tap := s.chip.nat (K.frameNumber h) % max 1 (s.chip.nat (K.tapCount h))
       Leaves (.leapLine h resp step refStep) s (fun c =>
         c.get (K.tapTestResponse h tap) = ((resp.map (·.toInt)).getD tap 0)))) ∧
    -- Housekeeping and the thermal manager
    ((s.chip.hk.on = true → s.chip.clk.ticks % 1000 = 0 → Leaves .hkRoundTrigger s (fun c => c.hk.round = true)) ∧
     (∀ (hk0 hk1 : List (BitVec 22)) (mr0 mr1 : Option (BitVec 5)), s.chip.hk.on = true → s.chip.hk.round = true →
       s.chip.hk.waits.any id = false → Leaves (.hkRoundComplete hk0 hk1 mr0 mr1) s (fun c =>
         c.get K.hkRoundSequence = nextSeq (s.chip.nat K.hkRoundSequence) 0xFFFFFFFF ∧ c.hk.round = false)) ∧
     (∀ k : Fin 2, Leaves (.hkConverterRoundEnd k) s (fun c => at' c.hk.busy k.val = false) ∧
       (s.chip.hkBusy k.val = true → s.chip.hk.reset.length = 2 →
         s.chip.cellHeld 5 1 = false → Leaves (.hkConverterWatchdog k) s (fun c => at' c.hk.reset k.val = some s.chip.mono))) ∧
     (∀ (m : Master) (v : BitVec 16), s.chip.serves m K.hkUrgentRequest → v.toNat % 256 ≤ 31 →
       Leaves (.hkUrgentRequest m v) s (fun c => c.hk.urgentSeq = nextSeq s.chip.hk.urgentSeq 0xFFFF)) ∧
     (∀ (k : Fin 2) (code : BitVec 16) (u : Urgent), at' s.chip.hk.urgent k.val = some u →
       Leaves (.hkUrgentComplete k code) s (fun c => c.get K.hkUrgentStatus = (u.seq * 2 ^ 16 + 2 : Nat) ∧ c.get K.hkUrgentTime = u.time)) ∧
     (0 < s.chip.nat K.throttleLevel → s.chip.nat K.throttleLevel < 4 → s.chip.thermal.below = true →
       s.chip.throttleFloor < s.chip.nat K.throttleLevel →
       Leaves .throttleStepDown s (fun c => c.get K.throttleLevel = s.chip.get K.throttleLevel - 1)) ∧
     (∀ j : Fin 17, Leaves (.throttleFloorEnd j) s (fun c =>
       c.thermal.floors = s.chip.thermal.floors.eraseP (fun f => decide (f.1 = j.val)))) ∧
     (s.chip.nat K.throttleLevel = 4 → s.chip.frontSensors ≠ [] →
       (∀ j ∈ s.chip.frontSensors, s.chip.get (K.sensorTemp j) ≤ s.chip.get K.thrL4Exit) → s.chip.throttleFloor < 4 →
       Leaves .l4Exit s (fun c => c.get K.throttleLevel = 3)) ∧
     (∀ (die : Fin 2) (v : BitVec 32), s.chip.levelCrossed die.val v.toInt = true → s.chip.boot.phase = .ready →
       (die.val = 1 → s.chip.pixelOn = true) → Leaves (.levelTrip die v) s (fun c => c.get K.chipMode = 4))) ∧
    -- Calibration
    ((∀ m : Master, s.chip.serves m K.calCommand → Leaves (.calCommand m) s (fun c => c.cal.held = true)) ∧
     (∀ r0 r1 : CalStep, s.chip.cal.held = true → s.chip.cal.running = false → s.chip.vrefGood = true → s.chip.get K.refclkState = 0 →
       Leaves (.calRunStart r0 r1) s (fun c => c.cal.running = true ∧ c.cal.held = false)) ∧
     (∀ (b : Fin 4) (off gain : BitVec 10) (oc gc : BitVec 32) (j : Fin 34) (rest : List Nat), at' s.chip.cal.conv b.val = j.val :: rest →
       s.chip.cal.running = true → s.chip.cal.refbuf = [] → s.chip.get (K.convState b j) = 4 → (s.chip.bank b.val).sub = none →
       s.chip.get K.refclkState = 0 → Leaves (.converterCalibrationComplete b off gain oc gc) s (fun c =>
         c.get (K.calCountConv b j) = min (s.chip.get (K.calCountConv b j) + 1) 0xFFFFFFFF ∧ c.get (K.convTrimOffset b j) = off.toNat)) ∧
     (s.chip.cal.running = true → s.chip.cal.stopping = false → s.chip.calDone = true →
       Leaves .calRunComplete s (fun c => c.cal.running = false ∧ c.get K.calLastRunTime = s.chip.now ∧
         c.get K.calRuns = min (s.chip.get K.calRuns + 1) 0xFFFFFFFF)) ∧
     (∀ (m : Master) (v : BitVec 8), s.chip.serves m K.calRevert → v.toNat ≤ 4 → s.chip.cal.running = false →
       (v.toNat < 4 → s.chip.solsticeRuns v.toNat = false) →
       Leaves (.calRevert m v) s (fun c => c.get K.calReverts = min (s.chip.get K.calReverts + 1) 0xFFFFFFFF))) ∧
    -- Lines
    ((∀ (h : Fin 4) (samples : List (List (Option (BitVec 16)))), (s.chip.head h.val).timing = true → (s.chip.head h.val).gap = false →
       s.chip.get (K.runState h) = 2 ∨ s.chip.get (K.runState h) = 3 ∨ s.chip.get (K.runState h) = 5 →
       (s.chip.head h.val).rows < (geoOf s.chip.dict h.val).h → s.chip.regionRestarting 1 = false →
       Leaves (.lineEligible h samples) s (fun c => (c.head h.val).rows = (s.chip.head h.val).rows + 1)) ∧
     (∀ (r : Fin 2) (b1 b2 b3 : List (BitVec 16)) (src : Nat) (l : Line), at' s.chip.pix.grants r.val = none →
       s.chip.lanesWork r.val = true → s.chip.arbitrate r.val = some (src, l) → s.chip.pix.grants.length = 2 →
       Leaves (.lineGrant r b1 b2 b3) s (fun c => at' c.pix.grants r.val = some src)) ∧
     (∀ (r : Fin 2) (src : Nat), at' s.chip.pix.grants r.val = some src →
       Leaves (.lineComplete r) s (fun c => at' c.pix.grants r.val = none ∧ (c.source src).fifo = (s.chip.source src).fifo.drop 1)) ∧
     (∀ (lane : Fin 4) (src : Nat), at' s.chip.pix.grants 0 = some src → s.chip.suspended 2 1 = false → s.chip.cellHeld 2 1 = false →
       Leaves (.nucLaneWatchdog lane) s (fun c => at' c.pix.grants 0 = none ∧ (c.source src).fifo = (s.chip.source src).fifo ∧
         c.get K.nucLaneResets = min (s.chip.get K.nucLaneResets + 1) 0xFFFFFFFF))) ∧
    -- Sets and Solstice
    ((∀ (m : Master) (v : BitVec 64), s.chip.serves m K.onionLoad → v.toNat < 1024 → v.toNat % 256 ≤ 31 →
       let n := v.toNat % 256
       (v[8] = true ∨ s.chip.get (K.setFlashOffset n) ≠ 0xFFFFFFFF) → s.chip.pixelRuns = true → s.chip.onion.load = none →
       s.chip.get (K.setState n) ≠ 1 → s.chip.passDue n = false → s.chip.setUsers n = [] → s.chip.solsticeOwns n = false →
       s.chip.dmaCopies (s.chip.nat K.onionDmaChannel) = false →
       Leaves (.onionLoad m v) s (fun c => c.get (K.setState n) = 1 ∧
         c.get K.onionLoadStatus = (nextSeq s.chip.onion.loadSeq 0xFFFF * 2 ^ 16 + n * 2 ^ 8 + 1 : Nat))) ∧
     (∀ (l : SetLoad) (h recs a b : List Byte) (base : Nat), s.chip.onion.load = some l → l.set < 32 → s.chip.onion.boot = [] →
       s.chip.loadReaches l = true → headerOk h = true → s.chip.setPlace (setBytes (fieldAt h 6 2) (fieldAt h 8 2)) = some base →
       recs.length = 16 * (fieldAt h 6 2 * fieldAt h 8 2) → crc32 recs = fieldAt h 16 4 →
       Leaves (.onionLoadComplete (.parts h recs a b)) s (fun c => c.inDram l.set = true ∧ c.onion.load = none)) ∧
     (∀ (m : Master) (v : BitVec 8), v.toNat ≤ 31 → s.chip.pixelRuns = true →
       (s.chip.serves m K.onionRevert → s.chip.get (K.setShadowValid v.toNat) = 1 → s.chip.passOn v.toNat = false →
         4 ≤ s.chip.nat (K.setOwner v.toNat) → Leaves (.onionRevert m v) s (fun c =>
           c.get K.onionReverts = min (s.chip.get K.onionReverts + 1) 0xFFFFFFFF ∧ c.passDue v.toNat = true)) ∧
       (s.chip.serves m K.onionSave → s.chip.inDram v.toNat = true →
         Leaves (.onionSave m v) s (fun c => c.onion.save.isSome = true)) ∧
       (s.chip.serves m K.onionEvict → s.chip.get (K.setState v.toNat) ≠ 1 → s.chip.passDue v.toNat = false →
         s.chip.setUsers v.toNat = [] →
         Leaves (.onionEvict m v) s (fun c => c.get (K.setState v.toNat) = 0 ∧ c.setData v.toNat = none))) ∧
     (∀ (n : Fin 32) (p : Pass) (d : SetData),
       s.chip.onion.passes.find? (fun p => decide (p.set = n.val ∧ p.kind = .revert) && !p.waits) = some p →
       s.chip.setData n.val = some d → Leaves (.onionPassComplete n) s (fun c =>
         c.get (K.setFieldSequence n) = nextSeq (s.chip.nat (K.setFieldSequence n)) 0xFFFFFFFF ∧
         c.get (K.setAnchorTemp n) = d.shadowTemp)) ∧
     (∀ (n : Fin 32) (q : Nat) (d : SetData) (h a b : List Byte), s.chip.onion.save = some (n.val, q) →
       s.chip.nat (K.setFieldSequence n) = q → s.chip.setData n.val = some d → headerOk h = true → fieldAt h 13 1 = 2 →
       fieldAt h 16 4 = d.factoryCrc → s.chip.get K.spRole = 0 → s.chip.spm.seq.any (fun x => decide (x.user ≠ .save n.val)) = false →
       Leaves (.onionSaveComplete (.parts h a b)) s (fun c => c.get (K.setSavedSequence n) = q)) ∧
     (∀ (m : Master) (h : Fin 4), s.chip.serves m (K.solsticeCommand h) →
       (s.chip.get (K.solsticeShutter h) = 3 → (s.chip.solstice h.val).ev = none →
         Leaves (.solsticeRequest m h) s (fun c => bitOf (c.nat (K.solsticeDue h)) 2 = true)) ∧
       (s.chip.get (K.solsticeState h) < 5 →
         Leaves (.solsticeAbandonCommand m h) s (fun c => bitOf (c.nat (K.solsticeDue h)) 2 = false))) ∧
     (∀ (h : Fin 4) (n : Fin 32) (d : SetData), (s.chip.solstice h.val).pass = some n.val → s.chip.setData n.val = some d →
       Leaves (.solsticeCommitComplete h) s (fun c => c.get (K.solsticeDue h) = 0 ∧ c.get (K.setShadowValid n) = 1 ∧
         c.get (K.setFieldSequence n) = nextSeq (s.chip.nat (K.setFieldSequence n)) 0xFFFFFFFF)) ∧
     (∀ (h : Fin 4) (e : SolEvent), (s.chip.solstice h.val).ev = some e →
       (s.chip.get (K.solsticeState h) = 2 → s.chip.shutterIs h.val 1 = false → 30 ≤ s.chip.phaseFrames h.val →
         Leaves (.solsticeCloseTimeout h) s (fun c => c.get (K.solsticeAbandonCause h) = 3)) ∧
       (∀ b : Nat, s.chip.shutterBank h.val = some b → s.chip.get (K.solsticeState h) = 5 ∨ s.chip.get (K.solsticeState h) = 6 →
         e.opening = false → s.chip.closeFaulty h.val = true →
         Leaves (.shutterStuck h) s (fun c => c.get (K.solsticeState h) = 7 ∧
           c.get (K.shutterStuck h) = min (s.chip.get (K.shutterStuck h) + 1) 0xFFFFFFFF)) ∧
       (∀ b : Fin 2, s.chip.shutterBank h.val = some b.val → s.chip.get (K.solsticeState h) = 7 →
         (s.chip.actBank b.val).latched = false → s.chip.act.banks.length = 2 →
         Leaves (.shutterReopenRetry h) s (fun c => (c.actBank b.val).queue = [(2 * b.val + 1, .solstice)]))) ∧
     (∀ (m : Master) (src : Fin 6), s.chip.serves m (K.tnrReseed src) → s.chip.pixelRuns = true → s.chip.pix.sources.length = 6 →
       Leaves (.tnrReseed m src) s (fun c => (c.source src.val).tnrNow = true))) ∧
    -- Actuators
    ((∀ (m : Master) (ch : Fin 4), s.chip.serves m (K.chCommand ch) → s.chip.chAbort? ch.val = none →
       (s.chip.get (K.chState ch) = 0 → Leaves (.chEnergise m ch) s (fun c => c.get (K.chState ch) = 1)) ∧
       (s.chip.get (K.chState ch) = 2 ∨ s.chip.get (K.chState ch) = 3 → Leaves (.chRelease m ch) s (fun c => c.get (K.chState ch) = 4))) ∧
     (∀ (m : Master) (b : Fin 2), s.chip.get K.actuatorFitted = 1 →
       (s.chip.serves m (K.shutterCommand b) → s.chip.actAbort? b.val = none → s.chip.get (K.bankMode b) = 3 →
         s.chip.bankActive b.val = false → (s.chip.actBank b.val).queue = [] → s.chip.solsticeHolds b.val = false →
         (bitOf (s.chip.nat (K.channelMask b)) 0 = true →
           Leaves (.shutterClose m b) s (fun c => c.get (K.chState (2 * b.val)) = 1)) ∧
         (bitOf (s.chip.nat (K.channelMask b)) 1 = true →
           Leaves (.shutterOpen m b) s (fun c => c.get (K.chState (2 * b.val + 1)) = 1))) ∧
       (s.chip.serves m (K.bankRun b) → (s.chip.actBank b.val).latched = false →
         Leaves (.bankRunStart m b) s (fun c => c.get (K.bankRun b) = 1) ∧
         (s.chip.solsticeHolds b.val = false → Leaves (.bankStop m b) s (fun c => c.get (K.bankRun b) = 0))) ∧
       (s.chip.serves m (K.bankFaultClear b) → Leaves (.bankFaultClear m b) s (fun c => (c.actBank b.val).latched = false))) ∧
     (∀ (ch : Fin 4) (i : BitVec 32),
       (s.chip.mayBoost ch.val = true → Leaves (.boostStart ch) s (fun c => c.get (K.chState ch) = 2)) ∧
       (s.chip.get (K.chState ch) = 2 →
         Leaves (.boostTimeout ch) s (fun c => c.get (K.chState ch) = 4) ∧
         ((s.chip.actCh ch.val).profile.motionCheck = true →
           Leaves (.motionDetected ch i) s (fun c => c.get (K.currentNow ch) = (s.chip.sample ch.val i.toNat : Nat))) ∧
         Leaves (.peakReached ch i) s (fun c => c.get (K.currentNow ch) = (s.chip.sample ch.val i.toNat : Nat))) ∧
       (s.chip.get (K.chState ch) = 3 → (s.chip.actCh ch.val).profile.holdTime ≠ 0 →
         Leaves (.holdEnd ch) s (fun c => c.get (K.chState ch) = 4)) ∧
       (s.chip.get (K.chState ch) = 3 → s.chip.get (K.bankMode (ch.val / 2)) = 1 →
         Leaves (.holdOvercurrent ch) s (fun c => c.get (K.lastResult ch) = 8 ∧ c.get (K.chState ch) = 6)) ∧
       (∀ l : List (BitVec 32), s.chip.get (K.chState ch) = 4 → clampEnergy (s.chip.samples ch.val l) ≤ 30000 →
         (s.chip.actCh ch.val).result ≠ 4 → s.chip.act.chans.length = 4 →
         Leaves (.decayEnd ch l) s (fun c => c.get (K.chState ch) = 5 ∧ (c.actCh ch.val).energy = clampEnergy (s.chip.samples ch.val l)) ∧
         Leaves (.decayTimeout ch l) s (fun c => c.get (K.chState ch) = 5)) ∧
       (∀ l : List (BitVec 32), s.chip.get (K.chState ch) = 4 →
         Leaves (.clampEnergyExceeded ch l) s (fun c => c.get (K.lastResult ch) = 10 ∧ c.get (K.chState ch) = 6)) ∧
       (s.chip.get (K.chState ch) = 5 → Leaves (.operationComplete ch i) s (fun c =>
         c.get (K.lastResult ch) = ((s.chip.actCh ch.val).result : Nat) ∧ c.get (K.lastEndTime ch) = s.chip.now)) ∧
       (s.chip.get (K.chState (s.chip.actOf ch.val)) = 3 →
         Leaves (.switchOvercurrent ch) s (fun c => c.get (K.chState ch) = 6 ∧ (c.get (K.lastResult (s.chip.actOf ch.val)) = 7))) ∧
       (s.chip.get (K.bankMode (ch.val / 2)) ≠ 1 → s.chip.chActive (s.chip.actOf ch.val) = false →
         (s.chip.actBank (ch.val / 2)).latched = false → Leaves (.crossCurrent ch) s (fun c => c.get (K.chState ch) = 6))) ∧
     (sumN (s.chip.clampRecent.map (·.2)) ≤ 500000 → Leaves .clampHoldoffEnd s (fun c => c.act.holdoff = false)) ∧
     (s.chip.get K.vsolState = 0 → s.chip.bankActive 0 = false → s.chip.bankActive 1 = false → (s.chip.actBank 0).queue = [] →
       (s.chip.actBank 1).queue = [] → s.chip.act.banks.length = 2 →
       Leaves .offstateTest s (fun c => (c.actBank 0).testing = true ∧ (c.actBank 1).testing = true)) ∧
     (∀ (b : Fin 2) (found : BitVec 4), (s.chip.actBank b.val).testing = true →
       Leaves (.offstateTestEnd b found) s (fun c => (c.actBank b.val).testing = false ∧ (c.actBank b.val).found = found.toNat)) ∧
     Leaves .vsolReversed s (fun c => c.act.reversed = true) ∧
     (∀ b : Bool, Leaves (.vsolRecovered b) s (fun c => c.act.reversed = false)) ∧
     (s.chip.act.parking = true → s.chip.act.banks.all (fun k => decide (k.park = 3)) = true →
       Leaves .parkComplete s (fun c => c.act.parked = true ∧ c.act.parking = false))) ∧
    -- Sources, receivers, streams, statistics, palettes
    ((∀ (m : Master) (k : Fin 2), s.chip.serves m (K.rxRun k) →
       (s.chip.pathRuns = true → s.chip.get (K.rxState k) = 0 → Leaves (.rxRunStart m k) s (fun c => c.get (K.rxState k) = 1)) ∧
       ((∀ i : Fin 2, s.chip.get (K.srcState i) = 0) → Leaves (.rxStop m k) s (fun c => c.get (K.rxRun k) = 0 ∧ c.get (K.rxState k) = 0))) ∧
     (∀ (m : Master) (i : Fin 2), s.chip.serves m (K.srcRun i) →
       (s.chip.pathRuns = true → s.chip.get (K.srcState i) = 0 → s.chip.srcStartOk i.val = true →
         (s.chip.fresh.admitted (K.srcRun i) 1).2 = false →
         Leaves (.srcRunRequest m i) s (fun c => c.get (K.srcRun i) = 1 ∧ c.get (K.srcState i) = 1)) ∧
       Leaves (.srcStop m i) s (fun c => c.get (K.srcRun i) = 0)) ∧
     (∀ (k : Fin 2) (vc : Fin 4) (number : BitVec 16), s.chip.rxWorks k.val = true →
       Leaves (.csiFrameStartPacket k vc .good number) s (fun c =>
         c.get (K.vcFrameStarts k vc) = min (s.chip.get (K.vcFrameStarts k vc) + 1) 0xFFFFFFFF) ∧
       (∀ i : Nat, s.chip.rxRoute k.val vc.val = some i → s.chip.pix.sources.length = 6 →
         Leaves (.csiFrameEndPacket k vc .good) s (fun c => (c.source (4 + i)).isOpen = false) ∧
         (∀ l : CsiLine, l.hdr = .good → l.dt.toNat ∈ [0x2A, 0x2B, 0x2C, 0x2D, 0x2E, 0x1E, 0x24] → s.chip.nat (K.srcDataType i) = l.dt.toNat →
           (s.chip.source (4 + i)).isOpen = true → (s.chip.source (4 + i)).open'.isSome = true →
           Leaves (.csiLongPacket k vc l) s (fun c => (c.source (4 + i)).lines = (s.chip.source (4 + i)).lines + 1))) ∧
       Leaves (.csiSotError k) s (fun c => c.get (K.sotErrors k) = min (s.chip.get (K.sotErrors k) + 1) 0xFFFFFFFF ∧ c.get (K.rxState k) = 3) ∧
       Leaves (.csiDeskewSequence k) s (fun c => c.get (K.deskews k) = min (s.chip.get (K.deskews k) + 1) 0xFFFFFFFF)) ∧
     (∀ (k : Fin 2) (lane : Fin 4), s.chip.get (K.rxState k) = 2 → lane.val < s.chip.nat (K.rxLanes k) →
       s.chip.cellHeld 1 (8 + k.val) = false →
       Leaves (.csiLaneWatchdog k lane) s (fun c => c.get (K.rxState k) = 1)) ∧
     (∀ i : Fin 2, s.chip.pathRuns = true →
       (s.chip.get (K.srcState i) = 2 → Leaves (.csiSourceTimeout i) s (fun c =>
         c.get (K.srcState i) = 3 ∧ c.get (K.srcLostCount i) = min (s.chip.get (K.srcLostCount i) + 1) 0xFFFFFFFF)) ∧
       (s.chip.get (K.srcState i) = 3 → s.chip.pix.sources.length = 6 →
         Leaves (.csiSubstituteFrame i) s (fun c => (c.source (4 + i.val)).tnrSeed = true))) ∧
     (∀ (m : Master) (n : Fin 8), s.chip.serves m (K.streamRun n) →
       (s.chip.get (K.streamState n) = 0 ∨ (∀ w ∈ s.chip.staged, w.owner ≠ 8 + n.val) →
         Leaves (.streamStop m n) s (fun c => c.get (K.streamRun n) = 0)) ∧
       (s.chip.pixelOn = true → s.chip.get (K.streamState n) = 0 → s.chip.nv (K.streamSource n) < 16 →
         s.chip.sourceWanted (s.chip.nv (K.streamSource n)) = true → s.chip.val (K.ringBase n) ≠ 0 → s.chip.val (K.slotSize n) ≠ 0 →
         s.chip.streamFormatOk n.val = true → s.chip.streamShape n.val = true → (s.chip.fresh.admitted (K.streamRun n) 1).2 = false →
         Leaves (.streamStart m n) s (fun c => c.get (K.streamRun n) = 1 ∧ c.get (K.streamState n) = 1))) ∧
     (∀ (n : Fin 8) (j : Job) (rest : List Job) (img : Stored) (slot : Nat), (s.chip.stream n.val).jobs = j :: rest → j.img = some img →
       j.slot = some slot → s.chip.get (K.streamState n) = 2 ∨ s.chip.get (K.streamState n) = 3 →
       (∀ win : Nat × Nat, j.window = some win → j.line < j.par.natAt (K.outHeight n) → s.chip.canSend0 = true →
         Leaves (.streamLineOutput n) s (fun c => (c.stream n.val).jobs = { j with line := j.line + 1 } :: rest)) ∧
       (j.par.natAt (K.outHeight n) ≤ j.line → (∀ w ∈ s.chip.staged, w.owner ≠ 8 + n.val) → Leaves (.streamFrameComplete n) s (fun c =>
         c.get (K.lastFrameNumber n) = img.number ∧ c.get (K.framesWritten n) = min (s.chip.get (K.framesWritten n) + 1) 0xFFFFFFFF)) ∧
       (s.chip.pix.streams.length = 8 → s.chip.suspended 4 1 = false → s.chip.cellHeld 4 1 = false →
         Leaves (.streamWatchdog n true true) s (fun c => (c.stream n.val).jobs = { j with line := 0, repeated := true } :: rest))) ∧
     (∀ (i : Fin 6) (d : StatDue) (rest : List StatDue), (s.chip.source i.val).due = d :: rest →
       Leaves (.statRecordComplete i) s (fun c => c.get (K.statSequence i) = nextSeq (s.chip.nat (K.statSequence i)) 0xFFFFFFFF)) ∧
     (∀ (ch : Fin 16) (status : BitVec 8) (x : StatCopy), s.chip.canSend0 = true → x.source < 6 →
       (s.chip.firstCopy ch.val = some x → x.started = false → ¬ (1 ≤ s.chip.get (K.dmaState ch) ∧ s.chip.get (K.dmaState ch) ≤ 3) →
         (s.chip.source x.source).records.any (fun r => r.seq = x.seq) = true →
         (s.chip.nat (K.statHostWrite x.source) + 1) % max 1 (s.chip.nat (K.statHostSlots x.source)) ≠ s.chip.nat (K.statHostRead x.source) →
         Leaves (.statHostCopyStart ch) s (fun c => ∃ y ∈ c.pix.copies, y.source = x.source ∧ y.seq = x.seq ∧ y.started = true)) ∧
       (∀ r : StatRec, s.chip.dmaCopy? ch.val = some x → x.data = some r → status.toNat ≤ 2 → s.chip.dmaWorks = true →
         s.chip.dmaMayEnd ch.val = true → Leaves (.statHostCopyComplete ch status) s (fun c =>
           c.get (K.statHostWrite x.source) = ((x.slot + 1) % max 1 (s.chip.nat (K.statHostSlots x.source)) : Nat)))) ∧
     (∀ (m : Master) (v : BitVec 8), s.chip.serves m K.paletteLoad → s.chip.pixelRuns = true → v.toNat ≤ 7 →
       Leaves (.paletteLoad m v) s (fun c =>
         (v.toNat, paletteOf (s.chip.domainImage (K.paletteImage v.toNat))) ∈ c.pix.palLoads)) ∧
     (∀ (p : Fin 8) (x : Nat × List Nat), s.chip.pix.palLoads.find? (fun x => x.1 = p.val) = some x →
       Leaves (.paletteCopyComplete p) s (fun c => at' c.pix.palettes p.val = x.2 ∧
         c.get (K.paletteLoads p) = min (s.chip.get (K.paletteLoads p) + 1) 0xFFFFFFFF))) ∧
    -- PCIe
    ((s.chip.pins.perstLow = false → Leaves .perstAssert s (fun c => c.pins.perstLow = true)) ∧
     (s.chip.pins.perstLow = true → Leaves .perstDeassert s (fun c => c.pins.perstLow = false)) ∧
     (s.chip.pixelOn = true →
       (s.chip.get K.pcieLinkState ≠ 0 → Leaves .hotReset s (fun c =>
         c.get K.pcieResets = min (s.chip.get K.pcieResets + 1) 0xFFFFFFFF ∧ c.get K.pcieLinkState = 1)) ∧
       (2 ≤ s.chip.get K.pcieLinkState → Leaves .linkDown s (fun c => c.get K.pcieLinkState = 0)) ∧
       (s.chip.linkUp = true →
         Leaves .flrF0 s (fun c => c.get K.pcieFlrs = min (s.chip.get K.pcieFlrs + 1) 0xFFFFFFFF) ∧
         (s.chip.f1Present = true → Leaves .flrF1 s (fun c => c.get K.pcieFlrs = min (s.chip.get K.pcieFlrs + 1) 0xFFFFFFFF)) ∧
         Leaves .busMasterDisable s (fun c => c.pcie.busMaster0 = false) ∧
         Leaves .pmeTurnOff s (fun c => c.get K.pcieLinkState = 6 ∧ c.pcie.l2 = true) ∧
         (∀ b : Bool, Leaves (.pcieConfigWrite (.pmeEnable b)) s (fun c => c.pcie.pmeEn = b)) ∧
         (∀ v : Fin 64, s.chip.canSend0 = true → bitOf s.chip.pcie.pend0 v.val = true →
           Leaves (.msixVectorUnmask false v) s (fun c => OutMsg.msix false v.val ∈ c.out))) ∧
       (∀ (sp : Fin 6) (w : Fin 5), s.chip.pins.perstLow = false → s.chip.get K.pcieLinkState ≤ 1 → sp.val ≠ 0 →
         (w.val = 1 ∨ w.val = 2 ∨ w.val = 4) → Leaves (.pcieLinkUp sp w) s (fun c =>
           c.get K.pcieLinkState = 2 ∧ c.get K.pcieLinkWidth = w.val)) ∧
       (s.chip.get K.pcieLinkState ≠ 0 → Leaves (.pcieErrorReceived .retrain) s (fun c =>
         c.get K.pcieRetrains = min (s.chip.get K.pcieRetrains + 1) 0xFFFFFFFF))) ∧
     (∀ (m : Master) (v : BitVec 8), s.chip.serves m K.pcieEventAck → s.chip.statusRight →
       (s.chip.get K.canState = 1 ∨ s.chip.get K.canState = 2 → s.chip.get K.canState = s.chip.can.level) →
       Leaves (.pcieEventAck m v) s (fun c => c.get K.pcieEventStatus = (Nat.lor (clearBits (s.chip.nat K.pcieEventStatus) v.toNat)
         (Nat.land (s.chip.nat K.pcieEventStatus) (s.chip.raisedBits K.pcieEventStatus)) : Nat))) ∧
     (∀ (off : BitVec 26) (data : List Byte) (len : BitVec 13), s.chip.pixelOn = true → s.chip.linkUp = true →
       s.chip.pcie.d3hot0 = false →
       let a := s.chip.nat K.pcieBar2Base + off.toNat
       (a + data.length ≤ s.chip.reservedBase → s.chip.imagesIn a data.length = [] →
         Leaves (.bar2Access off (.write data false)) s (fun c => c.dram = s.chip.dram.write a data)) ∧
       (a + len.toNat ≤ s.chip.reservedBase → s.chip.imagesIn a len.toNat = [] →
         Leaves (.bar2Access off (.read len [])) s (fun c => OutMsg.bar2 (s.chip.dram.read a len.toNat) false ∈ c.out)))) ∧
    -- CAN FD and Psirel
    ((s.chip.nmtListens = true →
       Leaves .nmtStartRemote s (fun c => c.get K.nmtState = 5) ∧ Leaves .nmtStopRemote s (fun c => c.get K.nmtState = 4) ∧
       Leaves .nmtEnterPreOperational s (fun c => c.get K.nmtState = 0x7F) ∧
       Leaves .nmtResetCommunication s (fun c => c.get K.nmtState = 0x7F) ∧
       (s.chip.get K.nmtResetAction ≠ 1 → Leaves .nmtResetNode s (fun c => c.get K.nmtState = 0x7F))) ∧
     (s.chip.mode.asleep = true → s.chip.boot.phase = .ready →
       Leaves .canWake s (fun c => c.mode.waking = true) ∧ Leaves .psirelWakeDetect s (fun c => c.mode.waking = true)) ∧
     (s.chip.canMayTransmit = true → s.chip.boot.hkpRestart = false →
       (s.chip.nmtListens = true → s.chip.get K.heartbeatTime ≠ 0 → Leaves .heartbeat s (fun c =>
         OutMsg.can (0x700 + s.chip.nat K.canNodeId) [BitVec.ofNat 8 (s.chip.nat K.nmtState)] s.chip.canSwitches ∈ c.out)) ∧
       (∀ (e : Emcy) (rest : List Emcy), s.chip.can.emcyQueue = e :: rest → s.chip.emcyAllowed = true → Leaves .emcyInhibitEnd s (fun c =>
         OutMsg.can (s.chip.nat K.emcyCobId % 2048) e.bytes s.chip.canSwitches ∈ c.out)) ∧
       (∀ n : Fin 4, s.chip.get K.nmtState = 5 → s.chip.boot.phase = .ready → s.chip.mode.asleep = false → s.chip.tpdoValid n = true →
         (s.chip.get (K.tpdoEventTimer n) ≠ 0 → (s.chip.can.tpdo.getD n.val default).inhibited = false → Leaves (.tpdoEventTimer n) s (fun c =>
           OutMsg.can (s.chip.nat (K.tpdoCobId n) % 2048) (s.chip.fresh.tpdoData n) s.chip.canSwitches ∈ c.out)) ∧
         ((s.chip.can.tpdo.getD n.val default).inhibited = true → (s.chip.can.tpdo.getD n.val default).waiting = true →
           Leaves (.tpdoInhibitEnd n) s (fun c =>
             OutMsg.can (s.chip.nat (K.tpdoCobId n) % 2048) (s.chip.fresh.tpdoData n) s.chip.canSwitches ∈ c.out)))) ∧
     (s.chip.canOnBus = true →
       (∀ w : BitVec 8, Leaves (.canErrorDetected false w) s (fun c => c.can.rec' = min (s.chip.can.rec' + w.toNat) 255)) ∧
       (∀ f : CanFrame, s.chip.can.calibrating = false → f.extended = false → f.ident.toNat = 0 → f.data = [1, 0] → s.chip.nmtListens = true →
         Leaves (.canFrameReceived f) s (fun c => c.get K.nmtState = 5)) ∧
       (∀ (n : Fin 2) (data : List Byte), s.chip.rpdoValid n.val = true → s.chip.get K.nmtState ≠ 5 →
         Leaves (.rpdoReceived n data) s (fun c => c.get K.rpdoIgnored = min (s.chip.get K.rpdoIgnored + 1) 0xFFFFFFFF))) ∧
     (s.chip.can.off = true → s.chip.pins.canStbyHigh = false → s.chip.can.calibrating = false →
       Leaves .canBusOffRecovery s (fun c => c.can.off = false)) ∧
     (∀ r : UsdoRequest, s.chip.usdoServes = true → r.ident.toNat = 0x600 + s.chip.nat K.canNodeId → s.chip.boot.hkpRestart = false →
       s.chip.can.usdo = none → r.isWrite = true → r.whole = false → s.chip.downloadAbort? (keyOf r.idx r.sub) r.len = none →
       r.data.length < r.len → Leaves (.usdoInitiate r) s (fun c =>
         c.can.usdo = some { isWrite := true, key := keyOf r.idx r.sub, len := r.len, data := r.data })) ∧
     (∀ (r : UsdoSegment) (u : Usdo), s.chip.can.usdo = some u →
       (s.chip.usdoServes = true → r.ident.toNat = 0x600 + s.chip.nat K.canNodeId → s.chip.boot.hkpRestart = false → u.isWrite = true →
         r.last = false → (u.data ++ r.data).length ≤ u.len → Leaves (.usdoSegment r) s (fun c =>
           c.can.usdo = some { u with data := u.data ++ r.data })) ∧
       Leaves .usdoTimeout s (fun c => c.can.usdo = none ∧ c.get K.usdoTimeouts = min (s.chip.get K.usdoTimeouts + 1) 0xFFFFFFFF)) ∧
     (∀ (m : Master) (v : BitVec 32), s.chip.serves m K.canTrigger → triggerInvalid v.toNat = false → s.chip.get K.psirelRole = 2 →
       Leaves (.canTrigger m v) s (fun c => c.get K.canTriggersIgnored = min (s.chip.get K.canTriggersIgnored + 1) 0xFFFFFFFF)) ∧
     (s.chip.get K.psirelRole = 1 → s.chip.psiLinkOn = true →
       (s.chip.psi.setTime = none → Leaves .psirelMarkSend s (fun c => c.out.any (·.isPsirel 0x3C) = true)) ∧
       (∀ (m : Master) (v : BitVec 32), s.chip.serves m K.psirelTrigger → triggerInvalid v.toNat = false →
         Leaves (.psirelTrigger m v) s (fun c => c.out.any (·.isPsirel 0x7C) = true)) ∧
       (s.chip.nat K.psirelTrigPeriod ≠ 0 → s.chip.get K.psirelTrigPhase = 0 →
         Leaves .psirelPeriodicTrigger s (fun c => c.out.any (·.isPsirel 0x7C) = true)) ∧
       (∀ m : Master, s.chip.serves m K.psirelWake → Leaves (.psirelWake m 1) s (fun c => OutMsg.psirelGap ∈ c.out))) ∧
     (s.chip.get K.psirelRole ≠ 2 → ∀ m : Master,
       (∀ v : BitVec 64, s.chip.serves m K.psirelTimeSet → v.toNat % 1000000 = 0 →
         Leaves (.psirelTimeSet m v) s (fun c => c.psi.setTime = some v.toNat)) ∧
       (∀ v : BitVec 32, s.chip.serves m K.psirelTimeAdjust → -1000000 ≤ v.toInt → v.toInt ≤ 1000000 →
         Leaves (.psirelTimeAdjust m v) s (fun c => c.psi.slew = s.chip.psi.slew + v.toInt * 1000000))) ∧
     (s.chip.get K.psirelRole = 2 →
       (∀ mk : PsiMark, s.chip.psiLinkOn = true → s.chip.get K.psirelState = 4 → mk.crcOk = true → mk.hops.toNat < 64 →
         1000000 ≤ mk.t.toNat → s.chip.psi.lastT = some (mk.t.toNat - 1000000) → -16000 ≤ s.chip.markError mk → s.chip.markError mk ≤ 16000 →
         Leaves (.psirelMarkReceived mk) s (fun c => c.get K.psirelError = s.chip.markError mk ∧ c.get K.psirelHops = mk.hops.toNat + 1)) ∧
       (s.chip.get K.psirelState = 4 → Leaves .psirelHoldover s (fun c => c.get K.psirelState = 5)) ∧
       (s.chip.psiLinkOn = true →
         (∀ t : PsiTrigger, Leaves (.psirelTriggerReceived t) s (fun c => c.out.any (·.isPsirel 0x7C) = true)) ∧
         (∀ n : BitVec 8, Leaves (.psirelInputInvalid n) s (fun c =>
           c.get K.psirelCodeErrors = min (s.chip.get K.psirelCodeErrors + n.toNat) 0xFFFFFFFF)) ∧
         Leaves .psirelInInverted s (fun c => c.get K.psirelInInverted = 1))) ∧
     (s.chip.get K.psirelRole ≠ 0 → s.chip.psiLinkOn = true → s.chip.get K.psirelRetEnable ≠ 0 →
       (∀ x : BitVec 16, Leaves (.psirelReturnMeasure (.valid x)) s (fun c =>
         c.psi.returns = (x.toNat :: s.chip.psi.returns).take 64 ∧ c.get K.psirelRetState = 0)) ∧
       (s.chip.psi.returns ≠ [] → Leaves .psirelCableDelayPublish s (fun c =>
         c.get K.psirelCableDelay = rneDiv (sumN s.chip.psi.returns) s.chip.psi.returns.length)))) ∧
    -- Mailboxes
    (∀ (m : Master) (ch : Fin 8),
      (mbxHost ch.val m = true →
        (s.chip.serves m (K.mbxH2dCommand ch) →
          (s.chip.h2dFull ch.val = false → s.chip.boot.hkpRestart = false → 0 < hdrLength (s.chip.nat (K.mbxH2dWord ch 0)) →
            hdrLength (s.chip.nat (K.mbxH2dWord ch 0)) ≤ 8 → Leaves (.mbxSend m ch) s (fun c => c.get (K.mbxH2dState ch) = 1 ∧
              c.get (K.mbxSent ch) = min (s.chip.get (K.mbxSent ch) + 1) 0xFFFFFFFF)) ∧
          (s.chip.h2dFull ch.val = true → Leaves (.mbxRecall m ch) s (fun c => c.get (K.mbxH2dState ch) = 0 ∧
            c.get (K.mbxRecalls ch) = min (s.chip.get (K.mbxRecalls ch) + 1) 0xFFFFFFFF))) ∧
        (s.chip.serves m (K.mbxD2hRelease ch) → Leaves (.mbxD2hRelease m ch) s (fun c => c.get (K.mbxD2hState ch) = 0)) ∧
        (∀ v : BitVec 8, s.chip.serves m (K.mbxIrqAck ch) → Leaves (.mbxIrqAck m ch v) s (fun c =>
          c.get (K.mbxIrqStatus ch) = (Nat.lor (clearBits (s.chip.nat (K.mbxIrqStatus ch)) v.toNat)
            (Nat.land (s.chip.nat (K.mbxIrqStatus ch)) (s.chip.raisedBits (K.mbxIrqStatus ch))) : Nat)))) ∧
      (s.chip.pixelRuns = true →
        (s.chip.d2hFull ch.val = true → (s.chip.mbxOf ch.val).d2hTimedOut = false → Leaves (.mbxTimeout ch true) s (fun c =>
          c.get (K.mbxD2hTimeouts ch) = min (s.chip.get (K.mbxD2hTimeouts ch) + 1) 0xFFFFFFFF)) ∧
        (s.chip.h2dFull ch.val = true → (s.chip.mbxOf ch.val).timeoutRaised = false → Leaves (.mbxTimeout ch false) s (fun c =>
          c.get (K.mbxTimeouts ch) = min (s.chip.get (K.mbxTimeouts ch) + 1) 0xFFFFFFFF)) ∧
        (s.chip.h2dFull ch.val = true → (s.chip.mbxOf ch.val).store.length < 2 → s.chip.boot.hkpRestart = false →
          Leaves (.mbxTake ch) s (fun c => c.get (K.mbxH2dState ch) = 0)) ∧
        (∀ (r : MbxRequest) (rest : List MbxRequest) (words : List Nat), (s.chip.mbxOf ch.val).store = r :: rest → r.reply = some words →
          s.chip.d2hFull ch.val = false → s.chip.boot.hkpRestart = false →
          Leaves (.mbxD2hSend ch) s (fun c => c.get (K.mbxD2hState ch) = 1 ∧ c.get (K.mbxD2hWord ch 0) = (words.getD 0 0 : Nat)))) ∧
      (s.chip.pixelRuns = true → s.chip.suspended 4 3 = false → s.chip.cellHeld 4 3 = false →
        Leaves (.mbxChannelWatchdog ch) s (fun c => c.get (K.mbxH2dState ch) = 0 ∧ c.get (K.mbxD2hState ch) = 0)) ∧
      (∀ r : MbxRequest, s.chip.mbxOldest ch.val = some r → s.chip.boot.hkpRestart = false → s.chip.mbx.length = 8 →
        let w := r.words
        let type := hdrType (w.headD 0)
        let answered := fun (c : Chip) => ((c.mbxOf ch.val).store.filter (·.reply.isNone)).length + 1 =
          ((s.chip.mbxOf ch.val).store.filter (·.reply.isNone)).length
        (type = 0x0001 → Leaves (.mbxObjectRead ch) s answered) ∧
        (type = 0x0002 → requestKey (at' w 1) ≠ K.chipReset → Leaves (.mbxObjectWrite ch) s answered) ∧
        (type = 0x0003 → Leaves (.mbxObjectReadMulti ch) s answered) ∧
        (type = 0x0010 → Leaves (.mbxEcho ch) s answered) ∧
        (type = 0x0100 → ∀ data : List Byte, s.chip.vanaLow = false → s.chip.imageAbort? (at' w 1) (at' w 4) = none →
          Leaves (.fwImageWrite ch data) s answered) ∧
        (type = 0x0101 → ∀ b : Bool, s.chip.vanaLow = false → Leaves (.fwCommit ch b) s answered) ∧
        (type = 0x0102 → Leaves (.fwSlotStatus ch) s answered))) ∧
    -- DMA
    ((∀ (m : Master) (ch : Fin 16), s.chip.dmaMay m ch.val = true → s.chip.dmaHeld ch.val = false →
       (s.chip.serves m (K.dmaStart ch) → s.chip.get (K.dmaState ch) = 0 → s.chip.dmaSound ch.val = true → s.chip.pixelOn = true →
         Leaves (.dmaStart m ch) s (fun c => c.get (K.dmaState ch) = if s.chip.get (K.dmaReqSource ch) = 0 then 2 else 1)) ∧
       (s.chip.serves m (K.dmaAbort ch) → s.chip.get (K.dmaState ch) = 1 ∨ s.chip.get (K.dmaState ch) = 2 → s.chip.dmaCopy? ch.val = none →
         Leaves (.dmaAbort m ch) s (fun c => c.get (K.dmaLastStatus ch) = 2))) ∧
     (∀ (req : Fin 12) (ch : Nat), s.chip.dmaPaced req.val = [ch] →
       (s.chip.pixelRuns = true → s.chip.get (K.dmaState ch) = 1 →
         Leaves (.dmaRequestAssert req) s (fun c => c.get (K.dmaState ch) = 2)) ∧
       (at' s.chip.dma.reqs req.val = true → (s.chip.dmaCh ch).asserted.isSome = true → s.chip.get (K.dmaState ch) = 2 →
         Leaves (.dmaRequestWithdraw req) s (fun c => c.get (K.dmaState ch) = 1 ∧
           c.get (K.dmaReqMissed ch) = min (s.chip.get (K.dmaReqMissed ch) + 1) 0xFFFFFFFF))) ∧
     (s.chip.dmaWorks = true →
       (∀ (src : List Byte) (ch : Nat), s.chip.dma.grant = none → s.chip.dmaNext = some ch →
         Leaves (.dmaGrant src) s (fun c => c.get (K.dmaState ch) = 3 ∧ c.get K.dmaActiveChannel = ch)) ∧
       (∀ g : Grant, s.chip.dma.grant = some g → g.ch < 16 →
         (s.chip.dmaLastUnit g.ch = true → s.chip.dmaLoads g.ch = false → s.chip.dmaStalled g.ch = false → Leaves .dmaComplete s (fun c => c.dma.grant = none)) ∧
         (∀ (bytes : Nat) (st : BitVec 8) (dst : Bool), st.toNat = 3 ∨ st.toNat = 4 →
           Leaves (.dmaBeatError bytes st dst) s (fun c => c.dma.grant = none)) ∧
         (∀ (bytes : Nat) (dst : Bool), s.chip.suspended 4 2 = false →
           Leaves (.dmaTimeout bytes dst) s (fun c => c.dma.grant = none))))) ∧
    -- The serial port and the flash
    ((s.chip.reaches .sp = true → Leaves .spsFrameStart s (fun c => OutMsg.spFrame s.chip.sps.frame ∈ c.out ∧ c.get K.spsState = 2)) ∧
     (∀ (bytes : List Byte) (r : SpRequest), s.chip.sps.toMaster = false → s.chip.nat K.spsState = 2 → requestOf bytes = some r →
       Leaves (.spsFrameEnd bytes) s (fun c => c.get K.spsState = 1 ∧ c.get K.spsCrcErrors = s.chip.get K.spsCrcErrors)) ∧
     Leaves .spsNop s (fun c => c.sps = s.chip.sps) ∧
     (∀ r : SpRequest, s.chip.sps.request = some r → s.chip.reaches .sp = true →
       (r.opcode = 1 → Leaves .spsReadSlot s (fun c => c.sps.request = none ∧ c.sps.answer.isSome = true)) ∧
       (r.opcode = 2 → r.key ≠ K.chipReset → Leaves .spsWriteSlot s (fun c => c.sps.request = none ∧ c.sps.answer.isSome = true)) ∧
       (r.opcode = 3 → Leaves .spsReadSlots s (fun c => c.sps.request = none ∧ c.sps.answer.isSome = true)) ∧
       (r.opcode = 4 → Leaves .spsDomainRead s (fun c => c.sps.request = none ∧ c.sps.answer.isSome = true)) ∧
       (r.opcode = 5 → Leaves .spsDomainWrite s (fun c => c.sps.request = none ∧ c.sps.answer.isSome = true)) ∧
       (r.opcode = 6 → Leaves .spsDomainEnd s (fun c => c.sps.request = none ∧ c.sps.answer.isSome = true))) ∧
     (∀ a : Nat × List Byte, s.chip.sps.answer = some a → Leaves .spsReplyReady s (fun c => c.sps.reply = some a ∧ c.sps.answer = none)) ∧
     (∀ m : Master, s.chip.serves m K.spRole → s.chip.get K.spRole = 0 → s.chip.get K.spmState = 1 →
       Leaves (.spRoleWrite m 1) s (fun c => c.get K.spRole = 1)) ∧
     (∀ m : Master, s.chip.get K.spRole = 0 →
       (∀ (off : BitVec 28) (len : BitVec 16), s.chip.flashBusy off.toNat = true →
         Leaves (.xipRead off len) s (fun c => (off.toNat, len.toNat) ∈ c.spm.waitReads)) ∧
       (∀ (off : BitVec 28) (b : Byte), s.chip.spm.page = none →
         Leaves (.xipProgramWrite off [b]) s (fun c => c.spm.page = some (off.toNat, [b]))) ∧
       (∀ off : BitVec 32, s.chip.serves m K.spmErase → s.chip.spm.seq = none → s.chip.spm.copy = none → off.toNat < 0x10000000 →
         Leaves (.spmErase m off) s (fun c => c.spm.seq.isSome = true)) ∧
       (∀ (off : Nat) (data : List Byte), s.chip.spm.page = some (off, data) → s.chip.spm.seq = none →
         Leaves .pageBufferTimeout s (fun c => c.spm.page = none ∧ c.spm.seq.isSome = true) ∧
         (s.chip.serves m K.spmFlush → Leaves (.spmFlush m) s (fun c => c.spm.page = none))) ∧
       (s.chip.serves m K.spmCopyStart → s.chip.spm.copy = none → s.chip.onion.save = none →
         s.chip.nat K.spmCopyDst % 4096 = 0 → s.chip.nat K.spmCopyLength ≠ 0 →
         s.chip.nat K.spmCopyDst + s.chip.nat K.spmCopyLength ≤ 0x10000000 →
         s.chip.nat K.spmCopySrc + s.chip.nat K.spmCopyLength ≤ s.chip.nat K.dramCapacity →
         Leaves (.spmCopyStart m) s (fun c => c.spm.copy.isSome = true))) ∧
     (∀ q : FlashSeq, s.chip.spm.seq = some q →
       (∀ st : BitVec 8, Leaves (.spmStatusPoll st) s (fun c => c.get K.spmLastStatus = st.toNat)) ∧
       Leaves .spmSequenceTimeout s (fun c => c.get K.spmErrors = min (s.chip.get K.spmErrors + 1) 0xFFFFFFFF ∧
         (s.chip.spm.copy = none → c.spm.seq = none))) ∧
     (∀ (off src : Nat) (e : Bool), s.chip.spm.copy = some (off, src, 0, e) → s.chip.spm.seq = none →
       Leaves (.spmCopyComplete 2) s (fun c => c.spm.copy = none)) ∧
     (∀ (ch : Fin 2) (found lost : List (BitVec 40)) (link : BitVec 32), s.chip.pixelRuns = true → s.chip.get (K.dramChState ch) = 2 →
       Leaves (.dramScrubPass ch found lost link) s (fun c =>
         c.get (K.dramScrubPasses ch) = min (s.chip.get (K.dramScrubPasses ch) + 1) 0xFFFFFFFF)))

/-! ### The block as a whole -/

/-- The first waiting command is carried out on the part with the rest of the queue waiting. -/
def Obligations.StepRunsTheFirstCommand : Prop :=
  ∀ (c : Instr) (s : State), step { s with pending := c :: s.pending } = exec c s

/-- With nothing waiting one CLK_MGT cycle passes (the model's choice, assumption 6): nothing but the cycles since the last tick moves,
up to the last cycle before the next tick. -/
def Obligations.EmptyQueueLetsACyclePass : Prop :=
  ∀ s : State, s.pending = [] → ∃ t, step s = .next t ∧ t.pending = [] ∧
    t.chip = { s.chip with out := [], clk := { s.chip.clk with
      sub := if s.chip.clk.sub + 1 < (if s.chip.clk.onBackup then 20 else 200) then s.chip.clk.sub + 1 else s.chip.clk.sub } }

/-- Every command completes in every state and leaves the queue as it is, so every command that waits is carried out, in as many steps as
commands wait. -/
def Obligations.EveryWaitingCommandCompletes : Prop :=
  (∀ (i : Instr) (s : State), ∃ t, exec i s = .next t ∧ t.pending = s.pending) ∧
  (∀ s : State, ∃ t, Sys2Proof.core.run s.pending.length s = .next t ∧ t.pending = [])

/-- R44, R107: after reset the front die is held, no command waits, no record, staged write or lock exists, and every object reads the
default of its table: CHIP_MODE and PIXEL_DIE_STATE 0, MODE_REQUEST 1, CLK_PIX_DIV 3, the locks free. R106, R473: the reset state shows
ERROR_REGISTER and ALERT_N as their conditions stand. -/
def Obligations.ResetState : Prop :=
  (State.reset.pending = [] ∧ State.reset.chip.boot.phase = .held ∧ State.reset.chip.staged = [] ∧ State.reset.chip.pendingP = [] ∧
   State.reset.chip.dram = [] ∧ State.reset.chip.errq = List.replicate 5 {} ∧
   (∀ k : Nat, State.reset.chip.get k = objDefault k) ∧
   State.reset.chip.get K.chipMode = 0 ∧ State.reset.chip.get K.pixelDieState = 0 ∧ State.reset.chip.get K.modeRequest = 1 ∧
   State.reset.chip.get K.clkPixDiv = 3 ∧ State.reset.chip.get K.refclkState = 0 ∧
   (∀ n : Fin 32, State.reset.chip.get (K.lock n) = 0) ∧ (∀ h : Fin 4, State.reset.chip.get (K.runState h) = 0)) ∧
  (State.reset.chip.statusRight ∧ State.reset.chip.storesCanonical)

/-- R106, R473: every step, of any command in any state, keeps ERROR_REGISTER and ALERT_N as their conditions stand. ALERT_N is then low
just in the safe state, while a record at region or chip level is unacknowledged, and where no slot starts (R456). -/
def Obligations.StatusFollowsItsConditions : Prop :=
  ∀ s t : State, s.chip.statusRight → step s = .next t →
    t.chip.statusRight ∧
    (t.chip.pins.alertLow = true ↔ t.chip.get K.chipMode = 4 ∨ t.chip.boot.phase = .dead ∨
      ∃ q ∈ t.chip.errq, ∃ r ∈ q.recs, r.acked = false ∧ 2 ≤ r.level)

/-- The objects and the DRAM keep their canonical form: from every state whose stores are canonical every step, of any command, gives one
whose stores are; the reset state meets it; and a write of an object, of several, of DRAM bytes, and a set that leaves DRAM keep it. -/
def Obligations.StoresStayCanonical : Prop :=
  (∀ s t : State, s.chip.storesCanonical → step s = .next t → t.chip.storesCanonical) ∧ State.reset.chip.storesCanonical ∧
  ∀ c : Chip, c.storesCanonical →
    (∀ (k : Nat) (v : Int), (c.set k v).storesCanonical) ∧ (∀ l : List (Nat × Int), (c.setAll l).storesCanonical) ∧
    (∀ (a : Nat) (l : List Byte), (c.dramWrite a l).storesCanonical) ∧ (∀ n : Nat, (c.dropSet n).storesCanonical)

/-- R109: a queue of at most 16 records stays so; a record that matches the newest one coalesces with it, and takes a new sequence only if
that one was acknowledged; any other takes the next slot and sequence, and whether an unacknowledged record was overwritten is
told, and counted in ERRQ_OVERFLOW of the region. -/
def Obligations.ErrorQueueEntries : Prop :=
  (∀ (q : ErrQ) (r : ErrRec), q.recs.length ≤ 16 →
    (q.enter r).1.recs.length ≤ 16 ∧
    (∀ (n : ErrRec) (rest : List ErrRec), q.recs = n :: rest → n.same r = true →
      (q.enter r).1.recs = { n with
        count := n.count + 1, time := r.time, acked := false, seq := if n.acked then nextSeq q.seq 0xFFFF else n.seq } :: rest ∧
      (q.enter r).2 = false) ∧
    ((∀ n ∈ q.recs.head?, n.same r = false) →
      (q.enter r).1.recs = { r with slot := q.nextSlot, seq := nextSeq q.seq 0xFFFF, acked := false, count := 1 } :: q.recs.take 15 ∧
      (q.enter r).1.nextSlot = (q.nextSlot + 1) % 16 ∧
      ((q.enter r).2 = true ↔ ∃ l : ErrRec, q.recs[15]? = some l ∧ l.acked = false))) ∧
  (∀ (c : Chip) (level : Fin 3) (region : Fin 6) (block cell code c0 c1 : Nat),
    let q := (at' c.errq (Chip.queueOf region.val)).enter (newRecord c level.val region.val block cell code c0 c1)
    let d := c.raise level.val region.val block cell code c0 c1
    d.errq = modAt c.errq (Chip.queueOf region.val) (fun _ => q.1) ∧
    d.get (K.errqOverflow (Chip.queueOf region.val)) =
      (if q.2 then min (c.get (K.errqOverflow (Chip.queueOf region.val)) + 1) 0xFFFFFFFF
       else c.get (K.errqOverflow (Chip.queueOf region.val))))

/-- R447: an increment adds to a counter by writing the copy with the smaller value only; were that copy lost, the counter would read its
previous value. -/
def Obligations.CountersSurviveInterruption : Prop :=
  ∀ (n : NvmCounter) (k : Nat), n.value + k < 2 ^ 48 →
    (n.add k).value = n.value + k ∧ ((n.add k).a = n.a ∨ (n.add k).b = n.b) ∧
    (n.b.getD 0 < n.a.getD 0 → ({ n.add k with b := none } : NvmCounter).value = n.value) ∧
    (n.a.getD 0 ≤ n.b.getD 0 → ({ n.add k with a := none } : NvmCounter).value = n.value)

/-- R6, R7, R8, R230: rne and rne_div round to the nearest integer, and to the even one when halfway, and rne by no places leaves a value;
sat clamps to the range of a signed or an unsigned type; sx reads a field in two's complement. -/
def Obligations.RoundingClampingAndSignExtension : Prop :=
  (∀ (v : Int) (k : Nat), 2 * (v - rne v k * (2 ^ k : Nat)).natAbs ≤ 2 ^ k ∧
    (2 * (v - rne v k * (2 ^ k : Nat)).natAbs = 2 ^ k → rne v k % 2 = 0)) ∧
  (∀ v : Int, rne v 0 = v) ∧
  (∀ (a : Int) (b : Nat), 0 < b → 2 * (a - rneDiv a b * b).natAbs ≤ b ∧ (2 * (a - rneDiv a b * b).natAbs = b → rneDiv a b % 2 = 0)) ∧
  (∀ (v : Int) (w : Nat), 1 ≤ w →
    (v < -(2 ^ (w - 1) : Nat) → satS v w = -(2 ^ (w - 1) : Nat)) ∧ ((2 ^ (w - 1) : Nat) ≤ v → satS v w = (2 ^ (w - 1) : Nat) - 1) ∧
    (-(2 ^ (w - 1) : Nat) ≤ v → v < (2 ^ (w - 1) : Nat) → satS v w = v) ∧
    (v < 0 → satU v w = 0) ∧ ((2 ^ w : Nat) ≤ v → satU v w = (2 ^ w : Nat) - 1) ∧ (0 ≤ v → v < (2 ^ w : Nat) → satU v w = v)) ∧
  (∀ v w : Nat, 1 ≤ w → -(2 ^ (w - 1) : Nat) ≤ sx v w ∧ sx v w < (2 ^ (w - 1) : Nat) ∧ (sx v w - v) % ((2 ^ w : Nat) : Int) = 0)
end

