-- ==== Sys2Proof/Laws/Dict.lean ====
section
/-! SUPPORT. The laws of the two sparse stores, object values and memory: reading after a write, and that every
operation keeps the canonical form. -/

namespace Sys2Proof.Machine

/-! ### Object values -/

/-- The keys below a bound: every key of a list lies above it. -/
theorem Dict.rising_cons (k : Nat) (v : Int) (d : Dict) :
    Dict.rising ((k, v) :: d) = true ↔ (∀ e ∈ d, k < e.1) ∧ Dict.rising d = true := by
  induction d generalizing k v with
  | nil => simp [Dict.rising]
  | cons e d ih =>
    obtain ⟨k', v'⟩ := e
    simp only [Dict.rising, Bool.and_eq_true, decide_eq_true_eq, List.mem_cons, forall_eq_or_imp]
    constructor
    · rintro ⟨h, hr⟩
      exact ⟨⟨h, fun e he => lt_trans h (((ih k' v').1 hr).1 e he)⟩, hr⟩
    · rintro ⟨⟨h, _⟩, hr⟩
      exact ⟨h, hr⟩

@[simp] theorem Dict.find_nil (key : Nat) : Dict.find [] key = none := rfl

theorem Dict.find_cons (k : Nat) (v : Int) (d : Dict) (key : Nat) :
    Dict.find ((k, v) :: d) key = if k = key then some v else Dict.find d key := rfl

theorem Dict.find_insert (d : Dict) (key : Nat) (v : Int) (key' : Nat) :
    (d.insert key v).find key' = if key' = key then some v else d.find key' := by
  induction d with
  | nil => by_cases h : key = key' <;> simp [Dict.insert, Dict.find_cons, h, eq_comm]
  | cons e d ih =>
    obtain ⟨k, w⟩ := e
    unfold Dict.insert
    split
    · next h => subst h; simp only [Dict.find_cons, eq_comm (a := key')]; split <;> rfl
    · split
      · by_cases h : key = key' <;> simp [Dict.find_cons, h, eq_comm]
      · next h1 h2 =>
        rw [Dict.find_cons, ih, Dict.find_cons]
        by_cases h3 : k = key'
        · subst h3; simp [h1]
        · simp [h3]

theorem Dict.find_erase (d : Dict) (key key' : Nat) :
    (d.erase key).find key' = if key' = key then none else d.find key' := by
  induction d with
  | nil => simp [Dict.erase]
  | cons e d ih =>
    obtain ⟨k, w⟩ := e
    unfold Dict.erase
    split
    · next h => subst h; simp only [ih, Dict.find_cons, eq_comm (a := key')]; split <;> rfl
    · next h =>
      rw [Dict.find_cons, ih, Dict.find_cons]
      by_cases h3 : k = key'
      · subst h3; simp [h]
      · simp [h3]

/-- An object reads as the value written, and every other object as before. -/
theorem Dict.get_put (d : Dict) (key : Nat) (v : Int) (key' : Nat) :
    (d.put key v).get key' = if key' = key then v else d.get key' := by
  unfold Dict.put Dict.get
  split
  · next h => rw [Dict.find_erase]; by_cases h' : key' = key <;> simp [h', h]
  · rw [Dict.find_insert]; by_cases h' : key' = key <;> simp [h']

theorem Dict.mem_insert {d : Dict} {key : Nat} {v : Int} {e : Nat × Int} (h : e ∈ d.insert key v) :
    e = (key, v) ∨ e ∈ d := by
  induction d with
  | nil => simpa [Dict.insert] using h
  | cons f d ih =>
    obtain ⟨k, w⟩ := f
    unfold Dict.insert at h
    split at h
    · simp only [List.mem_cons] at h ⊢; tauto
    · split at h
      · simp only [List.mem_cons] at h ⊢; tauto
      · simp only [List.mem_cons] at h ⊢
        rcases h with h | h
        · tauto
        · rcases ih h with h | h <;> tauto

theorem Dict.mem_erase {d : Dict} {key : Nat} {e : Nat × Int} (h : e ∈ d.erase key) : e ∈ d := by
  induction d with
  | nil => simp [Dict.erase] at h
  | cons f d ih =>
    obtain ⟨k, w⟩ := f
    unfold Dict.erase at h
    split at h
    · exact List.mem_cons_of_mem _ (ih h)
    · simp only [List.mem_cons] at h ⊢
      exact h.imp id ih

theorem Dict.rising_insert {d : Dict} {key : Nat} {v : Int} (h : d.rising = true) : (d.insert key v).rising = true := by
  induction d with
  | nil => rfl
  | cons f d ih =>
    obtain ⟨k, w⟩ := f
    have hr := (Dict.rising_cons k w d).1 h
    unfold Dict.insert
    split
    · next hk => subst hk; exact (Dict.rising_cons _ _ _).2 hr
    · split
      · next hk hlt =>
        refine (Dict.rising_cons _ _ _).2 ⟨?_, h⟩
        intro e he
        rcases List.mem_cons.1 he with rfl | he
        · exact hlt
        · exact lt_trans hlt (hr.1 e he)
      · next hk hlt =>
        refine (Dict.rising_cons _ _ _).2 ⟨?_, ih hr.2⟩
        intro e he
        rcases Dict.mem_insert he with rfl | he
        · change k < key; omega
        · exact hr.1 e he

theorem Dict.rising_erase {d : Dict} {key : Nat} (h : d.rising = true) : (d.erase key).rising = true := by
  induction d with
  | nil => rfl
  | cons f d ih =>
    obtain ⟨k, w⟩ := f
    have hr := (Dict.rising_cons k w d).1 h
    unfold Dict.erase
    split
    · exact ih hr.2
    · exact (Dict.rising_cons _ _ _).2 ⟨fun e he => hr.1 e (Dict.mem_erase he), ih hr.2⟩

/-- Writing an object keeps the canonical form. -/
theorem Dict.wf_put {d : Dict} (key : Nat) (v : Int) (h : d.wf = true) : (d.put key v).wf = true := by
  simp only [Dict.wf, Bool.and_eq_true, List.all_eq_true, decide_eq_true_eq] at h ⊢
  unfold Dict.put
  split
  · exact ⟨Dict.rising_erase h.1, fun e he => h.2 e (Dict.mem_erase he)⟩
  · next hv =>
    refine ⟨Dict.rising_insert h.1, fun e he => ?_⟩
    rcases Dict.mem_insert he with rfl | he
    · exact hv
    · exact h.2 e he

/-! ### Memory -/

theorem Memory.byte_cons (k : Nat) (v : Byte) (m : Memory) (a : Nat) :
    Memory.byte ((k, v) :: m) a = if k = a then v else Memory.byte m a := rfl

@[simp] theorem Memory.byte_nil (a : Nat) : Memory.byte [] a = 0 := rfl

theorem Memory.byte_insert (m : Memory) (a : Nat) (b : Byte) (a' : Nat) :
    (m.insert a b).byte a' = if a' = a then b else m.byte a' := by
  induction m with
  | nil => by_cases h : a = a' <;> simp [Memory.insert, Memory.byte_cons, h, eq_comm]
  | cons e m ih =>
    obtain ⟨k, w⟩ := e
    unfold Memory.insert
    split
    · next h => subst h; simp only [Memory.byte_cons, eq_comm (a := a')]; split <;> rfl
    · split
      · by_cases h : a = a' <;> simp [Memory.byte_cons, h, eq_comm]
      · next h1 h2 =>
        rw [Memory.byte_cons, ih, Memory.byte_cons]
        by_cases h3 : k = a'
        · subst h3; simp [h1]
        · simp [h3]

theorem Memory.byte_erase (m : Memory) (a a' : Nat) : (m.erase a).byte a' = if a' = a then 0 else m.byte a' := by
  induction m with
  | nil => simp [Memory.erase]
  | cons e m ih =>
    obtain ⟨k, w⟩ := e
    unfold Memory.erase
    split
    · next h => subst h; simp only [ih, Memory.byte_cons, eq_comm (a := a')]; split <;> rfl
    · next h =>
      rw [Memory.byte_cons, ih, Memory.byte_cons]
      by_cases h3 : k = a'
      · subst h3; simp [h]
      · simp [h3]

/-- A byte reads as written, and every other byte as before. -/
theorem Memory.byte_put (m : Memory) (a : Nat) (b : Byte) (a' : Nat) :
    (m.put a b).byte a' = if a' = a then b else m.byte a' := by
  unfold Memory.put
  split
  · next h => rw [Memory.byte_erase, h]
  · rw [Memory.byte_insert]

/-- Bytes outside a write read as before. -/
theorem Memory.byte_write_other (m : Memory) (a : Nat) (l : List Byte) (a' : Nat)
    (h : a' < a ∨ a + l.length ≤ a') : (m.write a l).byte a' = m.byte a' := by
  induction l generalizing m a with
  | nil => rfl
  | cons b l ih =>
    simp only [List.length_cons] at h
    rw [Memory.write, ih _ _ (by omega), Memory.byte_put, if_neg (by omega)]

/-- Bytes of a write read as written. -/
theorem Memory.byte_write (m : Memory) (a : Nat) (l : List Byte) (i : Nat) (h : i < l.length) :
    (m.write a l).byte (a + i) = l[i] := by
  induction l generalizing m a i with
  | nil => simp at h
  | cons b l ih =>
    rw [Memory.write]
    cases i with
    | zero => rw [Memory.byte_write_other _ _ _ _ (by omega), Memory.byte_put]; simp
    | succ i =>
      have := ih (m.put a b) (a + 1) i (by simpa using h)
      rw [show a + (i + 1) = a + 1 + i by omega, this]
      simp

theorem Memory.read_length (m : Memory) (a n : Nat) : (m.read a n).length = n := by
  induction n generalizing a with
  | zero => rfl
  | succ n ih => simp [Memory.read, ih]

/-- What was written is read back. -/
theorem Memory.read_write (m : Memory) (a : Nat) (l : List Byte) : (m.write a l).read a l.length = l := by
  suffices ∀ (a' : Nat) (m' : Memory), (∀ i (h : i < l.length), m'.byte (a' + i) = l[i]) → m'.read a' l.length = l from
    this a _ (fun i h => Memory.byte_write m a l i h)
  clear m a
  induction l with
  | nil => intro _ _ _; rfl
  | cons b l ih =>
    intro a' m' hm
    simp only [List.length_cons, Memory.read]
    have h0 := hm 0 (by simp)
    rw [show m'.byte a' = b from h0, ih (a' + 1) m' ?_]
    intro i h
    have h1 := hm (i + 1) (by simpa using h)
    rwa [show a' + (i + 1) = a' + 1 + i by omega] at h1

theorem Memory.rising_cons (k : Nat) (v : Byte) (m : Memory) :
    Memory.rising ((k, v) :: m) = true ↔ (∀ e ∈ m, k < e.1) ∧ Memory.rising m = true := by
  induction m generalizing k v with
  | nil => simp [Memory.rising]
  | cons e m ih =>
    obtain ⟨k', v'⟩ := e
    simp only [Memory.rising, Bool.and_eq_true, decide_eq_true_eq, List.mem_cons, forall_eq_or_imp]
    constructor
    · rintro ⟨h, hr⟩
      exact ⟨⟨h, fun e he => lt_trans h (((ih k' v').1 hr).1 e he)⟩, hr⟩
    · rintro ⟨⟨h, _⟩, hr⟩
      exact ⟨h, hr⟩

theorem Memory.mem_insert {m : Memory} {a : Nat} {b : Byte} {e : Host.Cell} (h : e ∈ m.insert a b) :
    e = (a, b) ∨ e ∈ m := by
  induction m with
  | nil => simpa [Memory.insert] using h
  | cons f m ih =>
    obtain ⟨k, w⟩ := f
    unfold Memory.insert at h
    split at h
    · simp only [List.mem_cons] at h ⊢; tauto
    · split at h
      · simp only [List.mem_cons] at h ⊢; tauto
      · simp only [List.mem_cons] at h ⊢
        rcases h with h | h
        · tauto
        · rcases ih h with h | h <;> tauto

theorem Memory.mem_erase {m : Memory} {a : Nat} {e : Host.Cell} (h : e ∈ m.erase a) : e ∈ m := by
  induction m with
  | nil => simp [Memory.erase] at h
  | cons f m ih =>
    obtain ⟨k, w⟩ := f
    unfold Memory.erase at h
    split at h
    · exact List.mem_cons_of_mem _ (ih h)
    · simp only [List.mem_cons] at h ⊢
      exact h.imp id ih

theorem Memory.rising_insert {m : Memory} {a : Nat} {b : Byte} (h : m.rising = true) : (m.insert a b).rising = true := by
  induction m with
  | nil => rfl
  | cons f m ih =>
    obtain ⟨k, w⟩ := f
    have hr := (Memory.rising_cons k w m).1 h
    unfold Memory.insert
    split
    · next hk => subst hk; exact (Memory.rising_cons _ _ _).2 hr
    · split
      · next hk hlt =>
        refine (Memory.rising_cons _ _ _).2 ⟨?_, h⟩
        intro e he
        rcases List.mem_cons.1 he with rfl | he
        · exact hlt
        · exact lt_trans hlt (hr.1 e he)
      · next hk hlt =>
        refine (Memory.rising_cons _ _ _).2 ⟨?_, ih hr.2⟩
        intro e he
        rcases Memory.mem_insert he with rfl | he
        · change k < a; omega
        · exact hr.1 e he

theorem Memory.rising_erase {m : Memory} {a : Nat} (h : m.rising = true) : (m.erase a).rising = true := by
  induction m with
  | nil => rfl
  | cons f m ih =>
    obtain ⟨k, w⟩ := f
    have hr := (Memory.rising_cons k w m).1 h
    unfold Memory.erase
    split
    · exact ih hr.2
    · exact (Memory.rising_cons _ _ _).2 ⟨fun e he => hr.1 e (Memory.mem_erase he), ih hr.2⟩

/-- Writing a byte keeps the canonical form. -/
theorem Memory.wf_put {m : Memory} (a : Nat) (b : Byte) (h : m.wf = true) : (m.put a b).wf = true := by
  simp only [Memory.wf, Bool.and_eq_true, List.all_eq_true, decide_eq_true_eq] at h ⊢
  unfold Memory.put
  split
  · exact ⟨Memory.rising_erase h.1, fun e he => h.2 e (Memory.mem_erase he)⟩
  · next hb =>
    refine ⟨Memory.rising_insert h.1, fun e he => ?_⟩
    rcases Memory.mem_insert he with rfl | he
    · exact hb
    · exact h.2 e he

/-- Writing bytes keeps the canonical form. -/
theorem Memory.wf_write {m : Memory} (a : Nat) (l : List Byte) (h : m.wf = true) : (m.write a l).wf = true := by
  induction l generalizing m a with
  | nil => exact h
  | cons b l ih => exact ih _ (Memory.wf_put a b h)

end Sys2Proof.Machine
end

