-- ==== Sys2Proof/Laws/Parts.lean ====
section
/-! SUPPORT. What changing one part of the chip's state leaves: every object, and the parts beside it. -/

namespace Sys2Proof.Machine

/-! ### Objects after a change of one part -/

@[simp] theorem Chip.get_modCan (c : Chip) (f : Can → Can) (k : Nat) : (c.modCan f).get k = c.get k := rfl
@[simp] theorem Chip.get_modSps (c : Chip) (f : Sps → Sps) (k : Nat) : (c.modSps f).get k = c.get k := rfl
@[simp] theorem Chip.get_modDma (c : Chip) (ch : Nat) (f : DmaCh → DmaCh) (k : Nat) : (c.modDma ch f).get k = c.get k := rfl
@[simp] theorem Chip.get_modBank (c : Chip) (b : Nat) (f : ConvBank → ConvBank) (k : Nat) : (c.modBank b f).get k = c.get k := rfl
@[simp] theorem Chip.get_modSource (c : Chip) (s : Nat) (f : Source → Source) (k : Nat) : (c.modSource s f).get k = c.get k := rfl
@[simp] theorem Chip.get_modStream (c : Chip) (n : Nat) (f : Stream → Stream) (k : Nat) : (c.modStream n f).get k = c.get k := rfl
@[simp] theorem Chip.get_modHk (c : Chip) (f : Hk → Hk) (k : Nat) : (c.modHk f).get k = c.get k := rfl
@[simp] theorem Chip.get_modActCh (c : Chip) (ch : Nat) (f : ActCh → ActCh) (k : Nat) : (c.modActCh ch f).get k = c.get k := rfl
@[simp] theorem Chip.get_modActBank (c : Chip) (b : Nat) (f : ActBank → ActBank) (k : Nat) : (c.modActBank b f).get k = c.get k := rfl
@[simp] theorem Chip.get_modThermal (c : Chip) (f : Thermal → Thermal) (k : Nat) : (c.modThermal f).get k = c.get k := rfl
@[simp] theorem Chip.get_modHead (c : Chip) (h : Nat) (f : HeadPort → HeadPort) (k : Nat) : (c.modHead h f).get k = c.get k := rfl
@[simp] theorem Chip.get_modWork (c : Chip) (s i : Nat) (f : Work → Work) (k : Nat) : (c.modWork s i f).get k = c.get k := rfl
@[simp] theorem Chip.get_modRegion (c : Chip) (r : Nat) (f : RegionHist → RegionHist) (k : Nat) : (c.modRegion r f).get k = c.get k := rfl
@[simp] theorem Chip.get_modBlock (c : Chip) (r b : Nat) (f : BlockHist → BlockHist) (k : Nat) : (c.modBlock r b f).get k = c.get k := rfl
@[simp] theorem Chip.get_modPcie (c : Chip) (f : Pcie → Pcie) (k : Nat) : (c.modPcie f).get k = c.get k := rfl
@[simp] theorem Chip.get_modClk (c : Chip) (f : Clk → Clk) (k : Nat) : (c.modClk f).get k = c.get k := rfl
@[simp] theorem Chip.get_modSol (c : Chip) (h : Nat) (f : Solstice → Solstice) (k : Nat) : (c.modSol h f).get k = c.get k := rfl
@[simp] theorem Chip.get_modEvent (c : Chip) (h : Nat) (f : SolEvent → SolEvent) (k : Nat) : (c.modEvent h f).get k = c.get k := rfl
@[simp] theorem Chip.get_modMbx (c : Chip) (ch : Nat) (f : Mbx → Mbx) (k : Nat) : (c.modMbx ch f).get k = c.get k := rfl

/-! ### The part itself -/

@[simp] theorem Chip.modCan_can (c : Chip) (f : Can → Can) : (c.modCan f).can = f c.can := rfl
@[simp] theorem Chip.modSps_sps (c : Chip) (f : Sps → Sps) : (c.modSps f).sps = f c.sps := rfl
@[simp] theorem Chip.modHk_hk (c : Chip) (f : Hk → Hk) : (c.modHk f).hk = f c.hk := rfl
@[simp] theorem Chip.modThermal_thermal (c : Chip) (f : Thermal → Thermal) : (c.modThermal f).thermal = f c.thermal := rfl
@[simp] theorem Chip.modPcie_pcie (c : Chip) (f : Pcie → Pcie) : (c.modPcie f).pcie = f c.pcie := rfl
@[simp] theorem Chip.modClk_clk (c : Chip) (f : Clk → Clk) : (c.modClk f).clk = f c.clk := rfl
@[simp] theorem Chip.modHead_heads (c : Chip) (h : Nat) (f : HeadPort → HeadPort) : (c.modHead h f).heads = modAt c.heads h f := rfl
@[simp] theorem Chip.modBank_banks (c : Chip) (b : Nat) (f : ConvBank → ConvBank) : (c.modBank b f).banks = modAt c.banks b f := rfl
@[simp] theorem Chip.modSol_sol (c : Chip) (h : Nat) (f : Solstice → Solstice) : (c.modSol h f).sol = modAt c.sol h f := rfl
@[simp] theorem Chip.modMbx_mbx (c : Chip) (ch : Nat) (f : Mbx → Mbx) : (c.modMbx ch f).mbx = modAt c.mbx ch f := rfl
@[simp] theorem Chip.modDma_chans (c : Chip) (ch : Nat) (f : DmaCh → DmaCh) :
    (c.modDma ch f).dma.chans = modAt c.dma.chans ch f := rfl

/-! ### Accesses of one cycle (R81, R96) -/

/-- Reads of the NVM that find nothing change nothing (R443). -/
@[simp] theorem Chip.nvmFound_nil (c : Chip) : c.nvmFound [] = c := rfl

/-- A corrected group counts and is written back, while VANA stands above its trip (R54, R443). -/
theorem Chip.nvmFound_corrected (c : Chip) (g : BitVec 19) :
    c.nvmFound [⟨g, false⟩] = (c.bump K.nvmCorrected).nvmAgain := rfl

/-- One access alone stands in its rank order. -/
@[simp] theorem inRank_single {α : Type} (f : α → Master) (a : α) : inRank f [a] = [a] := by
  have h : masterRank (f a) = 0 ∨ masterRank (f a) = 1 ∨ masterRank (f a) = 2 ∨ masterRank (f a) = 3 ∨ masterRank (f a) = 4 := by
    cases f a <;> decide
  obtain h | h | h | h | h := h <;>
    simp [inRank, List.range, List.range.loop, List.filter, h]

/-- A write with no other of its cycle is the write of its master. -/
@[simp] theorem objectWrites_single (key : Nat) (w : MasterWrite) (c : Chip) :
    objectWrites key [w] c = objectWrite w.m key w.part w.v c := by
  simp [objectWrites]

end Sys2Proof.Machine
end

