-- ==== Sys2Proof/Laws/State.lean ====
section
/-! SUPPORT. One lemma per field for each named update of the part, and what its objects read after it. -/

namespace Sys2Proof.Machine

/-! ### Reading objects -/

/-- Updating any field beside the object values leaves every object as it was. -/
@[simp] theorem Chip.get_mk (dict staged pendingP kept halves latches errq entered clk pins rails boot mode nvm domains dram sps spm pcie can psi mbx dma act heads banks cal hk thermal onion sol pix regions happened free out) (k : Nat) :
    (Chip.mk dict staged pendingP kept halves latches errq entered clk pins rails boot mode nvm domains dram sps spm pcie can psi mbx dma act heads banks cal hk thermal onion sol pix regions happened free out).get k = Dict.get dict k := rfl

@[simp] theorem Chip.dict_get (c : Chip) (k : Nat) : Dict.get c.dict k = c.get k := rfl

/-- An object reads as written, every other as before. -/
theorem Chip.get_set (c : Chip) (k : Nat) (v : Int) (k' : Nat) :
    (c.set k v).get k' = if k' = k then v else c.get k' := Dict.get_put c.dict k v k'

@[simp] theorem Chip.get_set_same (c : Chip) (k : Nat) (v : Int) : (c.set k v).get k = v := by
  rw [Chip.get_set, if_pos rfl]

theorem Chip.get_set_other (c : Chip) (k : Nat) (v : Int) (k' : Nat) (h : k' ≠ k) : (c.set k v).get k' = c.get k' := by
  rw [Chip.get_set, if_neg h]

theorem Chip.set_eq (c : Chip) (k : Nat) (v : Int) : c.set k v = { c with dict := c.dict.put k v } := rfl

theorem Chip.get_bumpBy (c : Chip) (k n k' : Nat) :
    (c.bumpBy k n).get k' = if k' = k then min (c.get k + n) 0xFFFFFFFF else c.get k' := Chip.get_set _ _ _ _

theorem Chip.get_bump (c : Chip) (k k' : Nat) :
    (c.bump k).get k' = if k' = k then min (c.get k + 1) 0xFFFFFFFF else c.get k' := Chip.get_set _ _ _ _

theorem Chip.get_total (c : Chip) (k n k' : Nat) :
    (c.total k n).get k' = if k' = k then (c.get k + n) % (2 ^ 64 : Nat) else c.get k' := Chip.get_set _ _ _ _

@[simp] theorem Chip.setAll_nil (c : Chip) : c.setAll [] = c := rfl

theorem Chip.setAll_cons (c : Chip) (e : Nat × Int) (l : List (Nat × Int)) :
    c.setAll (e :: l) = (c.set e.1 e.2).setAll l := rfl

/-- An object that a list of writes does not name reads as before. -/
theorem Chip.get_setAll_other (c : Chip) (l : List (Nat × Int)) (k : Nat) (h : ∀ e ∈ l, k ≠ e.1) :
    (c.setAll l).get k = c.get k := by
  induction l generalizing c with
  | nil => rfl
  | cons e l ih =>
    rw [Chip.setAll_cons, ih _ (fun e' he => h e' (List.mem_cons_of_mem _ he)),
      Chip.get_set_other _ _ _ _ (h e (List.mem_cons_self ..))]

@[simp] theorem Chip.get_emit (c : Chip) (m : OutMsg) (k : Nat) : (c.emit m).get k = c.get k := rfl

@[simp] theorem Chip.get_putDomain (c : Chip) (key : Nat) (l : List Byte) (k : Nat) :
    (c.putDomain key l).get k = c.get k := rfl

@[simp] theorem Chip.nat_eq (c : Chip) (k : Nat) : c.nat k = (c.get k).toNat := rfl

@[simp] theorem Chip.emit_out (c : Chip) (m : OutMsg) : (c.emit m).out = c.out ++ [m] := rfl

@[simp] theorem Chip.putDomain_domains (c : Chip) (key : Nat) (l : List Byte) :
    (c.putDomain key l).domains = c.domains.filter (fun (x : Nat × List Byte) => x.1 ≠ key) ++ [(key, l)] := rfl

/-! ### Updates of one cycle (R82) -/

/-- Noting an update moves no object. -/
@[simp] theorem Chip.get_note (c : Chip) (key amount k : Nat) : (c.note key amount).get k = c.get k := rfl

@[simp] theorem Chip.dict_note (c : Chip) (key amount : Nat) : (c.note key amount).dict = c.dict := rfl

@[simp] theorem Chip.mono_note (c : Chip) (key amount : Nat) : (c.note key amount).mono = c.mono := rfl

/-- A counter that is cleared reads the events of its cycle, and every other object as before. -/
theorem Chip.get_clearCount (c : Chip) (key k : Nat) :
    (c.clearCount key).get k = if k = key then ((min (c.counted key) 0xFFFFFFFF : Nat) : Int) else c.get k := Chip.get_set _ _ _ _

/-- An acknowledgement moves one object. -/
theorem Chip.get_ackBits (c : Chip) (key mask k : Nat) (h : k ≠ key) : (c.ackBits key mask).get k = c.get k :=
  Chip.get_set_other _ _ _ _ h

/-! ### The other fields -/

@[simp] theorem Chip.set_staged (c : Chip) (k : Nat) (v : Int) : (c.set k v).staged = c.staged := rfl
@[simp] theorem Chip.set_pendingP (c : Chip) (k : Nat) (v : Int) : (c.set k v).pendingP = c.pendingP := rfl
@[simp] theorem Chip.set_kept (c : Chip) (k : Nat) (v : Int) : (c.set k v).kept = c.kept := rfl
@[simp] theorem Chip.set_halves (c : Chip) (k : Nat) (v : Int) : (c.set k v).halves = c.halves := rfl
@[simp] theorem Chip.set_latches (c : Chip) (k : Nat) (v : Int) : (c.set k v).latches = c.latches := rfl
@[simp] theorem Chip.set_errq (c : Chip) (k : Nat) (v : Int) : (c.set k v).errq = c.errq := rfl
@[simp] theorem Chip.set_entered (c : Chip) (k : Nat) (v : Int) : (c.set k v).entered = c.entered := rfl
@[simp] theorem Chip.set_clk (c : Chip) (k : Nat) (v : Int) : (c.set k v).clk = c.clk := rfl
@[simp] theorem Chip.set_pins (c : Chip) (k : Nat) (v : Int) : (c.set k v).pins = c.pins := rfl
@[simp] theorem Chip.set_rails (c : Chip) (k : Nat) (v : Int) : (c.set k v).rails = c.rails := rfl
@[simp] theorem Chip.set_boot (c : Chip) (k : Nat) (v : Int) : (c.set k v).boot = c.boot := rfl
@[simp] theorem Chip.set_mode (c : Chip) (k : Nat) (v : Int) : (c.set k v).mode = c.mode := rfl
@[simp] theorem Chip.set_nvm (c : Chip) (k : Nat) (v : Int) : (c.set k v).nvm = c.nvm := rfl
@[simp] theorem Chip.set_domains (c : Chip) (k : Nat) (v : Int) : (c.set k v).domains = c.domains := rfl
@[simp] theorem Chip.set_dram (c : Chip) (k : Nat) (v : Int) : (c.set k v).dram = c.dram := rfl
@[simp] theorem Chip.set_sps (c : Chip) (k : Nat) (v : Int) : (c.set k v).sps = c.sps := rfl
@[simp] theorem Chip.set_spm (c : Chip) (k : Nat) (v : Int) : (c.set k v).spm = c.spm := rfl
@[simp] theorem Chip.set_pcie (c : Chip) (k : Nat) (v : Int) : (c.set k v).pcie = c.pcie := rfl
@[simp] theorem Chip.set_can (c : Chip) (k : Nat) (v : Int) : (c.set k v).can = c.can := rfl
@[simp] theorem Chip.set_psi (c : Chip) (k : Nat) (v : Int) : (c.set k v).psi = c.psi := rfl
@[simp] theorem Chip.set_mbx (c : Chip) (k : Nat) (v : Int) : (c.set k v).mbx = c.mbx := rfl
@[simp] theorem Chip.set_dma (c : Chip) (k : Nat) (v : Int) : (c.set k v).dma = c.dma := rfl
@[simp] theorem Chip.set_act (c : Chip) (k : Nat) (v : Int) : (c.set k v).act = c.act := rfl
@[simp] theorem Chip.set_heads (c : Chip) (k : Nat) (v : Int) : (c.set k v).heads = c.heads := rfl
@[simp] theorem Chip.set_banks (c : Chip) (k : Nat) (v : Int) : (c.set k v).banks = c.banks := rfl
@[simp] theorem Chip.set_cal (c : Chip) (k : Nat) (v : Int) : (c.set k v).cal = c.cal := rfl
@[simp] theorem Chip.set_hk (c : Chip) (k : Nat) (v : Int) : (c.set k v).hk = c.hk := rfl
@[simp] theorem Chip.set_thermal (c : Chip) (k : Nat) (v : Int) : (c.set k v).thermal = c.thermal := rfl
@[simp] theorem Chip.set_onion (c : Chip) (k : Nat) (v : Int) : (c.set k v).onion = c.onion := rfl
@[simp] theorem Chip.set_sol (c : Chip) (k : Nat) (v : Int) : (c.set k v).sol = c.sol := rfl
@[simp] theorem Chip.set_pix (c : Chip) (k : Nat) (v : Int) : (c.set k v).pix = c.pix := rfl
@[simp] theorem Chip.set_regions (c : Chip) (k : Nat) (v : Int) : (c.set k v).regions = c.regions := rfl
@[simp] theorem Chip.set_free (c : Chip) (k : Nat) (v : Int) : (c.set k v).free = c.free := rfl
@[simp] theorem Chip.set_happened (c : Chip) (k : Nat) (v : Int) : (c.set k v).happened = c.happened := rfl
@[simp] theorem Chip.set_out (c : Chip) (k : Nat) (v : Int) : (c.set k v).out = c.out := rfl
@[simp] theorem Chip.bumpBy_staged (c : Chip) (k n : Nat) : (c.bumpBy k n).staged = c.staged := rfl
@[simp] theorem Chip.bumpBy_pendingP (c : Chip) (k n : Nat) : (c.bumpBy k n).pendingP = c.pendingP := rfl
@[simp] theorem Chip.bumpBy_kept (c : Chip) (k n : Nat) : (c.bumpBy k n).kept = c.kept := rfl
@[simp] theorem Chip.bumpBy_halves (c : Chip) (k n : Nat) : (c.bumpBy k n).halves = c.halves := rfl
@[simp] theorem Chip.bumpBy_latches (c : Chip) (k n : Nat) : (c.bumpBy k n).latches = c.latches := rfl
@[simp] theorem Chip.bumpBy_errq (c : Chip) (k n : Nat) : (c.bumpBy k n).errq = c.errq := rfl
@[simp] theorem Chip.bumpBy_entered (c : Chip) (k n : Nat) : (c.bumpBy k n).entered = c.entered := rfl
@[simp] theorem Chip.bumpBy_clk (c : Chip) (k n : Nat) : (c.bumpBy k n).clk = c.clk := rfl
@[simp] theorem Chip.bumpBy_pins (c : Chip) (k n : Nat) : (c.bumpBy k n).pins = c.pins := rfl
@[simp] theorem Chip.bumpBy_rails (c : Chip) (k n : Nat) : (c.bumpBy k n).rails = c.rails := rfl
@[simp] theorem Chip.bumpBy_boot (c : Chip) (k n : Nat) : (c.bumpBy k n).boot = c.boot := rfl
@[simp] theorem Chip.bumpBy_mode (c : Chip) (k n : Nat) : (c.bumpBy k n).mode = c.mode := rfl
@[simp] theorem Chip.bumpBy_nvm (c : Chip) (k n : Nat) : (c.bumpBy k n).nvm = c.nvm := rfl
@[simp] theorem Chip.bumpBy_domains (c : Chip) (k n : Nat) : (c.bumpBy k n).domains = c.domains := rfl
@[simp] theorem Chip.bumpBy_dram (c : Chip) (k n : Nat) : (c.bumpBy k n).dram = c.dram := rfl
@[simp] theorem Chip.bumpBy_sps (c : Chip) (k n : Nat) : (c.bumpBy k n).sps = c.sps := rfl
@[simp] theorem Chip.bumpBy_spm (c : Chip) (k n : Nat) : (c.bumpBy k n).spm = c.spm := rfl
@[simp] theorem Chip.bumpBy_pcie (c : Chip) (k n : Nat) : (c.bumpBy k n).pcie = c.pcie := rfl
@[simp] theorem Chip.bumpBy_can (c : Chip) (k n : Nat) : (c.bumpBy k n).can = c.can := rfl
@[simp] theorem Chip.bumpBy_psi (c : Chip) (k n : Nat) : (c.bumpBy k n).psi = c.psi := rfl
@[simp] theorem Chip.bumpBy_mbx (c : Chip) (k n : Nat) : (c.bumpBy k n).mbx = c.mbx := rfl
@[simp] theorem Chip.bumpBy_dma (c : Chip) (k n : Nat) : (c.bumpBy k n).dma = c.dma := rfl
@[simp] theorem Chip.bumpBy_act (c : Chip) (k n : Nat) : (c.bumpBy k n).act = c.act := rfl
@[simp] theorem Chip.bumpBy_heads (c : Chip) (k n : Nat) : (c.bumpBy k n).heads = c.heads := rfl
@[simp] theorem Chip.bumpBy_banks (c : Chip) (k n : Nat) : (c.bumpBy k n).banks = c.banks := rfl
@[simp] theorem Chip.bumpBy_cal (c : Chip) (k n : Nat) : (c.bumpBy k n).cal = c.cal := rfl
@[simp] theorem Chip.bumpBy_hk (c : Chip) (k n : Nat) : (c.bumpBy k n).hk = c.hk := rfl
@[simp] theorem Chip.bumpBy_thermal (c : Chip) (k n : Nat) : (c.bumpBy k n).thermal = c.thermal := rfl
@[simp] theorem Chip.bumpBy_onion (c : Chip) (k n : Nat) : (c.bumpBy k n).onion = c.onion := rfl
@[simp] theorem Chip.bumpBy_sol (c : Chip) (k n : Nat) : (c.bumpBy k n).sol = c.sol := rfl
@[simp] theorem Chip.bumpBy_pix (c : Chip) (k n : Nat) : (c.bumpBy k n).pix = c.pix := rfl
@[simp] theorem Chip.bumpBy_regions (c : Chip) (k n : Nat) : (c.bumpBy k n).regions = c.regions := rfl
@[simp] theorem Chip.bumpBy_free (c : Chip) (k n : Nat) : (c.bumpBy k n).free = c.free := rfl
@[simp] theorem Chip.bumpBy_happened (c : Chip) (k n : Nat) : (c.bumpBy k n).happened = (c.note k n).happened := rfl
@[simp] theorem Chip.bumpBy_out (c : Chip) (k n : Nat) : (c.bumpBy k n).out = c.out := rfl
@[simp] theorem Chip.bump_staged (c : Chip) (k : Nat) : (c.bump k).staged = c.staged := rfl
@[simp] theorem Chip.bump_pendingP (c : Chip) (k : Nat) : (c.bump k).pendingP = c.pendingP := rfl
@[simp] theorem Chip.bump_kept (c : Chip) (k : Nat) : (c.bump k).kept = c.kept := rfl
@[simp] theorem Chip.bump_halves (c : Chip) (k : Nat) : (c.bump k).halves = c.halves := rfl
@[simp] theorem Chip.bump_latches (c : Chip) (k : Nat) : (c.bump k).latches = c.latches := rfl
@[simp] theorem Chip.bump_errq (c : Chip) (k : Nat) : (c.bump k).errq = c.errq := rfl
@[simp] theorem Chip.bump_entered (c : Chip) (k : Nat) : (c.bump k).entered = c.entered := rfl
@[simp] theorem Chip.bump_clk (c : Chip) (k : Nat) : (c.bump k).clk = c.clk := rfl
@[simp] theorem Chip.bump_pins (c : Chip) (k : Nat) : (c.bump k).pins = c.pins := rfl
@[simp] theorem Chip.bump_rails (c : Chip) (k : Nat) : (c.bump k).rails = c.rails := rfl
@[simp] theorem Chip.bump_boot (c : Chip) (k : Nat) : (c.bump k).boot = c.boot := rfl
@[simp] theorem Chip.bump_mode (c : Chip) (k : Nat) : (c.bump k).mode = c.mode := rfl
@[simp] theorem Chip.bump_nvm (c : Chip) (k : Nat) : (c.bump k).nvm = c.nvm := rfl
@[simp] theorem Chip.bump_domains (c : Chip) (k : Nat) : (c.bump k).domains = c.domains := rfl
@[simp] theorem Chip.bump_dram (c : Chip) (k : Nat) : (c.bump k).dram = c.dram := rfl
@[simp] theorem Chip.bump_sps (c : Chip) (k : Nat) : (c.bump k).sps = c.sps := rfl
@[simp] theorem Chip.bump_spm (c : Chip) (k : Nat) : (c.bump k).spm = c.spm := rfl
@[simp] theorem Chip.bump_pcie (c : Chip) (k : Nat) : (c.bump k).pcie = c.pcie := rfl
@[simp] theorem Chip.bump_can (c : Chip) (k : Nat) : (c.bump k).can = c.can := rfl
@[simp] theorem Chip.bump_psi (c : Chip) (k : Nat) : (c.bump k).psi = c.psi := rfl
@[simp] theorem Chip.bump_mbx (c : Chip) (k : Nat) : (c.bump k).mbx = c.mbx := rfl
@[simp] theorem Chip.bump_dma (c : Chip) (k : Nat) : (c.bump k).dma = c.dma := rfl
@[simp] theorem Chip.bump_act (c : Chip) (k : Nat) : (c.bump k).act = c.act := rfl
@[simp] theorem Chip.bump_heads (c : Chip) (k : Nat) : (c.bump k).heads = c.heads := rfl
@[simp] theorem Chip.bump_banks (c : Chip) (k : Nat) : (c.bump k).banks = c.banks := rfl
@[simp] theorem Chip.bump_cal (c : Chip) (k : Nat) : (c.bump k).cal = c.cal := rfl
@[simp] theorem Chip.bump_hk (c : Chip) (k : Nat) : (c.bump k).hk = c.hk := rfl
@[simp] theorem Chip.bump_thermal (c : Chip) (k : Nat) : (c.bump k).thermal = c.thermal := rfl
@[simp] theorem Chip.bump_onion (c : Chip) (k : Nat) : (c.bump k).onion = c.onion := rfl
@[simp] theorem Chip.bump_sol (c : Chip) (k : Nat) : (c.bump k).sol = c.sol := rfl
@[simp] theorem Chip.bump_pix (c : Chip) (k : Nat) : (c.bump k).pix = c.pix := rfl
@[simp] theorem Chip.bump_regions (c : Chip) (k : Nat) : (c.bump k).regions = c.regions := rfl
@[simp] theorem Chip.bump_free (c : Chip) (k : Nat) : (c.bump k).free = c.free := rfl
@[simp] theorem Chip.bump_happened (c : Chip) (k : Nat) : (c.bump k).happened = (c.note k 1).happened := rfl
@[simp] theorem Chip.bump_out (c : Chip) (k : Nat) : (c.bump k).out = c.out := rfl
@[simp] theorem Chip.total_staged (c : Chip) (k n : Nat) : (c.total k n).staged = c.staged := rfl
@[simp] theorem Chip.total_pendingP (c : Chip) (k n : Nat) : (c.total k n).pendingP = c.pendingP := rfl
@[simp] theorem Chip.total_kept (c : Chip) (k n : Nat) : (c.total k n).kept = c.kept := rfl
@[simp] theorem Chip.total_halves (c : Chip) (k n : Nat) : (c.total k n).halves = c.halves := rfl
@[simp] theorem Chip.total_latches (c : Chip) (k n : Nat) : (c.total k n).latches = c.latches := rfl
@[simp] theorem Chip.total_errq (c : Chip) (k n : Nat) : (c.total k n).errq = c.errq := rfl
@[simp] theorem Chip.total_entered (c : Chip) (k n : Nat) : (c.total k n).entered = c.entered := rfl
@[simp] theorem Chip.total_clk (c : Chip) (k n : Nat) : (c.total k n).clk = c.clk := rfl
@[simp] theorem Chip.total_pins (c : Chip) (k n : Nat) : (c.total k n).pins = c.pins := rfl
@[simp] theorem Chip.total_rails (c : Chip) (k n : Nat) : (c.total k n).rails = c.rails := rfl
@[simp] theorem Chip.total_boot (c : Chip) (k n : Nat) : (c.total k n).boot = c.boot := rfl
@[simp] theorem Chip.total_mode (c : Chip) (k n : Nat) : (c.total k n).mode = c.mode := rfl
@[simp] theorem Chip.total_nvm (c : Chip) (k n : Nat) : (c.total k n).nvm = c.nvm := rfl
@[simp] theorem Chip.total_domains (c : Chip) (k n : Nat) : (c.total k n).domains = c.domains := rfl
@[simp] theorem Chip.total_dram (c : Chip) (k n : Nat) : (c.total k n).dram = c.dram := rfl
@[simp] theorem Chip.total_sps (c : Chip) (k n : Nat) : (c.total k n).sps = c.sps := rfl
@[simp] theorem Chip.total_spm (c : Chip) (k n : Nat) : (c.total k n).spm = c.spm := rfl
@[simp] theorem Chip.total_pcie (c : Chip) (k n : Nat) : (c.total k n).pcie = c.pcie := rfl
@[simp] theorem Chip.total_can (c : Chip) (k n : Nat) : (c.total k n).can = c.can := rfl
@[simp] theorem Chip.total_psi (c : Chip) (k n : Nat) : (c.total k n).psi = c.psi := rfl
@[simp] theorem Chip.total_mbx (c : Chip) (k n : Nat) : (c.total k n).mbx = c.mbx := rfl
@[simp] theorem Chip.total_dma (c : Chip) (k n : Nat) : (c.total k n).dma = c.dma := rfl
@[simp] theorem Chip.total_act (c : Chip) (k n : Nat) : (c.total k n).act = c.act := rfl
@[simp] theorem Chip.total_heads (c : Chip) (k n : Nat) : (c.total k n).heads = c.heads := rfl
@[simp] theorem Chip.total_banks (c : Chip) (k n : Nat) : (c.total k n).banks = c.banks := rfl
@[simp] theorem Chip.total_cal (c : Chip) (k n : Nat) : (c.total k n).cal = c.cal := rfl
@[simp] theorem Chip.total_hk (c : Chip) (k n : Nat) : (c.total k n).hk = c.hk := rfl
@[simp] theorem Chip.total_thermal (c : Chip) (k n : Nat) : (c.total k n).thermal = c.thermal := rfl
@[simp] theorem Chip.total_onion (c : Chip) (k n : Nat) : (c.total k n).onion = c.onion := rfl
@[simp] theorem Chip.total_sol (c : Chip) (k n : Nat) : (c.total k n).sol = c.sol := rfl
@[simp] theorem Chip.total_pix (c : Chip) (k n : Nat) : (c.total k n).pix = c.pix := rfl
@[simp] theorem Chip.total_regions (c : Chip) (k n : Nat) : (c.total k n).regions = c.regions := rfl
@[simp] theorem Chip.total_free (c : Chip) (k n : Nat) : (c.total k n).free = c.free := rfl
@[simp] theorem Chip.total_happened (c : Chip) (k n : Nat) : (c.total k n).happened = c.happened := rfl
@[simp] theorem Chip.total_out (c : Chip) (k n : Nat) : (c.total k n).out = c.out := rfl
@[simp] theorem Chip.emit_staged (c : Chip) (m : OutMsg) : (c.emit m).staged = c.staged := rfl
@[simp] theorem Chip.emit_pendingP (c : Chip) (m : OutMsg) : (c.emit m).pendingP = c.pendingP := rfl
@[simp] theorem Chip.emit_kept (c : Chip) (m : OutMsg) : (c.emit m).kept = c.kept := rfl
@[simp] theorem Chip.emit_halves (c : Chip) (m : OutMsg) : (c.emit m).halves = c.halves := rfl
@[simp] theorem Chip.emit_latches (c : Chip) (m : OutMsg) : (c.emit m).latches = c.latches := rfl
@[simp] theorem Chip.emit_errq (c : Chip) (m : OutMsg) : (c.emit m).errq = c.errq := rfl
@[simp] theorem Chip.emit_entered (c : Chip) (m : OutMsg) : (c.emit m).entered = c.entered := rfl
@[simp] theorem Chip.emit_clk (c : Chip) (m : OutMsg) : (c.emit m).clk = c.clk := rfl
@[simp] theorem Chip.emit_pins (c : Chip) (m : OutMsg) : (c.emit m).pins = c.pins := rfl
@[simp] theorem Chip.emit_rails (c : Chip) (m : OutMsg) : (c.emit m).rails = c.rails := rfl
@[simp] theorem Chip.emit_boot (c : Chip) (m : OutMsg) : (c.emit m).boot = c.boot := rfl
@[simp] theorem Chip.emit_mode (c : Chip) (m : OutMsg) : (c.emit m).mode = c.mode := rfl
@[simp] theorem Chip.emit_nvm (c : Chip) (m : OutMsg) : (c.emit m).nvm = c.nvm := rfl
@[simp] theorem Chip.emit_domains (c : Chip) (m : OutMsg) : (c.emit m).domains = c.domains := rfl
@[simp] theorem Chip.emit_dram (c : Chip) (m : OutMsg) : (c.emit m).dram = c.dram := rfl
@[simp] theorem Chip.emit_sps (c : Chip) (m : OutMsg) : (c.emit m).sps = c.sps := rfl
@[simp] theorem Chip.emit_spm (c : Chip) (m : OutMsg) : (c.emit m).spm = c.spm := rfl
@[simp] theorem Chip.emit_pcie (c : Chip) (m : OutMsg) : (c.emit m).pcie = c.pcie := rfl
@[simp] theorem Chip.emit_can (c : Chip) (m : OutMsg) : (c.emit m).can = c.can := rfl
@[simp] theorem Chip.emit_psi (c : Chip) (m : OutMsg) : (c.emit m).psi = c.psi := rfl
@[simp] theorem Chip.emit_mbx (c : Chip) (m : OutMsg) : (c.emit m).mbx = c.mbx := rfl
@[simp] theorem Chip.emit_dma (c : Chip) (m : OutMsg) : (c.emit m).dma = c.dma := rfl
@[simp] theorem Chip.emit_act (c : Chip) (m : OutMsg) : (c.emit m).act = c.act := rfl
@[simp] theorem Chip.emit_heads (c : Chip) (m : OutMsg) : (c.emit m).heads = c.heads := rfl
@[simp] theorem Chip.emit_banks (c : Chip) (m : OutMsg) : (c.emit m).banks = c.banks := rfl
@[simp] theorem Chip.emit_cal (c : Chip) (m : OutMsg) : (c.emit m).cal = c.cal := rfl
@[simp] theorem Chip.emit_hk (c : Chip) (m : OutMsg) : (c.emit m).hk = c.hk := rfl
@[simp] theorem Chip.emit_thermal (c : Chip) (m : OutMsg) : (c.emit m).thermal = c.thermal := rfl
@[simp] theorem Chip.emit_onion (c : Chip) (m : OutMsg) : (c.emit m).onion = c.onion := rfl
@[simp] theorem Chip.emit_sol (c : Chip) (m : OutMsg) : (c.emit m).sol = c.sol := rfl
@[simp] theorem Chip.emit_pix (c : Chip) (m : OutMsg) : (c.emit m).pix = c.pix := rfl
@[simp] theorem Chip.emit_regions (c : Chip) (m : OutMsg) : (c.emit m).regions = c.regions := rfl
@[simp] theorem Chip.emit_free (c : Chip) (m : OutMsg) : (c.emit m).free = c.free := rfl
@[simp] theorem Chip.emit_happened (c : Chip) (m : OutMsg) : (c.emit m).happened = c.happened := rfl
@[simp] theorem Chip.putDomain_staged (c : Chip) (k : Nat) (l : List Byte) : (c.putDomain k l).staged = c.staged := rfl
@[simp] theorem Chip.putDomain_pendingP (c : Chip) (k : Nat) (l : List Byte) : (c.putDomain k l).pendingP = c.pendingP := rfl
@[simp] theorem Chip.putDomain_kept (c : Chip) (k : Nat) (l : List Byte) : (c.putDomain k l).kept = c.kept := rfl
@[simp] theorem Chip.putDomain_halves (c : Chip) (k : Nat) (l : List Byte) : (c.putDomain k l).halves = c.halves := rfl
@[simp] theorem Chip.putDomain_latches (c : Chip) (k : Nat) (l : List Byte) : (c.putDomain k l).latches = c.latches := rfl
@[simp] theorem Chip.putDomain_errq (c : Chip) (k : Nat) (l : List Byte) : (c.putDomain k l).errq = c.errq := rfl
@[simp] theorem Chip.putDomain_entered (c : Chip) (k : Nat) (l : List Byte) : (c.putDomain k l).entered = c.entered := rfl
@[simp] theorem Chip.putDomain_clk (c : Chip) (k : Nat) (l : List Byte) : (c.putDomain k l).clk = c.clk := rfl
@[simp] theorem Chip.putDomain_pins (c : Chip) (k : Nat) (l : List Byte) : (c.putDomain k l).pins = c.pins := rfl
@[simp] theorem Chip.putDomain_rails (c : Chip) (k : Nat) (l : List Byte) : (c.putDomain k l).rails = c.rails := rfl
@[simp] theorem Chip.putDomain_boot (c : Chip) (k : Nat) (l : List Byte) : (c.putDomain k l).boot = c.boot := rfl
@[simp] theorem Chip.putDomain_mode (c : Chip) (k : Nat) (l : List Byte) : (c.putDomain k l).mode = c.mode := rfl
@[simp] theorem Chip.putDomain_nvm (c : Chip) (k : Nat) (l : List Byte) : (c.putDomain k l).nvm = c.nvm := rfl
@[simp] theorem Chip.putDomain_dram (c : Chip) (k : Nat) (l : List Byte) : (c.putDomain k l).dram = c.dram := rfl
@[simp] theorem Chip.putDomain_sps (c : Chip) (k : Nat) (l : List Byte) : (c.putDomain k l).sps = c.sps := rfl
@[simp] theorem Chip.putDomain_spm (c : Chip) (k : Nat) (l : List Byte) : (c.putDomain k l).spm = c.spm := rfl
@[simp] theorem Chip.putDomain_pcie (c : Chip) (k : Nat) (l : List Byte) : (c.putDomain k l).pcie = c.pcie := rfl
@[simp] theorem Chip.putDomain_can (c : Chip) (k : Nat) (l : List Byte) : (c.putDomain k l).can = c.can := rfl
@[simp] theorem Chip.putDomain_psi (c : Chip) (k : Nat) (l : List Byte) : (c.putDomain k l).psi = c.psi := rfl
@[simp] theorem Chip.putDomain_mbx (c : Chip) (k : Nat) (l : List Byte) : (c.putDomain k l).mbx = c.mbx := rfl
@[simp] theorem Chip.putDomain_dma (c : Chip) (k : Nat) (l : List Byte) : (c.putDomain k l).dma = c.dma := rfl
@[simp] theorem Chip.putDomain_act (c : Chip) (k : Nat) (l : List Byte) : (c.putDomain k l).act = c.act := rfl
@[simp] theorem Chip.putDomain_heads (c : Chip) (k : Nat) (l : List Byte) : (c.putDomain k l).heads = c.heads := rfl
@[simp] theorem Chip.putDomain_banks (c : Chip) (k : Nat) (l : List Byte) : (c.putDomain k l).banks = c.banks := rfl
@[simp] theorem Chip.putDomain_cal (c : Chip) (k : Nat) (l : List Byte) : (c.putDomain k l).cal = c.cal := rfl
@[simp] theorem Chip.putDomain_hk (c : Chip) (k : Nat) (l : List Byte) : (c.putDomain k l).hk = c.hk := rfl
@[simp] theorem Chip.putDomain_thermal (c : Chip) (k : Nat) (l : List Byte) : (c.putDomain k l).thermal = c.thermal := rfl
@[simp] theorem Chip.putDomain_onion (c : Chip) (k : Nat) (l : List Byte) : (c.putDomain k l).onion = c.onion := rfl
@[simp] theorem Chip.putDomain_sol (c : Chip) (k : Nat) (l : List Byte) : (c.putDomain k l).sol = c.sol := rfl
@[simp] theorem Chip.putDomain_pix (c : Chip) (k : Nat) (l : List Byte) : (c.putDomain k l).pix = c.pix := rfl
@[simp] theorem Chip.putDomain_regions (c : Chip) (k : Nat) (l : List Byte) : (c.putDomain k l).regions = c.regions := rfl
@[simp] theorem Chip.putDomain_free (c : Chip) (k : Nat) (l : List Byte) : (c.putDomain k l).free = c.free := rfl
@[simp] theorem Chip.putDomain_happened (c : Chip) (k : Nat) (l : List Byte) : (c.putDomain k l).happened = c.happened := rfl
@[simp] theorem Chip.putDomain_out (c : Chip) (k : Nat) (l : List Byte) : (c.putDomain k l).out = c.out := rfl

/-- A list of writes to objects leaves everything beside the object values. -/
theorem Chip.setAll_dict (c : Chip) (l : List (Nat × Int)) : c.setAll l = { c with dict := (c.setAll l).dict } := by
  induction l generalizing c with
  | nil => rfl
  | cons e l ih => rw [Chip.setAll_cons, ih, Chip.set_eq]


@[simp] theorem Chip.setAll_staged (c : Chip) (l : List (Nat × Int)) : (c.setAll l).staged = c.staged := by
  rw [Chip.setAll_dict]
@[simp] theorem Chip.setAll_pendingP (c : Chip) (l : List (Nat × Int)) : (c.setAll l).pendingP = c.pendingP := by
  rw [Chip.setAll_dict]
@[simp] theorem Chip.setAll_kept (c : Chip) (l : List (Nat × Int)) : (c.setAll l).kept = c.kept := by
  rw [Chip.setAll_dict]
@[simp] theorem Chip.setAll_halves (c : Chip) (l : List (Nat × Int)) : (c.setAll l).halves = c.halves := by
  rw [Chip.setAll_dict]
@[simp] theorem Chip.setAll_latches (c : Chip) (l : List (Nat × Int)) : (c.setAll l).latches = c.latches := by
  rw [Chip.setAll_dict]
@[simp] theorem Chip.setAll_errq (c : Chip) (l : List (Nat × Int)) : (c.setAll l).errq = c.errq := by
  rw [Chip.setAll_dict]
@[simp] theorem Chip.setAll_entered (c : Chip) (l : List (Nat × Int)) : (c.setAll l).entered = c.entered := by
  rw [Chip.setAll_dict]
@[simp] theorem Chip.setAll_clk (c : Chip) (l : List (Nat × Int)) : (c.setAll l).clk = c.clk := by
  rw [Chip.setAll_dict]
@[simp] theorem Chip.setAll_pins (c : Chip) (l : List (Nat × Int)) : (c.setAll l).pins = c.pins := by
  rw [Chip.setAll_dict]
@[simp] theorem Chip.setAll_rails (c : Chip) (l : List (Nat × Int)) : (c.setAll l).rails = c.rails := by
  rw [Chip.setAll_dict]
@[simp] theorem Chip.setAll_boot (c : Chip) (l : List (Nat × Int)) : (c.setAll l).boot = c.boot := by
  rw [Chip.setAll_dict]
@[simp] theorem Chip.setAll_mode (c : Chip) (l : List (Nat × Int)) : (c.setAll l).mode = c.mode := by
  rw [Chip.setAll_dict]
@[simp] theorem Chip.setAll_nvm (c : Chip) (l : List (Nat × Int)) : (c.setAll l).nvm = c.nvm := by
  rw [Chip.setAll_dict]
@[simp] theorem Chip.setAll_domains (c : Chip) (l : List (Nat × Int)) : (c.setAll l).domains = c.domains := by
  rw [Chip.setAll_dict]
@[simp] theorem Chip.setAll_dram (c : Chip) (l : List (Nat × Int)) : (c.setAll l).dram = c.dram := by
  rw [Chip.setAll_dict]
@[simp] theorem Chip.setAll_sps (c : Chip) (l : List (Nat × Int)) : (c.setAll l).sps = c.sps := by
  rw [Chip.setAll_dict]
@[simp] theorem Chip.setAll_spm (c : Chip) (l : List (Nat × Int)) : (c.setAll l).spm = c.spm := by
  rw [Chip.setAll_dict]
@[simp] theorem Chip.setAll_pcie (c : Chip) (l : List (Nat × Int)) : (c.setAll l).pcie = c.pcie := by
  rw [Chip.setAll_dict]
@[simp] theorem Chip.setAll_can (c : Chip) (l : List (Nat × Int)) : (c.setAll l).can = c.can := by
  rw [Chip.setAll_dict]
@[simp] theorem Chip.setAll_psi (c : Chip) (l : List (Nat × Int)) : (c.setAll l).psi = c.psi := by
  rw [Chip.setAll_dict]
@[simp] theorem Chip.setAll_mbx (c : Chip) (l : List (Nat × Int)) : (c.setAll l).mbx = c.mbx := by
  rw [Chip.setAll_dict]
@[simp] theorem Chip.setAll_dma (c : Chip) (l : List (Nat × Int)) : (c.setAll l).dma = c.dma := by
  rw [Chip.setAll_dict]
@[simp] theorem Chip.setAll_act (c : Chip) (l : List (Nat × Int)) : (c.setAll l).act = c.act := by
  rw [Chip.setAll_dict]
@[simp] theorem Chip.setAll_heads (c : Chip) (l : List (Nat × Int)) : (c.setAll l).heads = c.heads := by
  rw [Chip.setAll_dict]
@[simp] theorem Chip.setAll_banks (c : Chip) (l : List (Nat × Int)) : (c.setAll l).banks = c.banks := by
  rw [Chip.setAll_dict]
@[simp] theorem Chip.setAll_cal (c : Chip) (l : List (Nat × Int)) : (c.setAll l).cal = c.cal := by
  rw [Chip.setAll_dict]
@[simp] theorem Chip.setAll_hk (c : Chip) (l : List (Nat × Int)) : (c.setAll l).hk = c.hk := by
  rw [Chip.setAll_dict]
@[simp] theorem Chip.setAll_thermal (c : Chip) (l : List (Nat × Int)) : (c.setAll l).thermal = c.thermal := by
  rw [Chip.setAll_dict]
@[simp] theorem Chip.setAll_onion (c : Chip) (l : List (Nat × Int)) : (c.setAll l).onion = c.onion := by
  rw [Chip.setAll_dict]
@[simp] theorem Chip.setAll_sol (c : Chip) (l : List (Nat × Int)) : (c.setAll l).sol = c.sol := by
  rw [Chip.setAll_dict]
@[simp] theorem Chip.setAll_pix (c : Chip) (l : List (Nat × Int)) : (c.setAll l).pix = c.pix := by
  rw [Chip.setAll_dict]
@[simp] theorem Chip.setAll_regions (c : Chip) (l : List (Nat × Int)) : (c.setAll l).regions = c.regions := by
  rw [Chip.setAll_dict]
@[simp] theorem Chip.setAll_happened (c : Chip) (l : List (Nat × Int)) : (c.setAll l).happened = c.happened := by
  rw [Chip.setAll_dict]
@[simp] theorem Chip.setAll_free (c : Chip) (l : List (Nat × Int)) : (c.setAll l).free = c.free := by
  rw [Chip.setAll_dict]
@[simp] theorem Chip.setAll_out (c : Chip) (l : List (Nat × Int)) : (c.setAll l).out = c.out := by
  rw [Chip.setAll_dict]

end Sys2Proof.Machine
end

