-- ==== Sys2Proof/Laws/Settle.lean ====
section
/-! SUPPORT. What the part derives after every command changes nothing but its derived status: `settle` leaves a part
that agrees with the command's effect, and the messages sent before stay the first ones. -/

namespace Sys2Proof.Machine

/-! ### Agreement -/

theorem Chip.agrees_refl (c : Chip) : c.agrees c := ⟨rfl, fun _ _ => rfl⟩

theorem Chip.agrees_symm {a b : Chip} (h : a.agrees b) : b.agrees a := ⟨h.1.symm, fun k hk => (h.2 k hk).symm⟩

theorem Chip.agrees_trans {a b c : Chip} (h : a.agrees b) (h' : b.agrees c) : a.agrees c :=
  ⟨h.1.trans h'.1, fun k hk => (h.2 k hk).trans (h'.2 k hk)⟩

/-- Agreeing parts, the second with more messages. -/
def Chip.extends' (a b : Chip) : Prop := a.agrees b ∧ b.out <+: a.out

theorem Chip.extends_refl (c : Chip) : c.extends' c := ⟨c.agrees_refl, List.prefix_rfl⟩

theorem Chip.extends_trans {a b c : Chip} (h : a.extends' b) (h' : b.extends' c) : a.extends' c :=
  ⟨Chip.agrees_trans h.1 h'.1, h'.2.trans h.2⟩

theorem Chip.extends_ite {p : Prop} [Decidable p] {a b c : Chip} (h : p → a.extends' c) (h' : ¬p → b.extends' c) :
    (if p then a else b).extends' c := by
  split
  · exact h ‹_›
  · exact h' ‹_›

/-- A fold of extending steps extends. -/
theorem Chip.extends_foldl {α : Type} (f : Chip → α → Chip) (h : ∀ c a, (f c a).extends' c) (l : List α) (c : Chip) :
    (l.foldl f c).extends' c := by
  induction l generalizing c with
  | nil => exact c.extends_refl
  | cons a l ih => exact Chip.extends_trans (ih (f c a)) (h c a)

/-- Writing a status object. -/
theorem Chip.extends_set {c : Chip} {k : Nat} {v : Int} (hk : k ∈ statusKeys) : (c.set k v).extends' c := by
  refine ⟨⟨rfl, fun k' hk' => Chip.get_set_other _ _ _ _ ?_⟩, List.prefix_rfl⟩
  rintro rfl
  exact hk' hk

/-- Counting one more event of a status object. -/
theorem Chip.extends_bump {c : Chip} {k : Nat} (hk : k ∈ statusKeys) : (c.bump k).extends' c :=
  Chip.extends_trans (Chip.extends_set hk) ⟨⟨rfl, fun _ _ => rfl⟩, List.prefix_rfl⟩

theorem Chip.extends_emit (c : Chip) (m : OutMsg) : (c.emit m).extends' c := ⟨⟨rfl, fun _ _ => rfl⟩, ⟨[m], rfl⟩⟩

/-! ### The messages -/

theorem Chip.canTransmit_extends (c : Chip) (o : OutMsg) : (c.canTransmit o).extends' c := by
  unfold Chip.canTransmit
  refine Chip.extends_ite (fun _ => ?_) (fun _ => c.extends_refl)
  refine Chip.extends_trans (Chip.extends_emit _ o) (Chip.extends_trans (Chip.extends_set (by decide)) ?_)
  exact ⟨⟨rfl, fun _ _ => rfl⟩, List.prefix_rfl⟩

theorem Chip.canSend_extends (c : Chip) (i : Nat) (l : List Byte) : (c.canSend i l).extends' c := c.canTransmit_extends _

theorem Chip.emcyTransmit_extends (c : Chip) (e : Emcy) : (c.emcyTransmit e).extends' c := by
  have h : ∀ d : Chip, d.extends' c → (if d.get K.emcyInhibit = 0 then d else
      { d with can := { d.can with emcyInhibited := true } }).extends' c := by
    intro d hd
    refine Chip.extends_ite (fun _ => hd) (fun _ => Chip.extends_trans ?_ hd)
    exact ⟨⟨rfl, fun _ _ => rfl⟩, List.prefix_rfl⟩
  exact h _ (c.canSend_extends _ _)

theorem Chip.emcy_extends (c : Chip) (e : Emcy) : (c.emcy e).extends' c := by
  unfold Chip.emcy
  refine Chip.extends_ite (fun _ => ?_) (fun _ => c.extends_refl)
  refine Chip.extends_ite (fun _ => ?_) (fun _ => c.emcyTransmit_extends e)
  refine Chip.extends_ite (fun _ => ⟨⟨rfl, fun _ _ => rfl⟩, List.prefix_rfl⟩) (fun _ => ?_)
  refine Chip.extends_trans (Chip.extends_bump (by decide)) ?_
  exact ⟨⟨rfl, fun _ _ => rfl⟩, List.prefix_rfl⟩

theorem Chip.emcyBare_extends (c : Chip) (code : Nat) : (c.emcyBare code).extends' c := c.emcy_extends _

theorem Chip.emcyFor_extends (c : Chip) (code region rc : Nat) : (c.emcyFor code region rc).extends' c := c.emcy_extends _

theorem Chip.msix0_extends (c : Chip) (v : Nat) : (c.msix0 v).extends' c := by
  unfold Chip.msix0
  refine Chip.extends_ite (fun _ => ⟨⟨rfl, fun _ _ => rfl⟩, List.prefix_rfl⟩) (fun _ => Chip.extends_emit _ _)

theorem Chip.wakeCause_extends (c : Chip) : c.wakeCause.extends' c := by
  have h : ∀ d : Chip, d.extends' c →
      (if d.pcie.l2 then { d with pins := { d.pins with wakeLow := true } } else d).extends' c := by
    intro d hd
    refine Chip.extends_ite (fun _ => Chip.extends_trans ?_ hd) (fun _ => hd)
    exact ⟨⟨rfl, fun _ _ => rfl⟩, List.prefix_rfl⟩
  unfold Chip.wakeCause
  refine h _ (Chip.extends_ite (fun _ => ?_) (fun _ => c.extends_refl))
  refine Chip.extends_ite (fun _ => Chip.extends_trans (Chip.extends_emit _ _) ?_) (fun _ => ?_) <;>
    exact ⟨⟨rfl, fun _ _ => rfl⟩, List.prefix_rfl⟩

theorem Chip.eventBit_extends (c : Chip) (b : Nat) : (c.eventBit b).extends' c := by
  have h : ∀ d : Chip, d.extends' c → (if bitOf (c.nat K.pcieEventStatus) b then d
      else if bitOf ((d.set K.pcieEventStatus (c.nat K.pcieEventStatus + 2 ^ b : Nat)).nat K.pcieEventMask) b then
        (d.set K.pcieEventStatus (c.nat K.pcieEventStatus + 2 ^ b : Nat)).msix0
          ((d.set K.pcieEventStatus (c.nat K.pcieEventStatus + 2 ^ b : Nat)).nat K.pcieEventVector)
        else d.set K.pcieEventStatus (c.nat K.pcieEventStatus + 2 ^ b : Nat)).extends' c := by
    intro d hd
    refine Chip.extends_ite (fun _ => hd) (fun _ => Chip.extends_trans ?_ hd)
    exact Chip.extends_ite (fun _ => Chip.extends_trans (Chip.msix0_extends _ _) (Chip.extends_set (by decide)))
      (fun _ => Chip.extends_set (by decide))
  unfold Chip.eventBit
  exact h _ (Chip.extends_trans ⟨⟨rfl, fun _ _ => rfl⟩, List.prefix_rfl⟩
    (Chip.extends_ite (fun _ => c.wakeCause_extends) (fun _ => c.extends_refl)))

theorem Chip.pcieEvents_extends (c : Chip) (ev : Nat) : (c.pcieEvents ev).extends' c := by
  unfold Chip.pcieEvents
  refine Chip.extends_ite (fun _ => ?_) (fun _ => c.extends_refl)
  exact Chip.extends_foldl _ (fun d b => Chip.extends_ite (fun _ => d.eventBit_extends b) (fun _ => d.extends_refl)) _ _

theorem Chip.tpdoSend_extends (c : Chip) (n : Nat) : (c.tpdoSend n).extends' c := by
  unfold Chip.tpdoSend
  refine Chip.extends_trans ?_ (c.canSend_extends (c.nat (K.tpdoCobId n) % 2048) (c.tpdoData n))
  exact ⟨⟨rfl, fun _ _ => rfl⟩, List.prefix_rfl⟩

theorem Chip.tpdoEvent_extends (c : Chip) (n : Nat) : (c.tpdoEvent n).extends' c := by
  unfold Chip.tpdoEvent
  refine Chip.extends_ite (fun _ => c.extends_refl) (fun _ => ?_)
  refine Chip.extends_ite (fun _ => Chip.extends_bump (by decide)) (fun _ => ?_)
  refine Chip.extends_ite (fun _ => ?_) (fun _ => c.tpdoSend_extends n)
  refine Chip.extends_trans (Chip.extends_bump (by decide)) ?_
  exact ⟨⟨rfl, fun _ _ => rfl⟩, List.prefix_rfl⟩

theorem Chip.tpdoEvents_extends (a c : Chip) : (Chip.tpdoEvents a c).extends' c := by
  unfold Chip.tpdoEvents
  refine Chip.extends_ite (fun _ => c.extends_refl) (fun _ => ?_)
  exact Chip.extends_foldl _ (fun d n => Chip.extends_ite (fun _ => d.tpdoEvent_extends n) (fun _ => d.extends_refl)) _ _

/-! ### Settling -/

theorem Chip.canRecovers_extends (c : Chip) : c.canRecovers.extends' c := by
  unfold Chip.canRecovers
  exact Chip.extends_ite (fun _ => Chip.extends_set (by decide)) (fun _ => c.extends_refl)

theorem Chip.withStatus_extends (c : Chip) : c.withStatus.extends' c := by
  refine Chip.extends_trans (b := c.canRecovers.set K.errorRegister c.canRecovers.errorRegisterOf) ?_
    (Chip.extends_trans (Chip.extends_set (by decide)) c.canRecovers_extends)
  exact ⟨⟨rfl, fun _ _ => rfl⟩, List.prefix_rfl⟩

theorem Chip.announce_extends (a c : Chip) : (Chip.announce a c).extends' c := by
  unfold Chip.announce
  refine Chip.extends_ite (fun _ => ?_) (fun _ => c.extends_refl)
  refine Chip.extends_trans (Chip.tpdoEvents_extends _ _) (Chip.extends_trans (Chip.pcieEvents_extends _ _) ?_)
  exact Chip.extends_ite (fun _ => c.emcyBare_extends 0) (fun _ => c.extends_refl)

/-- What the part derives after a command leaves the command's effect. -/
theorem settle_extends (a c : Chip) : (settle a c).extends' c :=
  Chip.extends_trans (Chip.announce_extends a _) c.withStatus_extends

/-- Settling leaves every object but the derived ones. -/
theorem settle_get (a c : Chip) (k : Nat) (hk : k ∉ statusKeys) : (settle a c).get k = c.get k :=
  (settle_extends a c).1.2 k hk

theorem settle_body (a c : Chip) : (settle a c).body = c.body := (settle_extends a c).1.1

@[simp] theorem settle_staged (a c : Chip) : (settle a c).staged = c.staged := by
  have h := congrArg Chip.staged (settle_body a c); exact h
@[simp] theorem settle_pendingP (a c : Chip) : (settle a c).pendingP = c.pendingP := by
  have h := congrArg Chip.pendingP (settle_body a c); exact h
@[simp] theorem settle_kept (a c : Chip) : (settle a c).kept = c.kept := by
  have h := congrArg Chip.kept (settle_body a c); exact h
@[simp] theorem settle_halves (a c : Chip) : (settle a c).halves = c.halves := by
  have h := congrArg Chip.halves (settle_body a c); exact h
@[simp] theorem settle_latches (a c : Chip) : (settle a c).latches = c.latches := by
  have h := congrArg Chip.latches (settle_body a c); exact h
@[simp] theorem settle_errq (a c : Chip) : (settle a c).errq = c.errq := by
  have h := congrArg Chip.errq (settle_body a c); exact h
@[simp] theorem settle_entered (a c : Chip) : (settle a c).entered = c.entered := by
  have h := congrArg Chip.entered (settle_body a c); exact h
@[simp] theorem settle_clk (a c : Chip) : (settle a c).clk = c.clk := by
  have h := congrArg Chip.clk (settle_body a c); exact h
@[simp] theorem settle_rails (a c : Chip) : (settle a c).rails = c.rails := by
  have h := congrArg Chip.rails (settle_body a c); exact h
@[simp] theorem settle_boot (a c : Chip) : (settle a c).boot = c.boot := by
  have h := congrArg Chip.boot (settle_body a c); exact h
@[simp] theorem settle_mode (a c : Chip) : (settle a c).mode = c.mode := by
  have h := congrArg Chip.mode (settle_body a c); exact h
@[simp] theorem settle_nvm (a c : Chip) : (settle a c).nvm = c.nvm := by
  have h := congrArg Chip.nvm (settle_body a c); exact h
@[simp] theorem settle_domains (a c : Chip) : (settle a c).domains = c.domains := by
  have h := congrArg Chip.domains (settle_body a c); exact h
@[simp] theorem settle_dram (a c : Chip) : (settle a c).dram = c.dram := by
  have h := congrArg Chip.dram (settle_body a c); exact h
@[simp] theorem settle_sps (a c : Chip) : (settle a c).sps = c.sps := by
  have h := congrArg Chip.sps (settle_body a c); exact h
@[simp] theorem settle_spm (a c : Chip) : (settle a c).spm = c.spm := by
  have h := congrArg Chip.spm (settle_body a c); exact h
@[simp] theorem settle_psi (a c : Chip) : (settle a c).psi = c.psi := by
  have h := congrArg Chip.psi (settle_body a c); exact h
@[simp] theorem settle_mbx (a c : Chip) : (settle a c).mbx = c.mbx := by
  have h := congrArg Chip.mbx (settle_body a c); exact h
@[simp] theorem settle_dma (a c : Chip) : (settle a c).dma = c.dma := by
  have h := congrArg Chip.dma (settle_body a c); exact h
@[simp] theorem settle_act (a c : Chip) : (settle a c).act = c.act := by
  have h := congrArg Chip.act (settle_body a c); exact h
@[simp] theorem settle_heads (a c : Chip) : (settle a c).heads = c.heads := by
  have h := congrArg Chip.heads (settle_body a c); exact h
@[simp] theorem settle_banks (a c : Chip) : (settle a c).banks = c.banks := by
  have h := congrArg Chip.banks (settle_body a c); exact h
@[simp] theorem settle_cal (a c : Chip) : (settle a c).cal = c.cal := by
  have h := congrArg Chip.cal (settle_body a c); exact h
@[simp] theorem settle_hk (a c : Chip) : (settle a c).hk = c.hk := by
  have h := congrArg Chip.hk (settle_body a c); exact h
@[simp] theorem settle_thermal (a c : Chip) : (settle a c).thermal = c.thermal := by
  have h := congrArg Chip.thermal (settle_body a c); exact h
@[simp] theorem settle_onion (a c : Chip) : (settle a c).onion = c.onion := by
  have h := congrArg Chip.onion (settle_body a c); exact h
@[simp] theorem settle_sol (a c : Chip) : (settle a c).sol = c.sol := by
  have h := congrArg Chip.sol (settle_body a c); exact h
@[simp] theorem settle_pix (a c : Chip) : (settle a c).pix = c.pix := by
  have h := congrArg Chip.pix (settle_body a c); exact h
@[simp] theorem settle_regions (a c : Chip) : (settle a c).regions = c.regions := by
  have h := congrArg Chip.regions (settle_body a c); exact h
@[simp] theorem settle_free (a c : Chip) : (settle a c).free = c.free := by
  have h := congrArg Chip.free (settle_body a c); exact h
@[simp] theorem settle_pins_pixPwrEn (a c : Chip) : (settle a c).pins.pixPwrEn = c.pins.pixPwrEn := by
  have h := congrArg (fun x : Chip => x.pins.pixPwrEn) (settle_body a c); exact h
@[simp] theorem settle_pins_dieLinkIsolated (a c : Chip) : (settle a c).pins.dieLinkIsolated = c.pins.dieLinkIsolated := by
  have h := congrArg (fun x : Chip => x.pins.dieLinkIsolated) (settle_body a c); exact h
@[simp] theorem settle_pins_canStbyHigh (a c : Chip) : (settle a c).pins.canStbyHigh = c.pins.canStbyHigh := by
  have h := congrArg (fun x : Chip => x.pins.canStbyHigh) (settle_body a c); exact h
@[simp] theorem settle_pins_perstLow (a c : Chip) : (settle a c).pins.perstLow = c.pins.perstLow := by
  have h := congrArg (fun x : Chip => x.pins.perstLow) (settle_body a c); exact h
@[simp] theorem settle_pins_sysRstLow (a c : Chip) : (settle a c).pins.sysRstLow = c.pins.sysRstLow := by
  have h := congrArg (fun x : Chip => x.pins.sysRstLow) (settle_body a c); exact h
@[simp] theorem settle_pins_spCs0Low (a c : Chip) : (settle a c).pins.spCs0Low = c.pins.spCs0Low := by
  have h := congrArg (fun x : Chip => x.pins.spCs0Low) (settle_body a c); exact h
@[simp] theorem settle_pcie_busMaster0 (a c : Chip) : (settle a c).pcie.busMaster0 = c.pcie.busMaster0 := by
  have h := congrArg (fun x : Chip => x.pcie.busMaster0) (settle_body a c); exact h
@[simp] theorem settle_pcie_busMaster1 (a c : Chip) : (settle a c).pcie.busMaster1 = c.pcie.busMaster1 := by
  have h := congrArg (fun x : Chip => x.pcie.busMaster1) (settle_body a c); exact h
@[simp] theorem settle_pcie_d3hot0 (a c : Chip) : (settle a c).pcie.d3hot0 = c.pcie.d3hot0 := by
  have h := congrArg (fun x : Chip => x.pcie.d3hot0) (settle_body a c); exact h
@[simp] theorem settle_pcie_d3hot1 (a c : Chip) : (settle a c).pcie.d3hot1 = c.pcie.d3hot1 := by
  have h := congrArg (fun x : Chip => x.pcie.d3hot1) (settle_body a c); exact h
@[simp] theorem settle_pcie_pmeEn (a c : Chip) : (settle a c).pcie.pmeEn = c.pcie.pmeEn := by
  have h := congrArg (fun x : Chip => x.pcie.pmeEn) (settle_body a c); exact h
@[simp] theorem settle_pcie_l2 (a c : Chip) : (settle a c).pcie.l2 = c.pcie.l2 := by
  have h := congrArg (fun x : Chip => x.pcie.l2) (settle_body a c); exact h
@[simp] theorem settle_pcie_aerUnc (a c : Chip) : (settle a c).pcie.aerUnc = c.pcie.aerUnc := by
  have h := congrArg (fun x : Chip => x.pcie.aerUnc) (settle_body a c); exact h
@[simp] theorem settle_pcie_aerCor (a c : Chip) : (settle a c).pcie.aerCor = c.pcie.aerCor := by
  have h := congrArg (fun x : Chip => x.pcie.aerCor) (settle_body a c); exact h
@[simp] theorem settle_pcie_mask0 (a c : Chip) : (settle a c).pcie.mask0 = c.pcie.mask0 := by
  have h := congrArg (fun x : Chip => x.pcie.mask0) (settle_body a c); exact h
@[simp] theorem settle_pcie_mask1 (a c : Chip) : (settle a c).pcie.mask1 = c.pcie.mask1 := by
  have h := congrArg (fun x : Chip => x.pcie.mask1) (settle_body a c); exact h
@[simp] theorem settle_pcie_pend1 (a c : Chip) : (settle a c).pcie.pend1 = c.pcie.pend1 := by
  have h := congrArg (fun x : Chip => x.pcie.pend1) (settle_body a c); exact h
@[simp] theorem settle_pcie_subsystem (a c : Chip) : (settle a c).pcie.subsystem = c.pcie.subsystem := by
  have h := congrArg (fun x : Chip => x.pcie.subsystem) (settle_body a c); exact h
@[simp] theorem settle_can_usdo (a c : Chip) : (settle a c).can.usdo = c.can.usdo := by
  have h := congrArg (fun x : Chip => x.can.usdo) (settle_body a c); exact h
@[simp] theorem settle_can_rec' (a c : Chip) : (settle a c).can.rec' = c.can.rec' := by
  have h := congrArg (fun x : Chip => x.can.rec') (settle_body a c); exact h
@[simp] theorem settle_can_times (a c : Chip) : (settle a c).can.times = c.can.times := by
  have h := congrArg (fun x : Chip => x.can.times) (settle_body a c); exact h
@[simp] theorem settle_can_off (a c : Chip) : (settle a c).can.off = c.can.off := by
  have h := congrArg (fun x : Chip => x.can.off) (settle_body a c); exact h
@[simp] theorem settle_can_calibrating (a c : Chip) : (settle a c).can.calibrating = c.can.calibrating := by
  have h := congrArg (fun x : Chip => x.can.calibrating) (settle_body a c); exact h

/-! ### Commands -/

/-- Every command completes. -/
theorem run_next (s : State) (f : Chip → Chip) :
    run s f = .next { s with chip := settle s.chip (f { s.chip with out := [] }) } := rfl

/-- A command whose work leaves a part that agrees with `c` has that effect. -/
theorem effect_of_run {i : Instr} {s : State} {f : Chip → Chip} {c : Chip} (h : exec i s = run s f)
    (hc : (f { s.chip with out := [] }).agrees c) : Effect i s c :=
  ⟨_, h, rfl, Chip.agrees_trans (settle_extends _ _).1 hc⟩

/-- The same, with the messages that the work sends first. -/
theorem answer_of_run {i : Instr} {s : State} {f : Chip → Chip} {c : Chip} {msgs : List OutMsg} (h : exec i s = run s f)
    (hc : (f { s.chip with out := [] }).agrees c) (hm : msgs <+: (f { s.chip with out := [] }).out) :
    Answer i s msgs c :=
  ⟨_, h, rfl, Chip.agrees_trans (settle_extends _ _).1 hc, hm.trans (settle_extends _ _).2⟩

/-- What holds of the settled part holds of what the command leaves. -/
theorem leaves_of_run {i : Instr} {s : State} {f : Chip → Chip} {P : Chip → Prop} (h : exec i s = run s f)
    (hp : P (settle s.chip (f { s.chip with out := [] }))) : Leaves i s P := ⟨_, h, rfl, hp⟩

/-- A write with a row of its own that reaches the dictionary does what its operation decides. -/
theorem Chip.command_ok {c d : Chip} {m : Master} {key : Nat} {op : Chip → Except Abort Chip} (hs : c.serves m key)
    (hop : op c = .ok d) : c.command m key op = d := by
  simp [Chip.command, hs.1, hs.2, hop, Chip.attempt]

/-- One that is refused leaves the part as it is, but for the refusal's record and answer. -/
theorem Chip.command_refused {c : Chip} {m : Master} {key : Nat} {op : Chip → Except Abort Chip} {code : Abort}
    (hs : c.serves m key) (hop : op c = .error code) : c.command m key op = c.refuse m key code := by
  simp [Chip.command, hs.1, hs.2, hop, Chip.attempt]

theorem Chip.serves_out {c : Chip} {m : Master} {key : Nat} (hs : c.serves m key) (l : List OutMsg) :
    Chip.serves { c with out := l } m key := hs

theorem effect_of_command {i : Instr} {s : State} {m : Master} {key : Nat} {op : Chip → Except Abort Chip} {c d : Chip}
    (h : exec i s = run s (fun c => c.command m key op)) (hs : s.chip.serves m key)
    (hop : op { s.chip with out := [] } = .ok d) (hc : d.agrees c) : Effect i s c :=
  effect_of_run h (by rw [Chip.command_ok (Chip.serves_out hs []) hop]; exact hc)

theorem leaves_of_command {i : Instr} {s : State} {m : Master} {key : Nat} {op : Chip → Except Abort Chip} {d : Chip}
    {P : Chip → Prop} (h : exec i s = run s (fun c => c.command m key op)) (hs : s.chip.serves m key)
    (hop : op { s.chip with out := [] } = .ok d) (hp : P (settle s.chip d)) : Leaves i s P :=
  leaves_of_run h (by rw [Chip.command_ok (Chip.serves_out hs []) hop]; exact hp)

end Sys2Proof.Machine
end

