-- ==== Sys2Proof/Laws/Records.lean ====
section
/-! SUPPORT. What writing the NVM, sending an EMCY message, raising a record and refusing an access may change. -/

namespace Sys2Proof.Machine

/-- The objects that an NVM write or a record moves beside the derived status. -/
def recordKeys : List Nat :=
  [K.nvmState, K.nvmHeld, K.nvmHeldDropped, K.nvmGroupWrites, K.nvmLogNewest, K.nvmLogValid, K.errqOverflow 0, K.errqOverflow 1,
    K.errqOverflow 2, K.errqOverflow 3, K.errqOverflow 4]

/-- A part that differs in its NVM, its records, its CAN messages, what has been counted in this cycle, and the objects that report them. -/
def Chip.apart (c : Chip) : Chip :=
  { c with dict := [], out := [], nvm := {}, errq := [], entered := 0, can := {}, happened := [] }

/-- The second part is the first with NVM entries, records and messages. -/
def Chip.recorded (a b : Chip) : Prop :=
  a.apart = b.apart ∧ ∀ k, k ∉ statusKeys → k ∉ recordKeys → a.get k = b.get k

theorem Chip.recorded_refl (c : Chip) : c.recorded c := ⟨rfl, fun _ _ _ => rfl⟩

theorem Chip.recorded_trans {a b c : Chip} (h : a.recorded b) (h' : b.recorded c) : a.recorded c :=
  ⟨h.1.trans h'.1, fun k h1 h2 => (h.2 k h1 h2).trans (h'.2 k h1 h2)⟩

theorem Chip.recorded_ite {p : Prop} [Decidable p] {a b c : Chip} (h : p → a.recorded c) (h' : ¬p → b.recorded c) :
    (if p then a else b).recorded c := by
  split
  · exact h ‹_›
  · exact h' ‹_›

theorem Chip.recorded_set {c : Chip} {k : Nat} {v : Int} (hk : k ∈ statusKeys ∨ k ∈ recordKeys) : (c.set k v).recorded c := by
  refine ⟨rfl, fun k' h1 h2 => Chip.get_set_other _ _ _ _ ?_⟩
  rintro rfl
  exact hk.elim h1 h2

/-- Any change of the NVM. -/
theorem Chip.recorded_nvm (c : Chip) (n : Nvm) : Chip.recorded { c with nvm := n } c := ⟨rfl, fun _ _ _ => rfl⟩

/-- Any change of the CAN messages. -/
theorem Chip.recorded_can (c : Chip) (n : Can) : Chip.recorded { c with can := n } c := ⟨rfl, fun _ _ _ => rfl⟩

/-- Counting one more event of an object that reports the NVM, records or messages. -/
theorem Chip.recorded_bump {c : Chip} {k : Nat} (hk : k ∈ statusKeys ∨ k ∈ recordKeys) : (c.bump k).recorded c :=
  Chip.recorded_trans (Chip.recorded_set hk) ⟨rfl, fun _ _ _ => rfl⟩

theorem Chip.nvmBusy_recorded (c : Chip) (n : Nat) (u : NvmUndo) : (c.nvmBusy n u).recorded c :=
  Chip.recorded_trans (Chip.recorded_set (.inr (by decide))) (Chip.recorded_nvm c _)

theorem Chip.writeTrim_recorded (c : Chip) (target set : Nat) (f : Option TrimPair → TrimCodes) : (c.writeTrim target set f).recorded c :=
  Chip.recorded_trans (Chip.nvmBusy_recorded _ _ _) (Chip.recorded_nvm c _)

theorem Chip.nvmApply_recorded (c : Chip) (w : NvmWrite) : (c.nvmApply w).recorded c := by
  cases w with
  | count num by' => exact Chip.recorded_trans (Chip.nvmBusy_recorded _ _ _) (Chip.recorded_nvm c _)
  | log r =>
    refine Chip.recorded_trans (Chip.nvmBusy_recorded _ _ _) ?_
    refine Chip.recorded_trans (Chip.recorded_set (.inr (by decide))) ?_
    exact Chip.recorded_trans (Chip.recorded_set (.inr (by decide))) (Chip.recorded_nvm c _)
  | anchor set a => exact Chip.recorded_trans (Chip.nvmBusy_recorded _ _ _) (Chip.recorded_nvm c _)
  | trim target set codes => exact c.writeTrim_recorded _ _ _
  | revert target set codes => exact c.writeTrim_recorded _ _ _
  | again => exact Chip.recorded_set (.inr (by decide))

theorem Chip.nvmHold_recorded (c : Chip) (w : NvmWrite) : (c.nvmHold w).recorded c := by
  have h : ∀ d : Chip, d.recorded c → (d.set K.nvmHeld d.nvm.held.length).recorded c := fun d hd =>
    Chip.recorded_trans (Chip.recorded_set (.inr (by decide))) hd
  have hb : (c.bump K.nvmHeldDropped).recorded c := Chip.recorded_bump (.inr (by decide))
  refine h _ (Chip.recorded_ite (fun _ => Chip.recorded_nvm c _) (fun _ => ?_))
  cases w with
  | count num by' => exact Chip.recorded_ite (fun _ => Chip.recorded_nvm c _) (fun _ => hb)
  | log r => exact hb
  | anchor set a => exact hb
  | trim target set codes => exact hb
  | revert target set codes => exact hb
  | again => exact hb

theorem Chip.nvmEnterHold_recorded (c : Chip) : c.nvmEnterHold.recorded c :=
  Chip.recorded_ite (fun _ => c.recorded_refl) (fun _ =>
    Chip.recorded_ite (fun _ => Chip.recorded_nvm c _) (fun _ =>
      Chip.recorded_trans (Chip.recorded_set (.inr (by decide))) (Chip.recorded_nvm c _)))

/-- An NVM write leaves everything but the NVM and what reports it. -/
theorem Chip.nvmWrite_recorded (c : Chip) (w : NvmWrite) : (c.nvmWrite w).recorded c :=
  Chip.recorded_ite (fun _ => Chip.recorded_trans (Chip.nvmHold_recorded _ w) c.nvmEnterHold_recorded) (fun _ =>
    Chip.recorded_ite (fun _ => Chip.recorded_nvm c _) (fun _ => c.nvmApply_recorded w))

theorem Chip.canTransmit_recorded (c : Chip) (o : OutMsg) : (c.canTransmit o).recorded c := by
  refine Chip.recorded_ite (fun _ => ?_) (fun _ => c.recorded_refl)
  have h : ∀ d : Chip, d.recorded c → (d.emit o).recorded c := fun d hd => ⟨hd.1, hd.2⟩
  exact h _ (Chip.recorded_trans (Chip.recorded_set (.inl (by decide))) (Chip.recorded_can c _))

theorem Chip.emcyTransmit_recorded (c : Chip) (e : Emcy) : (c.emcyTransmit e).recorded c := by
  have h : ∀ d : Chip, d.recorded c → (if d.get K.emcyInhibit = 0 then d else
      { d with can := { d.can with emcyInhibited := true } }).recorded c := fun d hd =>
    Chip.recorded_ite (fun _ => hd) (fun _ => Chip.recorded_trans (Chip.recorded_can d _) hd)
  exact h _ (c.canTransmit_recorded _)

/-- An EMCY cause leaves everything but CAN messages and what counts them. -/
theorem Chip.emcy_recorded (c : Chip) (e : Emcy) : (c.emcy e).recorded c := by
  refine Chip.recorded_ite (fun _ => ?_) (fun _ => c.recorded_refl)
  refine Chip.recorded_ite (fun _ => ?_) (fun _ => c.emcyTransmit_recorded e)
  refine Chip.recorded_ite (fun _ => Chip.recorded_can c _) (fun _ => ?_)
  exact Chip.recorded_trans (Chip.recorded_bump (.inl (by decide))) (Chip.recorded_can c _)

theorem Chip.queueOf_lt (region : Nat) (h : region ≤ 5) : Chip.queueOf region < 5 := by
  unfold Chip.queueOf; split <;> omega

/-- Raising a record leaves everything but the records, the log and the messages. -/
theorem Chip.raise_recorded (c : Chip) (level region block cell code ctx0 ctx1 : Nat) (hr : region ≤ 5) :
    (c.raise level region block cell code ctx0 ctx1).recorded c := by
  have hq : K.errqOverflow (Chip.queueOf region) ∈ recordKeys := by
    have := Chip.queueOf_lt region hr
    generalize Chip.queueOf region = q at this
    interval_cases q <;> decide
  have hp : ∀ (p : Chip → Prop), (∀ d : Chip, d.recorded c → p d) →
      p (let qi := Chip.queueOf region
         let r := newRecord c level region block cell code ctx0 ctx1
         let (q, lost) := (at' c.errq qi).enter r
         let c := { c with errq := modAt c.errq qi (fun _ => q) }
         let c := if lost then c.bump (K.errqOverflow qi) else c
         if level ≥ 1 then { c with entered := c.entered + 1 } else c) := by
    intro p h
    refine h _ (Chip.recorded_ite (fun _ => ?_) (fun _ => ?_))
    · refine Chip.recorded_trans (b := ite _ _ _) ⟨rfl, fun _ _ _ => rfl⟩ ?_
      exact Chip.recorded_ite (fun _ => Chip.recorded_trans (Chip.recorded_bump (.inr hq)) ⟨rfl, fun _ _ _ => rfl⟩)
        (fun _ => ⟨rfl, fun _ _ _ => rfl⟩)
    · exact Chip.recorded_ite (fun _ => Chip.recorded_trans (Chip.recorded_bump (.inr hq)) ⟨rfl, fun _ _ _ => rfl⟩)
        (fun _ => ⟨rfl, fun _ _ _ => rfl⟩)
  have h3 : ∀ (d d' : Chip) (e : Emcy), d.recorded c → d'.recorded c →
      (if level = 3 then (if code = 0x0003 then d' else d'.emcy e) else d).recorded c := fun d d' e hd hd' =>
    Chip.recorded_ite (fun _ => Chip.recorded_ite (fun _ => hd')
      (fun _ => Chip.recorded_trans (d'.emcy_recorded e) hd')) (fun _ => hd)
  have h4 := hp (fun d => d.recorded c) (fun _ h => h)
  exact h3 _ _ _ h4 (Chip.recorded_trans (Chip.nvmWrite_recorded _ _) h4)

/-- An object outside the derived ones reads as before a record. -/
theorem Chip.get_raise (c : Chip) (level region block cell code ctx0 ctx1 : Nat) (hr : region ≤ 5) (k : Nat)
    (h1 : k ∉ statusKeys) (h2 : k ∉ recordKeys) : (c.raise level region block cell code ctx0 ctx1).get k = c.get k :=
  (c.raise_recorded level region block cell code ctx0 ctx1 hr).2 k h1 h2

theorem Chip.recorded_staged {a b : Chip} (h : a.recorded b) : a.staged = b.staged := by
  have h := congrArg Chip.staged h.1; exact h
theorem Chip.recorded_pendingP {a b : Chip} (h : a.recorded b) : a.pendingP = b.pendingP := by
  have h := congrArg Chip.pendingP h.1; exact h
theorem Chip.recorded_kept {a b : Chip} (h : a.recorded b) : a.kept = b.kept := by
  have h := congrArg Chip.kept h.1; exact h
theorem Chip.recorded_halves {a b : Chip} (h : a.recorded b) : a.halves = b.halves := by
  have h := congrArg Chip.halves h.1; exact h
theorem Chip.recorded_latches {a b : Chip} (h : a.recorded b) : a.latches = b.latches := by
  have h := congrArg Chip.latches h.1; exact h
theorem Chip.recorded_clk {a b : Chip} (h : a.recorded b) : a.clk = b.clk := by
  have h := congrArg Chip.clk h.1; exact h
theorem Chip.recorded_pins {a b : Chip} (h : a.recorded b) : a.pins = b.pins := by
  have h := congrArg Chip.pins h.1; exact h
theorem Chip.recorded_rails {a b : Chip} (h : a.recorded b) : a.rails = b.rails := by
  have h := congrArg Chip.rails h.1; exact h
theorem Chip.recorded_boot {a b : Chip} (h : a.recorded b) : a.boot = b.boot := by
  have h := congrArg Chip.boot h.1; exact h
theorem Chip.recorded_mode {a b : Chip} (h : a.recorded b) : a.mode = b.mode := by
  have h := congrArg Chip.mode h.1; exact h
theorem Chip.recorded_domains {a b : Chip} (h : a.recorded b) : a.domains = b.domains := by
  have h := congrArg Chip.domains h.1; exact h
theorem Chip.recorded_dram {a b : Chip} (h : a.recorded b) : a.dram = b.dram := by
  have h := congrArg Chip.dram h.1; exact h
theorem Chip.recorded_sps {a b : Chip} (h : a.recorded b) : a.sps = b.sps := by
  have h := congrArg Chip.sps h.1; exact h
theorem Chip.recorded_spm {a b : Chip} (h : a.recorded b) : a.spm = b.spm := by
  have h := congrArg Chip.spm h.1; exact h
theorem Chip.recorded_pcie {a b : Chip} (h : a.recorded b) : a.pcie = b.pcie := by
  have h := congrArg Chip.pcie h.1; exact h
theorem Chip.recorded_psi {a b : Chip} (h : a.recorded b) : a.psi = b.psi := by
  have h := congrArg Chip.psi h.1; exact h
theorem Chip.recorded_mbx {a b : Chip} (h : a.recorded b) : a.mbx = b.mbx := by
  have h := congrArg Chip.mbx h.1; exact h
theorem Chip.recorded_dma {a b : Chip} (h : a.recorded b) : a.dma = b.dma := by
  have h := congrArg Chip.dma h.1; exact h
theorem Chip.recorded_act {a b : Chip} (h : a.recorded b) : a.act = b.act := by
  have h := congrArg Chip.act h.1; exact h
theorem Chip.recorded_heads {a b : Chip} (h : a.recorded b) : a.heads = b.heads := by
  have h := congrArg Chip.heads h.1; exact h
theorem Chip.recorded_banks {a b : Chip} (h : a.recorded b) : a.banks = b.banks := by
  have h := congrArg Chip.banks h.1; exact h
theorem Chip.recorded_cal {a b : Chip} (h : a.recorded b) : a.cal = b.cal := by
  have h := congrArg Chip.cal h.1; exact h
theorem Chip.recorded_hk {a b : Chip} (h : a.recorded b) : a.hk = b.hk := by
  have h := congrArg Chip.hk h.1; exact h
theorem Chip.recorded_thermal {a b : Chip} (h : a.recorded b) : a.thermal = b.thermal := by
  have h := congrArg Chip.thermal h.1; exact h
theorem Chip.recorded_onion {a b : Chip} (h : a.recorded b) : a.onion = b.onion := by
  have h := congrArg Chip.onion h.1; exact h
theorem Chip.recorded_sol {a b : Chip} (h : a.recorded b) : a.sol = b.sol := by
  have h := congrArg Chip.sol h.1; exact h
theorem Chip.recorded_pix {a b : Chip} (h : a.recorded b) : a.pix = b.pix := by
  have h := congrArg Chip.pix h.1; exact h
theorem Chip.recorded_regions {a b : Chip} (h : a.recorded b) : a.regions = b.regions := by
  have h := congrArg Chip.regions h.1; exact h
theorem Chip.recorded_free {a b : Chip} (h : a.recorded b) : a.free = b.free := by
  have h := congrArg Chip.free h.1; exact h

/-- A refusal moves only the abort objects of its master (R84). -/
theorem Chip.get_refuse (c : Chip) (m : Master) (key : Nat) (code : Abort) (k : Nat)
    (h : ∀ j, abortPlace m = some j → k ≠ K.abortLast j ∧ k ≠ K.abortCount j) : (c.refuse m key code).get k = c.get k := by
  have h' : (c.noteAbort m key code).get k = c.get k := by
    unfold Chip.noteAbort
    cases hj : abortPlace m with
    | none => rfl
    | some j =>
      simp only
      rw [Chip.get_bump, if_neg (h j hj).2, Chip.get_set_other _ _ _ _ (h j hj).1]
  unfold Chip.refuse
  simp only
  split
  · exact h'
  · rw [Chip.get_emit, h']

end Sys2Proof.Machine
end

