-- ==== Sys2Proof/Tests/Slice0.lean ====
section
/-! SUPPORT. Tests: an ill-formed command for every check of WellFormed, worked examples of the spec, and for the statements with
hypotheses a state and operands that meet them, clause by clause. -/

namespace Sys2Proof.Machine

/-! ### States of the tests -/

/-- A state with its part changed. -/
def State.but (s : State) (f : Chip → Chip) : State := { s with chip := f s.chip }

/-- The front die ready on its root PLL, the pixel die off, with values of objects. -/
def frontState (l : List (Nat × Int)) : State :=
  State.reset.but (fun c => ({ c with
    boot := { c.boot with phase := .ready }
    pins := { c.pins with canStbyHigh := false, perstLow := false }
    clk := { c.clk with onBackup := false } } : Chip).setAll (l))

/-- The same with the pixel die running, its link in L0 and Function 0 enabled. -/
def fullState (l : List (Nat × Int)) : State :=
  (frontState ([(K.pixelDieState, 2), (K.chipMode, 1), (K.pcieLinkState, 2), (K.nmtState, 5), (K.dramCapacity, 2080374784), (K.dramChannels, 2),
    (K.dramChState 0, 2), (K.dramChState 1, 2), (K.pcieLinkSpeed, 4), (K.pcieLinkWidth, 4), (K.nucLanesInService, 15), (K.clkPixDiv, 3)] ++ l)).but
    (fun c => { c with pcie := { c.pcie with busMaster0 := true, busMaster1 := true }, mode := { c.mode with pixelUse := .full } })

/-- A head port of a state changed. -/
def State.port (s : State) (h : Nat) (f : HeadPort → HeadPort) : State := s.but (fun c => c.modHead h f)

/-- The part that a command leaves. -/
def after (i : Instr) (s : State) : Chip :=
  match exec i s with
  | .next t => t.chip
  | _ => s.chip

/-! ### Resets, supplies, clocks, modes -/

theorem hyps_StartUpSequence :
    (State.reset.chip.boot.phase = .held ∧ State.reset.chip.frontRailsIn = true ∧
     State.reset.chip.pins.sysRstLow = false) ∧
    ((State.reset.but (fun c => { c with pins := { c.pins with sysRstLow := true } })).chip.pins.sysRstLow = true) ∧
    (let s := State.reset.but (fun c => { c with boot := { c.boot with phase := .verifying } })
     s.chip.boot.phase = .verifying ∧ s.chip.nvm.slots = [{}, {}]) ∧
    (let s := State.reset.but (fun c => { c with boot := { c.boot with phase := .starting, failures := 1 } })
     s.chip.boot.phase = .starting ∧ s.chip.boot.failures < 2) ∧
    (let s := State.reset.but (fun c => { c with boot := { c.boot with
       phase := .starting, failures := 2, slot := 0, verified := [true, true] } })
     s.chip.boot.phase = .starting ∧ 2 ≤ s.chip.boot.failures ∧ s.chip.boot.fellFrom = none ∧ s.chip.boot.slot ≤ 1 ∧
     s.chip.boot.verified.getD (1 - s.chip.boot.slot) false = true) ∧
    (let s := State.reset.but (fun c => { c with boot := { c.boot with
       phase := .starting, failures := 2, slot := 1, verified := [false, true] } })
     s.chip.boot.phase = .starting ∧ 2 ≤ s.chip.boot.failures ∧ s.chip.boot.verified.getD (1 - s.chip.boot.slot) false = false) ∧
    (let s := State.reset.but (fun c => { c with
       boot := { c.boot with phase := .starting }, rails := { c.rails with fault := modAt c.rails.fault 10 (fun _ => true), waiting := [(10, true)] } })
     s.chip.boot.phase = .starting ∧ s.chip.rails.waiting ≠ []) := by decide

theorem hyps_ChipAndFrontDieResets :
    ((6 : Fin 11).val ≥ 6 ∧ (8 : Fin 11).val ≤ 8 ∧ ∀ b ∈ State.reset.chip.nvm.writing, b.ends ≤ State.reset.chip.mono) ∧
    (let s := State.reset.but (fun c => { c with boot := { c.boot with phase := .starting } })
     (5 : Fin 11).val < 6 ∧ s.chip.boot.phase = .starting ∧ s.chip.pins.pixPwrEn = false ∧
     6 ≤ (10 : Fin 11).val ∧ s.chip.rails.fault.getD 10 false = false) ∧
    (let s := State.reset.but (fun c => { c with boot := { c.boot with phase := .verifying }, rails := { c.rails with
       fault := modAt c.rails.fault 9 (fun _ => true), level := modAt c.rails.level 9 (fun _ => .above) } })
     s.chip.boot.phase = .verifying ∧ s.chip.rails.fault.getD 9 false = true ∧ s.chip.rails.level.getD 9 .inRange = .above) ∧
    (frontState []).chip.serves .mc K.chipReset := by decide

theorem hyps_SuppliesAndClocks :
    (let s := frontState []
     s.chip.psi.slew = 0 ∧ s.chip.get K.psirelRateAdj = 0 ∧ s.chip.clk.frac = 0 ∧ s.chip.refPresent = true ∧ s.chip.clk.badRun = 0) ∧
    (let s := (fullState []).but (fun c => { c with clk := { c.clk with pixSkew := 6 } })
     s.chip.pixelRuns = true ∧ 5 < s.chip.clk.pixSkew) ∧
    (let s := (fullState []).but (fun c => { c with clk := { c.clk with pixSkew := -5, divNext := some 4 } })
     s.chip.pixelRuns = true ∧ -5 ≤ s.chip.clk.pixSkew ∧ s.chip.clk.pixSkew ≤ 5 ∧ s.chip.clk.divNext = some 4) ∧
    (let s := frontState []
     98 * s.chip.clk.window ≤ (980 : BitVec 32).toNat * 100 ∧ (980 : BitVec 32).toNat * 100 ≤ 102 * s.chip.clk.window ∧
     102 * s.chip.clk.window < (1021 : BitVec 32).toNat * 100) ∧
    (let s := (frontState []).but (fun c => { c with clk := { c.clk with badRun := 1 }, boot := { c.boot with phase := .starting } })
     s.chip.refPresent = true ∧ 1 ≤ s.chip.clk.badRun ∧ s.chip.boot.phase ≠ .ready ∧
     (979 : BitVec 32).toNat * 100 < 98 * s.chip.clk.window) ∧
    (let s := (fullState []).but (fun c => { c with clk := { c.clk with badRun := 1, pixSkew := -6 } })
     s.chip.refPresent = true ∧ 1 ≤ s.chip.clk.badRun ∧ s.chip.boot.phase = .ready ∧ s.chip.pixelRuns = true ∧ s.chip.clk.pixSkew < -5) ∧
    ((frontState []).but (fun c => { c with clk := { c.clk with rootReturn := true } })).chip.clk.rootReturn = true := by decide

theorem hyps_SuppliesAndClocks_return :
    ∀ n ∈ [98, 99], ∀ p ∈ [BootPhase.ready, .starting],
    let s := (frontState [(K.refclkState, 2), (K.chipMode, 1), (K.pixelDieState, 3)]).but (fun c => { c with
      clk := { c.clk with onBackup := true, goodRun := n, lastEdges := 952 }, boot := { c.boot with phase := p } })
    s.chip.refPresent = false ∧ s.chip.clk.rootReturn = false ∧ s.chip.get K.refclkState ≠ 0 ∧ 930 ≤ (950 : BitVec 32).toNat ∧
    (950 : BitVec 32).toNat ≤ 1070 ∧ (950 : BitVec 32).toNat ≤ s.chip.clk.lastEdges + 2 ∧ s.chip.clk.lastEdges ≤ (950 : BitVec 32).toNat + 2 ∧
    s.chip.clk.goodRun = n ∧ s.chip.boot.phase = p := by decide

theorem hyps_PixelDieStarts :
    (let s := frontState [(K.pixelDieState, 1)]
     s.chip.pixelStarts = true ∧ s.chip.mode.single = false ∧ (8 : Fin 9).val ≠ 0 ∧ s.chip.get (K.dramChState (0 : Fin 2)) ≠ 3) ∧
    (let s := (frontState [(K.pixelDieState, 1)]).but (fun c => { c with mode := { c.mode with single := true, onCh := 1 } })
     s.chip.pixelStarts = true ∧ s.chip.mode.single = true ∧ s.chip.mode.onCh = 1 ∧ s.chip.get (K.dramChState 1) ≠ 3) ∧
    (let s := (fullState []).but (fun c => c.modRegion 3 (fun r => { r with restarting := true }))
     s.chip.pixelStarts = false ∧ s.chip.pixelRuns = true ∧ s.chip.regionRestarting 3 = true ∧ s.chip.mode.single = false ∧
     s.chip.get (K.dramChState 1) ≠ 3) ∧
    (∀ use ∈ [PixelUse.full, PixelUse.hostOnly],
     let s := (frontState [(K.pixelDieState, 1)]).but (fun c => { c with mode := { c.mode with trained := [true, true], pixelUse := use } })
     s.chip.get K.pixelDieState = 1 ∧ s.chip.mode.single = false ∧ s.chip.mode.trained.all id = true ∧ s.chip.mode.pixelUse = use) := by
  decide

theorem hyps_PixelDieFailures :
    (frontState [(K.pixelDieState, 1)]).chip.pixelStarts = true ∧ (frontState [(K.pixelDieState, 2)]).chip.pixelRuns = true ∧
    (∀ d ∈ [(1 : Int), 2],
     let s := (frontState [(K.pixelDieState, d)]).but (fun c => { c with pins := { c.pins with pixPwrEn := true } })
     s.chip.boot.phase = .ready ∧ s.chip.pins.pixPwrEn = true ∧ s.chip.rails.fault.getD 5 false = false ∧
     (s.chip.pixelRuns = true ∨ s.chip.pixelStarts = true)) ∧
    (let s := frontState [(K.pixelDieState, 3)]
     s.chip.get K.pixelDieState = 3 ∧ s.chip.get K.refclkState = 0 ∧ s.chip.get K.throttleLevel ≠ 4 ∧ s.chip.boot.phase = .ready ∧
     s.chip.wantedUse = .full) ∧
    (let s := (frontState [(K.pixelDieState, 3), (K.chipMode, 2)]).but (fun c => { c with mode := { c.mode with hostCall := true } })
     s.chip.get K.pixelDieState = 3 ∧ s.chip.get K.refclkState = 0 ∧ s.chip.get K.throttleLevel ≠ 4 ∧ s.chip.wantedUse = .hostOnly) ∧
    (let s := frontState [(K.pixelDieState, 3), (K.chipMode, 2)]
     s.chip.get K.pixelDieState = 3 ∧ s.chip.get K.refclkState = 0 ∧ s.chip.get K.throttleLevel ≠ 4 ∧ s.chip.wantedUse = .off) := by
  decide

theorem hyps_OperatingModes :
    (∀ m ∈ [(0 : Int), 1, 2],
     let s := frontState [(K.chipMode, m)]
     s.chip.serves .mc K.modeRequest ∧ s.chip.mode.going = 0 ∧ s.chip.get K.chipMode = m ∧ s.chip.get K.pixelDieState = 0) ∧
    (∀ g ∈ [2, 3],
     let s := (frontState []).but (fun c => { c with mode := { c.mode with going := g }, act := { c.act with parked := true } })
     s.chip.act.parked = true ∧ (∀ h : Fin 4, s.chip.get (K.runState h) = 0) ∧ s.chip.mode.going = g) ∧
    (let s := (frontState [(K.spRole, 1)]).but (fun c => { c with mode := { c.mode with asleep := true, waking := true } })
     s.chip.mode.asleep = true ∧ s.chip.mode.waking = true ∧ s.chip.get K.spRole = 1 ∧ s.chip.boot.phase = .ready) := by decide

set_option maxRecDepth 40000 in
theorem hyps_PerstEdges :
    ((frontState []).chip.pins.perstLow = false ∧ (frontState []).chip.mode.hostCall = false) ∧
    (let s := (fullState [(K.chipMode, 2)]).but (fun c => { c with mode := { c.mode with hostCall := true } })
     let d := ((({ s.chip.fresh with pins := { s.chip.pins with perstLow := true } } : Chip).bump K.pcieResets).dmaOutstanding [1, 3]).2.linkTo 0
     s.chip.pins.perstLow = false ∧ s.chip.mode.hostCall = true ∧ s.chip.pixelOn = true ∧ (d.hostResets 0).get K.chipMode = 2 ∧
     (d.hostResets 0).mode.going = 0 ∧ (d.hostResets 0).get K.pixelDieState ≠ 0) ∧
    (∀ g ∈ [0, 2, 3],
     let s := (frontState [(K.chipMode, 2)]).but (fun c => { c with pins := { c.pins with perstLow := true }, mode := { c.mode with going := g } })
     s.chip.pins.perstLow = true ∧ s.chip.pixelOn = false ∧ s.chip.boot.phase = .ready ∧ s.chip.get K.chipMode = 2 ∧
     s.chip.mode.asleep = false ∧ s.chip.mode.going = g ∧ s.chip.mode.going ≠ 1) ∧
    (let s := (fullState []).but (fun c => { c with pins := { c.pins with perstLow := true } })
     s.chip.pins.perstLow = true ∧ s.chip.pixelOn = true) ∧
    (let s := (frontState [(K.chipMode, 3)]).but (fun c => { c with
       pins := { c.pins with perstLow := true }, mode := { c.mode with asleep := true } })
     s.chip.pins.perstLow = true ∧ s.chip.pixelOn = false ∧ s.chip.boot.phase = .ready ∧ s.chip.get K.chipMode = 3 ∧
     s.chip.mode.asleep = true ∧ s.chip.mode.going ≠ 1) := by decide

theorem hyps_Recovery :
    (let s := (fullState []).but (fun c => c.modBlock 1 0 (fun h => { h with resetting := true }))
     s.chip.blockResetting 1 0 = true ∧ (s.chip.regionOf 1).restarting = false ∧ (s.chip.regionOf 1).scheduled = none) ∧
    (let s := fullState []
     s.chip.serves .mc K.regionReset ∧ (s.chip.regionOf 5).restarting = false ∧ (s.chip.regionOf 5).scheduled = none ∧
     s.chip.mode.asleep = false ∧ s.chip.boot.hkpRestart = false) ∧
    (let s := (fullState []).but (fun c => c.modRegion 2 (fun r => { r with scheduled := some (0xFF, 2) }))
     (s.chip.regionOf 2).scheduled = some (0xFF, 2) ∧ (s.chip.regionOf 2).restarting = false ∧ s.chip.boot.phase = .ready ∧
     s.chip.pixelRuns = true ∧ (∀ q ∈ restartsBefore 2, (s.chip.regionOf q).scheduled = none)) ∧
    (let s := (fullState []).but (fun c => (c.modRegion 3 (fun r => { r with scheduled := some (0xFF, 2) })).modRegion 4
       (fun r => { r with scheduled := some (0xFF, 2) }))
     (s.chip.regionOf 3).scheduled = some (0xFF, 2) ∧ (s.chip.regionOf 4).scheduled = some (0xFF, 2) ∧ s.chip.regionRestarting 3 = false ∧
     s.chip.regionRestarting 4 = false ∧ s.chip.boot.phase = .ready ∧ s.chip.spm.seq = none) ∧
    (let s := (fullState []).but (fun c => ((c.modRegion 5 (fun r => { r with restarting := true })).modBlock 4 2 (fun h =>
       { h with resetting := true })).modBlock 4 1 (fun h => { h with resetting := true }))
     s.chip.regionRestarting 5 = true ∧ s.chip.blockResetting 4 2 = true ∧ s.chip.blockResetting 4 1 = true) ∧
    (let s := (fullState []).but (fun c => c.modRegion 1 (fun r => { r with restarting := true }))
     s.chip.regionRestarting 1 = true) := by decide

/-! ### PCIe, CAN, Psirel -/

theorem hyps_PcieLinkAndResets :
    (let s := fullState [(K.straps, 1)]
     s.chip.pixelOn = true ∧ s.chip.get K.pcieLinkState ≠ 0 ∧ s.chip.linkUp = true ∧ s.chip.f1Present = true ∧
     2 ≤ s.chip.get K.pcieLinkState ∧ s.chip.pcie.pend0 = 0) ∧
    (let s := fullState [(K.pcieLinkState, 1)]
     s.chip.pixelOn = true ∧ s.chip.pins.perstLow = false ∧ s.chip.get K.pcieLinkState ≤ 1) := by decide

theorem hyps_PcieInterruptsAndErrors :
    (let s := (fullState []).but (fun c => { c with pcie := { c.pcie with pend0 := 2 ^ 63 } })
     s.chip.pixelOn = true ∧ s.chip.linkUp = true ∧ s.chip.canSend0 = true ∧ s.chip.pcie.pend0 = 2 ^ (63 : Fin 64).val) ∧
    (let s := (fullState [(K.straps, 1)]).but (fun c => { c with pcie := { c.pcie with pend1 := 2 ^ 7 } })
     s.chip.pixelOn = true ∧ s.chip.linkUp = true ∧ s.chip.canSend1 = true ∧ s.chip.f1Present = true ∧
     s.chip.pcie.pend1 = 2 ^ (7 : Fin 64).val) ∧
    ((fullState []).chip.serves .f0 K.pcieEventAck ∧ (fullState []).chip.statusRight ∧
     ¬ ((fullState []).chip.get K.canState = 1 ∨ (fullState []).chip.get K.canState = 2)) ∧
    (13 ∈ aerCorBits ∧ 12 ∈ aerUncBits ∧ (fullState []).chip.get K.pcieLinkState ≠ 0) := by decide

theorem hyps_Bar2ReachesDram :
    let s := fullState []
    s.chip.pixelOn = true ∧ s.chip.linkUp = true ∧ s.chip.pcie.d3hot0 = false ∧
    s.chip.nat K.pcieBar2Base + (0x3FFFFFF : BitVec 26).toNat + [(0x5A : Byte)].length ≤ s.chip.reservedBase ∧
    s.chip.imagesIn (s.chip.nat K.pcieBar2Base + 0x3FFFFFF) 1 = [] := by decide

theorem hyps_CanNode :
    (let s := fullState [(K.heartbeatTime, 1), (K.tpdoEventTimer 3, 1), (K.tpdoCobId 3, 0x481)]
     s.chip.nmtListens = true ∧ s.chip.canMayTransmit = true ∧ s.chip.get K.heartbeatTime ≠ 0 ∧ s.chip.get (K.tpdoEventTimer 3) ≠ 0 ∧
     s.chip.boot.phase = .ready ∧ s.chip.mode.asleep = false ∧ s.chip.tpdoValid 3 = true ∧ s.chip.boot.hkpRestart = false ∧
     s.chip.get K.nmtState = 5 ∧ (s.chip.can.tpdo.getD 3 default).inhibited = false ∧ s.chip.canOnBus = true ∧
     s.chip.can.calibrating = false) ∧
    (let s := (fullState []).but (fun c => { c with can := { c.can with
       emcyQueue := [⟨0xFF00, 1, 1, 9, 1⟩], tpdo := List.replicate 4 { inhibited := true, waiting := true }, tec := 248 } })
     s.chip.canMayTransmit = true ∧ s.chip.can.emcyQueue ≠ [] ∧ s.chip.emcyAllowed = true ∧ (s.chip.can.tpdo.getD 0 default).inhibited = true ∧
     (s.chip.can.tpdo.getD 0 default).waiting = true ∧ s.chip.canOnBus = true ∧ 256 ≤ s.chip.can.tec + (8 : BitVec 8).toNat) ∧
    (let s := (fullState []).but (fun c => { c with can := { c.can with off := true } })
     s.chip.can.off = true ∧ s.chip.pins.canStbyHigh = false ∧ s.chip.can.calibrating = false) ∧
    (let s := (frontState []).but (fun c => { c with mode := { c.mode with asleep := true } })
     s.chip.mode.asleep = true ∧ s.chip.boot.phase = .ready) := by decide

theorem hyps_PsirelMarks :
    (let s := fullState [(K.psirelRole, 1)]
     s.chip.get K.psirelRole = 1 ∧ s.chip.psiLinkOn = true ∧ s.chip.psi.setTime = none ∧ s.chip.serves .mc K.psirelTimeSet ∧
     s.chip.serves .mc K.psirelTimeAdjust ∧ s.chip.get K.psirelRole ≠ 2 ∧ (1000000 : BitVec 64).toNat % 1000000 = 0 ∧
     -1000000 ≤ (1000000 : BitVec 32).toInt ∧ (1000000 : BitVec 32).toInt ≤ 1000000) ∧
    (let s := (fullState []).but (fun c => { c with psi := { c.psi with setTime := some (2 ^ 64 - 1) } })
     s.chip.get K.psirelRole = 0 ∧ s.chip.psi.setTime = some (2 ^ 64 - 1) ∧ s.chip.clk.sub = 0) ∧
    (let s := (fullState [(K.psirelRole, 2), (K.psirelState, 4)]).but (fun c => { c with
       psi := { c.psi with lastT := some 1000000 }, clk := { c.clk with time := 2000000 } })
     let mk : PsiMark := { t := 2000000, d := 0, c := 0, hops := 63, flags := 0, crcOk := true, phase := 0, transit := 0 }
     s.chip.get K.psirelRole = 2 ∧ s.chip.psiLinkOn = true ∧ s.chip.get K.psirelState = 4 ∧ mk.hops.toNat < 64 ∧
     1000000 ≤ mk.t.toNat ∧ s.chip.psi.lastT = some (mk.t.toNat - 1000000) ∧ -16000 ≤ s.chip.markError mk ∧
     s.chip.markError mk ≤ 16000) := by decide

theorem hyps_PsirelLink :
    (let s := (fullState [(K.psirelRole, 1), (K.psirelRetEnable, 1)]).but (fun c => { c with psi := { c.psi with returns := [800] } })
     s.chip.get K.psirelRole ≠ 0 ∧ s.chip.psiLinkOn = true ∧ s.chip.get K.psirelRetEnable ≠ 0 ∧ s.chip.psi.returns ≠ [] ∧
     s.chip.serves .mc K.psirelWake ∧ s.chip.get K.psirelRole = 1) ∧
    (let s := (frontState []).but (fun c => { c with mode := { c.mode with asleep := true } })
     s.chip.mode.asleep = true ∧ s.chip.boot.phase = .ready) ∧
    (let s := fullState [(K.psirelRole, 2)]
     s.chip.get K.psirelRole = 2 ∧ s.chip.psiLinkOn = true) := by decide

theorem hyps_Triggers :
    triggerInvalid 0x10000 = false ∧
    (let s := fullState [(K.psirelRole, 1), (K.psirelTrigPeriod, 1000000)]
     s.chip.serves .mc K.psirelTrigger ∧ s.chip.get K.psirelRole = 1 ∧ s.chip.nat K.psirelTrigPeriod ≠ 0 ∧
     s.chip.get K.psirelTrigPhase = 0) ∧
    ((fullState []).chip.serves .can K.canTrigger ∧ (fullState []).chip.get K.psirelRole = 0) ∧
    (let s := fullState [(K.psirelRole, 2), (K.triggerMode 0, 1), (K.psirelHeadGroup 0, 1)]
     let t : PsiTrigger := { target := 0, node := 0, mask := 1, seq := 0, crcOk := true }
     s.chip.serves .can K.canTrigger ∧ s.chip.get K.psirelRole = 2 ∧ s.chip.psiLinkOn = true ∧ s.chip.now ≤ t.target.toNat ∧
     s.chip.triggeredHeads t.mask.toNat ≠ 0) ∧
    (let s := (fullState [(K.psirelRole, 2), (K.psirelNode, 5)]).but (fun c => { c with clk := { c.clk with time := 1000000 } })
     let t : PsiTrigger := { target := 999999, node := 5, mask := 1, seq := 0, crcOk := true }
     t.node.toNat = s.chip.nat K.psirelNode ∧ t.target.toNat < s.chip.now ∧ s.chip.triggeredHeads t.mask.toNat = 0) ∧
    (let s := (fullState [(K.psirelRole, 1), (K.psirelTrigPeriod, 1000), (K.psirelTrigPhase, 999)]).but (fun c => { c with
       clk := { c.clk with time := 5000 } })
     s.chip.serves .can K.canTrigger ∧ s.chip.get K.psirelRole = 1 ∧ s.chip.nat K.psirelTrigPeriod ≠ 0 ∧
     (let ahead := s.chip.now + s.chip.nat K.psirelTriggerLead
      let target := (ahead - 999) / 1000 * 1000 + 999
      (target : Int) = s.chip.get K.psirelTrigPhase + ((ahead - 999) / 1000 : Nat) * s.chip.nat K.psirelTrigPeriod ∧
      target ≤ ahead ∧ ahead < target + s.chip.nat K.psirelTrigPeriod)) := by decide

/-! ### Housekeeping, thermal, calibration -/

/-- Housekeeping rounds on, and a round in progress. -/
def inRound : State := (fullState []).but (fun c => { c with hk := { c.hk with on := true, round := true, busy := [true, true] } })

theorem hyps_RoundTriggers :
    (inRound.chip.hk.on = true ∧ inRound.chip.clk.ticks % 1000 = 0 ∧ inRound.chip.hk.round = true) ∧
    (let s := (frontState []).but (fun c => { c with hk := { c.hk with on := true }, clk := { c.clk with ticks := 2000 } })
     s.chip.hk.on = true ∧ s.chip.clk.ticks % 1000 = 0 ∧ s.chip.hk.round = false) ∧
    ((frontState []).but (fun c => { c with clk := { c.clk with ticks := 1999 } })).chip.clk.ticks % 1000 ≠ 0 := by decide

theorem hyps_HousekeepingRounds :
    (inRound.chip.hkBusy 1 = true ∧ at' inRound.chip.hk.urgent 1 = none ∧ inRound.chip.hk.on = true ∧ inRound.chip.hk.round = true ∧
     inRound.chip.hk.waits.any id = false ∧ inRound.chip.cellHeld 5 1 = false) ∧
    (let s := (fullState []).but (fun c => { c with hk := { c.hk with on := true, urgent := [none, some ⟨31, 7, 4000, 1⟩] } })
     s.chip.hkBusy 1 = true ∧ at' s.chip.hk.urgent 1 = some ⟨31, 7, 4000, 1⟩ ∧ s.chip.cellHeld 5 1 = false) := by decide

theorem hyps_UrgentConversions :
    (let s := fullState []
     s.chip.serves .mc K.hkUrgentRequest ∧ (0x071F : BitVec 16).toNat % 256 ≤ 31 ∧ (0x071F : BitVec 16).toNat / 256 < hkCount 31 ∧
     s.chip.hkMeasures 31 = true ∧ s.chip.hkBusy (31 / 16) = false) ∧
    (inRound.chip.serves .mc K.hkUrgentRequest ∧ (0x071F : BitVec 16).toNat / 256 < hkCount 31 ∧ inRound.chip.hkMeasures 31 = true ∧
     inRound.chip.hkBusy (31 / 16) = true ∧ inRound.chip.hkWasReset (31 / 16) = false) ∧
    (let s := inRound.but (fun c => { c with hk := { c.hk with reset := [none, some 1] } })
     at' s.chip.hk.busy (31 / 16) = true ∧ s.chip.hkWasReset (31 / 16) = true) ∧
    (hkCount 31 ≤ (0x081F : BitVec 16).toNat / 256) ∧
    (let s := (fullState []).but (fun c => { c with hk := { c.hk with urgent := [none, some ⟨31, 7, 4000, 1⟩] } })
     at' s.chip.hk.urgent 1 = some ⟨31, 7, 4000, 1⟩ ∧ s.chip.hkMeasures 31 = true) := by decide

/-- The comparators of both dies with their trip voltages set. -/
def trips : State := (fullState []).but Chip.setTrips

theorem hyps_ThrottleAndTrip :
    (let s := (fullState [(K.throttleLevel, 3)]).but (fun c => { c with thermal := { c.thermal with below := true } })
     0 < s.chip.nat K.throttleLevel ∧ s.chip.nat K.throttleLevel < 4 ∧ s.chip.thermal.below = true ∧
     s.chip.throttleFloor < s.chip.nat K.throttleLevel) ∧
    (let s := frontState [(K.throttleLevel, 4), (K.sensorState 0, 0), (K.sensorTemp 0, 6400), (K.refclkState, 1)]
     s.chip.nat K.throttleLevel = 4 ∧ s.chip.frontSensors.isEmpty = false ∧
     (∀ j ∈ s.chip.frontSensors, s.chip.get (K.sensorTemp j) ≤ s.chip.get K.thrL4Exit) ∧ s.chip.throttleFloor < 4 ∧
     s.chip.get K.refclkState ≠ 0) ∧
    (let s := trips
     s.chip.boot.phase ≠ .held ∧ s.chip.pixelOn = true ∧ s.chip.mode.asleep = false ∧ s.chip.levelCrossed 1 (-1) = true ∧
     s.chip.levelCrossed 1 700000 = false) := by decide

theorem hyps_ThrottleThresholds :
    let s := frontState []
    keyOf 0x2C21 4 = K.thrEnter 3 ∧ s.chip.serves .mc (keyOf 0x2C21 4) ∧
    (rowAt? (keyOf 0x2C21 4)).any (fun r => decide (r.valueOf? 9280 = some 9280 ∧ r.chk.abort? 9280 = none ∧
      r.valueOf? 9281 = some 9281 ∧ r.chk.abort? 9281 = none)) = true := by decide

theorem test_threshold_at_its_bound :
    (after (.objectWrite .mc 0x2C21 4 .full 9280) (frontState [])).get (K.thrEnter 3) = 9280 ∧
    (after (.objectWrite .mc 0x2C21 4 .full 9281) (frontState [])).get (K.thrEnter 3) = 8832 := by decide

/-- Spare 32 of bank 0 on the calibration node, in a run. -/
def onNode : State := (frontState [(K.convState 0 32, 4)]).but (fun c => { c with cal := { c.cal with running := true, conv := [[32], [], [], []] } })

theorem hyps_CalibrationAndLeapLine :
    (let s := (frontState []).but (fun c => { c with
       thermal := { c.thermal with rounds := [⟨0, []⟩] }, cal := { c.cal with held := true, judged := true } })
     s.chip.serves .mc K.calCommand ∧ s.chip.cal.running = false ∧ s.chip.vrefGood = true ∧ s.chip.serves .mc K.calRevert ∧
     s.chip.solsticeRuns 3 = false ∧ s.chip.get (K.runState 3) = 0) ∧
    (let s := (frontState [(K.sensorState 0, 0), (K.sensorTemp 0, 640), (K.runState 0, 3), (K.runState 3, 2)]).but (fun c => { c with
       thermal := { c.thermal with rounds := [⟨0, []⟩] }, cal := { c.cal with held := true, judged := true } })
     s.chip.cal.held = true ∧ s.chip.cal.running = false ∧ s.chip.vrefGood = true ∧ (∃ t, s.chip.frontMean = some t) ∧
     (∀ r : Fin 2, (s.chip.bufferHeads r.val).isEmpty = false) ∧ s.chip.get (K.runState 0) ≠ 0 ∧ s.chip.get K.refclkState = 0) ∧
    (let s := (frontState []).but (fun c => ({ c with
       cal := { c.cal with running := true, conv := [[32], [], [], []] } } : Chip).modBank 0 (fun k => { k with
         sub := some ⟨32, 0, 33, .standing⟩ }))
     at' s.chip.cal.conv 0 = [32] ∧ s.chip.cal.running = true ∧ s.chip.cal.refbuf = [] ∧ s.chip.get (K.convState 0 32) ≠ 5 ∧
     (s.chip.bank 0).sub = some ⟨32, 0, 33, .standing⟩ ∧ (s.chip.bank 0).fresh = none) ∧
    (let s := onNode
     at' s.chip.cal.conv 0 = [32] ∧ s.chip.cal.running = true ∧ s.chip.cal.refbuf = [] ∧ s.chip.get (K.convState 0 32) = 4 ∧
     (s.chip.bank 0).sub = none) ∧
    (let s := (frontState []).but (fun c => { c with cal := { c.cal with running := true } })
     s.chip.cal.running = true ∧ s.chip.cal.stopping = false ∧ s.chip.calDone = true ∧ s.chip.get K.vrefState = 0 ∧ s.chip.cal.held = false) ∧
    (let s := (fullState [(K.runState 0, 3)]).port 0 (fun p => { p with timing := true })
     (s.chip.head 0).timing = true ∧ (s.chip.head 0).gap = false ∧ s.chip.get (K.runState 0) = 3) := by
  refine ⟨by decide, ⟨by decide, by decide, by decide, ⟨_, rfl⟩, by decide, by decide⟩, by decide, by decide, by decide, by decide⟩

/-! ### The dictionary -/

/-- Hypotheses of a write that passes every check. -/
def passes (s : State) (m : Master) (idx : BitVec 16) (sub : BitVec 8) (v : Slot) (x : Int) (u : Upd) : Bool :=
  let key := keyOf idx sub
  match rowAt? key with
  | none => false
  | some r =>
    decide (s.chip.serves m key ∧ m ≠ .f1 ∧ r.acc ≠ .domain ∧ r.valueOf? v = some x ∧ s.chip.masterAbort? m key r = none ∧
      s.chip.valueAbort? key r x = none ∧ (r.upd = .s → s.chip.blockStopped key = true) ∧ r.chk ≠ .counter ∧
      s.chip.conflict? key x = none ∧ s.chip.raisesDemand key = false ∧ s.chip.unfitted key r = false ∧ r.upd = u) && (commandOf m key x).isNone

theorem hyps_WritesByUpdateClass :
    passes (frontState []) .mc 0x2C21 4 9280 9280 .i = true ∧
    passes (frontState []) .mc 0x4C00 4 3 3 .p = true ∧
    ownerOf (K.emissivity 3) = some 3 ∧ (fullState [(K.runState 3, 3)]).chip.ownerStopped 3 = false ∧
    passes (fullState [(K.runState 3, 3)]) .mc 0x38E0 1 0x8000 0x8000 .f = true ∧
    passes (fullState []) .mc 0x38E0 1 0x8000 0x8000 .f = true ∧ (fullState []).chip.ownerStopped 3 = true ∧
    (fullState []).chip.ownerHeld 3 = false ∧
    passes (frontState []) .mc 0x2402 1 48 48 .s = true := by decide

theorem hyps_WritesByUpdateClass_counter :
    let s := frontState [(K.lockViolations, 7)]
    s.chip.serves .mc K.lockViolations ∧ keyOf (BitVec.ofNat 16 (K.lockViolations / 256)) (BitVec.ofNat 8 K.lockViolations) = K.lockViolations ∧
    (rowAt? K.lockViolations).any (fun r => decide (r.acc ≠ .domain ∧ r.valueOf? 0 = some 0 ∧ s.chip.masterAbort? .mc K.lockViolations r = none ∧
      s.chip.valueAbort? K.lockViolations r 0 = none ∧ r.upd ≠ .s ∧ r.chk = .counter ∧ s.chip.unfitted K.lockViolations r = false)) = true ∧
    (commandOf .mc K.lockViolations 0).isNone = true := by decide

/-- Whether a check of the row of a key holds. -/
def rowHas (idx : BitVec 16) (sub : BitVec 8) (p : Row → Bool) : Bool := (rowAt? (keyOf idx sub)).any p

theorem hyps_RefusedWriteChangesNothing :
    let s := fullState [(K.runState 0, 3)]
    (s.chip.serves .can K.chipMode ∧ rowHas 0x2000 1 (fun r => r.acc = .ro)) ∧
    (s.chip.serves .can K.lockForce ∧ rowHas 0x2021 0 (fun r => r.acc = .rws)) ∧
    (s.chip.serves .can K.thrHyst ∧ rowHas 0x2C22 0 (fun r => decide (s.chip.masterAbort? .can K.thrHyst r = none ∧
      r.valueOf? 0x10000 = none ∧ r.chk = .range 64 1280 ∧ r.valueOf? 1281 = some 1281 ∧ r.valueOf? 63 = some 63))) ∧
    (s.chip.serves .can (K.mclkDiv 0) ∧ rowHas 0x2402 1 (fun r => decide (s.chip.masterAbort? .can (K.mclkDiv 0) r = none ∧
      r.valueOf? 48 = some 48 ∧ s.chip.valueAbort? (K.mclkDiv 0) r 48 = none ∧ r.upd = .s ∧ s.chip.blockStopped (K.mclkDiv 0) = false ∧
      s.chip.unfitted (K.mclkDiv 0) r = false))) ∧
    (let s := fullState [(K.actuatorFitted, 0)]
     s.chip.serves .can (K.bankMode 1) ∧ (rowAt? (K.bankMode 1)).any (fun r => decide (r.acc ≠ .domain ∧
       s.chip.masterAbort? .can (K.bankMode 1) r = none ∧ s.chip.unfitted (K.bankMode 1) r = true)) = true) := by decide

theorem hyps_HalvesOfSlots :
    (let s := (fullState []).but (fun c => { c with halves := [⟨.f0, K.spmCopySrc, 2 ^ 32 - 1, 0⟩] })
     Master.f0 ≠ .f1 ∧ s.chip.serves .f0 K.spmCopySrc ∧ keyOf 0x4882 1 = K.spmCopySrc ∧
     (rowAt? (keyOf 0x4882 1)).any (fun r =>
       decide (r.acc ≠ .domain ∧ 32 < r.width ∧ r.acc ≠ .wo ∧ s.chip.noDataFor .f0 K.spmCopySrc r = false)) = true ∧
     s.chip.halves.find? (fun (h : Half) => decide (h.m = .f0)) = some ⟨.f0, K.spmCopySrc, 2 ^ 32 - 1, 0⟩ ∧
     (∀ h ∈ s.chip.halves, h.word < 2 ^ 32) ∧ K.spmCopySrc ≠ K.lockForce ∧ copyOf K.lock 32 K.spmCopySrc = none ∧
     s.chip.latches.find? (fun (h : Half) => decide (h.m = .f0 ∧ h.key = K.spmCopySrc)) = none ∧ rowFor? .f0 K.spmCopySrc = rowAt? K.spmCopySrc ∧
     s.chip.halves.find? (fun (h : Half) => decide (h.m = .mc)) = none) ∧
    (let s := (fullState []).but (fun c => { c with latches := [⟨.f0, K.spmCopySrc, 2 ^ 32 - 1, 0⟩] })
     s.chip.reaches .f0 = true ∧
     s.chip.latches.find? (fun (h : Half) => decide (h.m = .f0 ∧ h.key = keyOf 0x4882 1)) = some ⟨.f0, K.spmCopySrc, 2 ^ 32 - 1, 0⟩) ∧
    ((fullState [(K.straps, 1)]).chip.reaches .f1 = true ∧ 6 ≤ (7 : Fin 8).val) := by decide

theorem hyps_LocksAreOwned :
    (let s := frontState []
     s.chip.serves .mc (K.lock 31) ∧ s.chip.nat (K.lock 31) = 0 ∧ s.chip.nat (K.lock 31) ≠ ownerCode .mc) ∧
    (let s := frontState [(K.lock 31, 1)]
     s.chip.serves .mc (K.lock 31) ∧ s.chip.nat (K.lock 31) = ownerCode .mc ∧ (1 : BitVec 8).toNat = ownerCode .mc ∧
     s.chip.nat (K.lock 31) ≠ ownerCode .sp) := by decide

theorem hyps_HoldAndAcknowledge :
    (let s := frontState [(K.stageHold, 0x8000)]
     s.chip.serves .mc K.stageHold ∧ clearBits (0xFF3F : BitVec 16).toNat 0xFF3F = 0 ∧
     (∀ o < 16, bitOf (s.chip.nat K.stageHold) o = true → bitOf (0xFF3F : BitVec 16).toNat o = true) ∧
     bitOf (s.chip.nat K.stageHold) 15 = true ∧ bitOf (0 : BitVec 16).toNat 15 = false ∧
     (∀ p < 16, p ≠ 15 → bitOf (s.chip.nat K.stageHold) p = true → bitOf (0 : BitVec 16).toNat p = true)) ∧
    ((frontState []).chip.serves .mc (K.errqAck (4 : Fin 5)) ∧ (frontState []).chip.serves .mc K.lockForce) := by decide

/-- The front die with a cool sensor, so that the NVM writes. -/
def coolState : State := frontState [(K.sensorState 0, 0), (K.sensorTemp 0, 640)]

theorem hyps_StoreAndRestore :
    (let s := coolState
     s.chip.nvm.job = none ∧ s.chip.nvmHolds = false ∧ s.chip.serves .mc (K.storeAll + (3 : Fin 4).val) ∧
     s.chip.serves .mc (K.restore 3) ∧ (0 : BitVec 32).toNat ≠ 0x65766173) ∧
    (∀ b ∈ [true, false],
     let s := coolState.but (fun c => { c with nvm := { c.nvm with job := some ⟨⟨1, 0, [], []⟩, b, true⟩ } })
     s.chip.nvm.job = some ⟨⟨1, 0, [], []⟩, b, true⟩ ∧ s.chip.nvmHolds = false ∧ s.chip.vanaLow = false ∧ s.chip.cellHeld 3 2 = false) ∧
    (let s := coolState.but (fun c => { c with
       nvm := { c.nvm with job := some ⟨⟨1, 0, [], []⟩, true, false⟩ }, rails := { c.rails with level := modAt c.rails.level 8 (fun _ => .under) } })
     s.chip.nvm.job = some ⟨⟨1, 0, [], []⟩, true, false⟩ ∧ s.chip.vanaLow = true) ∧
    (coolState.but (fun c => c.modBlock 3 2 (fun h => { h with resetting := true }))).chip.cellHeld 3 2 = true ∧
    (let s := (frontState [(K.sensorState 0, 0), (K.sensorTemp 0, 9600)]).but (fun c => { c with nvm := { c.nvm with holding := true } })
     s.chip.nvm.holding = true ∧ s.chip.nvmHot = false ∧ s.chip.nvm.job = none) := by decide

/-! ### Heads -/

/-- Head 3 running. -/
def head3 (l : List (Nat × Int)) : State := (fullState ([(K.runState 3, 3), (K.runRequest 3, 1)] ++ l)).port 3 (fun p => { p with timing := true })

theorem hyps_HeadSequences_start :
    (let s := fullState []
     s.chip.serves .mc (K.runRequest 3) ∧ s.chip.get (K.runState 3) = 0 ∧ s.chip.timingOk 3 = true ∧ s.chip.geometryKeeps 3 = true ∧
     s.chip.headsMayRun = true ∧ s.chip.rails.fault.getD 9 false = false ∧ (s.chip.fresh.admitted (K.runRequest 3) 1).2 = false) ∧
    (∀ i ∈ [(0 : Int), 1],
     let s := (fullState [(K.supMinCurrent 3, 1), (K.supCurrent 3, i), (K.supState 3, 3)]).port 3 (fun p => { p with phase := .supply })
     (s.chip.head 3).phase = .supply ∧ s.chip.rails.fault.getD 9 false = false ∧
     (i = 1 → s.chip.get (K.supMinCurrent 3) ≤ s.chip.get (K.supCurrent 3)) ∧
     (i = 0 → s.chip.get (K.supCurrent 3) < s.chip.get (K.supMinCurrent 3))) ∧
    (let s := (fullState []).port 3 (fun p => { p with phase := .ramp })
     (s.chip.head 3).phase = .ramp ∧ s.chip.ramping 3 = false) ∧
    (let s := (fullState [(K.runState 3, 2), (K.tapCount 3, 16)]).port 3 (fun p => { p with verified := 32, vRun := List.replicate 16 2 })
     s.chip.get (K.runState 3) = 2 ∧ s.chip.verifyFrames 3 ≤ (s.chip.head 3).verified ∧
     (∀ t < 16, (s.chip.endSwing 3 |>.head 3).vRun.getD t 0 < 4) ∧ s.chip.nat (K.tapCount 3) ≤ 16 ∧ s.chip.tapsLost 3 = false) := by
  decide

set_option maxRecDepth 40000 in
theorem hyps_HeadSequences_stop :
    ((head3 []).chip.serves .mc (K.runRequest 3) ∧ (head3 []).chip.get (K.runState 3) = 3 ∧ ((head3 []).chip.head 3).lost = false) ∧
    ((fullState [(K.runState 3, 4)]).chip.get (K.runState 3) = 4 ∧ (fullState []).chip.get (K.runState 3) = 0) ∧
    ((fullState [(K.runState 3, 1)]).chip.get (K.runState 3) = 1 ∧ ((fullState [(K.runState 3, 1)]).chip.head 3).lost = false) ∧
    (let s := (fullState [(K.runState 3, 5), (K.runRequest 3, 1)]).port 3 (fun p => { p with restart := true })
     s.chip.get (K.runState 3) = 5 ∧ (s.chip.head 3).lastFrame = false ∧ s.chip.ramping 3 = false ∧
     (s.chip.head 3).bias = List.replicate 8 0 ∧ (s.chip.head 3).restart = true ∧ (s.chip.fresh.headRest 3).get (K.runRequest 3) = 1 ∧
     (s.chip.fresh.headRest 3).headsMayRun = true) ∧
    (let s := (fullState [(K.runState 3, 5)]).port 3 (fun p => { p with lastFrame := true })
     s.chip.get (K.runState 3) = 5 ∧ (s.chip.head 3).lastFrame = true) ∧
    (let s := fullState [(K.runState 3, 5)]
     s.chip.get (K.runState 3) = 5 ∧ (s.chip.head 3).lastFrame = false ∧ s.chip.ramping 3 = false ∧
     (s.chip.head 3).bias = List.replicate 8 0 ∧ (s.chip.head 3).restart = false) := by decide

theorem hyps_HeadFaults :
    let s := (head3 [(K.supState 3, 2), (K.biasEnable 3, 0x80), (K.tapCount 3, 16)]).port 3 (fun p => { p with
      supLow := 10, biasLow := List.replicate 8 10, checkRun := 3, mclk := true })
    s.chip.get (K.supState 3) ≠ 0 ∧ s.chip.get (K.supState 3) ≠ 4 ∧ 10 ≤ (s.chip.head 3).supLow ∧
    bitOf (s.chip.nat (K.biasEnable 3)) 7 = true ∧ (s.chip.head 3).mclk = true ∧ 10 ≤ (s.chip.head 3).biasLow.getD 7 0 ∧
    3 ≤ (s.chip.head 3).checkRun ∧ s.chip.tapServes 3 15 = true := by decide

theorem hyps_HeadFaults_retry :
    let s := (fullState [(K.runState 3, 4), (K.runRequest 3, 1), (K.retryMax 3, 5)]).port 3 (fun p => { p with failed := 4 })
    s.chip.get (K.runState 3) = 4 ∧ s.chip.get (K.runRequest 3) = 1 ∧ (s.chip.head 3).failed < s.chip.nat (K.retryMax 3) ∧
    s.chip.headsMayRun = true := by decide

theorem hyps_LostHeadState :
    let s := (head3 []).port 3 (fun p => { p with supLow := 10 })
    10 ≤ (s.chip.head 3).supLow ∧ s.chip.get (K.runState 3) = 3 ∧ s.chip.solsticeRuns 3 = false ∧ (s.chip.bank 3).sub = none ∧
    (s.chip.source 3).open' = none ∧ s.chip.heads.length = 4 := by decide

theorem hyps_ConfigurationLink :
    (let s := (head3 []).port 3 (fun p => { p with queue := List.replicate 15 ⟨.request, false, 0, 0⟩ })
     s.chip.serves .mc (K.cfgRequest 3) ∧ ((s.chip.head 3).queue.filter (fun t => decide (t.user = .request))).length < 16) ∧
    (let s := (head3 []).port 3 (fun p => { p with queue := List.replicate 16 ⟨.request, false, 0, 0⟩, gap := true })
     16 ≤ ((s.chip.head 3).queue.filter (fun t => decide (t.user = .request))).length ∧ (s.chip.head 3).active = none ∧
     s.chip.get (K.runState 3) = 3 ∧ (s.chip.head 3).timing = true ∧ (s.chip.head 3).gap = true) ∧
    (∀ u ∈ [CfgUser.request, .script, .compare, .check, .tfpa], ∀ x ∈ [(0 : Nat), 7],
     let s := (head3 [(K.cfgDataBits 3, 16), (K.cfgCheckValue 3, 7)]).port 3 (fun p => { p with active := some ⟨u, true, 5, x⟩, scriptWait := true })
     (s.chip.head 3).active = some ⟨u, true, 5, x⟩ ∧ (s.chip.head 3).scriptWait = true ∧
     ((0 : BitVec 32).toNat % 2 ^ s.chip.nat (K.cfgDataBits 3) = x ∨ (7 : BitVec 32).toNat % 2 ^ s.chip.nat (K.cfgDataBits 3) = x) ∧
     s.chip.nat (K.cfgCheckValue 3) = 7) := by decide

theorem hyps_FramesAndConverters :
    (let s := head3 []
     (s.chip.head 3).timing = true ∧ (s.chip.head 3).lastFrame = false ∧ s.chip.get (K.triggerMode 3) ≠ 1) ∧
    (let s := head3 [(K.triggerMode 3, 1)]
     (s.chip.head 3).timing = true ∧ (s.chip.head 3).lastFrame = false ∧ s.chip.get (K.triggerMode 3) = 1 ∧
     (s.chip.head 3).freeRun = false ∧ (s.chip.head 3).trigAt = none) ∧
    (let s := (head3 []).but (fun c => { c with psi := { c.psi with waiting := [⟨0, 8⟩] } })
     s.chip.psi.waiting = [⟨0, 8⟩] ∧ (0 : Nat) ≤ s.chip.now) ∧
    (let s := (fullState []).but (fun c => c.modBank 3 (fun k => { k with resets := [(0, 33)] }))
     s.chip.get (K.convState 3 33) ≠ 5 ∧ 33 ∉ (s.chip.bank 3).inReset ∧ s.chip.cellHeld 1 7 = false ∧
     ((s.chip.bank 3).resets.filter (fun (e : Nat × Nat) => decide (s.chip.mono < e.1 + 1000000000) && decide (e.2 = 33))).length < 2) ∧
    (let s := (fullState []).but (fun c => c.modBank 3 (fun k => { k with resets := [(0, 33), (0, 33), (0, 2)], inReset := [4] }))
     s.chip.get (K.convState 3 33) ≠ 5 ∧ 33 ∉ (s.chip.bank 3).inReset ∧ s.chip.cellHeld 1 7 = false ∧ 4 ∈ (s.chip.bank 3).inReset ∧
     2 ≤ ((s.chip.bank 3).resets.filter (fun (e : Nat × Nat) => decide (s.chip.mono < e.1 + 1000000000) && decide (e.2 = 33))).length) ∧
    ((fullState []).but (fun c => c.modBlock 1 7 (fun h => { h with resetting := true }))).chip.cellHeld 1 7 = true := by decide

/-! ### Solstice, actuators -/

/-- An event of head 3 in a phase. -/
def solEvent (phase : Int) (l : List (Nat × Int)) : State :=
  (fullState ([(K.solsticeShutter 3, 3), (K.solsticeState 3, phase)] ++ l)).but (fun c => { c with
    sol := modAt c.sol 3 (fun x => { x with ev := some { n := 16, close := 0, settle := 0, reopen := 4, set := 2 } }) })

theorem hyps_SolsticeCommands :
    (let s := fullState [(K.solsticeShutter 3, 3)]
     s.chip.serves .mc (K.solsticeCommand 3) ∧ s.chip.get (K.solsticeShutter 3) = 3 ∧ s.chip.solsticeRuns 3 = false ∧
     s.chip.get (K.solsticeState 3) < 5 ∧ s.chip.serves .mc (K.tnrReseed 5) ∧ s.chip.pixelRuns = true) ∧
    ((fullState [(K.solsticeShutter 3, 0)]).chip.get (K.solsticeShutter 3) = 0) ∧
    ((solEvent 4 []).chip.get (K.solsticeState 3) < 5 ∧ (solEvent 4 []).chip.solsticeRuns 3 = true) ∧
    (5 ≤ (solEvent 5 []).chip.get (K.solsticeState 3)) := by decide

/-- A resident set of one record. -/
def oneRecord : SetData := { view := [0], shadow := [0], base := 0, factoryCrc := 0 }

theorem hyps_SolsticeEvents_commit :
    let s := (fullState []).but (fun c => { c with
      sol := modAt c.sol 3 (fun x => { x with pass := some 31, newE := [1] })
      onion := { c.onion with sets := modAt c.onion.sets 31 (fun _ => some oneRecord) } })
    (s.chip.solstice 3).pass = some 31 ∧ s.chip.setData 31 = some oneRecord ∧ s.chip.sol.length = 4 ∧ s.chip.onion.sets.length = 32 := by
  decide

theorem hyps_SolsticeEvents_timeouts :
    (let s := solEvent 2 [(K.solsticePhaseFrame 3, 30), (K.solsticeShutter 3, 1)]
     s.chip.get (K.solsticeState 3) = 2 ∧ s.chip.shutterIs 3 1 = false ∧ 30 ≤ s.chip.phaseFrames 3) ∧
    (let s := (solEvent 5 [(K.solsticePhaseFrame 3, 30), (K.solsticeShutter 3, 1), (K.bankMode 0, 3)]).but (fun c =>
       c.modActBank 0 (fun k => { k with report := 3 }))
     (s.chip.solstice 3).ev.isSome = true ∧ s.chip.shutterBank 3 = some 0 ∧ s.chip.get (K.solsticeState 3) = 5 ∧
     s.chip.closeFaulty 3 = true) ∧
    (solEvent 7 []).chip.get (K.solsticeState 3) = 7 := by decide

/-! ### Actuators -/

/-- The driver fitted and supplied, with its banks running. -/
def driver (l : List (Nat × Int)) : State :=
  frontState ([(K.actuatorFitted, 1), (K.vsolState, 0), (K.bankRun 0, 1), (K.bankRun 1, 1), (K.channelMask 0, 3), (K.channelMask 1, 3)] ++ l)

theorem hyps_ActuatorCommands :
    (∀ v ∈ [(0 : Int), 3],
     let s := driver [(K.chState 3, v)]
     s.chip.serves .mc (K.chCommand 3) ∧ s.chip.chAbort? 3 = none ∧ s.chip.get (K.chState 3) = v) ∧
    (let s := driver [(K.bankMode 1, 3)]
     s.chip.serves .mc (K.shutterCommand 1) ∧ s.chip.actAbort? 1 = none ∧ s.chip.get (K.bankMode 1) = 3 ∧ s.chip.bankActive 1 = false ∧
     (s.chip.actBank 1).queue = [] ∧ s.chip.solsticeHolds 1 = false ∧ bitOf (s.chip.nat (K.channelMask 1)) 0 = true ∧
     bitOf (s.chip.nat (K.channelMask 1)) 1 = true ∧ s.chip.serves .mc (K.bankRun 1) ∧
     s.chip.get K.actuatorFitted = 1 ∧ (s.chip.actBank 1).latched = false) ∧
    (let s := (driver []).but (fun c => c.modActBank 1 (fun k => { k with latched := true }))
     s.chip.serves .mc (K.bankFaultClear 1) ∧ s.chip.get K.actuatorFitted = 1 ∧ (s.chip.actBank 1).latched = true) ∧
    (bitOf ((driver [(K.channelMask 1, 2)]).chip.nat (K.channelMask 1)) 0 = false) ∧
    (∀ v ∈ [(2 : Int), 3, 4, 5],
     let s := driver [(K.chState 3, v)]
     s.chip.serves .mc (K.bankRun 1) ∧ s.chip.solsticeHolds 1 = false ∧ s.chip.act.chans.length = 4 ∧ s.chip.get (K.chState 3) = v ∧
     (s.chip.actCh 3).result ≠ 4) ∧
    (let s := (driver []).but (fun c => ({ c with act := { c.act with parking := true } } : Chip).modActBank 1 (fun k => { k with
       park := 2, queue := [(2, .park)] }))
     s.chip.solsticeHolds 1 = false ∧ s.chip.bankActive 1 = false ∧ (s.chip.actBank 1).park = 2 ∧ s.chip.act.banks.length = 2) ∧
    (frontState [(K.actuatorFitted, 0)]).chip.get K.actuatorFitted = 0 := by decide

theorem hyps_ActuatorPhases :
    (let s := (driver []).but (fun c => c.modActBank 1 (fun k => { k with queue := [(3, .panel)] }))
     s.chip.mayBoost 3 = true ∧ s.chip.get (K.bankMode (3 / 2)) ≠ 3 ∧ s.chip.act.chans.length = 4) ∧
    (let s := (driver [(K.chState 3, 2), (K.hkRail 10, 24000000)]).but (fun c => ({ c with clk := { c.clk with ticks := 6000 } } : Chip).modActCh 3
       (fun a => { a with profile := { a.profile with tMin := 6000000, tMax := 6000000 } }))
     s.chip.get (K.chState 3) = 2 ∧ (s.chip.actCh 3).profile.motionCheck = false ∧
     (s.chip.actCh 3).profile.tMin = 6000000 ∧ (s.chip.actCh 3).profile.tMax = 6000000 ∧
     (rneDiv ((s.chip.phaseTime 3 : Int) * s.chip.get (K.hkRail 10)) 24000000).toNat = 6000000) ∧
    (let s := (driver [(K.chState 3, 2)]).but (fun c => c.modActCh 3 (fun a => { a with profile := { a.profile with tMin := 1 } }))
     s.chip.get (K.chState 3) = 2 ∧ s.chip.phaseTime 3 = 0 ∧ (s.chip.actCh 3).profile.tMin = 1) ∧
    (let s := (driver [(K.chState 3, 2)]).but (fun c => c.modActCh 3 (fun a => { a with profile := { a.profile with motionCheck := true } }))
     s.chip.get (K.chState 3) = 2 ∧ (s.chip.actCh 3).profile.motionCheck = true ∧ (s.chip.actCh 3).motion = 0) ∧
    (let s := (driver [(K.chState 3, 3)]).but (fun c => c.modActCh 3 (fun a => { a with profile := { a.profile with holdTime := 1 } }))
     s.chip.get (K.chState 3) = 3 ∧ (s.chip.actCh 3).profile.holdTime ≠ 0) ∧
    (∀ r ∈ [1, 4],
     let s := (driver [(K.chState 3, 4)]).but (fun c => c.modActCh 3 (fun a => { a with result := r }))
     s.chip.get (K.chState 3) = 4 ∧ s.chip.act.chans.length = 4 ∧ clampEnergy (s.chip.samples 3 [0]) ≤ 30000 ∧
     (s.chip.actCh 3).result = r ∧ (r = 1 → decayResult (s.chip.actCh 3).result ≠ 4)) ∧
    (driver [(K.chState 3, 5)]).chip.get (K.chState 3) = 5 := by decide

theorem hyps_ActuatorFaults :
    (let s := driver [(K.chState 3, 3), (K.bankMode 1, 1)]
     s.chip.get (K.chState 3) = 3 ∧ s.chip.get (K.chState (s.chip.actOf 3)) = 3 ∧ s.chip.get (K.bankMode (3 / 2)) = 1) ∧
    (let s := driver []
     s.chip.get (K.bankMode (3 / 2)) ≠ 1 ∧ s.chip.chActive (s.chip.actOf 3) = false ∧ (s.chip.actBank (3 / 2)).latched = false ∧
     s.chip.get K.vsolState = 0 ∧ s.chip.bankActive 0 = false ∧ s.chip.bankActive 1 = false ∧ (s.chip.actBank 0).queue = [] ∧
     (s.chip.actBank 1).queue = []) ∧
    (let s := (driver []).but (fun c => c.modActBank 1 (fun k => { k with testing := true }))
     (s.chip.actBank 1).testing = true ∧ (s.chip.actBank 1).found = 0 ∧ s.chip.nat (K.offstateResult 1) = 0) ∧
    (let s := (driver []).but (fun c => { c with act := { c.act with clamp := [(0, 500000)] } })
     sumN (s.chip.clampRecent.map (·.2)) ≤ 500000) ∧
    (let s := (driver []).but (fun c => { c with act := { c.act with
       parking := true, banks := c.act.banks.map (fun k => { k with park := 3 }) } })
     s.chip.act.parking = true ∧ s.chip.act.banks.all (fun k => decide (k.park = 3)) = true) := by decide

/-! ### Lines, sets, CSI-2, streams -/

/-- A source of a running pixel die changed. -/
def State.src (s : State) (i : Nat) (f : Source → Source) : State := s.but (fun c => c.modSource i f)

theorem hyps_HeadRowsReachTheirFifo :
    let w : Work := { (default : Work) with id := 1, front := true }
    let s := (head3 []).src 3 (fun x => { x with works := [w] })
    (s.chip.head 3).timing = true ∧ (s.chip.head 3).gap = false ∧ s.chip.get (K.runState 3) = 3 ∧
    (s.chip.head 3).rows + 1 < (geoOf s.chip.dict 3).h ∧ s.chip.regionRestarting 1 = false ∧ s.chip.pixelRuns = true ∧
    (s.chip.source 3).open' = some w ∧ w.front = true ∧ (s.chip.source 3).fifo.length < s.chip.fifoRoom 3 ∧
    s.chip.pix.sources.length = 6 ∧ s.chip.heads.length = 4 := by decide

/-- A line that waits. -/
def waiting (d : Nat) : Line := { (default : Line) with deadline := d }

theorem hyps_LinesAreGranted :
    (let s := ((fullState []).src 1 (fun x => { x with fifo := [waiting 7] })).src 3 (fun x => { x with fifo := [waiting 7] })
     at' s.chip.pix.grants 0 = none ∧ s.chip.lanesWork 0 = true ∧ s.chip.arbitrate 0 = some (1, waiting 7) ∧ (waiting 7).done = false ∧
     s.chip.mono * 6 ≤ (waiting 7).deadline ∧ s.chip.isThermal 3 = true ∧ (s.chip.source 3).fifo.head? = some (waiting 7)) ∧
    (let s := ((fullState []).src 1 (fun x => { x with fifo := [waiting 7] })).but (fun c => ({ c with
       pix := { c.pix with grants := [some 1, none] } } : Chip).modBlock 2 1 (fun h => { h with resetting := true }))
     at' s.chip.pix.grants 0 = some 1 ∧ (s.chip.source 1).fifo = [waiting 7] ∧ s.chip.suspended 2 1 = false ∧ s.chip.cellHeld 2 1 = true) ∧
    (let s := (fullState []).but (fun c => { c with pix := { c.pix with grants := [some 1, none] }, clk := { c.clk with ticks := 2000 } })
     at' s.chip.pix.grants 0 = some 1 ∧ s.chip.suspended 2 1 = false ∧ s.chip.cellHeld 2 1 = false) ∧
    (let s := (fullState []).but (fun c => ({ c with pix := { c.pix with grants := [some 1, none] } } : Chip).modRegion 3 (fun r =>
       { r with restarting := true }))
     at' s.chip.pix.grants 0 = some 1 ∧ s.chip.suspended 2 1 = true) := by decide

theorem hyps_SetsLoadSaveEvict_commands :
    (let s := fullState [(K.setFlashOffset 31, 0), (K.setState 31, 4)]
     s.chip.serves .mc K.onionLoad ∧ (0x21F : BitVec 64).toNat < 1024 ∧ (0x21F : BitVec 64).toNat % 256 ≤ 31 ∧
     s.chip.get (K.setFlashOffset 31) ≠ 0xFFFFFFFF ∧ s.chip.pixelRuns = true ∧ s.chip.onion.load = none ∧ s.chip.get (K.setState 31) ≠ 1 ∧
     s.chip.passDue 31 = false ∧ s.chip.setUsers 31 = [] ∧ s.chip.solsticeOwns 31 = false ∧ s.chip.dmaCopies (s.chip.nat K.onionDmaChannel) = false ∧
     s.chip.serves .mc K.onionSave ∧ s.chip.inDram 31 = true ∧ s.chip.serves .mc K.onionEvict) ∧
    (let s := (fullState []).but (fun c => { c with onion := { c.onion with load := some ⟨31, true, false, 0, 0⟩ } })
     s.chip.onion.load = some ⟨31, true, false, 0, 0⟩ ∧ s.chip.onion.boot = [] ∧ s.chip.dmaCopy? 0 = none) ∧
    (let s := (fullState [(K.setFieldSequence 31, 9)]).but (fun c => { c with onion := { c.onion with
       save := some (31, 9), sets := modAt c.onion.sets 31 (fun _ => some oneRecord) } })
     s.chip.onion.save = some (31, s.chip.nat (K.setFieldSequence 31)) ∧ s.chip.onion.saves = [] ∧ s.chip.setData 31 = some oneRecord ∧
     s.chip.spm.seq.any (fun q => decide (q.user ≠ .save 31)) = false ∧ s.chip.spm.waitPages = [] ∧ s.chip.spm.waitReads = [] ∧
     s.chip.spm.copy = none ∧ s.chip.get K.spRole = 0) ∧
    (let s := (fullState [(K.setFieldSequence 31, 9), (K.spRole, 1)]).but (fun c => { c with onion := { c.onion with
       save := some (31, 9), sets := modAt c.onion.sets 31 (fun _ => some oneRecord) } })
     s.chip.get K.spRole ≠ 0 ∧ s.chip.spm.seq = none) := by decide

/-- The header of a 1 x 1 image with a zero record and so many field slots: Table 8.2's magic, version, geometry and CRCs. -/
def headerOf (slots : Nat) : List Byte :=
  let h := leBytes 4 0x5343545A ++ leBytes 2 1 ++ leBytes 2 1 ++ leBytes 2 1 ++ leBytes 3 0 ++ leBytes 1 slots ++ leBytes 2 0 ++
    leBytes 4 (crc32 (List.replicate 16 0)) ++ List.replicate 40 0
  h ++ leBytes 4 (crc32 h)

set_option maxRecDepth 20000 in
theorem hyps_SetsLoadSaveEvict_image :
    let s := (fullState []).but (fun c => { c with onion := { c.onion with load := some ⟨31, true, false, 0, 0⟩ } })
    s.chip.loadReaches ⟨31, true, false, 0, 0⟩ = true ∧
    headerOk (headerOf 1) = true ∧ s.chip.setPlace (setBytes (fieldAt (headerOf 1) 6 2) (fieldAt (headerOf 1) 8 2)) = some 0 ∧
    (List.replicate 16 (0 : Byte)).length = 16 * (fieldAt (headerOf 1) 6 2 * fieldAt (headerOf 1) 8 2) ∧
    crc32 (List.replicate 16 0) = fieldAt (headerOf 1) 16 4 ∧
    headerOk (headerOf 2) = true ∧ fieldAt (headerOf 2) 13 1 = 2 ∧ fieldAt (headerOf 2) 16 4 ≠ oneRecord.factoryCrc ∧
    fieldAt (headerOf 2) 16 4 = ({ oneRecord with factoryCrc := crc32 (List.replicate 16 0) } : SetData).factoryCrc := by decide

theorem hyps_RevertExchangesFields :
    (let s := fullState [(K.setShadowValid 31, 1), (K.setOwner 31, 0xFF)]
     s.chip.serves .mc K.onionRevert ∧ s.chip.pixelRuns = true ∧ s.chip.get (K.setShadowValid 31) = 1 ∧ s.chip.passOn 31 = false ∧
     4 ≤ s.chip.nat (K.setOwner 31)) ∧
    (let p : Pass := ⟨31, .revert, false⟩
     let s := (fullState []).but (fun c => { c with onion := { c.onion with
       passes := [p], sets := modAt c.onion.sets 31 (fun _ => some oneRecord) } })
     s.chip.onion.passes.find? (fun p => decide (p.set = 31 ∧ p.kind = .revert) && !p.waits) = some p ∧
     s.chip.setData 31 = some oneRecord ∧ s.chip.onion.sets.length = 32) := by decide

theorem hyps_CsiReception :
    (let s := fullState []
     s.chip.serves .mc (K.rxRun 1) ∧ s.chip.pathRuns = true ∧ s.chip.get (K.rxState 1) = 0 ∧ (∀ i : Fin 2, s.chip.get (K.srcState i) = 0)) ∧
    (let s := fullState [(K.rxRun 0, 1), (K.srcRole 1, 0), (K.srcReceiver 1, 0), (K.srcDataType 1, 0x24), (K.srcWidth 1, 64),
      (K.srcHeight 1, 64)]
     s.chip.serves .mc (K.srcRun 1) ∧ s.chip.pathRuns = true ∧ s.chip.get (K.srcState 1) = 0 ∧ s.chip.srcStartOk 1 = true ∧
     (s.chip.fresh.admitted (K.srcRun 1) 1).2 = false) := by decide

theorem hyps_CsiReception_packets :
    (∀ b ∈ [true, false],
     let s := (fullState [(K.rxRun 0, 1), (K.rxState 0, 2), (K.rxLanes 0, 4), (K.srcState 1, 2), (K.srcDataType 1, 0x24), (K.srcVc 1, 3), (K.srcReceiver 1, 0)]).src 5
       (fun x => { x with isOpen := b, sender := some 0xFFFF })
     s.chip.rxWorks 0 = true ∧ s.chip.rxRoute 0 3 = some 1 ∧ senderGap (s.chip.source 5).sender (1 : BitVec 16).toNat = false ∧
     s.chip.nat (K.srcDataType 1) = 0x24 ∧ (s.chip.source 5).isOpen = b ∧ (s.chip.source 5).ecc = false ∧ s.chip.get (K.rxState 0) = 2 ∧
     3 < s.chip.nat (K.rxLanes 0) ∧ s.chip.cellHeld 1 8 = false ∧ s.chip.get (K.srcState 1) = 2) ∧
    (let s := (fullState [(K.rxState 0, 2), (K.rxLanes 0, 4)]).but (fun c => c.modBlock 1 8 (fun h => { h with resetting := true }))
     s.chip.cellHeld 1 8 = true ∧ s.chip.get (K.rxState 0) = 2 ∧ 3 < s.chip.nat (K.rxLanes 0)) ∧
    (fullState [(K.srcState 1, 3)]).chip.get (K.srcState 1) = 3 := by decide

/-- Stream 7 of head 0, delivering one pixel. -/
def stream7 (l : List (Nat × Int)) : State :=
  fullState ([(K.runState 0, 3), (K.runRequest 0, 1), (K.ringBase 7, 4096), (K.slotSize 7, 4096), (K.streamSource 7, 0), (K.cropWidth 7, 32),
    (K.cropHeight 7, 16), (K.outWidth 7, 32), (K.outHeight 7, 16), (K.lineStride 7, 64), (K.streamFormat 7, 5)] ++ l)

theorem hyps_StreamsDeliver_start :
    let s := stream7 []
    s.chip.serves .mc (K.streamRun 7) ∧ s.chip.pixelOn = true ∧ s.chip.get (K.streamState 7) = 0 ∧ s.chip.nv (K.streamSource 7) < 16 ∧
    s.chip.sourceWanted (s.chip.nv (K.streamSource 7)) = true ∧ s.chip.val (K.ringBase 7) ≠ 0 ∧ s.chip.val (K.slotSize 7) ≠ 0 ∧
    s.chip.streamFormatOk 7 = true ∧ s.chip.streamShape 7 = true ∧ (s.chip.fresh.admitted (K.streamRun 7) 1).2 = false ∧
    s.chip.pix.streams.length = 8 := by decide

/-- A job of stream 7 whose image is there, in slot 1. -/
def job7 : Job := { (default : Job) with par := [(K.outHeight 7, 1)], img := some default, slot := some 1, window := some (0, 1) }

/-- Stream 7 in a state with jobs. -/
def streaming (st : Int) (l : List Job) : State :=
  (stream7 [(K.streamState 7, st)]).but (fun c => ({ c with clk := { c.clk with ticks := 2000 } } : Chip).modStream 7 (fun x => { x with jobs := l }))

theorem hyps_StreamsDeliver_lines :
    (∀ v ∈ [(2 : Int), 3],
     let s := streaming v [job7]
     s.chip.serves .mc (K.streamRun 7) ∧ s.chip.get (K.streamState 7) = v ∧ (s.chip.stream 7).jobs = [job7] ∧ job7.img = some default ∧
     job7.slot = some 1 ∧ job7.window = some (0, 1) ∧ job7.line < job7.par.natAt (K.outHeight 7) ∧ s.chip.canSend0 = true ∧
     (∀ p ∈ [(4, 1), (2, 6)], s.chip.suspended p.1 p.2 = false ∧ s.chip.cellHeld p.1 p.2 = false)) ∧
    (∀ v ∈ [(2 : Int), 3],
     let j : Job := { job7 with line := 1 }
     let s := streaming v [j]
     (s.chip.stream 7).jobs = [j] ∧ j.par.natAt (K.outHeight 7) ≤ j.line ∧ s.chip.pix.streams.length = 8 ∧
     s.chip.get (K.streamState 7) = v ∧ s.chip.staged = []) ∧
    (∀ v ∈ [(1 : Int), 2, 4],
     let s := streaming v []
     s.chip.get (K.streamState 7) ≠ 0 ∧ (s.chip.stream 7).jobs = [] ∧ s.chip.staged = []) ∧
    (∀ p ∈ [(4, 1), (2, 6)],
     let s := (streaming 2 [job7]).but (fun c => c.modBlock p.1 p.2 (fun h => { h with resetting := true }))
     s.chip.suspended p.1 p.2 = false ∧ s.chip.cellHeld p.1 p.2 = true) ∧
    (let s := (streaming 2 [job7]).but (fun c => c.modRegion 3 (fun r => { r with restarting := true }))
     s.chip.suspended 4 1 = true ∧ s.chip.suspended 2 6 = true) ∧
    ((stream7 []).chip.get (K.streamState 7) = 0) := by decide

/-- A record of source 5 and its copy. -/
def rec5 : StatRec := { (default : StatRec) with source := 5, seq := 7 }

theorem hyps_StatisticsAndPalettes :
    (let s := (fullState []).src 5 (fun x => { x with due := [default] })
     (s.chip.source 5).due = [default] ∧ s.chip.pix.sources.length = 6) ∧
    (∀ b ∈ [true, false],
     let x : StatCopy := { source := 5, seq := 7, started := b, data := if b then some rec5 else none }
     let s := ((fullState [(K.statDmaChannel 5, 15), (K.statHostSlots 5, 2)]).src 5 (fun y => { y with records := [rec5] })).but (fun c =>
       { c with pix := { c.pix with copies := [x] } })
     s.chip.firstCopy 15 = some x ∧ x.started = b ∧ ¬ (1 ≤ s.chip.get (K.dmaState 15) ∧ s.chip.get (K.dmaState 15) ≤ 3) ∧
     s.chip.canSend0 = true ∧ (s.chip.source 5).records.any (fun r => r.seq = x.seq) = true ∧
     (s.chip.nat (K.statHostWrite 5) + 1) % max 1 (s.chip.nat (K.statHostSlots 5)) ≠ s.chip.nat (K.statHostRead 5) ∧
     (s.chip.source 5).records.find? (fun r => r.seq = x.seq) = some rec5 ∧ (b = true → x.data = some rec5)) ∧
    (let x : StatCopy := { source := 5, seq := 7, started := true, data := some rec5 }
     let s := (fullState [(K.statDmaChannel 5, 15), (K.statHostSlots 5, 2), (K.dmaState 15, 3)]).but (fun c => { c with
       pix := { c.pix with copies := [{ source := 5, seq := 7, started := true, data := some rec5 }] }
       dma := { c.dma with grant := some ⟨15, [], false⟩ } })
     s.chip.dmaCopy? 15 = some x ∧ x.data = some rec5 ∧ x.source < 6 ∧ s.chip.canSend0 = true ∧ s.chip.dmaWorks = true ∧
     s.chip.dmaMayEnd 15 = true) ∧
    ((fullState []).chip.serves .mc K.paletteLoad ∧ (fullState []).chip.pixelRuns = true ∧ (7 : BitVec 8).toNat ≤ 7 ∧
     7 < (8 : BitVec 8).toNat) ∧
    (let s := (fullState []).but (fun c => { c with pix := { c.pix with palLoads := [(7, [])] } })
     s.chip.pix.palLoads.find? (fun x => x.1 = (7 : Fin 8).val) = some (7, [])) := by decide

/-! ### Mailboxes, USDO -/

theorem hyps_MailboxMessages :
    (let s := (fullState [(K.mbxH2dWord 5 0, 0x00010800)]).but (fun c => { c with can := { c.can with usdo := some ⟨true, 0, 8, []⟩ } })
     mbxHost 5 .f0 = true ∧ s.chip.serves .f0 (K.mbxH2dCommand 5) ∧ s.chip.h2dFull 5 = false ∧ s.chip.boot.hkpRestart = false ∧
     s.chip.gnonerBusy = true ∧ 0 < hdrLength (s.chip.nat (K.mbxH2dWord 5 0)) ∧ hdrLength (s.chip.nat (K.mbxH2dWord 5 0)) ≤ 8 ∧
     s.chip.serves .f0 (K.mbxD2hRelease 5) ∧ s.chip.serves .f0 (K.mbxIrqAck 5)) ∧
    (let s := fullState [(K.mbxH2dState 5, 1), (K.mbxIrqStatus 5, 2), (K.mbxD2hState 5, 1)]
     s.chip.serves .f0 (K.mbxH2dCommand 5) ∧ s.chip.h2dFull 5 = true ∧ s.chip.pixelRuns = true ∧ s.chip.d2hFull 5 = true ∧
     (s.chip.mbxOf 5).d2hTimedOut = false ∧ (s.chip.mbxOf 5).store.length < 2 ∧ s.chip.boot.hkpRestart = false ∧
     bitOf (s.chip.nat (K.mbxIrqStatus 5)) 1 = true) ∧
    (let s := (fullState []).but (fun c => c.modMbx 5 (fun x => { x with store := [⟨[], some [1]⟩, ⟨[], none⟩] }))
     (s.chip.mbxOf 5).store = [⟨[], some [1]⟩, ⟨[], none⟩] ∧ s.chip.d2hFull 5 = false ∧ s.chip.mbx.length = 8 ∧
     s.chip.suspended 4 3 = false ∧ s.chip.cellHeld 4 3 = false) ∧
    (let s := (fullState []).but (fun c => c.modBlock 4 3 (fun h => { h with resetting := true }))
     s.chip.pixelRuns = true ∧ s.chip.suspended 4 3 = false ∧ s.chip.cellHeld 4 3 = true) ∧
    (let s := (fullState []).but (fun c => c.modRegion 5 (fun r => { r with restarting := true }))
     s.chip.pixelRuns = true ∧ s.chip.suspended 4 3 = true) := by decide

/-- A request that waits on channel 7. -/
def asked (l : List Nat) : State := (fullState [(K.straps, 1)]).but (fun c => c.modMbx 7 (fun x => { x with store := [⟨l, none⟩] }))

/-- The answer of a read, by value. -/
def readOf (r : Except Abort (Nat × Chip)) : Option Nat := match r with
  | .ok x => some x.1
  | .error _ => none

theorem hyps_MailboxRequests_objects :
    (let s := asked [0x00010200, K.thrHyst * 256]
     s.chip.mbxOldest 7 = some ⟨[0x00010200, K.thrHyst * 256], none⟩ ∧ hdrType 0x00010200 = 0x0001 ∧
     readOf (s.chip.fresh.slotRead (mbxMaster 7) (requestKey (K.thrHyst * 256))) = some 192) ∧
    (let s := asked [0x00020400, K.thrHyst * 256, 64, 0]
     hdrType 0x00020400 = 0x0002 ∧ (s.chip.fresh.slotWrite (mbxMaster 7) (requestKey (K.thrHyst * 256)) 64).2 = none) ∧
    (let w := K.thrEnter 1 * 256 + 3
     let s := asked [0x00030200, w]
     hdrType 0x00030200 = 0x0003 ∧ w % 256 ≤ 3 ∧ requestKey w % 256 + w % 256 ≤ 256 ∧
     (match s.chip.fresh.slotRun (mbxMaster 7) (requestKey w) (w % 256) with | .ok x => x.1.length | .error _ => 0) = 6) ∧
    hdrType 0x00100800 = 0x0010 := by decide

theorem hyps_MailboxRequests_update :
    (∀ b ∈ [true, false],
     let s := (asked [0x01000500, 0xF0000, 0, 0, 65536]).but (fun c => ({ c with pcie := { c.pcie with busMaster1 := b } } : Chip).setAll
       [(K.sensorState 0, 0), (K.sensorTemp 0, 640)])
     s.chip.mbxOldest 7 = some ⟨[0x01000500, 0xF0000, 0, 0, 65536], none⟩ ∧ s.chip.boot.hkpRestart = false ∧
     hdrType 0x01000500 = 0x0100 ∧ s.chip.vanaLow = false ∧ s.chip.imageAbort? 0xF0000 65536 = none ∧ s.chip.canSend1 = b) ∧
    (let s := asked [0x01010100]
     s.chip.mbxOldest 7 = some ⟨[0x01010100], none⟩ ∧ (at' s.chip.nvm.slots (1 - s.chip.boot.slot)).sound (1 - s.chip.boot.slot) = true) ∧
    (let s := (asked [0x01010100]).but (fun c => { c with nvm := { c.nvm with slots := [{}, { written := [(0, 64)] }] } })
     (at' s.chip.nvm.slots 1).sound 1 = false) ∧
    hdrType 0x01010100 = 0x0101 ∧ hdrType 0x01020100 = 0x0102 := by decide

theorem hyps_UsdoAndPdos :
    (let s := fullState []
     s.chip.usdoServes = true ∧ (0x601 : BitVec 11).toNat = 0x600 + s.chip.nat K.canNodeId ∧ s.chip.can.usdo = none ∧
     s.chip.boot.hkpRestart = false ∧ s.chip.canMayTransmit = true ∧
     (match s.chip.fresh.uploadAll true (keyOf 0x2C21 0) with | .ok x => x.1.length | .error _ => 0) = 9 ∧
     s.chip.downloadAbort? K.thrHyst 2 = none ∧
     (match s.chip.fresh.upload K.thrHyst with | .ok x => x.1.length | .error _ => 0) = 2) ∧
    (let s := (fullState []).but (fun c => { c with can := { c.can with usdo := some ⟨true, K.thrHyst, 2, [64]⟩ } })
     s.chip.can.usdo = some ⟨true, K.thrHyst, 2, [64]⟩ ∧ s.chip.usdoServes = true ∧ ([64] ++ [0] : List Byte).length = 2) ∧
    (let s := fullState [(K.rpdoCobId 1, 0x301)]
     s.chip.canOnBus = true ∧ s.chip.rpdoValid 1 = true ∧ s.chip.get K.nmtState = 5 ∧
     sumN ((s.chip.rpdoEntries 1).map (· % 256)) ≤ 8 * (List.replicate 64 (0 : Byte)).length ∧ s.chip.nmtListens = true) ∧
    ((fullState [(K.nmtResetAction, 1)]).chip.get K.nmtResetAction = 1 ∧ (fullState []).chip.get K.nmtResetAction ≠ 1 ∧
     (frontState [(K.nmtState, 0x7F)]).chip.get K.nmtState ≠ 5) := by decide

/-! ### Serial port, DMA -/

/-- The slave with a request. -/
def slave (r : SpRequest) : State := (frontState [(K.spRole, 1), (K.spsState, 1)]).but (fun c => { c with sps := { c.sps with request := some r } })

set_option maxRecDepth 20000 in
theorem hyps_SlaveFrames_link :
    (let s := frontState [(K.spRole, 1), (K.spsState, 2)]
     s.chip.reaches .sp = true ∧ s.chip.sps.toMaster = false ∧ s.chip.nat K.spsState = 2 ∧ requestOf [] = none ∧
     s.chip.serves .mc K.spRole ∧ s.chip.get K.spRole = 1) ∧
    (let f : List Byte := [0x10, 0, 0, 0, 0]
     requestOf (f ++ leBytes 2 (crc16 f)) = some ⟨1, 0, 0, 0, 0, []⟩) ∧
    (let s := (frontState [(K.spRole, 1)]).but (fun c => { c with sps := { c.sps with answer := some (1, []) } })
     s.chip.sps.answer = some (1, [])) ∧
    (let s := frontState [(K.spmState, 1)]
     s.chip.get K.spRole = 0 ∧ s.chip.get K.spmState = 1 ∧ (frontState [(K.spmState, 2)]).chip.get K.spmState ≠ 1) := by decide

theorem hyps_SlaveFrames_opcodes :
    (let r : SpRequest := ⟨1, 1, 0x2C22, 0, 1, []⟩
     (slave r).chip.sps.request = some r ∧ (slave r).chip.reaches .sp = true ∧
     readOf ((slave r).chip.fresh.slotRead .sp r.key) = some 192) ∧
    (let r : SpRequest := ⟨1, 2, 0x2C22, 0, 1, leBytes 8 64⟩
     ((slave r).chip.fresh.slotWrite .sp r.key (BitVec.ofNat 64 (fieldAt r.data 0 8))).2 = none ∧
     ((slave r).chip.fresh.slotWrite .sp r.key (BitVec.ofNat 64 (fieldAt r.data 0 8))).1.boot.phase = .ready) ∧
    (let r : SpRequest := ⟨1, 3, 0x2C21, 1, 16, []⟩
     highestSub r.idx = some 4 ∧ 1 ≤ r.count ∧ r.count ≤ 16 ∧ r.sub ≤ 4 ∧ r.idx ≠ 0x2020 ∧
     (match (slave r).chip.fresh.slotsFrom r.key (min r.count (4 - r.sub + 1)) with | .ok l => l.length | .error _ => 0) = 4) := by decide

theorem hyps_SlaveFrames_domains :
    (let r : SpRequest := ⟨1, 4, 0x2427, 0, 8, leBytes 4 0⟩
     1 ≤ r.count ∧ r.count ≤ 8) ∧
    (∃ k ∈ storedDomains, (frontState [(K.spRole, 1)]).chip.domainAbort? .sp k = none ∧
      (match (frontState [(K.spRole, 1)]).chip.fresh.domainRead .sp k with | .ok _ => true | .error _ => false) = true ∧
      ((frontState [(K.spRole, 1)]).chip.fresh.domainWrite .sp k (List.replicate 8 0)).2 = none) := by decide

set_option maxRecDepth 20000 in
theorem hyps_FlashAndScrub_window :
    (let s := (frontState []).but (fun c => { c with spm := { c.spm with seq := some ⟨true, 0, .xip⟩ } })
     s.chip.get K.spRole = 0 ∧ s.chip.flashBusy 0 = true ∧ s.chip.spm.seq = some ⟨true, 0, .xip⟩ ∧
     Nat.land (0x40 : BitVec 8).toNat (s.chip.nat K.spmErrorMask) = 0 ∧ (0x40 : BitVec 8).toNat % 2 = 0 ∧ s.chip.spm.waitPages = [] ∧
     s.chip.spm.copy = none ∧ s.chip.spm.waitReads = [] ∧ s.chip.onion.save = none ∧ s.chip.onion.saves = []) ∧
    (let s := (fullState []).but (fun c => { c with
       spm := { c.spm with seq := some ⟨true, 0, .save 31⟩ }, onion := { c.onion with save := some (31, 0) } })
     s.chip.spm.seq = some ⟨true, 0, .save 31⟩ ∧ Nat.land (0x40 : BitVec 8).toNat (s.chip.nat K.spmErrorMask) = 0) ∧
    (let s := frontState []
     s.chip.get K.spRole = 0 ∧ s.chip.flashBusy 0 = false ∧ s.chip.spm.lastRead = none ∧ s.chip.spm.page = none ∧
     s.chip.serves .mc K.spmErase ∧ s.chip.spm.seq = none ∧ s.chip.spm.copy = none ∧ (0xFFFFFFF : BitVec 32).toNat < 0x10000000) ∧
    (let s := (frontState []).but (fun c => { c with spm := { c.spm with page := some (0, List.replicate 255 0) } })
     s.chip.spm.page = some (0, List.replicate 255 0) ∧ (255 : BitVec 28).toNat = 0 + (List.replicate 255 (0 : Byte)).length ∧
     (255 : BitVec 28).toNat / 256 = 0 / 256 ∧ s.chip.serves .mc K.spmFlush) := by decide

theorem hyps_FlashAndScrub_copies :
    (let s := fullState [(K.spmCopyDst, 0xFFFF000), (K.spmCopyLength, 4096)]
     s.chip.serves .mc K.spmCopyStart ∧ s.chip.get K.spRole = 0 ∧ s.chip.spm.copy = none ∧ s.chip.onion.save = none ∧
     s.chip.nat K.spmCopyDst % 4096 = 0 ∧ s.chip.nat K.spmCopyLength ≠ 0 ∧
     s.chip.nat K.spmCopyDst + s.chip.nat K.spmCopyLength ≤ 0x10000000 ∧
     s.chip.nat K.spmCopySrc + s.chip.nat K.spmCopyLength ≤ s.chip.nat K.dramCapacity ∧
     s.chip.pixelRuns = true ∧ s.chip.get (K.dramChState 1) = 2) ∧
    (let s := (fullState []).but (fun c => { c with spm := { c.spm with copy := some (4096, 4096, 0, false) } })
     s.chip.spm.copy = some (4096, 4096, 0, false) ∧ s.chip.spm.seq = none) := by decide

theorem hyps_DmaTransfers_commands :
    (∀ v ∈ [(0 : Int), 1, 2, 3],
     let s := fullState [(K.dmaState 15, v)]
     s.chip.dmaMay .mc 15 = true ∧ s.chip.dmaHeld 15 = false ∧ s.chip.serves .mc (K.dmaStart 15) ∧ s.chip.serves .mc (K.dmaAbort 15) ∧
     s.chip.get (K.dmaState 15) = v) ∧
    ((fullState []).chip.dmaSound 15 = true ∧ (fullState []).chip.pixelOn = true) := by decide

theorem hyps_DmaTransfers_engine :
    (let s := fullState [(K.dmaState 15, 1), (K.dmaReqSource 15, dmaReqCode 11)]
     s.chip.dmaPaced 11 = [15] ∧ s.chip.pixelRuns = true ∧ s.chip.get (K.dmaState 15) = 1) ∧
    (let s := (fullState [(K.dmaState 15, 2), (K.dmaReqSource 15, dmaReqCode 11)]).but (fun c => { c with dma := { c.dma with
       reqs := List.replicate 12 true, chans := List.replicate 16 { asserted := some 7 } } })
     s.chip.dmaPaced 11 = [15] ∧ at' s.chip.dma.reqs 11 = true ∧ (s.chip.dmaCh 15).asserted.isSome = true ∧
     s.chip.get (K.dmaState 15) = 2 ∧ s.chip.dmaWorks = true ∧ s.chip.dma.grant = none ∧ s.chip.dmaNext = some 15) ∧
    (let s := (fullState [(K.dmaState 15, 3)]).but (fun c => { c with dma := { c.dma with grant := some ⟨15, [], false⟩ } })
     s.chip.dma.grant = some ⟨15, [], false⟩ ∧ s.chip.dmaWorks = true ∧ s.chip.dmaLastUnit 15 = true ∧ s.chip.dmaLoads 15 = false ∧
     s.chip.dmaStalled 15 = false ∧ s.chip.suspended 4 2 = false) := by decide

/-! ### CommandsTakeEffect: a state for each clause that no statement above shares -/

theorem hyps_CommandsTakeEffect_front :
    (let s := trips
     s.chip.levelCrossed 0 (-1) = true ∧ s.chip.boot.phase = .ready) ∧
    (inRound.chip.hkBusy 1 = true ∧ inRound.chip.hk.reset.length = 2 ∧ inRound.chip.hk.on = true ∧ inRound.chip.hk.waits.any id = false) ∧
    (let s := frontState [(K.throttleLevel, 4), (K.sensorState 0, 0), (K.sensorTemp 0, 6400)]
     s.chip.frontSensors ≠ [] ∧ (∀ j ∈ s.chip.frontSensors, s.chip.get (K.sensorTemp j) ≤ s.chip.get K.thrL4Exit) ∧ s.chip.throttleFloor < 4) ∧
    (onNode.chip.get (K.convState 0 (32 : Fin 34)) = 4 ∧ onNode.chip.serves .mc K.calCommand) ∧
    (let s := (frontState []).but (fun c => { c with thermal := { c.thermal with rounds := [⟨0, []⟩] }, cal := { c.cal with held := true, judged := true } })
     s.chip.cal.held = true ∧ s.chip.cal.running = false ∧ s.chip.vrefGood = true ∧ s.chip.serves .mc K.calRevert ∧ (4 : BitVec 8).toNat ≤ 4) ∧
    (let s := head3 []
     (s.chip.head 3).timing = true ∧ (s.chip.head 3).gap = false ∧ s.chip.get (K.runState 3) = 3 ∧
     (s.chip.head 3).rows < (geoOf s.chip.dict 3).h ∧ s.chip.regionRestarting 1 = false) ∧
    (let s := (fullState []).src 1 (fun x => { x with fifo := [waiting 7] })
     at' s.chip.pix.grants 0 = none ∧ s.chip.lanesWork 0 = true ∧ s.chip.arbitrate 0 = some (1, waiting 7) ∧ s.chip.pix.grants.length = 2) ∧
    (let s := (fullState []).but (fun c => { c with pix := { c.pix with grants := [some 1, none] } })
     at' s.chip.pix.grants 0 = some 1) := by decide

set_option maxRecDepth 20000 in
theorem hyps_CommandsTakeEffect_sets :
    (let s := (fullState [(K.setFieldSequence 31, 9)]).but (fun c => { c with onion := { c.onion with
       save := some (31, 9), sets := modAt c.onion.sets 31 (fun _ => some { oneRecord with factoryCrc := crc32 (List.replicate 16 0) }) } })
     s.chip.onion.save = some ((31 : Fin 32).val, 9) ∧ s.chip.nat (K.setFieldSequence 31) = 9 ∧
     (s.chip.setData 31).map (·.factoryCrc) = some (fieldAt (headerOf 2) 16 4)) ∧
    (31 < 32 ∧ (solEvent 2 []).chip.serves .mc (K.solsticeCommand 3) ∧ ((fullState []).chip.solstice 3).ev = none) ∧
    (let s := (solEvent 6 [(K.solsticeShutter 3, 2), (K.bankMode 1, 3)]).but (fun c => c.modActBank 1 (fun k => { k with report := 3 }))
     (s.chip.solstice 3).ev.map (·.opening) = some false ∧ s.chip.shutterBank 3 = some 1 ∧ s.chip.closeFaulty 3 = true) ∧
    (let s := solEvent 7 [(K.solsticeShutter 3, 2)]
     (s.chip.solstice 3).ev.isSome = true ∧ s.chip.shutterBank 3 = some (1 : Fin 2).val ∧ s.chip.get (K.solsticeState 3) = 7 ∧
     (s.chip.actBank 1).latched = false ∧ s.chip.act.banks.length = 2) ∧
    ((fullState []).chip.serves .mc (K.tnrReseed 5) ∧ (fullState []).chip.pix.sources.length = 6) := by decide

theorem hyps_CommandsTakeEffect_pixel :
    (let s := (fullState [(K.rxRun 0, 1), (K.rxState 0, 2), (K.rxLanes 0, 4), (K.srcState 1, 2), (K.srcDataType 1, 0x24), (K.srcVc 1, 3),
       (K.srcReceiver 1, 0)]).src 5 (fun x => { x with isOpen := true, works := [{ (default : Work) with id := 1, front := true }] })
     s.chip.rxWorks 0 = true ∧ s.chip.rxRoute 0 3 = some 1 ∧ s.chip.pix.sources.length = 6 ∧ (s.chip.source 5).isOpen = true ∧
     (s.chip.source 5).open'.isSome = true ∧ s.chip.nat (K.srcDataType 1) = 0x24 ∧ s.chip.pathRuns = true ∧ s.chip.get (K.srcState 1) = 2) ∧
    ((fullState [(K.srcState 1, 3)]).chip.get (K.srcState 1) = 3 ∧ (fullState []).chip.pathRuns = true) ∧
    ((streaming 2 [job7]).chip.staged = [] ∧ (streaming 2 [job7]).chip.pix.streams.length = 8) ∧
    ((fullState []).chip.pins.perstLow = false ∧
     ((fullState []).but (fun c => { c with pins := { c.pins with perstLow := true } })).chip.pins.perstLow = true) ∧
    (let s := (fullState []).but (fun c => { c with pcie := { c.pcie with pend0 := 2 ^ 63 + 1 } })
     s.chip.canSend0 = true ∧ s.chip.linkUp = true ∧ bitOf s.chip.pcie.pend0 (63 : Fin 64).val = true) := by decide

theorem hyps_CommandsTakeEffect_links :
    ((fullState []).chip.nmtListens = true ∧ (fullState []).chip.canOnBus = true ∧ (fullState []).chip.can.calibrating = false) ∧
    (let s := (fullState [(K.tpdoCobId 3, 0x481)]).but (fun c => { c with can := { c.can with
       tpdo := List.replicate 4 { inhibited := true, waiting := true } } })
     s.chip.canMayTransmit = true ∧ s.chip.tpdoValid 3 = true ∧ (s.chip.can.tpdo.getD 3 default).inhibited = true ∧
     (s.chip.can.tpdo.getD 3 default).waiting = true) ∧
    (let s := fullState [(K.psirelRole, 1), (K.psirelTrigPeriod, 1000000)]
     s.chip.psiLinkOn = true ∧ s.chip.psi.setTime = none ∧ s.chip.serves .mc K.psirelTrigger ∧ triggerInvalid 0x10000 = false ∧
     s.chip.nat K.psirelTrigPeriod ≠ 0 ∧ s.chip.get K.psirelTrigPhase = 0) ∧
    (let s := fullState [(K.mbxH2dState 5, 1), (K.mbxD2hState 5, 1)]
     s.chip.h2dFull 5 = true ∧ (s.chip.mbxOf 5).timeoutRaised = false ∧ s.chip.d2hFull 5 = true) ∧
    (let s := asked [0x00020400, K.thrHyst * 256, 64, 0]
     s.chip.mbxOldest 7 = some ⟨[0x00020400, K.thrHyst * 256, 64, 0], none⟩ ∧ s.chip.mbx.length = 8 ∧
     requestKey (at' [0x00020400, K.thrHyst * 256, 64, 0] 1) ≠ K.chipReset) ∧
    (let s := (fullState [(K.dmaState 15, 3)]).but (fun c => { c with dma := { c.dma with grant := some ⟨15, [], false⟩ } })
     s.chip.dmaWorks = true ∧ s.chip.dmaLastUnit 15 = true ∧ 15 < 16 ∧ s.chip.dmaLoads 15 = false ∧ s.chip.dmaStalled 15 = false ∧
     s.chip.suspended 4 2 = false) ∧
    (∀ o ∈ [1, 2, 3, 4, 5, 6], let r : SpRequest := ⟨1, o, 0x2427, 0, 1, leBytes 4 0⟩
     (slave r).chip.sps.request = some r ∧ (slave r).chip.reaches .sp = true ∧ r.opcode = o ∧ r.key ≠ K.chipReset) := by decide

/-! ### The block as a whole -/

theorem hyps_whole :
    State.reset.pending = [] ∧ State.reset.chip.statusRight ∧ State.reset.chip.storesCanonical ∧ ({} : ErrQ).recs.length ≤ 16 ∧
    (⟨0, some 7, some 8⟩ : NvmCounter).value + 1 < 2 ^ 48 ∧ (8 : Nat) > 7 := by decide


/-! ### WellFormed: an ill-formed command for every check -/

/-- R443, Table 15.5: group 0x8001 lies in image A, group 0x28004 is copy B of counter 0, group 0x30001 is the previous group of a
target whose generation is even. -/
theorem test_nvm_groups :
    (let c := (State.reset.chip.nvmFound [⟨0x8001, true⟩, ⟨5, false⟩])
     c.get K.nvmUncorrectable = 1 ∧ c.get K.nvmCorrected = 1 ∧ c.nvm.imageA = none) ∧
    ((State.reset.chip.nvmLose 0x28004).nvm.counters = [⟨0, some 0, none⟩]) ∧
    ((⟨0, 0, [1], [2], 4⟩ : TrimPair).lose 1 = ⟨0, 0, [1], [], 4⟩ ∧ (⟨0, 0, [1], [2], 4⟩ : TrimPair).lose 0 = ⟨0, 0, [2], [], 3⟩) := by decide

theorem test_wf_leapLine : Instr.wf (.leapLine 0 (List.replicate 17 0) none none) = false := by decide
theorem test_wf_hkRound : Instr.wf (.hkRoundComplete (List.replicate 31 0) [] none none) = false ∧
    Instr.wf (.hkRoundComplete [] (List.replicate 40 0) none none) = false := by decide
theorem test_wf_lineEligible : Instr.wf (.lineEligible 0 []) = false ∧ Instr.wf (.lineEligible 0 [[], [], []]) = false := by decide
theorem test_wf_bar2Read : Instr.wf (.bar2Access 0 (.read 0 [])) = false ∧ Instr.wf (.bar2Access 0 (.read 4097 [])) = false := by decide
theorem test_wf_bar2Write : Instr.wf (.bar2Access 0 (.write [] false)) = false := by decide
theorem test_wf_canFrame : Instr.wf (.canFrameReceived ⟨0x800, false, [], 0⟩) = false ∧
    Instr.wf (.canFrameReceived ⟨0, true, List.replicate 65 0, 0⟩) = false := by decide
theorem test_wf_usdo : Instr.wf (.usdoInitiate ⟨0x601, true, false, 0, 0, 0, List.replicate 61 0⟩) = false ∧
    Instr.wf (.usdoSegment ⟨0x601, List.replicate 61 0, true⟩) = false := by decide
theorem test_wf_rpdo : Instr.wf (.rpdoReceived 0 (List.replicate 65 0)) = false := by decide
theorem test_wf_xip : Instr.wf (.xipRead 0 0) = false ∧ Instr.wf (.xipProgramWrite 0 []) = false := by decide
theorem test_wf_msix : Instr.wf (.msixVectorUnmask true 8) = false := by decide
theorem test_wf_masters : Instr.wf (.objectWrite .mc 0x2C22 0 .full 64 [⟨.can, .full, 65⟩]) = false ∧
    Instr.wf (.lockRead .f0 0 [.f0]) = false := by decide
theorem test_wf_slots : Instr.wf (.halfReadLow .f0 0x2000 1 (.slots 0)) = false ∧ Instr.wf (.halfReadLow .f0 0x2000 1 (.slots 513)) = false := by
  decide
theorem test_wf_dram : Instr.wf (.dramTrainingComplete 0 true 0) = false := by decide
/-- Long lists by their length, not element by element. -/
theorem test_wf_long (b : Byte) (x : BitVec 24) :
    Instr.wf (.fwImageWrite 0 (List.replicate 65537 b)) = false ∧
    Instr.wf (.csiLongPacket 0 0 ⟨.good, 0, List.replicate 65536 x, false, true⟩) = false := by
  simp only [Instr.wf, List.length_replicate]
  decide

/-! ### The worked examples of the spec -/

/-- Digital correction (the examples of R148: a code inside the range, one that clamps, the two over-range codes). -/
theorem test_convCode : convCode 40000 (-37) 0x8123 = (40393, false, false) ∧ convCode 65000 (-100) 0x8400 = (0xFFFF, false, true) ∧
    convCode 20 100 0x8000 = (0, false, true) ∧ convCode 0xFFFF 0 0x8000 = (0xFFFF, true, false) := by decide

/-- Knots that are zero but for two neighbours. -/
def knotsAt (i : Nat) (a b : Int) : List Int := List.replicate i 0 ++ [a, b]

/-- Linearisation: CODE 40 393 over L[157] and L[158] (R210). -/
theorem test_linearise : linearise (knotsAt 157 10278528 10345024) 40393 = (10330738, false) := by decide

/-- The record of the example of R212, with a K_hdr. -/
def exampleRecord (k : Nat) : Nat :=
  819392 + 17408 * 2 ^ 24 + 1600 * 2 ^ 40 + lowBits (-512) 16 * 2 ^ 56 + k * 2 ^ 72 + lowBits (-3200) 16 * 2 ^ 88

/-- ΔT of R207, RHO_INV of R208, and the correction of a long and of a short sample (R212, R213). -/
theorem test_correct : deltaT 1858 1600 = (1032, false) ∧ rhoInv 7680 = 2185 ∧
    correct (exampleRecord 0) 1032 2185 false 10330738 = (10102904, false) ∧
    correct (exampleRecord 0) 1032 2185 true 573568 = (580293, false) := by decide

/-- A blended pixel and one whose long integration saturates (R220, R221). -/
theorem test_merge :
    (let m := mergePixel 0 56000 12 7680 (exampleRecord 16640) { (default : Cell7) with v := 14909504, code := 57300 }
       { (default : Cell7) with v := 491904 }
     (m.k, m.y) = (81, 14934246)) ∧
    (let m := mergePixel 0 56000 12 7680 (exampleRecord 16256) { (default : Cell7) with v := 0, code := 0xFFFF, ovr := true }
       { (default : Cell7) with v := 580293 }
     (m.k, m.y, m.ovr) = (256, 17272784, false)) := by decide

/-- The new E of the example of R252. -/
theorem test_commit : (commitE 16 2586181632 (exampleRecord 0) { s := 161670144, bad := false }).1 = -1212 := by decide

/-- Equinox: the example of R243. -/
theorem test_equinox :
    (let e := ({ a := 9999520, z := 98296, seed := false } : EqxCol).update 4 70000003 7
     (e.z, e.corr) = (99832, 390)) := by decide

/-- The temporal filter: the example of R284. -/
theorem test_tnr :
    (let r := tnrPixel { shift := 8, resetClass := 12, alpha := [0, 16] } false 10102514 { age := 15, motion := 2, s := 2586201000 }
     (r.1, r.2.1.word) = (10102358, 0xF1009A26560E)) := by decide

set_option maxRecDepth 100000 in
/-- Radiometry: the example of R291 to R295. -/
theorem test_radiometry :
    radiance 0x8000 2560000 14934246 = (6187123, false) ∧ y16rCode 1600 = 9541 ∧
    (let s : CompSet := { eps := 31130, tau := 32768, tRefl := 1600, tAtm := 1600 }
     (compC (knotsAt 37 1200000 1260000) s, compK s) = ((60794, 0), 68984)) ∧
    objectRadiance 60794 68984 6187123 = (6448649, false) ∧
    temperature (List.replicate 866 0 ++ [10560, 10592]) 0 4 6448649 = 10573 ∧
    temperature [] 0 4 33554432 = 0xFFFF ∧ temperature [] 0 4 (-1) = 0 := by decide

set_option maxRecDepth 100000 in
/-- The request of the example of R429: alive 5, opcode 3, object 0x2C40:05, three slots more. -/
theorem test_slave_request :
    (let f : List Byte := [0x53, 0x40, 0x2C, 0x05, 0x08]
     (requestOf (f ++ leBytes 2 (crc16 f))).map (fun r => (r.alive, r.opcode, r.key, r.count)) = some (5, 3, 0x2C4005, 8)) := by decide

set_option maxRecDepth 100000 in
/-- CRC-16/CCITT-FALSE and CRC-32 of the digits 1 to 9: their published check values. -/
theorem test_crc :
    (let d : List Byte := [0x31, 0x32, 0x33, 0x34, 0x35, 0x36, 0x37, 0x38, 0x39]
     crc16 d = 0x29B1 ∧ crc32 d = 0xCBF43926) := by decide

/-! ### decodeTableWord and the queue -/

theorem test_step_idle : (match step State.reset with
    | .next s => decide (s.pending = [])
    | _ => false) = true := by decide

end Sys2Proof.Machine
end

section
/-! SUPPORT. The rounding, clamping and sign-extension helpers (R6, R7, R8, R230): what each returns, in terms of linear
arithmetic over its result, so that no later proof unfolds them. -/

namespace Sys2Proof.Machine

/-! ### Rounding to nearest even -/

/-- R6 by R230: rounding by k places is rounding of the quotient by 2^k. -/
theorem rne_eq_rneDiv (v : Int) (k : Nat) : rne v k = rneDiv v ((2 ^ k : Nat) : Int) := by
  have hpos : ¬ ((2 ^ k : Nat) : Int) ≤ 0 := by exact_mod_cast (Nat.two_pow_pos k).not_ge
  rw [rneDiv, if_neg hpos, rne]

/-- Every way `rneDiv` answers: it is the floor quotient, with a remainder of less than a half or of exactly a half above an
even quotient, or the next integer, with a remainder of more than a half or of exactly a half above an odd quotient. -/
theorem rneDiv_cases (a b : Int) (hb : 0 < b) :
    ∃ q r : Int, a = q * b + r ∧ 0 ≤ r ∧ r < b ∧
      ((rneDiv a b = q ∧ (2 * r < b ∨ 2 * r = b ∧ q % 2 = 0)) ∨
       (rneDiv a b = q + 1 ∧ (b < 2 * r ∨ 2 * r = b ∧ q % 2 = 1))) := by
  have hr : a - a.fdiv b * b = a.fmod b := by rw [Int.fmod_def, mul_comm]
  refine ⟨a.fdiv b, a.fmod b, by omega, Int.fmod_nonneg_of_pos a hb, Int.fmod_lt_of_pos a hb, ?_⟩
  simp only [rneDiv, hr, if_neg hb.not_ge]
  split_ifs <;> omega

/-- R230: the result is nearest to the quotient, and even when the quotient lies halfway. -/
theorem rneDiv_nearest_even (a : Int) (b : Nat) (hb : 0 < b) :
    2 * (a - rneDiv a b * b).natAbs ≤ b ∧ (2 * (a - rneDiv a b * b).natAbs = b → rneDiv a b % 2 = 0) := by
  obtain ⟨q, r, ha, hr0, hrb, ⟨hq, hcase⟩ | ⟨hq, hcase⟩⟩ := rneDiv_cases a b (by exact_mod_cast hb)
  · have herr : a - rneDiv a b * b = r := by rw [hq, ha]; ring
    rw [herr, hq]
    omega
  · have herr : a - rneDiv a b * b = r - b := by rw [hq, ha]; ring
    rw [herr, hq]
    omega

/-- R6: the result is nearest to v / 2^k, and even when that lies halfway. -/
theorem rne_nearest_even (v : Int) (k : Nat) :
    2 * (v - rne v k * (2 ^ k : Nat)).natAbs ≤ 2 ^ k ∧
      (2 * (v - rne v k * (2 ^ k : Nat)).natAbs = 2 ^ k → rne v k % 2 = 0) := by
  rw [rne_eq_rneDiv]
  exact rneDiv_nearest_even v (2 ^ k) (Nat.two_pow_pos k)

/-- R6: an integer is the only one within a half of itself. -/
@[simp] theorem rne_zero (v : Int) : rne v 0 = v := by
  have h := (rne_nearest_even v 0).1
  rw [pow_zero, Nat.cast_one, mul_one] at h
  omega

/-! ### Clamping -/

theorem clampI_of_lt {v lo : Int} (hi : Int) (h : v < lo) : clampI v lo hi = lo := if_pos h

theorem clampI_of_gt {v lo hi : Int} (hr : lo ≤ hi) (h : hi < v) : clampI v lo hi = hi := by
  rw [clampI, if_neg (hr.trans h.le).not_gt, if_pos h]

theorem clampI_of_mem {v lo hi : Int} (hl : lo ≤ v) (hh : v ≤ hi) : clampI v lo hi = v := by
  rw [clampI, if_neg hl.not_gt, if_neg hh.not_gt]

/-- R7 for a signed type: the three clauses of `sat`. -/
theorem satS_spec (v : Int) (w : Nat) :
    (v < -(2 ^ (w - 1) : Nat) → satS v w = -(2 ^ (w - 1) : Nat)) ∧
    ((2 ^ (w - 1) : Nat) ≤ v → satS v w = (2 ^ (w - 1) : Nat) - 1) ∧
    (-(2 ^ (w - 1) : Nat) ≤ v → v < (2 ^ (w - 1) : Nat) → satS v w = v) := by
  have hpos := Nat.two_pow_pos (w - 1)
  unfold satS
  exact ⟨clampI_of_lt _, fun h => clampI_of_gt (by omega) (by omega), fun hl hh => clampI_of_mem hl (by omega)⟩

/-- R7 for an unsigned type: the three clauses of `sat`. -/
theorem satU_spec (v : Int) (w : Nat) :
    (v < 0 → satU v w = 0) ∧ ((2 ^ w : Nat) ≤ v → satU v w = (2 ^ w : Nat) - 1) ∧
    (0 ≤ v → v < (2 ^ w : Nat) → satU v w = v) := by
  have hpos := Nat.two_pow_pos w
  unfold satU
  exact ⟨clampI_of_lt _, fun h => clampI_of_gt (by omega) (by omega), fun hl hh => clampI_of_mem hl (by omega)⟩

/-! ### Sign extension -/

/-- `sx` agrees with the library's balanced remainder: the representative of v modulo 2^w of least size, the negative one
when two are as small. -/
theorem sx_eq_bmod (v w : Nat) (hw : 1 ≤ w) : sx v w = (v : Int).bmod (2 ^ w) := by
  have hhalf : 2 ^ w = 2 * 2 ^ (w - 1) := (mul_pow_sub_one (by omega) 2).symm
  have hmid : (((2 ^ w : Nat) : Int) + 1) / 2 = (2 ^ (w - 1) : Nat) := by omega
  simp only [sx, Int.bmod_def, hmid, ← Int.natCast_mod, Nat.cast_lt]

/-- R8: the result lies in the range of a w-bit two's-complement number. -/
theorem sx_mem_range (v w : Nat) (hw : 1 ≤ w) :
    -(2 ^ (w - 1) : Nat) ≤ sx v w ∧ sx v w < (2 ^ (w - 1) : Nat) := by
  have hhalf : 2 ^ w = 2 * 2 ^ (w - 1) := (mul_pow_sub_one (by omega) 2).symm
  have hlow := Int.le_bmod (x := v) (Nat.two_pow_pos w)
  have hhigh := Int.bmod_lt (x := v) (Nat.two_pow_pos w)
  rw [sx_eq_bmod v w hw]
  omega

/-- R8: the result has the w bits of the field. -/
theorem sx_sub_self_emod (v w : Nat) (hw : 1 ≤ w) : (sx v w - v) % ((2 ^ w : Nat) : Int) = 0 := by
  rw [sx_eq_bmod v w hw, Int.sub_emod, Int.bmod_emod, sub_self, Int.zero_emod]

/-! ### The obligation -/

/-- Settles O60, clause by clause from the laws of each helper. -/
theorem roundingClampingAndSignExtension : Obligations.RoundingClampingAndSignExtension := by
  unfold Obligations.RoundingClampingAndSignExtension
  refine ⟨rne_nearest_even, rne_zero, rneDiv_nearest_even, fun v w _ => ?_, fun v w hw => ?_⟩
  · obtain ⟨hbelow, habove, hwithin⟩ := satS_spec v w
    exact ⟨hbelow, habove, hwithin, satU_spec v w⟩
  · obtain ⟨hlow, hhigh⟩ := sx_mem_range v w hw
    exact ⟨hlow, hhigh, sx_sub_self_emod v w hw⟩

end Sys2Proof.Machine
end

section
/-! SUPPORT. Locks (R95, R97): what a lone read and a write of a lock do, and the state that each leaves. -/

namespace Sys2Proof.Machine

/-! ### Agreement under an update -/

/-- Setting the messages aside moves no state. -/
theorem Chip.agrees_out (c : Chip) (l : List OutMsg) : Chip.agrees { c with out := l } c := ⟨rfl, fun _ _ => rfl⟩

theorem Chip.agrees_set {a b : Chip} (h : a.agrees b) (k : Nat) (v : Int) : (a.set k v).agrees (b.set k v) := by
  refine ⟨h.1, fun k' hk' => ?_⟩
  rw [Chip.get_set, Chip.get_set, h.2 k' hk']

/-- An event counter that both parts read alike counts alike. -/
theorem Chip.agrees_bump {a b : Chip} (h : a.agrees b) {k : Nat} (hk : k ∉ statusKeys) : (a.bump k).agrees (b.bump k) := by
  refine ⟨h.1, fun k' hk' => ?_⟩
  rw [Chip.get_bump, Chip.get_bump, h.2 k' hk', h.2 k hk]

/-- A command with a row of its own whose operation answers one message and leaves the part as `d`. -/
theorem answer_of_command {i : Instr} {s : State} {m : Master} {key : Nat} {op : Chip → Except Abort Chip} {c d : Chip}
    {msg : OutMsg} (h : exec i s = run s (fun c => c.command m key op)) (hs : s.chip.serves m key)
    (hop : op { s.chip with out := [] } = .ok (d.emit msg)) (hout : d.out = []) (hc : d.agrees c) : Answer i s [msg] c := by
  have hrun := Chip.command_ok (Chip.serves_out hs []) hop
  refine answer_of_run h ?_ ?_
  · rw [hrun]
    exact Chip.agrees_trans (Chip.extends_emit d msg).1 hc
  · rw [hrun, Chip.emit_out, hout]
    exact List.prefix_rfl

/-! ### The operations on a lock -/

/-- R95: a read of a free lock makes the reader its owner and answers 0. -/
theorem lockRead_free {m : Master} {n : Nat} {c : Chip} (h : c.nat (K.lock n) = 0) :
    lockRead m n c = .ok ((c.set (K.lock n) (ownerCode m : Nat)).emit (.slot m (K.lock n) 0)) := by
  rw [lockRead, Chip.lockRead, if_pos h]

/-- R95: a read of a held lock answers its owner's code. -/
theorem lockRead_held {m : Master} {n : Nat} {c : Chip} (h : c.nat (K.lock n) ≠ 0) :
    lockRead m n c = .ok (c.emit (.slot m (K.lock n) (c.nat (K.lock n)))) := by
  rw [lockRead, Chip.lockRead, if_neg h]

/-- R97: a write of its own code by the owner frees the lock. -/
theorem lockWrite_owner {m : Master} {n v : Nat} {c : Chip} (ho : c.nat (K.lock n) = ownerCode m) (hv : v = ownerCode m) :
    lockWrite m n v c = .ok (c.set (K.lock n) 0) := by
  rw [lockWrite, if_pos ⟨ho, hv⟩]

/-- R97: every other write is counted and does no more. -/
theorem lockWrite_other {m : Master} {n v : Nat} {c : Chip} (h : c.nat (K.lock n) ≠ ownerCode m ∨ v ≠ ownerCode m) :
    lockWrite m n v c = .ok (c.bump K.lockViolations) := by
  rw [lockWrite, if_neg (not_and_or.mpr h)]

/-! ### The commands -/

/-- A read of a lock that no other master reads in its cycle is the read of its master alone (R96). -/
theorem exec_lockRead_alone (m : Master) (n : Fin 32) (s : State) :
    exec (.lockRead m n) s = run s (fun c => c.command m (K.lock n) (lockRead m n)) := by
  have hone : lockReads [m] n = fun c => c.command m (K.lock n) (lockRead m n) := by
    funext c
    rw [lockReads, inRank_single, List.foldl_cons, List.foldl_nil]
  rw [← hone]
  rfl

theorem exec_lockWrite (m : Master) (n : Fin 32) (v : BitVec 8) (s : State) :
    exec (.lockWrite m n v) s = run s (fun c => c.command m (K.lock n) (lockWrite m n v.toNat)) := rfl

section
variable {s : State} {m : Master} {n : Fin 32} (hs : s.chip.serves m (K.lock n))
include hs

theorem answer_lockRead_free (h : s.chip.nat (K.lock n) = 0) :
    Answer (.lockRead m n) s [.slot m (K.lock n) 0] (s.chip.set (K.lock n) (ownerCode m : Nat)) :=
  answer_of_command (exec_lockRead_alone m n s) hs (lockRead_free h) rfl (Chip.agrees_set (Chip.agrees_out _ _) _ _)

theorem answer_lockRead_held (h : s.chip.nat (K.lock n) ≠ 0) :
    Answer (.lockRead m n) s [.slot m (K.lock n) (s.chip.nat (K.lock n))] s.chip :=
  answer_of_command (exec_lockRead_alone m n s) hs (lockRead_held h) rfl (Chip.agrees_out _ _)

theorem effect_lockWrite_owner {v : BitVec 8} (ho : s.chip.nat (K.lock n) = ownerCode m) (hv : v.toNat = ownerCode m) :
    Effect (.lockWrite m n v) s (s.chip.set (K.lock n) 0) :=
  effect_of_command (exec_lockWrite m n v s) hs (lockWrite_owner ho hv) (Chip.agrees_set (Chip.agrees_out _ _) _ _)

theorem effect_lockWrite_other {v : BitVec 8} (h : s.chip.nat (K.lock n) ≠ ownerCode m ∨ v.toNat ≠ ownerCode m) :
    Effect (.lockWrite m n v) s (s.chip.bump K.lockViolations) :=
  effect_of_command (exec_lockWrite m n v s) hs (lockWrite_other h) (Chip.agrees_bump (Chip.agrees_out _ _) (by decide))

end

/-! ### The obligation -/

/-- Settles O25: the owner codes are those of Table 3.6 by definition, and each of the two accesses has two cases. -/
theorem locksAreOwned : Obligations.LocksAreOwned := by
  unfold Obligations.LocksAreOwned
  refine ⟨⟨rfl, rfl, rfl, rfl, rfl⟩, fun s m n hs => ⟨?free, ?held, ?owner, ?other⟩⟩
  case free => exact answer_lockRead_free hs
  case held => exact answer_lockRead_held hs
  case owner => exact fun _ => effect_lockWrite_owner hs
  case other => exact fun _ => effect_lockWrite_other hs

end Sys2Proof.Machine
end

section
/-! SUPPORT. Round triggers (R162, R165, R168): the three ways a trigger ends, and the state that each leaves. -/

namespace Sys2Proof.Machine

/-! ### Agreement under an update -/

/-- Parts that agree have one housekeeping part, and still agree when it is replaced in both. -/
theorem Chip.agrees_hk {a b : Chip} (h : a.agrees b) (x : Hk) : Chip.agrees { a with hk := x } { b with hk := x } :=
  ⟨congrArg (fun c : Chip => { c with hk := x }) h.1, h.2⟩

/-! ### The trigger -/

/-- The housekeeping part as a round that starts leaves it: A and HK_SETTLE are latched (R163), and each converter works on the round or,
with an urgent conversion, waits for that to end (R168). -/
def Chip.hkStarted (c : Chip) : Hk :=
  { c.hk with
    round := true, roundTime := c.now, average := c.nat K.hkAverage, settle := c.nat K.hkSettle
    busy := c.hk.urgent.map (fun (u : Option Urgent) => u.isNone)
    waits := c.hk.urgent.map (fun (u : Option Urgent) => u.isSome)
    starts := [c.mono, c.mono], judged := [] }

section
variable {c : Chip} (hon : c.hk.on = true) (ht : c.clk.ticks % 1000 = 0)
include hon ht

/-- R165: a trigger in a round is counted and does no more. -/
theorem hkTrigger_overrun (hr : c.hk.round = true) : hkTrigger c = c.bump K.hkRoundOverruns := by
  rw [hkTrigger, if_neg (by simp [hon, ht]), if_pos hr]

/-- R162: a trigger between rounds starts one. -/
theorem hkTrigger_start (hr : c.hk.round = false) : hkTrigger c = { c with hk := c.hkStarted } := by
  rw [hkTrigger, if_neg (by simp [hon, ht]), if_neg (by simp [hr])]
  rfl

end

/-- R162: at a CLK_TICK whose count is no multiple of 1000 there is no trigger. -/
theorem hkTrigger_off_tick {c : Chip} (ht : c.clk.ticks % 1000 ≠ 0) : hkTrigger c = c := by
  rw [hkTrigger, if_pos (.inr ht)]

/-! ### The command -/

theorem exec_hkRoundTrigger (s : State) : exec .hkRoundTrigger s = run s hkTrigger := rfl

/-- The trigger has the effect of whatever it makes of the part once the messages of the latest command are gone. -/
theorem effect_hkRoundTrigger {s : State} {c d : Chip} (hd : hkTrigger { s.chip with out := [] } = d) (hc : d.agrees c) :
    Effect .hkRoundTrigger s c :=
  effect_of_run (exec_hkRoundTrigger s) (by rwa [hd])

section
variable {s : State} (hon : s.chip.hk.on = true) (ht : s.chip.clk.ticks % 1000 = 0)
include hon ht

theorem effect_hkRoundTrigger_overrun (hr : s.chip.hk.round = true) :
    Effect .hkRoundTrigger s (s.chip.bump K.hkRoundOverruns) :=
  effect_hkRoundTrigger (hkTrigger_overrun hon ht hr) (Chip.agrees_bump (Chip.agrees_out _ _) (by decide))

theorem effect_hkRoundTrigger_start (hr : s.chip.hk.round = false) :
    Effect .hkRoundTrigger s { s.chip with hk := s.chip.hkStarted } :=
  effect_hkRoundTrigger (hkTrigger_start hon ht hr) (Chip.agrees_hk (Chip.agrees_out _ _) _)

end

theorem effect_hkRoundTrigger_off_tick {s : State} (ht : s.chip.clk.ticks % 1000 ≠ 0) : Effect .hkRoundTrigger s s.chip :=
  effect_hkRoundTrigger (hkTrigger_off_tick ht) (Chip.agrees_out _ _)

/-! ### The obligation -/

/-- Settles O16: a trigger finds a round, finds none, or comes at a CLK_TICK that is no multiple of 1000. -/
theorem roundTriggers : Obligations.RoundTriggers := by
  unfold Obligations.RoundTriggers
  refine ⟨?overrun, ?start, ?offTick⟩
  case overrun => exact fun _ => effect_hkRoundTrigger_overrun
  case start => exact fun _ => effect_hkRoundTrigger_start
  case offTick => exact fun _ => effect_hkRoundTrigger_off_tick

end Sys2Proof.Machine
end

section
/-! SUPPORT. Whole writes of plain objects (R71 to R76, R84): a value that every rule of its own object lets pass is
refused where it conflicts with another object, and is taken otherwise. -/

namespace Sys2Proof.Machine

/-! ### Agreement of a refusal -/

/-- The answer of a refusal is a message only; what it moves is the record of its master. -/
theorem Chip.refuse_agrees_noteAbort (c : Chip) (m : Master) (key : Nat) (code : Abort) :
    (c.refuse m key code).agrees (c.noteAbort m key code) := by
  unfold Chip.refuse
  split
  · exact Chip.agrees_refl _
  · exact (Chip.extends_emit _ _).1

/-- The record of a refusal does not depend on the messages sent. -/
theorem Chip.noteAbort_out (c : Chip) (l : List OutMsg) (m : Master) (key : Nat) (code : Abort) :
    Chip.noteAbort { c with out := l } m key code = { c.noteAbort m key code with out := l } := by
  cases m <;> rfl

/-! ### The part with a value assumed -/

/-- Cross checks read the assumed value at its object and every other object as it is. -/
theorem Chip.get_assume (c : Chip) (key : Nat) (v : Int) (k : Nat) :
    (c.assume key v).get k = if key = k then v else c.get k := by
  simp only [eq_comm (a := key)]
  exact Dict.get_put c.dict key v k

/-! ### The value of a plain object -/

/-- A write without another of its cycle is that of its master alone (R81). -/
theorem exec_objectWrite_alone (m : Master) (idx : BitVec 16) (sub : BitVec 8) (part : Part) (v : Slot) (s : State) :
    exec (.objectWrite m idx sub part v) s = run s (objectWrite m (keyOf idx sub) part v) := by
  have hone : objectWrites (keyOf idx sub) [⟨m, part, v⟩] = objectWrite m (keyOf idx sub) part v :=
    funext (objectWrites_single _ _)
  rw [← hone]
  rfl

/-- A master whose writes go through the whole dictionary writes a slot of a value by the rules of its row. -/
theorem objectWrite_full {c : Chip} {m : Master} {key : Nat} {v : Slot} {r : Row} (hs : c.serves m key) (hm : m ≠ .f1)
    (hr : rowAt? key = some r) (hacc : r.acc ≠ .domain) :
    objectWrite m key .full v c = c.attempt2 m key (c.writeValue m key r (r.valueOf? v)) := by
  obtain ⟨hreach, hserved⟩ := hs
  simp [objectWrite, hreach, hm, rowFor?, hr, hserved, hacc, Chip.writePart]

/-- A value of an object that has no operation of its own, and that no rule of that object refuses, is left to `storeValue`. -/
theorem Chip.writeValue_plain {c : Chip} {m : Master} {key : Nat} {r : Row} {x : Int} (hm : c.masterAbort? m key r = none)
    (hfit : c.unfitted key r = false) (hv : c.valueAbort? key r x = none) (hupd : r.upd ≠ .s) (hop : commandOf m key x = none) :
    c.writeValue m key r (some x) = c.storeValue key r x := by
  simp [Chip.writeValue, hm, hfit, hv, hupd, hop]

section
variable {c : Chip} {key : Nat} {r : Row} {x : Int} (hchk : r.chk ≠ .counter)
include hchk

theorem Chip.storeValue_conflict {a : Abort} (h : c.conflict? key x = some a) : c.storeValue key r x = (c, some a) := by
  simp [Chip.storeValue, hchk, h]

theorem Chip.storeValue_taken (h : c.conflict? key x = none) (hd : c.raisesDemand key = false) :
    c.storeValue key r x = (c.takeValue key r x, none) := by
  simp [Chip.storeValue, hchk, h, hd]

end

end Sys2Proof.Machine
end

section
/-! SUPPORT. Thermal levels (R185, R186): the six objects whose values must stay in order, and the two ways a write to one of them
ends. -/

namespace Sys2Proof.Machine

/-- THR_ENTER, THR_L4_EXIT and THERMAL_SHUTDOWN. -/
def levelKeys : List Nat := [K.thrEnter 0, K.thrEnter 1, K.thrEnter 2, K.thrEnter 3, K.thrL4Exit, K.thermalShutdown]

/-- Case analysis on the level object that a key names. -/
theorem levelKeys_cases {motive : (key : Nat) → key ∈ levelKeys → Prop} (enter0 : motive (K.thrEnter 0) (by decide))
    (enter1 : motive (K.thrEnter 1) (by decide)) (enter2 : motive (K.thrEnter 2) (by decide))
    (enter3 : motive (K.thrEnter 3) (by decide)) (l4Exit : motive K.thrL4Exit (by decide))
    (shutdown : motive K.thermalShutdown (by decide)) (key : Nat) (h : key ∈ levelKeys) : motive key h := by
  have hone := h
  simp only [levelKeys, List.mem_cons, List.not_mem_nil, or_false] at hone
  obtain rfl | rfl | rfl | rfl | rfl | rfl := hone
  · exact enter0
  · exact enter1
  · exact enter2
  · exact enter3
  · exact l4Exit
  · exact shutdown

/-- The levels that result from writing a value to one of them are in order (R185). -/
def Chip.orderedWith (c : Chip) (key : Nat) (x : Int) : Prop :=
  let level := fun (j : Nat) => if key = K.thrEnter j then x else c.get (K.thrEnter j)
  let shutdown := if key = K.thermalShutdown then x else c.get K.thermalShutdown
  let exit := if key = K.thrL4Exit then x else c.get K.thrL4Exit
  level 0 < level 1 ∧ level 1 < level 2 ∧ level 2 < level 3 ∧ level 3 ≤ shutdown - 320 ∧
    exit ≤ level 3 - 2 * c.get K.thrHyst

section
variable {key : Nat} (hkey : key ∈ levelKeys)
include hkey

/-! ### The rules of the objects themselves -/

/-- Table 6.6: a level is a plain value that takes effect at once, read and written by every master. -/
theorem levelKeys_row {r : Row} (hr : rowAt? key = some r) : r.acc = .rw ∧ r.upd = .i ∧ r.chk ≠ .counter := by
  have hrows : ∀ k ∈ levelKeys, ∀ r ∈ rowAt? k, r.acc = .rw ∧ r.upd = .i ∧ r.chk ≠ .counter := by decide
  exact hrows key hkey r hr

/-- Function 1 has no level in its page. -/
theorem levelKeys_f1Page : f1Page key = false := by
  cases key, hkey using levelKeys_cases <;> rfl

theorem levelKeys_not_f1 {c : Chip} {m : Master} (hs : c.serves m key) : m ≠ .f1 := by
  rintro rfl
  obtain ⟨hreach, -⟩ := hs
  simp [Chip.reachesKey, levelKeys_f1Page hkey] at hreach

/-- A level is no channel's object and no word of a mailbox. -/
theorem levelKeys_masterAbort {r : Row} (hacc : r.acc = .rw) (c : Chip) (m : Master) : c.masterAbort? m key r = none := by
  have hdma : dmaChannelOf key = none := by
    cases key, hkey using levelKeys_cases <;> rfl
  have hhost : hostKeyOf key = none := by
    cases key, hkey using levelKeys_cases <;> rfl
  simp [Chip.masterAbort?, firstAbort, hacc, Chip.dmaForeign, hdma, hhost]

theorem levelKeys_unfitted (c : Chip) (r : Row) : c.unfitted key r = false := by
  have hpart : key / 65536 ≠ 0x37 := by
    cases key, hkey using levelKeys_cases <;> decide
  simp [Chip.unfitted, hpart]

/-- No other object bounds a level but by R185. -/
theorem levelKeys_valueAbort {r : Row} {x : Int} (hchk : r.chk.abort? x = none) (c : Chip) : c.valueAbort? key r x = none := by
  have hcustom : customAbort? key x = none := by
    cases key, hkey using levelKeys_cases <;> rfl
  have hbound : c.beyondBound key x = false := by
    cases key, hkey using levelKeys_cases <;> rfl
  simp [Chip.valueAbort?, hchk, hcustom, hbound]

theorem levelKeys_commandOf (m : Master) (x : Int) : commandOf m key x = none := by
  cases key, hkey using levelKeys_cases <;> rfl

theorem levelKeys_raisesDemand (c : Chip) : c.raisesDemand key = false := by
  have hrange : 0x2C0000 ≤ key ∧ key < 0x300000 := by
    cases key, hkey using levelKeys_cases <;> decide
  simp only [Chip.raisesDemand, Bool.or_eq_false_iff, List.any_eq_false, List.mem_range, Bool.and_eq_true, decide_eq_true_eq]
  constructor
  · rintro h hh ⟨hframe, -⟩
    simp only [K.frameLength] at hframe
    omega
  · rintro n hn ⟨-, hshape⟩
    simp only [K.cropWidth, K.cropHeight, K.outWidth, K.outHeight, K.streamDecimate] at hshape
    omega

/-! ### The rule of R185 -/

/-- The hysteresis is no level: the resulting values read the one in force. -/
theorem levelsOk_assume (c : Chip) (x : Int) : (c.assume key x).levelsOk = true ↔ c.orderedWith key x := by
  have hhyst : key ≠ K.thrHyst := by
    cases key, hkey using levelKeys_cases <;> decide
  simp only [Chip.levelsOk, decide_eq_true_eq, Chip.get_assume, if_neg hhyst]
  exact Iff.rfl

/-- The order of the levels is the only conflict of a level. -/
theorem levelKeys_conflict (c : Chip) (x : Int) :
    c.conflict? key x = if (c.assume key x).levelsOk then none else some Abort.incompatible := by
  have hother : c.conflict? key x = firstAbort [(!(c.assume key x).levelsOk, Abort.incompatible)] := by
    cases key, hkey using levelKeys_cases <;> rfl
  cases h : (c.assume key x).levelsOk <;> simp [hother, firstAbort, h]

/-- What a level that is taken moves: its object, and with THERMAL_SHUTDOWN the trip voltages (R186). -/
theorem levelKeys_takeValue {r : Row} (hupd : r.upd = .i) (c : Chip) (x : Int) :
    c.takeValue key r x = if key = K.thermalShutdown then (c.set key x).setTrips else c.set key x := by
  simp only [Chip.takeValue, hupd]
  cases key, hkey using levelKeys_cases <;> rfl

/-! ### The write of a level -/

section
variable {c : Chip} {m : Master} {r : Row} {v : Slot} {x : Int} (hs : c.serves m key) (hr : rowAt? key = some r)
  (hv : r.valueOf? v = some x) (hchk : r.chk.abort? x = none)
include hs hr hv hchk

/-- A value of its range that is written to a level meets only R185. -/
theorem objectWrite_level : objectWrite m key .full v c = c.attempt2 m key (c.storeValue key r x) := by
  obtain ⟨hacc, hupd, -⟩ := levelKeys_row hkey hr
  have hplain : c.writeValue m key r (some x) = c.storeValue key r x :=
    Chip.writeValue_plain (levelKeys_masterAbort hkey hacc c m) (levelKeys_unfitted hkey c r)
      (levelKeys_valueAbort hkey hchk c) (by simp [hupd]) (levelKeys_commandOf hkey m x)
  rw [objectWrite_full hs (levelKeys_not_f1 hkey hs) hr (by simp [hacc]), hv, hplain]

theorem objectWrite_level_ordered (ho : c.orderedWith key x) :
    objectWrite m key .full v c = if key = K.thermalShutdown then (c.set key x).setTrips else c.set key x := by
  obtain ⟨-, hupd, hcount⟩ := levelKeys_row hkey hr
  have hfree : c.conflict? key x = none := by
    rw [levelKeys_conflict hkey, if_pos ((levelsOk_assume hkey c x).2 ho)]
  rw [objectWrite_level hkey hs hr hv hchk, Chip.storeValue_taken hcount hfree (levelKeys_raisesDemand hkey c)]
  exact levelKeys_takeValue hkey hupd c x

theorem objectWrite_level_disordered (ho : ¬ c.orderedWith key x) :
    objectWrite m key .full v c = c.refuse m key Abort.incompatible := by
  obtain ⟨-, -, hcount⟩ := levelKeys_row hkey hr
  have hconflict : c.conflict? key x = some Abort.incompatible := by
    rw [levelKeys_conflict hkey, if_neg (mt (levelsOk_assume hkey c x).1 ho)]
  rw [objectWrite_level hkey hs hr hv hchk, Chip.storeValue_conflict hcount hconflict]
  rfl

end

end

/-! ### The command -/

section
variable {s : State} {m : Master} {idx : BitVec 16} {sub : BitVec 8} {v : Slot} {r : Row} {x : Int}
  (hkey : keyOf idx sub ∈ levelKeys) (hs : s.chip.serves m (keyOf idx sub)) (hr : rowAt? (keyOf idx sub) = some r)
  (hv : r.valueOf? v = some x) (hchk : r.chk.abort? x = none)
include hkey hs hr hv hchk

theorem effect_objectWrite_level_ordered (ho : s.chip.orderedWith (keyOf idx sub) x) :
    Effect (.objectWrite m idx sub .full v) s
      (if keyOf idx sub = K.thermalShutdown then (s.chip.set (keyOf idx sub) x).setTrips else s.chip.set (keyOf idx sub) x) := by
  refine effect_of_run (exec_objectWrite_alone ..) ?_
  rw [objectWrite_level_ordered hkey (Chip.serves_out hs []) hr hv hchk ho]
  split
  · exact Chip.agrees_out (s.chip.set (keyOf idx sub) x).setTrips []
  · exact Chip.agrees_set (Chip.agrees_out _ _) _ _

theorem effect_objectWrite_level_disordered (ho : ¬ s.chip.orderedWith (keyOf idx sub) x) :
    Effect (.objectWrite m idx sub .full v) s (s.chip.noteAbort m (keyOf idx sub) Abort.incompatible) := by
  refine effect_of_run (exec_objectWrite_alone ..) ?_
  rw [objectWrite_level_disordered hkey (Chip.serves_out hs []) hr hv hchk ho]
  refine Chip.agrees_trans (Chip.refuse_agrees_noteAbort ..) ?_
  rw [Chip.noteAbort_out]
  exact Chip.agrees_out _ []

end

/-! ### The obligation -/

/-- Settles O20: the resulting levels are in order, or they are not. -/
theorem throttleThresholds : Obligations.ThrottleThresholds := by
  unfold Obligations.ThrottleThresholds
  intro s m idx sub v r x key hkey hs hr hv hchk
  refine ⟨?ordered, ?disordered⟩
  case ordered => exact effect_objectWrite_level_ordered hkey hs hr hv hchk
  case disordered => exact effect_objectWrite_level_disordered hkey hs hr hv hchk

end Sys2Proof.Machine
end

section
/-! SUPPORT. What one step does to the queue: every command is a run of its own meaning, which completes and leaves the queue. -/

namespace Sys2Proof.Machine

/-! ### The work of the commands that do more than one operation -/

section
variable (s : State)

theorem exec_lineGrant (r : Fin 2) (b1 b2 b3 : List (BitVec 16)) (fixed : List (BitVec 40)) :
    exec (.lineGrant r b1 b2 b3 fixed) s = run s (fun c => lineGrant r.val b1 b2 b3 (c.dramFixed fixed)) := rfl

theorem exec_peakReached (ch : Fin 4) (current : BitVec 32) :
    exec (.peakReached ch current) s = run s (fun c => (peakReached ch current.toNat c).refreshBanks) := rfl

theorem exec_vsolReversed :
    exec .vsolReversed s = run s (fun c => Chip.vsolUpdate { c with act := { c.act with reversed := true } }) := rfl

theorem exec_bar2Access (off : BitVec 26) (acc : Bar2) (fixed : List (BitVec 40)) :
    exec (.bar2Access off acc fixed) s = run s (fun c => bar2Access off.toNat acc (c.dramFixed fixed)) := rfl

theorem exec_usdoInitiate (r : UsdoRequest) (found : List NvmFind) :
    exec (.usdoInitiate r found) s = run s (fun c => usdoInitiate r c found) := rfl

theorem exec_dmaGrant (src : List Byte) (fixed : List (BitVec 40)) :
    exec (.dmaGrant src fixed) s = run s (fun c => dmaGrant src (c.dramFixed fixed)) := rfl

theorem exec_dmaComplete (fixed : List (BitVec 40)) :
    exec (.dmaComplete fixed) s = run s (fun c => dmaComplete (c.dramFixed fixed)) := rfl

theorem exec_spmStatusPoll (status : BitVec 8) (fixed : List (BitVec 40)) :
    exec (.spmStatusPoll status fixed) s = run s (fun c => spmStatusPoll status.toNat (c.dramFixed fixed)) := rfl

end

/-- Every meaning is a run of some work on the part. -/
theorem exec_eq_run (i : Instr) (s : State) : ∃ f : Chip → Chip, exec i s = run s f := by
  cases i with
  | lineGrant r b1 b2 b3 fixed => exact ⟨_, exec_lineGrant s r b1 b2 b3 fixed⟩
  | peakReached ch current => exact ⟨_, exec_peakReached s ch current⟩
  | vsolReversed => exact ⟨_, exec_vsolReversed s⟩
  | bar2Access off acc fixed => exact ⟨_, exec_bar2Access s off acc fixed⟩
  | usdoInitiate r found => exact ⟨_, exec_usdoInitiate s r found⟩
  | dmaGrant src fixed => exact ⟨_, exec_dmaGrant s src fixed⟩
  | dmaComplete fixed => exact ⟨_, exec_dmaComplete s fixed⟩
  | spmStatusPoll status fixed => exact ⟨_, exec_spmStatusPoll s status fixed⟩
  | _ => exact ⟨_, rfl⟩

theorem exec_completes (i : Instr) (s : State) : ∃ t, exec i s = .next t ∧ t.pending = s.pending := by
  obtain ⟨f, hf⟩ := exec_eq_run i s
  exact ⟨_, hf, rfl⟩

theorem step_empty {s : State} (h : s.pending = []) : step s = .next (idle s) := by
  rw [step, h]

theorem step_cons {s : State} {i : Instr} {rest : List Instr} (h : s.pending = i :: rest) :
    step s = exec i { s with pending := rest } := by
  rw [step, h]

/-- A step is a cycle that passes or a run on the part it finds. -/
theorem step_cases {s t : State} (h : step s = .next t) :
    t.chip = s.chip.cyclePasses ∨ ∃ f : Chip → Chip, t.chip = settle s.chip (f s.chip.fresh) := by
  cases hp : s.pending with
  | nil =>
    rw [step_empty hp] at h
    cases h
    exact .inl rfl
  | cons i rest =>
    rw [step_cons hp] at h
    obtain ⟨f, hf⟩ := exec_eq_run i { s with pending := rest }
    rw [hf] at h
    cases h
    exact .inr ⟨f, rfl⟩

theorem core_run_succ {s u : State} (k : Nat) (h : step s = .next u) :
    Sys2Proof.core.run (k + 1) s = Sys2Proof.core.run k u := by
  have hcore : Sys2Proof.core.step s = .next u := h
  simp only [Host.Core.run, hcore]

/-- A queue drains in as many steps as it holds. -/
theorem run_drains (l : List Instr) (s : State) (h : s.pending = l) :
    ∃ t, Sys2Proof.core.run l.length s = .next t ∧ t.pending = [] := by
  induction l generalizing s with
  | nil => exact ⟨s, rfl, h⟩
  | cons i rest ih =>
    obtain ⟨u, hu, hrest⟩ := exec_completes i { s with pending := rest }
    obtain ⟨t, ht, hnil⟩ := ih u hrest
    exact ⟨t, (core_run_succ _ ((step_cons h).trans hu)).trans ht, hnil⟩

/-- Settles O52: the front of the queue is what `step` looks at. -/
theorem stepRunsTheFirstCommand : Obligations.StepRunsTheFirstCommand := by
  unfold Obligations.StepRunsTheFirstCommand
  exact fun _ _ => step_cons rfl

/-- Settles O53: an idle step counts the cycles since the tick. -/
theorem emptyQueueLetsACyclePass : Obligations.EmptyQueueLetsACyclePass := by
  unfold Obligations.EmptyQueueLetsACyclePass
  exact fun s h => ⟨idle s, step_empty h, h, rfl⟩

/-- Settles O54, by induction on the queue. -/
theorem everyWaitingCommandCompletes : Obligations.EveryWaitingCommandCompletes := by
  unfold Obligations.EveryWaitingCommandCompletes
  exact ⟨exec_completes, fun s => run_drains _ s rfl⟩

end Sys2Proof.Machine
end

section
/-! SUPPORT. What the messages after a command may move (R106, R368, R379, R381): by one induction over what `announce` does, they keep
every property of the part that the CAN controller, the PCIe endpoint and six objects do not touch. -/

namespace Sys2Proof.Machine

/-- The objects that the messages after a command move. -/
def messageKeys : List Nat := [K.canTec, K.emcyDropped, K.pcieEventStatus, K.tpdoLost, K.tpdoCoalesced]

/-- Two parts with the same stores and ALERT_N. -/
def Chip.sameStatus (a b : Chip) : Prop := a.dict = b.dict ∧ a.dram = b.dram ∧ a.pins.alertLow = b.pins.alertLow

/-- A property that a write of an object of `messageKeys` keeps, and every change beside the stores and ALERT_N. -/
structure KeptByMessages (P : Chip → Prop) : Prop where
  set : ∀ {c : Chip} {k : Nat} {v : Int}, k ∈ messageKeys → P c → P (c.set k v)
  beside : ∀ {c d : Chip}, d.sameStatus c → P c → P d

section
variable {P : Chip → Prop} (hP : KeptByMessages P)
include hP

theorem KeptByMessages.bump {c : Chip} {k : Nat} (hk : k ∈ messageKeys) (h : P c) : P (c.bump k) :=
  hP.set hk (hP.beside (c := c) ⟨rfl, rfl, rfl⟩ h)

theorem KeptByMessages.canTransmit {c : Chip} {o : OutMsg} (h : P c) : P (c.canTransmit o) := by
  unfold Chip.canTransmit
  split
  · exact hP.beside (c := Chip.set _ _ _) ⟨rfl, rfl, rfl⟩ (hP.set (by decide) (hP.beside (c := c) ⟨rfl, rfl, rfl⟩ h))
  · exact h

theorem KeptByMessages.emcyTransmit {c : Chip} {e : Emcy} (h : P c) : P (c.emcyTransmit e) := by
  have hsent : P (c.canSend (c.nat K.emcyCobId % 2048) e.bytes) := hP.canTransmit h
  unfold Chip.emcyTransmit
  dsimp only
  split
  · exact hsent
  · exact hP.beside (c := Chip.canSend _ _ _) ⟨rfl, rfl, rfl⟩ hsent

theorem KeptByMessages.emcy {c : Chip} {e : Emcy} (h : P c) : P (c.emcy e) := by
  unfold Chip.emcy
  split_ifs
  · exact hP.beside (c := c) ⟨rfl, rfl, rfl⟩ h
  · exact hP.bump (by decide) (hP.beside (c := c) ⟨rfl, rfl, rfl⟩ h)
  · exact hP.emcyTransmit h
  · exact h

theorem KeptByMessages.msix0 {c : Chip} {v : Nat} (h : P c) : P (c.msix0 v) := by
  unfold Chip.msix0
  split <;> exact hP.beside (c := c) ⟨rfl, rfl, rfl⟩ h

theorem KeptByMessages.wakeCause {c : Chip} (h : P c) : P c.wakeCause := by
  refine hP.beside (c := c) ?_ h
  unfold Chip.wakeCause
  dsimp only
  split_ifs <;> exact ⟨rfl, rfl, rfl⟩

theorem KeptByMessages.noteBit {c : Chip} {k b : Nat} {r : Bool} (h : P c) : P (c.noteBit k b r) :=
  hP.beside (c := c) ⟨rfl, rfl, rfl⟩ h

theorem KeptByMessages.eventBit {c : Chip} {b : Nat} (h : P c) : P (c.eventBit b) := by
  have hwoken : P (if bitOf (c.nat K.pcieWakeMask) b then c.wakeCause else c) := by
    split
    · exact hP.wakeCause h
    · exact h
  have hnoted := hP.noteBit (k := K.pcieEventStatus) (b := b) (r := !bitOf (c.nat K.pcieEventStatus) b) hwoken
  unfold Chip.eventBit
  dsimp only
  generalize Chip.noteBit _ K.pcieEventStatus b _ = d at hnoted ⊢
  split
  · exact hnoted
  · split
    · exact hP.msix0 (hP.set (k := K.pcieEventStatus) (by decide) hnoted)
    · exact hP.set (k := K.pcieEventStatus) (by decide) hnoted

omit hP in
theorem KeptByMessages.foldl {α : Type} {f : Chip → α → Chip} (hf : ∀ c a, P c → P (f c a)) (l : List α) {c : Chip} (h : P c) :
    P (l.foldl f c) := by
  induction l generalizing c with
  | nil => exact h
  | cons a l ih => exact ih (hf c a h)

theorem KeptByMessages.pcieEvents {c : Chip} {ev : Nat} (h : P c) : P (c.pcieEvents ev) := by
  unfold Chip.pcieEvents
  split
  · refine KeptByMessages.foldl (fun d b hd => ?_) _ h
    split
    · exact hP.eventBit hd
    · exact hd
  · exact h

theorem KeptByMessages.tpdoEvent {c : Chip} {n : Nat} (h : P c) : P (c.tpdoEvent n) := by
  unfold Chip.tpdoEvent
  split_ifs
  · exact h
  · exact hP.bump (by decide) h
  · exact hP.bump (by decide) (hP.beside (c := c) ⟨rfl, rfl, rfl⟩ h)
  · exact hP.beside (c := c.canSend (c.nat (K.tpdoCobId n) % 2048) (c.tpdoData n)) ⟨rfl, rfl, rfl⟩ (hP.canTransmit h)

theorem KeptByMessages.tpdoEvents {a c : Chip} (h : P c) : P (Chip.tpdoEvents a c) := by
  unfold Chip.tpdoEvents
  dsimp only
  split
  · exact h
  · refine KeptByMessages.foldl (fun d n hd => ?_) _ h
    split
    · exact hP.tpdoEvent hd
    · exact hd

theorem KeptByMessages.announce {a c : Chip} (h : P c) : P (Chip.announce a c) := by
  unfold Chip.announce
  dsimp only
  split_ifs
  · exact hP.tpdoEvents (hP.pcieEvents (hP.emcy h))
  · exact hP.tpdoEvents (hP.pcieEvents h)
  · exact h

end

/-! ### ERROR_REGISTER and ALERT_N -/

/-- What the messages after a command tell of the status. -/
def Chip.statusOf (c : Chip) : Int × Int × Bool := (c.get K.errorRegister, c.get K.canState, c.pins.alertLow)

/-- The messages after a command move none of the status they tell. -/
theorem announce_statusOf (a c : Chip) : (Chip.announce a c).statusOf = c.statusOf := by
  have hkept : KeptByMessages (fun d => d.statusOf = c.statusOf) := by
    refine ⟨fun {d k v} hk hd => ?set, fun {d e} hde hd => ?beside⟩
    case set =>
      have herr : K.errorRegister ≠ k := by rintro rfl; revert hk; decide
      have hcan : K.canState ≠ k := by rintro rfl; revert hk; decide
      rw [← hd, Chip.statusOf, Chip.get_set_other _ _ _ _ herr, Chip.get_set_other _ _ _ _ hcan]
      rfl
    case beside =>
      obtain ⟨hdict, -, halert⟩ := hde
      rw [← hd, Chip.statusOf, Chip.get, Chip.get, hdict, halert]
      rfl
  exact hkept.announce rfl

section
variable {a b : Chip} (h : a.agrees b)
include h

theorem Chip.agrees_degraded : a.degraded = b.degraded := by
  obtain ⟨hbody, hget⟩ := h
  have hmode := congrArg Chip.mode hbody
  simp only [Chip.body] at hmode
  simp only [Chip.degraded, hmode, show List.range 4 = [0, 1, 2, 3] from rfl, List.any_cons, List.any_nil,
    hget (K.bankSparesFree 0) (by decide), hget (K.bankSparesFree 1) (by decide), hget (K.bankSparesFree 2) (by decide),
    hget (K.bankSparesFree 3) (by decide)]

theorem Chip.agrees_commError (hcan : a.get K.canState = b.get K.canState) : a.commError = b.commError := by
  obtain ⟨hbody, hget⟩ := h
  have haer := congrArg (fun c : Chip => c.pcie.aerUnc) hbody
  simp only [Chip.body] at haer
  simp only [Chip.commError, Chip.syncLost, hcan, haer, hget K.psirelRole (by decide), hget K.psirelState (by decide)]

theorem Chip.agrees_tempError : a.tempError = b.tempError := by
  obtain ⟨-, hget⟩ := h
  simp only [Chip.tempError, hget K.throttleLevel (by decide), hget K.limitFlags (by decide)]

theorem Chip.agrees_voltError : a.voltError = b.voltError := by
  obtain ⟨hbody, hget⟩ := h
  have hrails := congrArg Chip.rails hbody
  simp only [Chip.body] at hrails
  simp only [Chip.voltError, hrails, hget K.vrefState (by decide)]

theorem Chip.agrees_currentError : a.currentError = b.currentError := by
  obtain ⟨hbody, hget⟩ := h
  have hheads := congrArg Chip.heads hbody
  have hact := congrArg Chip.act hbody
  simp only [Chip.body] at hheads hact
  simp only [Chip.currentError, hheads, hact, show List.range 4 = [0, 1, 2, 3] from rfl, List.any_cons, List.any_nil,
    hget (K.supState 0) (by decide), hget (K.supState 1) (by decide), hget (K.supState 2) (by decide),
    hget (K.supState 3) (by decide)]

theorem Chip.agrees_unacked (level : Nat) : a.unacked level = b.unacked level := by
  obtain ⟨hbody, -⟩ := h
  have herrq := congrArg Chip.errq hbody
  simp only [Chip.body] at herrq
  simp only [Chip.unacked, herrq]

/-- Parts that agree, and read the same CAN_STATE, have one ERROR_REGISTER by its conditions. -/
theorem Chip.agrees_errorRegisterOf (hcan : a.get K.canState = b.get K.canState) : a.errorRegisterOf = b.errorRegisterOf := by
  simp only [Chip.errorRegisterOf, Chip.agrees_unacked h, Chip.agrees_currentError h, Chip.agrees_voltError h,
    Chip.agrees_tempError h, Chip.agrees_commError h hcan, Chip.agrees_degraded h]

theorem Chip.agrees_alertOf : a.alertOf = b.alertOf := by
  obtain ⟨hbody, hget⟩ := h
  have hboot := congrArg Chip.boot hbody
  simp only [Chip.body] at hboot
  simp only [Chip.alertOf, Chip.agrees_unacked ⟨hbody, hget⟩, hboot, hget K.chipMode (by decide)]

end

/-- Writing ERROR_REGISTER and ALERT_N as their conditions stand moves no condition. -/
theorem withStatus_statusRight (c : Chip) : c.withStatus.statusRight := by
  have hagrees : c.withStatus.agrees c.canRecovers := by
    refine Chip.agrees_trans (b := c.canRecovers.set K.errorRegister c.canRecovers.errorRegisterOf) ⟨rfl, fun _ _ => rfl⟩ ?_
    exact (Chip.extends_set (by decide)).1
  have hcan : c.withStatus.get K.canState = c.canRecovers.get K.canState := Chip.get_set_other _ _ _ _ (by decide)
  have herr : c.withStatus.get K.errorRegister = c.canRecovers.errorRegisterOf := Chip.get_set_same _ _ _
  have halert : c.withStatus.pins.alertLow = (c.canRecovers.set K.errorRegister c.canRecovers.errorRegisterOf).alertOf := rfl
  refine ⟨?_, ?_⟩
  · rw [herr, Chip.agrees_errorRegisterOf hagrees hcan]
  · rw [halert]
    exact Chip.agrees_alertOf (Chip.agrees_symm (a := c.withStatus) ⟨rfl, fun _ _ => rfl⟩)

/-- R106, R473: what a settled part shows is what its conditions call for. -/
theorem settle_statusRight (a c : Chip) : (settle a c).statusRight := by
  obtain ⟨herr, halert⟩ := withStatus_statusRight c
  have hagrees := (Chip.announce_extends a c.withStatus).1
  have hstatus := announce_statusOf a c.withStatus
  simp only [Chip.statusOf, Prod.mk.injEq] at hstatus
  obtain ⟨herr', hcan', halert'⟩ := hstatus
  refine ⟨?_, ?_⟩
  · rw [settle, herr', herr, Chip.agrees_errorRegisterOf hagrees hcan']
  · rw [settle, halert', halert, Chip.agrees_alertOf hagrees]

/-- A cycle that passes moves nothing that the status depends on. -/
theorem cyclePasses_statusRight {c : Chip} (h : c.statusRight) : c.cyclePasses.statusRight := h

theorem step_statusRight {s t : State} (hs : s.chip.statusRight) (h : step s = .next t) : t.chip.statusRight := by
  obtain hidle | ⟨f, hrun⟩ := step_cases h
  · rw [hidle]
    exact cyclePasses_statusRight hs
  · rw [hrun]
    exact settle_statusRight _ _

theorem Chip.unacked_iff (c : Chip) (level : Nat) :
    c.unacked level = true ↔ ∃ q ∈ c.errq, ∃ r ∈ q.recs, r.acked = false ∧ level ≤ r.level := by
  simp [Chip.unacked]

theorem Chip.alertOf_iff (c : Chip) :
    c.alertOf = true ↔ c.get K.chipMode = 4 ∨ c.boot.phase = .dead ∨
      ∃ q ∈ c.errq, ∃ r ∈ q.recs, r.acked = false ∧ 2 ≤ r.level := by
  rw [← Chip.unacked_iff]
  simp only [Chip.alertOf, Bool.or_eq_true, decide_eq_true_eq]
  tauto

/-- Settles O56: a run settles the status, and a cycle that passes moves none of its conditions. -/
theorem statusFollowsItsConditions : Obligations.StatusFollowsItsConditions := by
  unfold Obligations.StatusFollowsItsConditions
  intro s t hs h
  obtain ⟨herr, halert⟩ := step_statusRight hs h
  refine ⟨⟨herr, halert⟩, ?_⟩
  rw [halert]
  exact Chip.alertOf_iff t.chip

end Sys2Proof.Machine
end

section
/-! SUPPORT. What a write answers that its own rules refuse (R71 to R79). -/

namespace Sys2Proof.Machine

section
variable {c : Chip} {m : Master} {key : Nat} {r : Row}

/-! ### The first reason that refuses a write -/

theorem Chip.masterAbort_readOnly (h : r.acc = .ro) : c.masterAbort? m key r = some Abort.readOnly := by
  simp [Chip.masterAbort?, firstAbort, h]

theorem Chip.masterAbort_notSecure (h : r.acc = .rws) (hm : secure m = false) :
    c.masterAbort? m key r = some Abort.unsupported := by
  simp [Chip.masterAbort?, firstAbort, h, hm]

theorem Chip.writeValue_byMaster {v : Option Int} {code : Abort} (h : c.masterAbort? m key r = some code) :
    c.writeValue m key r v = (c, some code) := by
  simp [Chip.writeValue, h]

theorem Chip.writeValue_unfitted {v : Option Int} (hm : c.masterAbort? m key r = none) (h : c.unfitted key r = true) :
    c.writeValue m key r v = (c, some Abort.incompatible) := by
  simp [Chip.writeValue, hm, h]

theorem Chip.writeValue_noValue (hm : c.masterAbort? m key r = none) (hfit : c.unfitted key r = false) :
    c.writeValue m key r none = (c, some Abort.invalid) := by
  simp [Chip.writeValue, hm, hfit]

theorem Chip.writeValue_byValue {x : Int} {code : Abort} (hm : c.masterAbort? m key r = none) (hfit : c.unfitted key r = false)
    (h : c.valueAbort? key r x = some code) : c.writeValue m key r (some x) = (c, some code) := by
  simp [Chip.writeValue, hm, hfit, h]

theorem Chip.writeValue_running {x : Int} (hm : c.masterAbort? m key r = none) (hfit : c.unfitted key r = false)
    (hv : c.valueAbort? key r x = none) (hupd : r.upd = .s) (hrun : c.blockStopped key = false) :
    c.writeValue m key r (some x) = (c, some Abort.deviceState) := by
  simp [Chip.writeValue, hm, hfit, hv, hupd, hrun]

theorem Chip.valueAbort_above {x lo hi : Int} (hchk : r.chk = .range lo hi) (h : hi < x) :
    c.valueAbort? key r x = some Abort.tooHigh := by
  simp [Chip.valueAbort?, hchk, Check.abort?, h]

theorem Chip.valueAbort_below {x lo hi : Int} (hchk : r.chk = .range lo hi) (h : x < lo) (hr : lo ≤ hi) :
    c.valueAbort? key r x = some Abort.tooLow := by
  simp [Chip.valueAbort?, hchk, Check.abort?, h, (h.trans_le hr).le.not_gt]

/-! ### Its answer -/

/-- The answer to every master but function 0 is an abort message. -/
theorem Chip.refuse_out {code : Abort} (hm : m ≠ .f0) : (c.refuse m key code).out = c.out ++ [.abort m key code] := by
  have hnote : (c.noteAbort m key code).out = c.out := by
    have h := congrArg Chip.out (Chip.noteAbort_out c c.out m key code)
    exact h
  simp [Chip.refuse, hm, Chip.emit_out, hnote]

end

/-- A write of a whole slot that `writeValue` refuses with the part as it was. -/
theorem answer_of_refusedWrite {s : State} {m : Master} {idx : BitVec 16} {sub : BitVec 8} {v : Slot} {r : Row} {code : Abort}
    (hs : s.chip.serves m (keyOf idx sub)) (hm : m = .can ∨ m = .sp) (hr : rowAt? (keyOf idx sub) = some r) (hacc : r.acc ≠ .domain)
    (h : s.chip.fresh.writeValue m (keyOf idx sub) r (r.valueOf? v) = (s.chip.fresh, some code)) :
    Answer (.objectWrite m idx sub .full v) s [.abort m (keyOf idx sub) code] (s.chip.noteAbort m (keyOf idx sub) code) := by
  have hf1 : m ≠ .f1 := by rcases hm with rfl | rfl <;> decide
  have hf0 : m ≠ .f0 := by rcases hm with rfl | rfl <;> decide
  have hrun : objectWrite m (keyOf idx sub) .full v s.chip.fresh = s.chip.fresh.refuse m (keyOf idx sub) code := by
    rw [objectWrite_full (c := s.chip.fresh) hs hf1 hr hacc]
    rw [h, Chip.attempt2]
  refine answer_of_run (exec_objectWrite_alone ..) ?_ ?_
  · change (objectWrite m (keyOf idx sub) .full v s.chip.fresh).agrees _
    rw [hrun]
    refine Chip.agrees_trans (Chip.refuse_agrees_noteAbort ..) ?_
    rw [Chip.fresh, Chip.noteAbort_out]
    exact Chip.agrees_out _ _
  · change _ <+: (objectWrite m (keyOf idx sub) .full v s.chip.fresh).out
    rw [hrun, Chip.refuse_out hf0]
    exact List.prefix_rfl

end Sys2Proof.Machine
end

section
/-! Writes that are refused, the error queues, the monotonic counters and the reset state. -/

namespace Sys2Proof.Machine

/-- Settles O23: each rule is the first that refuses, before anything is changed. -/
theorem refusedWriteChangesNothing : Obligations.RefusedWriteChangesNothing := by
  unfold Obligations.RefusedWriteChangesNothing
  intro s m idx sub v r key hs hm hr hacc refused
  have hsecure : secure m = false := by rcases hm with rfl | rfl <;> rfl
  have answer {code : Abort} (h : s.chip.fresh.writeValue m key r (r.valueOf? v) = (s.chip.fresh, some code)) : refused code :=
    answer_of_refusedWrite hs hm hr hacc h
  refine ⟨fun h => answer (Chip.writeValue_byMaster (Chip.masterAbort_readOnly h)),
    fun h => answer (Chip.writeValue_byMaster (Chip.masterAbort_notSecure h hsecure)),
    fun hma => ⟨fun h => answer (Chip.writeValue_unfitted hma h), fun hfit => ⟨fun h => ?_, fun x lo hi hv hchk => ⟨fun h => ?_, fun h hle => ?_⟩,
      fun x hv hval hupd hrun => ?_⟩⟩⟩ <;> refine answer ?_ <;> rw [‹r.valueOf? v = _›]
  · exact Chip.writeValue_noValue hma hfit
  · exact Chip.writeValue_byValue hma hfit (Chip.valueAbort_above hchk h)
  · exact Chip.writeValue_byValue hma hfit (Chip.valueAbort_below hchk h hle)
  · exact Chip.writeValue_running hma hfit hval hupd hrun

/-- A record whose count has reached the width of its field (Table 3.9). -/
def saturatedRecord : ErrRec := { (default : ErrRec) with count := 0xFFFFFFFF }

/-- Refutes O58: the count of a record that coalesces stays at 0xFFFFFFFF, where the statement has it grow by one. -/
theorem not_errorQueueEntries : ¬ Obligations.ErrorQueueEntries := by
  unfold Obligations.ErrorQueueEntries
  rintro ⟨h, -⟩
  have hone : ({ recs := [saturatedRecord] } : ErrQ).recs.length ≤ 16 := by decide
  obtain ⟨-, hsame, -⟩ := h { recs := [saturatedRecord] } saturatedRecord hone
  obtain ⟨hrecs, -⟩ := hsame saturatedRecord [] rfl (by decide)
  exact absurd hrecs (by decide)

/-- Settles O59: the copy written held no more than the other, so the other alone gives the value before. -/
theorem countersSurviveInterruption : Obligations.CountersSurviveInterruption := by
  unfold Obligations.CountersSurviveInterruption
  intro n k hk
  have hsum : (n.value + k) % 2 ^ 48 = n.value + k := Nat.mod_eq_of_lt hk
  simp only [NvmCounter.add, hsum]
  split
  case isTrue h => simp [NvmCounter.value]; omega
  case isFalse h => simp [NvmCounter.value]; omega

/-- Settles O55: the reset part keeps no object, so each reads its default. -/
theorem resetState : Obligations.ResetState := by
  unfold Obligations.ResetState
  refine ⟨⟨rfl, rfl, rfl, rfl, rfl, rfl, fun _ => rfl, by decide, by decide, by decide, by decide, by decide, by decide, by decide⟩, by decide, by decide⟩

end Sys2Proof.Machine
end

section
/-! SUPPORT. What an operation keeps. An invariant here is a property of a part that a change of its objects, of DRAM and of the state of
its blocks does not touch: it holds after every operation that only changes those. One law an operation, after those of the operations it
is built of; each proof follows the body of its definition, so a chain of operations `c.f.g` is `hc.f.g`. That the stores are canonical
(log entry 5) is such an invariant, and holds after every operation of the model. -/

namespace Sys2Proof.Machine

/-! ### The forms that definitions are built of -/

/-- What holds of the answer of an operation that is not refused. -/
def Okay {α : Type} (P : α → Prop) : Except Abort α → Prop
  | .ok a => P a
  | .error _ => True

theorem Okay.ok {α : Type} {P : α → Prop} {a : α} (h : P a) : Okay P (.ok a) := h

theorem Okay.always {α : Type} {P : α → Prop} {r : Except Abort α} (h : ∀ a, P a) : Okay P r :=
  match r with
  | .ok a => h a
  | .error _ => trivial

theorem Okay.ite {α : Type} {P : α → Prop} {p : Prop} [Decidable p] {a b : Except Abort α} (ha : Okay P a) (hb : Okay P b) :
    Okay P (if p then a else b) := by
  split
  exacts [ha, hb]

theorem Okay.map {α β : Type} {P : α → Prop} {Q : β → Prop} {f : α → β} {r : Except Abort α} (hr : Okay P r)
    (h : ∀ {a : α}, P a → Q (f a)) : Okay Q (r.map f) :=
  match r, hr with
  | .ok _, ha => h ha
  | .error _, _ => trivial

/-- A property of a part that a change of its objects, of DRAM, of the state of its blocks and of the pixel die's supply keeps. -/
structure Invariant where
  holds : Chip → Prop
  beside : ∀ {c : Chip} {staged pendingP kept halves latches errq entered pins rails nvm domains sps spm pcie can psi mbx dma act heads banks
    cal hk thermal onion sol pix regions happened free out}, holds c →
    holds (Chip.mk c.dict staged pendingP kept halves latches errq entered c.clk pins rails c.boot c.mode nvm domains c.dram
      sps spm pcie can psi mbx dma act heads banks cal hk thermal onion sol pix regions happened free out)
  set : ∀ {c : Chip} {key : Nat} {v : Int}, holds c → holds (c.set key v)
  forget : ∀ {c : Chip} {p : Nat × Int → Bool}, holds c → holds { c with dict := c.dict.filter p }
  dramPut : ∀ {c : Chip} {a : Nat} {b : Byte}, holds c → holds { c with dram := c.dram.put a b }
  dramBytes : ∀ {c : Chip} {a : Nat} {l : List Byte}, holds c → holds { c with dram := c.dram.write a l }
  noDram : ∀ {c : Chip}, holds c → holds { c with dram := [] }
  dieOff : ∀ {c : Chip}, holds c → holds { c with
    mode := { c.mode with pixelUse := .off, trained := [false, false] }
    clk := { c.clk with divNext := none } }

/-- An invariant holds of a part. -/
def Chip.Holds (c : Chip) (I : Invariant) : Prop := I.holds c

section
variable {c d : Chip} {α : Type} {I : Invariant}

/-- Any change beside the stores, the clock, the start and the mode. -/
theorem Chip.Holds.beside {staged pendingP kept halves latches errq entered pins rails nvm domains sps spm
    pcie can psi mbx dma act heads banks cal hk thermal onion sol pix regions happened free out} (hc : c.Holds I) :
    Chip.Holds (Chip.mk c.dict staged pendingP kept halves latches errq entered c.clk pins rails c.boot c.mode nvm domains c.dram
    sps spm pcie can psi mbx dma act heads banks cal hk thermal onion sol pix regions happened free out) I := I.beside hc

theorem Chip.Holds.ite {p : Prop} [Decidable p] (hc : c.Holds I) (hd : d.Holds I) : (if p then c else d).Holds I := by
  split
  exacts [hc, hd]

theorem Chip.Holds.of_eq (hc : c.Holds I) (h : c = d) : d.Holds I := h ▸ hc

/-- A step that is taken on a condition. -/
theorem Chip.Holds.when {p : Prop} [Decidable p] (hc : c.Holds I) (h : c.Holds I → d.Holds I) :
    (if p then d else c).Holds I := .ite (h hc) hc

/-- What follows from a part that is named once. -/
theorem Chip.Holds.seq {q : Prop} (hc : c.Holds I) (h : c.Holds I → q) : q := h hc

theorem Chip.Holds.foldl {f : Chip → α → Chip} {l : List α} (hc : c.Holds I)
    (hf : ∀ {d : Chip} {a : α}, d.Holds I → (f d a).Holds I) : (l.foldl f c).Holds I := by
  induction l generalizing c with
  | nil => exact hc
  | cons a l ih => exact ih (hf hc)

end

/-! ### The stores -/

theorem Dict.rising_filter (p : Nat × Int → Bool) {d : Dict} (h : d.rising = true) : Dict.rising (d.filter p) = true := by
  induction d with
  | nil => rfl
  | cons e d ih =>
    obtain ⟨k, v⟩ := e
    obtain ⟨hlt, hd⟩ := (Dict.rising_cons k v d).1 h
    rw [List.filter_cons]
    split
    · exact (Dict.rising_cons _ _ _).2 ⟨fun e he => hlt e (List.mem_of_mem_filter he), ih hd⟩
    · exact ih hd

/-- Forgetting objects keeps the canonical form. -/
theorem Dict.wf_filter (p : Nat × Int → Bool) {d : Dict} (h : d.wf = true) : Dict.wf (d.filter p) = true := by
  simp only [Dict.wf, Bool.and_eq_true, List.all_eq_true] at h ⊢
  obtain ⟨hrising, hdefault⟩ := h
  exact ⟨Dict.rising_filter p hrising, fun e he => hdefault e (List.mem_of_mem_filter he)⟩

/-- The invariant of the stores. -/
def stores : Invariant where
  holds := Chip.storesCanonical
  beside h := h
  set := fun ⟨hdict, hdram⟩ => ⟨Dict.wf_put _ _ hdict, hdram⟩
  forget := fun ⟨hdict, hdram⟩ => ⟨Dict.wf_filter _ hdict, hdram⟩
  dramPut := fun ⟨hdict, hdram⟩ => ⟨hdict, Memory.wf_put _ _ hdram⟩
  dramBytes := fun ⟨hdict, hdram⟩ => ⟨hdict, Memory.wf_write _ _ hdram⟩
  noDram := fun ⟨hdict, _⟩ => ⟨hdict, rfl⟩
  dieOff h := h

/-- The stores of a part are in canonical form. -/
abbrev Chip.Canonical (c : Chip) : Prop := c.Holds stores

/-- Any change beside the stores. -/
theorem Chip.Holds.elsewhere {c : Chip} {staged pendingP kept halves latches errq entered clk pins rails boot mode nvm domains sps spm
    pcie can psi mbx dma act heads banks cal hk thermal onion sol pix regions happened free out} (hc : c.Canonical) :
    Chip.Canonical (Chip.mk c.dict staged pendingP kept halves latches errq entered clk pins rails boot mode nvm domains c.dram
    sps spm pcie can psi mbx dma act heads banks cal hk thermal onion sol pix regions happened free out) := hc

section
variable {c : Chip} {I : Invariant} (hc : c.Holds I)
include hc

theorem Chip.Holds.set {key : Nat} {v : Int} : (c.set key v).Holds I := I.set hc

theorem Chip.Holds.forget {p : Nat × Int → Bool} : Chip.Holds { c with dict := c.dict.filter p } I := I.forget hc

theorem Chip.Holds.dramPut {a : Nat} {b : Byte} : Chip.Holds { c with dram := c.dram.put a b } I := I.dramPut hc

theorem Chip.Holds.dramBytes {a : Nat} {l : List Byte} : Chip.Holds { c with dram := c.dram.write a l } I := I.dramBytes hc

theorem Chip.Holds.noDram : Chip.Holds { c with dram := [] } I := I.noDram hc

theorem Chip.Holds.dieOff : Chip.Holds { c with
    mode := { c.mode with pixelUse := .off, trained := [false, false] }
    clk := { c.clk with divNext := none } } I := I.dieOff hc

theorem Chip.Holds.setAll {l : List (Nat × Int)} : (c.setAll l).Holds I := by
  induction l generalizing c with
  | nil => exact hc
  | cons e l ih => exact ih hc.set

end

/-! ### The operations -/

section
variable {I : Invariant}

theorem Chip.Holds.note {c : Chip} {key amount : Nat} (hc : c.Holds I) : (c.note key amount).Holds I := hc.beside

theorem Chip.Holds.bumpBy {c : Chip} {key n : Nat} (hc : c.Holds I) : (c.bumpBy key n).Holds I := hc.note.set

theorem Chip.Holds.bump {c : Chip} {key : Nat} (hc : c.Holds I) : (c.bump key).Holds I := hc.bumpBy

theorem Chip.Holds.emit {c : Chip} {m : OutMsg} (hc : c.Holds I) : (c.emit m).Holds I := hc.beside

theorem Chip.Holds.canTransmit {c : Chip} {o : OutMsg} (hc : c.Holds I) : (c.canTransmit o).Holds I :=
  hc.when (·.beside.set.emit)

theorem Chip.Holds.canSend {c : Chip} {ident : Nat} {data : List Byte} (hc : c.Holds I) : (c.canSend ident data).Holds I :=
  hc.canTransmit

theorem Chip.Holds.emcyTransmit {c : Chip} {e : Emcy} (hc : c.Holds I) : (c.emcyTransmit e).Holds I :=
  hc.canSend.seq fun h => .ite h h.beside

theorem Chip.Holds.emcy {c : Chip} {e : Emcy} (hc : c.Holds I) : (c.emcy e).Holds I :=
  .ite (.ite (.ite hc.beside hc.beside.bump) hc.emcyTransmit) hc

theorem Chip.Holds.emcyBare {c : Chip} {code : Nat} (hc : c.Canonical) : (c.emcyBare code).Canonical := hc.emcy

theorem Chip.Holds.noteBit {c : Chip} {key b : Nat} {rises : Bool} (hc : c.Canonical) : (c.noteBit key b rises).Canonical :=
  hc.note

theorem Chip.Holds.wakeCause {c : Chip} (hc : c.Canonical) : c.wakeCause.Canonical :=
  (hc.when (·.beside.when (·.emit))).when (·.beside)

theorem Chip.Holds.msix0 {c : Chip} {vec : Nat} (hc : c.Holds I) : (c.msix0 vec).Holds I := .ite hc.beside hc.emit

theorem Chip.Holds.eventBit {c : Chip} {b : Nat} (hc : c.Canonical) : (c.eventBit b).Canonical :=
  ((hc.when (·.wakeCause)).noteBit).seq fun h => .ite h (h.set.when (·.msix0))

theorem Chip.Holds.pcieEvents {c : Chip} {ev : Nat} (hc : c.Canonical) : (c.pcieEvents ev).Canonical :=
  hc.when (·.foldl (fun h => h.when (·.eventBit)))

theorem Chip.Holds.tpdoSend {c : Chip} {n : Nat} (hc : c.Canonical) : (c.tpdoSend n).Canonical := hc.canSend.beside

theorem Chip.Holds.tpdoEvent {c : Chip} {n : Nat} (hc : c.Canonical) : (c.tpdoEvent n).Canonical :=
  .ite hc (.ite hc.bump (.ite hc.beside.bump hc.tpdoSend))

theorem Chip.Holds.tpdoEvents {a c : Chip} (_ : a.Canonical) (hd : c.Canonical) : (a.tpdoEvents c).Canonical :=
  .ite hd (hd.foldl (fun h => h.when (·.tpdoEvent)))

theorem Chip.Holds.announce {a c : Chip} (hc : a.Canonical) (hd : c.Canonical) : (a.announce c).Canonical :=
  .ite (hc.tpdoEvents (hd.when (·.emcyBare)).pcieEvents) hd

theorem Chip.Holds.canRecovers {c : Chip} (hc : c.Canonical) : c.canRecovers.Canonical := hc.when (·.set)

theorem Chip.Holds.withStatus {c : Chip} (hc : c.Canonical) : c.withStatus.Canonical := hc.canRecovers.set.beside

theorem Chip.Holds.settle {a c : Chip} (hc : a.Canonical) (hd : c.Canonical) : (settle a c).Canonical :=
  hc.announce hd.withStatus

theorem Chip.Holds.modThermal {c : Chip} {f : Thermal → Thermal} (hc : c.Canonical) : (c.modThermal f).Canonical :=
  hc.beside

theorem Chip.Holds.setTrips {c : Chip} (hc : c.Canonical) : c.setTrips.Canonical := hc.modThermal

theorem Chip.Holds.nvmHold {c : Chip} {w : NvmWrite} (hc : c.Holds I) : (c.nvmHold w).Holds I :=
  (Chip.Holds.ite hc.beside (by split; exacts [.ite hc.beside hc.bump, hc.bump])).set

theorem Chip.Holds.nvmEnterHold {c : Chip} (hc : c.Holds I) : c.nvmEnterHold.Holds I :=
  .ite hc (hc.beside.seq fun h => .ite h h.set)

theorem Chip.Holds.total {c : Chip} {key n : Nat} (hc : c.Holds I) : (c.total key n).Holds I := hc.set

theorem Chip.Holds.nvmBusy {c : Chip} {groups : Nat} {undo : NvmUndo} (hc : c.Holds I) : (c.nvmBusy groups undo).Holds I :=
  hc.beside.total

theorem Chip.Holds.writeTrim {c : Chip} {target set : Nat} {codes : Option TrimPair → TrimCodes} (hc : c.Holds I) :
    (c.writeTrim target set codes).Holds I :=
  hc.beside.nvmBusy

theorem Chip.Holds.nvmApply {c : Chip} {w : NvmWrite} (hc : c.Holds I) : (c.nvmApply w).Holds I := by
  unfold Chip.nvmApply
  dsimp only
  split
  · exact hc.beside.nvmBusy
  · exact hc.beside.set.set.nvmBusy
  · exact hc.beside.nvmBusy
  · exact hc.writeTrim
  · exact hc.writeTrim
  · exact hc.total

theorem Chip.Holds.nvmWrite {c : Chip} {w : NvmWrite} (hc : c.Holds I) : (c.nvmWrite w).Holds I :=
  .ite hc.nvmEnterHold.nvmHold (.ite hc.beside hc.nvmApply)

theorem Chip.Holds.release {straps : Nat} {c : Chip} (hc : c.Canonical) :
    (Sys2Proof.Machine.release straps c).Canonical :=
  .ite hc (hc.elsewhere.setAll.setTrips.when (·.nvmWrite))

theorem Chip.Holds.frontLeft {c : Chip} {cause : Nat} : (c.frontLeft cause).Canonical := ⟨rfl, rfl⟩

theorem Chip.Holds.frontReset {c : Chip} {cause : Nat} : (c.frontReset cause).Canonical := frontLeft

theorem Chip.Holds.sysRst {c : Chip} (_ : c.Canonical) : (Sys2Proof.Machine.sysRst c).Canonical := frontReset

theorem Chip.Holds.nvmVanaBack {c : Chip} (hc : c.Canonical) : c.nvmVanaBack.Canonical :=
  hc.beside.foldl (fun h => .ite h.nvmApply h.nvmWrite)

theorem Chip.Holds.reportImages {c : Chip} (hc : c.Canonical) : c.reportImages.Canonical := hc.setAll

theorem Chip.Holds.beginImage {c : Chip} (hc : c.Canonical) : c.beginImage.Canonical := by
  unfold Chip.beginImage
  dsimp only
  split
  · exact hc
  · exact .ite hc (hc.beside.seq fun h => (Chip.Holds.ite h.beside h.beside).reportImages)

theorem Chip.Holds.modActCh {c : Chip} {ch : Nat} {f : ActCh → ActCh} (hc : c.Holds I) : (c.modActCh ch f).Holds I :=
  hc.beside

theorem Chip.Holds.toDecay {c : Chip} {ch r : Nat} (hc : c.Holds I) : (c.toDecay ch r).Holds I := hc.modActCh.set

theorem Chip.Holds.cutOff {c : Chip} {r ch : Nat} (hc : c.Holds I) : (c.cutOff r ch).Holds I :=
  .ite hc.toDecay (hc.when (·.modActCh))

theorem Chip.Holds.modActBank {c : Chip} {b : Nat} {f : ActBank → ActBank} (hc : c.Holds I) : (c.modActBank b f).Holds I :=
  hc.beside

theorem Chip.Holds.discardQueue {c : Chip} {b : Nat} (hc : c.Holds I) : (c.discardQueue b).Holds I :=
  (hc.foldl (fun h => h.when (·.set))).modActBank

theorem Chip.Holds.raise {c : Chip} {level region block cell code ctx0 ctx1 : Nat} (hc : c.Holds I) :
    (c.raise level region block cell code ctx0 ctx1).Holds I :=
  ((hc.beside.when (·.bump)).when (·.beside)).when (·.nvmWrite.seq fun h4 => .ite h4 h4.emcy)

theorem Chip.Holds.parkFault {c : Chip} {b : Nat} (hc : c.Holds I) : (c.parkFault b).Holds I := hc.set.modActBank.raise

theorem Chip.Holds.refreshBanks {c : Chip} (hc : c.Holds I) : c.refreshBanks.Holds I := hc.set.set

theorem Chip.Holds.vsolUpdate {c : Chip} (hc : c.Canonical) : c.vsolUpdate.Canonical :=
  hc.set.seq fun h1 => .ite ((h1.foldl (fun h2 => h2.cutOff)).discardQueue.discardQueue.seq fun h3 => (Chip.Holds.ite
    ((h3.when (·.parkFault)).parkFault) (h3.when (·.parkFault))).refreshBanks) h1

theorem Chip.Holds.railTrip {r : Nat} {l : RailLevel} {c : Chip} (hc : c.Canonical) : (railTrip r l c).Canonical :=
  (hc.beside.when (·.beginImage.nvmVanaBack)).when (·.vsolUpdate)

theorem Chip.Holds.modMbx {c : Chip} {ch : Nat} {f : Mbx → Mbx} (hc : c.Holds I) : (c.modMbx ch f).Holds I := hc.beside

theorem Chip.Holds.mbxServe {ch type : Nat} {f : List Nat → Chip → List Nat × Chip} {c : Chip} (hf : ∀ {a : List Nat} {b :
      Chip}, b.Canonical → (f a b).2.Canonical) (hc : c.Canonical) :
    (mbxServe ch type f c).Canonical := by
  unfold Sys2Proof.Machine.mbxServe
  split
  · exact hc
  · split
    · exact hc
    · exact .ite ((hf hc).modMbx) hc

theorem Chip.Holds.modDma {c : Chip} {ch : Nat} {f : DmaCh → DmaCh} (hc : c.Holds I) : (c.modDma ch f).Holds I :=
  hc.beside

theorem Chip.Holds.dmaRelease {c : Chip} {ch : Nat} (hc : c.Holds I) : (c.dmaRelease ch).Holds I := by
  unfold Chip.dmaRelease
  dsimp only
  split
  · exact hc.when (·.beside.set)
  · exact hc

theorem Chip.Holds.putDomain {c : Chip} {key : Nat} {l : List Byte} (hc : c.Holds I) : (c.putDomain key l).Holds I :=
  hc.beside

theorem Chip.Holds.putSet {c : Chip} {s : Nat} {d : Option SetData} (hc : c.Holds I) : (c.putSet s d).Holds I :=
  hc.beside

theorem Chip.Holds.putImage {c : Chip} {key : Nat} {l : List Byte} (hc : c.Holds I) : (c.putImage key l).Holds I := by
  unfold Chip.putImage
  dsimp only
  split
  · exact hc.putDomain
  · split
    · split
      · exact hc
      · exact hc.putSet
    · exact hc

theorem Chip.Holds.dramWrite {c : Chip} {a : Nat} {l : List Byte} (hc : c.Holds I) : (c.dramWrite a l).Holds I :=
  (hc.foldl fun h => .ite h h.putImage).foldl fun h => .ite h h.dramPut

theorem Chip.Holds.dmaPut {c : Chip} {space a : Nat} {l : List Byte} (hc : c.Holds I) : (c.dmaPut space a l).Holds I :=
  .ite ((hc.when (·.bump)).dramWrite) hc.emit

theorem Chip.Holds.dropCopy {c : Chip} {x : StatCopy} (hc : c.Holds I) : (c.dropCopy x).Holds I := hc.beside

theorem Chip.Holds.copyEnds {c : Chip} {x : StatCopy} {st : Nat} (hc : c.Holds I) : (c.copyEnds x st).Holds I :=
  hc.dropCopy.seq fun h => .ite h.bump ((Chip.Holds.ite h h.emit).msix0.set)

theorem Chip.Holds.dmaProgram {c : Chip} {ch : Nat} {d : DmaDesc} (hc : c.Holds I) : (c.dmaProgram ch d).Holds I :=
  hc.setAll

theorem Chip.Holds.dmaBegin {c : Chip} {ch : Nat} {d : DmaDesc} (hc : c.Holds I) : (c.dmaBegin ch d).Holds I :=
  hc.dmaProgram.modDma.set

theorem Chip.Holds.dropSet {c : Chip} {s : Nat} (hc : c.Holds I) : (c.dropSet s).Holds I := by
  unfold Chip.dropSet
  split
  · exact hc
  · exact (hc.dramBytes.dramBytes).putSet

theorem Chip.Holds.flashReadNow {c : Chip} {off len : Nat} (hc : c.Holds I) : (c.flashReadNow off len).Holds I :=
  hc.emit.beside.when (·.set)

theorem Chip.Holds.xipRead {off len : Nat} {c : Chip} (hc : c.Holds I) : (xipRead off len c).Holds I :=
  .ite hc (.ite hc.beside hc.flashReadNow)

theorem Chip.Holds.loadStatus {c : Chip} {s st : Nat} (hc : c.Holds I) : (c.loadStatus s st).Holds I := hc.set

theorem Chip.Holds.freePasses {c : Chip} (hc : c.Holds I) : c.freePasses.Holds I := hc.beside

theorem Chip.Holds.refreshSets {c : Chip} (hc : c.Holds I) : c.refreshSets.Holds I :=
  (hc.freePasses.foldl (fun h2 => h2.when (·.set))).set

theorem Chip.Holds.startLoad {c : Chip} {l : SetLoad} (hc : c.Holds I) : (c.startLoad l).Holds I := by
  unfold Chip.startLoad
  extract_lets l cleared read
  have hcleared : cleared.Holds I := hc.dropSet.dmaBegin
  have hread : read.Holds I := .ite hcleared hcleared.xipRead
  exact hread.beside.set.set.refreshSets.loadStatus

theorem Chip.Holds.bootLoads {c : Chip} (hc : c.Holds I) : c.bootLoads.Holds I := by
  unfold Chip.bootLoads
  dsimp only
  split
  · exact hc.beside.startLoad
  · exact hc

theorem Chip.Holds.loadFailed {c : Chip} {s st : Nat} (hc : c.Holds I) : (c.loadFailed s st).Holds I := by
  unfold Chip.loadFailed
  exact hc.dropSet.set.loadStatus.refreshSets.raise

theorem Chip.Holds.sequenceSees {c : Chip} {ch st : Nat} (hc : c.Holds I) : (c.sequenceSees ch st).Holds I := by
  unfold Chip.sequenceSees
  dsimp only
  split
  · exact hc.copyEnds
  · exact hc.when (·.beside.loadFailed.bootLoads)
  · exact hc

theorem Chip.Holds.dmaEnd {c : Chip} {ch st n addr : Nat} (hc : c.Holds I) : (c.dmaEnd ch st n addr).Holds I :=
  (Chip.Holds.ite hc hc.modDma).dmaRelease.setAll.seq fun h3 => ((Chip.Holds.ite h3.bump (h3.when (·.bump))).when
    (·.bump)).seq fun h5 => ((Chip.Holds.ite h5 h5.dmaPut).when (·.msix0)).modDma.sequenceSees

theorem Chip.Holds.firmwareRead {c : Chip} {a len st : Nat} (hc : c.Canonical) : (c.firmwareRead a len st).Canonical :=
  .ite hc hc.dmaBegin.total.dmaEnd

theorem Chip.Holds.slotVerified {c : Chip} {s : Nat} {v : Bool} (hc : c.Canonical) : (c.slotVerified s v).Canonical :=
  hc.elsewhere

theorem Chip.Holds.fwImageWrite {data : List Byte} {w : List Nat} {c : Chip} (hc : c.Canonical) :
    (fwImageWrite data w c).2.Canonical := by
  unfold Sys2Proof.Machine.fwImageWrite
  dsimp only
  split
  · exact hc
  · split
    · exact hc.firmwareRead
    · exact hc.firmwareRead.beside.slotVerified

theorem Chip.Holds.logOnly {c : Chip} {region block cell code ctx0 ctx1 : Nat} (hc : c.Canonical) :
    (c.logOnly region block cell code ctx0 ctx1).Canonical :=
  hc.beside.nvmWrite

theorem Chip.Holds.fwCommit {sigOk : Bool} {_w : List Nat} {c : Chip} (hc : c.Canonical) :
    (fwCommit sigOk _w c).2.Canonical := by
  unfold Sys2Proof.Machine.fwCommit
  dsimp only
  split
  · exact hc.beside.slotVerified.logOnly
  · exact hc.slotVerified

theorem Chip.Holds.serveSlot {r : SlotRequest} {c : Chip} (hc : c.Canonical) : (serveSlot r c).Canonical := by
  unfold Sys2Proof.Machine.serveSlot
  dsimp only
  split
  · exact hc.beside
  · split
    · exact hc.mbxServe (fun h => h.fwImageWrite)
    · exact hc.mbxServe (fun h => h.fwCommit)

theorem Chip.Holds.railCrossing {r : Nat} {l : RailLevel} {c : Chip} (hc : c.Canonical) : (railCrossing r l c).Canonical :=
  hc.railTrip.seq fun h1 => .ite h1 (h1.beside.foldl (fun h2 => h2.serveSlot))

theorem Chip.Holds.emcyFor {c : Chip} {code region recCode : Nat} (hc : c.Holds I) :
    (c.emcyFor code region recCode).Holds I :=
  hc.emcy

theorem Chip.Holds.takeSlot {c : Chip} {ch : Nat} {u : ActUser} (hc : c.Holds I) : (c.takeSlot ch u).Holds I :=
  hc.discardQueue.modActBank.seq fun h2 => .ite h2 h2.set

theorem Chip.Holds.parkNext {c : Chip} {b : Nat} (hc : c.Holds I) : (c.parkNext b).Holds I :=
  .ite hc.parkFault (.ite (.ite hc.takeSlot.modActBank hc.parkFault) hc.discardQueue.modActBank)

theorem Chip.Holds.parkBank {c : Chip} {b : Nat} (hc : c.Holds I) : (c.parkBank b).Holds I :=
  hc.modActBank.seq fun h1 => (Chip.Holds.ite h1 h1.discardQueue.cutOff.cutOff).seq fun h2 => .ite h2 h2.parkNext

theorem Chip.Holds.startPark {c : Chip} (hc : c.Holds I) : c.startPark.Holds I :=
  .ite hc (hc.beside.seq fun h => (Chip.Holds.ite h.parkBank.parkBank h.modActBank.modActBank).refreshBanks)

theorem Chip.Holds.logCopy {c : Chip} {region : Nat} (hc : c.Holds I) : (c.logCopy region).Holds I := hc.nvmWrite

theorem Chip.Holds.modSol {c : Chip} {h : Nat} {f : Solstice → Solstice} (hc : c.Holds I) : (c.modSol h f).Holds I :=
  hc.beside

theorem Chip.Holds.modSource {c : Chip} {s : Nat} {f : Source → Source} (hc : c.Holds I) : (c.modSource s f).Holds I :=
  hc.beside

theorem Chip.Holds.clearAverage {c : Chip} {h : Nat} (hc : c.Holds I) : (c.clearAverage h).Holds I :=
  hc.modSol.modSource

theorem Chip.Holds.dropCommit {c : Chip} {h : Nat} (hc : c.Holds I) : (c.dropCommit h).Holds I := by
  unfold Chip.dropCommit
  dsimp only
  split
  · exact hc
  · exact hc.beside.modSol.refreshSets

theorem Chip.Holds.solsticeIdle {c : Chip} {h : Nat} (hc : c.Holds I) : (c.solsticeIdle h).Holds I := .ite hc hc.set.set

theorem Chip.Holds.solsticeEnd {c : Chip} {h : Nat} {ev : SolEvent} (hc : c.Holds I) : (c.solsticeEnd h ev).Holds I :=
  hc.modSol.modSource.clearAverage.solsticeIdle

theorem Chip.Holds.modEvent {c : Chip} {h : Nat} {f : SolEvent → SolEvent} (hc : c.Holds I) : (c.modEvent h f).Holds I :=
  hc.modSol

theorem Chip.Holds.solsticePhase {c : Chip} {h st : Nat} (hc : c.Holds I) : (c.solsticePhase h st).Holds I := hc.set.set

theorem Chip.Holds.clampHold {c : Chip} {b : Nat} (hc : c.Holds I) : (c.clampHold b).Holds I :=
  hc.when (·.modActBank.bump)

theorem Chip.Holds.clampUpdate {c : Chip} (hc : c.Holds I) : c.clampUpdate.Holds I := hc.beside.clampHold.clampHold

theorem Chip.Holds.solsticeRequest {c : Chip} {b : Nat} {pos : Int} (hc : c.Holds I) : (c.solsticeRequest b pos).Holds I :=
  .ite hc.modActBank.bump hc.modActBank.takeSlot.clampUpdate.refreshBanks

theorem Chip.Holds.solsticeOpen {c : Chip} {h : Nat} (hc : c.Holds I) : (c.solsticeOpen h).Holds I := by
  unfold Chip.solsticeOpen
  dsimp only
  split
  · exact hc.modEvent.solsticeRequest
  · exact hc.modEvent

theorem Chip.Holds.solsticeAbandon {c : Chip} {h cause : Nat} {now : Bool} (hc : c.Holds I) :
    (c.solsticeAbandon h cause now).Holds I := by
  unfold Chip.solsticeAbandon
  dsimp only
  split
  · exact hc
  · exact (hc.bump.set.raise.logCopy.when (·.set)).dropCommit.clearAverage.seq fun h4 => .ite h4.solsticeEnd (h4.modEvent.seq fun
    h5 => .ite h5.set (h5.solsticePhase.when (·.solsticeOpen)))

theorem Chip.Holds.solsticeStandby {c : Chip} {h : Nat} (hc : c.Holds I) : (c.solsticeStandby h).Holds I := by
  unfold Chip.solsticeStandby
  dsimp only
  split
  · exact hc
  · split
    · exact (Chip.Holds.ite hc hc.solsticeAbandon)
    · exact ((Chip.Holds.ite hc hc.solsticeAbandon)).solsticeEnd

theorem Chip.Holds.modHead {c : Chip} {h : Nat} {f : HeadPort → HeadPort} (hc : c.Holds I) : (c.modHead h f).Holds I :=
  hc.beside

theorem Chip.Holds.serve {c : Chip} {b j slot st : Nat} (hc : c.Holds I) : (c.serve b j slot st).Holds I := hc.set.set

theorem Chip.Holds.offSlot {c : Chip} {b j st : Nat} (hc : c.Holds I) : (c.offSlot b j st).Holds I := hc.serve

theorem Chip.Holds.modBank {c : Chip} {b : Nat} {f : ConvBank → ConvBank} (hc : c.Holds I) : (c.modBank b f).Holds I :=
  hc.beside

theorem Chip.Holds.calCounted {c : Chip} {b j : Nat} (hc : c.Holds I) : (c.calCounted b j).Holds I := hc.bump.set

theorem Chip.Holds.nvmTrim {c : Chip} {target set : Nat} {codes : TrimCodes} {back : Bool} (hc : c.Holds I) :
    (c.nvmTrim target set codes back).Holds I :=
  hc.nvmWrite

theorem Chip.Holds.putTrim {c : Chip} {b j : Nat} {t : Trim} (hc : c.Holds I) : (c.putTrim b j t).Holds I := hc.setAll

theorem Chip.Holds.newTrim {c : Chip} {b j : Nat} {t : Trim} {back : Bool} (hc : c.Holds I) :
    (c.newTrim b j t back).Holds I :=
  hc.modBank.putTrim.nvmTrim

theorem Chip.Holds.refreshSpares {c : Chip} {b : Nat} (hc : c.Holds I) : (c.refreshSpares b).Holds I := hc.set

theorem Chip.Holds.refreshStandin {c : Chip} {b : Nat} (hc : c.Holds I) : (c.refreshStandin b).Holds I := by
  unfold Chip.refreshStandin
  split
  · exact hc.set
  · exact hc.set

theorem Chip.Holds.endStandin {c : Chip} {b : Nat} {x : Subst} (hc : c.Holds I) : (c.endStandin b x).Holds I :=
  ((hc.when (·.offSlot)).modBank.when (·.serve)).seq fun h3 => (by split; exacts [h3.when (·.newTrim.calCounted.modBank.beside),
    h3] : Chip.Holds _ I).refreshStandin.refreshSpares

theorem Chip.Holds.cancelStandin {c : Chip} {b : Nat} {x : Subst} (hc : c.Holds I) : (c.cancelStandin b x).Holds I :=
  hc.modBank.endStandin

theorem Chip.Holds.headStopsStandin {c : Chip} {b : Nat} {now : Bool} (hc : c.Holds I) :
    (c.headStopsStandin b now).Holds I := by
  unfold Chip.headStopsStandin
  split
  · exact hc
  · exact .ite hc.cancelStandin (hc.when (·.endStandin))

theorem Chip.Holds.startObjects {c : Chip} {s : Nat} {w : Work} (hc : c.Holds I) : (c.startObjects s w).Holds I :=
  hc.setAll.seq fun h => .ite h ((h.when (·.set)).set)

theorem Chip.Holds.seedOnly {c : Chip} {s : Nat} {w : Work} (hc : c.Holds I) : (c.seedOnly s w).Holds I :=
  hc.when (·.modSource)

theorem Chip.Holds.pushDue {c : Chip} {s : Nat} {w : Work} {r : StatRec} (hc : c.Holds I) : (c.pushDue s w r).Holds I :=
  hc.when (·.modSource)

theorem Chip.Holds.modStream {c : Chip} {n : Nat} {f : Stream → Stream} (hc : c.Holds I) : (c.modStream n f).Holds I :=
  hc.beside

theorem Chip.Holds.attach {c : Chip} {s frame : Nat} {plain : Stored} {fused : Option Stored} (hc : c.Holds I) :
    (c.attach s frame plain fused).Holds I :=
  hc.foldl (fun h => h.when (·.modStream))

theorem Chip.Holds.accumulate {c : Chip} {s : Nat} {w : Work} {o : FrontOut} (hc : c.Holds I) :
    (c.accumulate s w o).Holds I :=
  hc.when (·.beside)

theorem Chip.Holds.frontObjects {c : Chip} {s : Nat} {w : Work} {o : FrontOut} (hc : c.Holds I) :
    (c.frontObjects s w o).Holds I :=
  hc.setAll.bumpBy.bumpBy.bumpBy.seq fun h2 => .ite h2 ((Chip.Holds.ite h2.setAll.bumpBy.bumpBy h2.setAll).when
    (·.setAll.bumpBy))

theorem Chip.Holds.compObjects {c : Chip} {s : Nat} {l : List (Option (Int × Nat))} (hc : c.Holds I) :
    (c.compObjects s l).Holds I :=
  hc.foldl (fun h => .ite h.setAll h.setAll)

theorem Chip.Holds.thermalEnd {c : Chip} {s : Nat} {w : Work} {o : FrontOut} (hc : c.Holds I) :
    (c.thermalEnd s w o).1.Holds I :=
  hc.setAll.bumpBy.bumpBy.compObjects.modSource.pushDue

theorem Chip.Holds.finishThermal {c : Chip} {s : Nat} {w : Work} (hc : c.Holds I) : (c.finishThermal s w).Holds I :=
  (hc.when (·.startObjects)).seq fun h => .ite (h.seedOnly.pushDue.seq fun h3 => .ite h3 h3.attach)
    (h.modSource.frontObjects.accumulate.seq fun h3 => .ite h3.thermalEnd.attach h3.pushDue.attach)

theorem Chip.Holds.finishVisible {c : Chip} {s : Nat} {w : Work} (hc : c.Holds I) : (c.finishVisible s w).Holds I :=
  (hc.when (·.modSource)).seq fun h1 => (Chip.Holds.ite h1.pushDue h1.pushDue).seq fun h2 => (by split; exacts [h2,
    h2.set.set] : Chip.Holds _ I).seq fun h3 => .ite h3 h3.attach

theorem Chip.Holds.finish {c : Chip} {s : Nat} {w : Work} (hc : c.Holds I) : (c.finish s w).Holds I :=
  hc.modSource.seq fun h => .ite h.finishThermal h.finishVisible

theorem Chip.Holds.finishDue {fuel : Nat} {c : Chip} {s : Nat} (hc : c.Holds I) : (Chip.finishDue fuel c s).Holds I := by
  induction fuel generalizing c with
  | zero => exact hc
  | succ fuel ih =>
    unfold Chip.finishDue
    split
    · exact hc
    · exact .ite (ih hc.finish) hc

theorem Chip.Holds.finishAll {c : Chip} {s : Nat} (hc : c.Holds I) : (c.finishAll s).Holds I := hc.finishDue

theorem Chip.Holds.closeWorks {c : Chip} {s : Nat} (hc : c.Holds I) : (c.closeWorks s).Holds I := hc.modSource.finishAll

theorem Chip.Holds.selectTrims {c : Chip} {b set : Nat} (hc : c.Holds I) : (c.selectTrims b set).Holds I :=
  .ite hc (hc.modBank.foldl (fun h2 => h2.putTrim))

theorem Chip.Holds.trimApplied {c : Chip} {key : Nat} {v : Int} (hc : c.Holds I) : (c.trimApplied key v).Holds I :=
  hc.foldl (fun h => h.when (·.selectTrims))

theorem Chip.Holds.onApplied {c : Chip} {key : Nat} {v : Int} (hc : c.Holds I) : (c.onApplied key v).Holds I :=
  (hc.foldl (fun h1 => .ite h1.modSource (.ite h1.modSource (.ite h1.modSource (h1.when (·.modSource)))))).foldl (fun h2 => .ite
    h2.modStream (h2.when (·.modStream)))

theorem Chip.Holds.applyF {c : Chip} {key : Nat} {v : Int} (hc : c.Holds I) : (c.applyF key v).Holds I :=
  hc.onApplied.set.trimApplied

theorem Chip.Holds.applyWrites {c : Chip} {l : List Staged} (hc : c.Holds I) : (c.applyWrites l).Holds I :=
  hc.foldl (fun h => h.applyF)

theorem Chip.Holds.applyStopped {c : Chip} {owner : Nat} (hc : c.Holds I) : (c.applyStopped owner).Holds I :=
  .ite hc hc.beside.applyWrites

theorem Chip.Holds.streamSettle {c : Chip} {n : Nat} (hc : c.Holds I) : (c.streamSettle n).Holds I :=
  .ite hc.set.applyStopped (hc.when (·.set.applyStopped))

theorem Chip.Holds.revertTrims {c : Chip} {b : Nat} (hc : c.Holds I) : (c.revertTrims b).Holds I :=
  hc.foldl (fun h => h.newTrim)

theorem Chip.Holds.putLeapTrim {c : Chip} {h : Nat} {t : LeapTarget} {code : Int} {back : Bool} (hc : c.Holds I) :
    (c.putLeapTrim h t code back).Holds I := by
  unfold Chip.putLeapTrim
  dsimp only
  split
  · exact hc.beside.set.nvmTrim
  · exact hc.beside.set.nvmTrim

theorem Chip.Holds.revertHead {c : Chip} {h : Nat} (hc : c.Holds I) : (c.revertHead h).Holds I :=
  (hc.revertTrims.foldl (fun h2 => h2.putLeapTrim)).foldl (fun h3 => h3.putLeapTrim)

theorem Chip.Holds.refreshCal {c : Chip} (hc : c.Holds I) : c.refreshCal.Holds I := hc.set

theorem Chip.Holds.calStop {c : Chip} (hc : c.Holds I) : c.calStop.Holds I := hc.when (·.beside.refreshCal)

theorem Chip.Holds.offNode {c : Chip} {b j : Nat} (hc : c.Holds I) : (c.offNode b j).Holds I := hc.set

theorem Chip.Holds.calNextIn {fuel : Nat} {c : Chip} {b : Nat} (hc : c.Holds I) : (Chip.calNextIn fuel c b).Holds I := by
  induction fuel generalizing c with
  | zero => exact hc
  | succ fuel ih =>
    unfold Chip.calNextIn
    split
    · exact .ite (ih hc.beside) (.ite hc.offNode.modBank (.ite hc hc.set))
    · exact hc

theorem Chip.Holds.calNext {c : Chip} {b : Nat} (hc : c.Holds I) : (c.calNext b).Holds I :=
  hc.when (·.calNextIn.calStop)

theorem Chip.Holds.modWork {c : Chip} {s id : Nat} {f : Work → Work} (hc : c.Holds I) : (c.modWork s id f).Holds I :=
  hc.modSource

theorem Chip.Holds.markFinished {c : Chip} {h number m : Nat} (hc : c.Holds I) : (c.markFinished h number m).Holds I :=
  hc.modSource.foldl (fun h2 => h2.when (·.modStream))

theorem Chip.Holds.markCurrent {c : Chip} {h m : Nat} (hc : c.Holds I) : (c.markCurrent h m).Holds I := by
  unfold Chip.markCurrent
  split
  · exact hc.modWork
  · exact hc.when (·.markFinished)

theorem Chip.Holds.putBuffer {c : Chip} {r : Nat} {code : Int} {atHead : Option Nat} {back : Bool} (hc : c.Holds I) :
    (c.putBuffer r code atHead back).Holds I :=
  hc.beside.set.nvmTrim.seq fun h2 => .ite h2 (h2.foldl (fun h3 => (h3.when (·.modHead)).seq fun h4 => .ite h4 h4.markCurrent))

theorem Chip.Holds.calBanks {c : Chip} (hc : c.Holds I) : c.calBanks.Holds I := hc.foldl (fun h => h.calNext)

theorem Chip.Holds.bufferStep {c : Chip} {r : Nat} {t : CalStep} {atHead : Option Nat} (hc : c.Holds I) :
    (c.bufferStep r t atHead).Holds I :=
  hc.putBuffer.bump.set.set.beside

theorem Chip.Holds.bufferAlone {c : Chip} {r : Nat} (hc : c.Holds I) : (c.bufferAlone r).Holds I :=
  .ite hc ((by split; exacts [hc.beside.putBuffer, hc] : Chip.Holds _ I).when (·.beside.beside.bufferStep.calBanks))

theorem Chip.Holds.calHeadGone {c : Chip} {h : Nat} (hc : c.Holds I) : (c.calHeadGone h).Holds I :=
  hc.bufferAlone.calNext

theorem Chip.Holds.headRest {c : Chip} {h : Nat} (hc : c.Holds I) : (c.headRest h).Holds I :=
  ((hc.modHead.headStopsStandin.closeWorks.set.set.set.refreshSets.foldl (fun h5 => h5.streamSettle)).when
    (·.revertHead)).applyStopped.calHeadGone

theorem Chip.Holds.reportBias {c : Chip} {h : Nat} (hc : c.Holds I) : (c.reportBias h).Holds I :=
  hc.foldl (fun h1 => h1.when (·.set))

theorem Chip.Holds.biasOff {c : Chip} {h : Nat} (hc : c.Holds I) : (c.biasOff h).Holds I := hc.modHead.reportBias

theorem Chip.Holds.biasTo {c : Chip} {h : Nat} {codes : List Nat} (hc : c.Holds I) : (c.biasTo h codes).Holds I :=
  hc.modHead.reportBias

theorem Chip.Holds.headRampDown {c : Chip} {h : Nat} (hc : c.Holds I) : (c.headRampDown h).Holds I :=
  hc.modHead.closeWorks.headStopsStandin.calNext.biasTo

theorem Chip.Holds.headStopNow {c : Chip} {h : Nat} (hc : c.Holds I) : (c.headStopNow h).Holds I :=
  hc.modHead.seq fun h1 => .ite h1 (.ite h1.biasOff.headRest h1.set.headRampDown)

theorem Chip.Holds.headsStopNow {c : Chip} (hc : c.Holds I) : c.headsStopNow.Holds I :=
  (hc.foldl (fun h1 => h1.solsticeStandby)).foldl (fun h2 => h2.headStopNow)

theorem Chip.Holds.headOutputsOff {c : Chip} {h : Nat} (hc : c.Holds I) : (c.headOutputsOff h).Holds I :=
  hc.modHead.biasOff

theorem Chip.Holds.headLostFrame {c : Chip} {h : Nat} (hc : c.Holds I) : (c.headLostFrame h).Holds I := by
  unfold Chip.headLostFrame
  dsimp only
  split
  · exact hc.markCurrent
  · exact hc.markCurrent.modSource.modWork.closeWorks

theorem Chip.Holds.solsticeHeadGone {c : Chip} {h : Nat} {now : Bool} (hc : c.Holds I) :
    (c.solsticeHeadGone h now).Holds I :=
  hc.when (·.solsticeAbandon)

theorem Chip.Holds.loseHead {c : Chip} {h cause : Nat} (hc : c.Holds I) : (c.loseHead h cause).Holds I :=
  .ite hc (hc.headLostFrame.headOutputsOff.modHead.seq fun h2 => (Chip.Holds.ite h2.modHead
    h2.set).setAll.bump.raise.emcyFor.solsticeHeadGone.headStopsStandin.calHeadGone)

theorem Chip.Holds.headBegin {c : Chip} {h : Nat} (hc : c.Holds I) : (c.headBegin h).Holds I :=
  (hc.foldl (fun h1 => h1.set)).modHead.set.set.refreshSets

theorem Chip.Holds.headStart {c : Chip} {h : Nat} (hc : c.Holds I) : (c.headStart h).Holds I :=
  .ite hc.headBegin.loseHead hc.headBegin

theorem Chip.Holds.acqResume {c : Chip} (hc : c.Holds I) : c.acqResume.Holds I :=
  hc.foldl (fun h => h.when (·.headStart))

theorem Chip.Holds.abandonRestarts {c : Chip} {all : Bool} (hc : c.Holds I) : (c.abandonRestarts all).Holds I :=
  hc.beside.setAll.when (·.set.acqResume)

theorem Chip.Holds.modHk {c : Chip} {f : Hk → Hk} (hc : c.Holds I) : (c.modHk f).Holds I := hc.beside

theorem Chip.Holds.hkJudge {c : Chip} (hc : c.Holds I) : c.hkJudge.Holds I := hc.when (·.modHk)

theorem Chip.Holds.loseCommits {c : Chip} (hc : c.Holds I) : c.loseCommits.Holds I := hc.beside

theorem Chip.Holds.loseSets {c : Chip} (hc : c.Holds I) : c.loseSets.Holds I := by
  unfold Chip.loseSets
  extract_lets told saved shown
  have htold : told.Holds I := by
    unfold told
    split
    exacts [hc.loadStatus, hc]
  have hsaved : saved.Holds I := by
    unfold saved
    split
    exacts [htold.set, htold]
  have hshown : shown.Holds I := hsaved.foldl fun h => h.set.set
  exact hshown.beside.refreshSets

theorem Chip.Holds.csiLost {c : Chip} (hc : c.Holds I) : c.csiLost.Holds I := hc.foldl (fun h => h.set.applyStopped)

theorem Chip.Holds.releaseLocks {c : Chip} {code : Nat} (hc : c.Holds I) : (c.releaseLocks code).Holds I :=
  hc.foldl (fun h => h.when (·.set.bump))

theorem Chip.Holds.stopCopies {c : Chip} {st : Nat} (hc : c.Holds I) : (c.stopCopies st).Holds I :=
  ((hc.foldl (fun h1 => h1.when (·.dmaEnd))).foldl (fun h2 => h2.set)).beside

theorem Chip.Holds.discardJobs {c : Chip} {n : Nat} {p : Job → Bool} (hc : c.Holds I) : (c.discardJobs n p).Holds I :=
  hc.modStream.bumpBy.streamSettle

theorem Chip.Holds.stopStream {c : Chip} {n : Nat} (hc : c.Holds I) : (c.stopStream n).Holds I :=
  hc.discardJobs.set.set.applyStopped

theorem Chip.Holds.stopHostWork {c : Chip} {st : Nat} (hc : c.Holds I) : (c.stopHostWork st).Holds I :=
  (hc.foldl (fun h => h.stopStream)).stopCopies

theorem Chip.Holds.dmaPowerDown {c : Chip} (hc : c.Holds I) : c.dmaPowerDown.Holds I :=
  (hc.foldl (fun h => h.set)).beside.set

theorem Chip.Holds.modPcie {c : Chip} {f : Pcie → Pcie} (hc : c.Holds I) : (c.modPcie f).Holds I := hc.beside

theorem Chip.Holds.linkTo {c : Chip} {st : Int} (hc : c.Holds I) : (c.linkTo st).Holds I := by
  unfold Chip.linkTo
  exact (hc.when (·.bump)).setAll.modPcie

theorem Chip.Holds.copyStatus {c : Chip} {st : Nat} (hc : c.Holds I) : (c.copyStatus st).Holds I := hc.set

theorem Chip.Holds.startProgram {c : Chip} {off : Nat} {data : List Byte} {u : FlashUser} (hc : c.Holds I) :
    (c.startProgram off data u).Holds I :=
  hc.emit.emit.bump.set.beside

theorem Chip.Holds.saveRuns {c : Chip} (hc : c.Holds I) : c.saveRuns.Holds I := by
  unfold Chip.saveRuns
  dsimp only
  split
  · exact hc
  · exact .ite hc hc.beside.set

theorem Chip.Holds.saveStatus {c : Chip} {s st : Nat} (hc : c.Holds I) : (c.saveStatus s st).Holds I := hc.set

theorem Chip.Holds.nextSave {c : Chip} (hc : c.Holds I) : c.nextSave.Holds I := by
  unfold Chip.nextSave
  dsimp only
  split
  · exact hc.beside.saveStatus.saveRuns
  · exact hc.saveRuns

theorem Chip.Holds.startErase {c : Chip} {off : Nat} {u : FlashUser} (hc : c.Holds I) : (c.startErase off u).Holds I :=
  hc.emit.emit.bump.set.beside

theorem Chip.Holds.dramRead {c : Chip} {a n : Nat} (hc : c.Holds I) : (c.dramRead a n).2.Holds I := .ite hc hc.beside

theorem Chip.Holds.copyNext {c : Chip} (hc : c.Holds I) : c.copyNext.Holds I := by
  unfold Chip.copyNext
  dsimp only
  split
  · exact hc
  · exact .ite hc (.ite hc.beside.startErase (.ite hc.beside.copyStatus hc.dramRead.startProgram.beside))

theorem Chip.Holds.flashNext {c : Chip} (hc : c.Holds I) : c.flashNext.Holds I := by
  unfold Chip.flashNext
  dsimp only
  split
  · exact hc.beside.startProgram
  · exact hc.copyNext.nextSave.seq fun h1 => .ite h1 (h1.beside.foldl (fun h2 => h2.flashReadNow))

theorem Chip.Holds.saveStops {c : Chip} (hc : c.Holds I) : c.saveStops.Holds I := by
  unfold Chip.saveStops
  dsimp only
  split
  · exact hc.beside.set.flashNext
  · exact hc

theorem Chip.Holds.erasePixel {c : Chip} (hc : c.Holds I) : c.erasePixel.Holds I := hc.forget

theorem Chip.Holds.pixelLost {c : Chip} {st : Int} {all : Bool} (hc : c.Holds I) : (c.pixelLost st all).Holds I := by
  unfold Chip.pixelLost
  extract_lets pins mode clk off abandoned judged lost spm told saved failed thermal cleared
  have habandoned : abandoned.Holds I := hc.dieOff.beside.abandonRestarts
  have hlost : lost.Holds I :=
    habandoned.hkJudge.linkTo.dmaPowerDown.stopHostWork.releaseLocks.releaseLocks.csiLost.loseSets.loseCommits
  have htold : told.Holds I := hlost.when (·.beside.copyStatus)
  have hsaved : saved.Holds I := htold.saveStops
  clear_value saved
  have hcleared : cleared.Holds I := hsaved.noDram.beside
  exact .ite habandoned.set hcleared.erasePixel.set

theorem Chip.Holds.standDown {c : Chip} {st : Int} (hc : c.Holds I) : (c.standDown st).Holds I :=
  hc.pixelLost.headsStopNow.startPark

theorem Chip.Holds.modRegion {c : Chip} {region : Nat} {f : RegionHist → RegionHist} (hc : c.Canonical) :
    (c.modRegion region f).Canonical :=
  hc.beside

theorem Chip.Holds.abandonGnoner {c : Chip} (hc : c.Canonical) : c.abandonGnoner.Canonical :=
  hc.when (·.elsewhere.modRegion.set)

theorem Chip.Holds.toSafe {c : Chip} {thermal : Bool} (hc : c.Canonical) : (c.toSafe thermal).Canonical :=
  hc.standDown.abandonGnoner.elsewhere.setAll

theorem Chip.Holds.safeState {c : Chip} {region code : Nat} (hc : c.Canonical) : (c.safeState region code).Canonical := by
  unfold Chip.safeState
  exact (Chip.Holds.ite hc hc.toSafe).raise

theorem Chip.Holds.startFailed {c : Chip} {region code : Nat} {tell : Chip → Nat → Chip} (hc : c.Canonical) (htell : ∀ {a
      : Chip} {b : Nat}, a.Canonical → (tell a b).Canonical) :
    (c.startFailed region code tell).Canonical :=
  (htell hc.standDown.beside).when (·.beside.safeState)

theorem Chip.Holds.pixelFault {c : Chip} (hc : c.Canonical) : c.pixelFault.Canonical := hc.beside.standDown

theorem Chip.Holds.loseHeads {c : Chip} (hc : c.Canonical) : c.loseHeads.Canonical := hc.foldl (fun h => h.loseHead)

theorem Chip.Holds.railFaulty {c : Chip} {r : Nat} {above : Bool} (hc : c.Canonical) : (c.railFaulty r above).Canonical :=
  hc.beside.raise.emcyFor.seq fun h2 => .ite (.ite (h2.startFailed (fun h3 => h3.raise)) h2.pixelFault.raise) (.ite h2.safeState
    (.ite h2.loseHeads h2.vsolUpdate))

theorem Chip.Holds.railFault {c : Chip} {r : Nat} {above : Bool} (hc : c.Canonical) : (c.railFault r above).Canonical :=
  .ite hc (.ite hc hc.railFaulty)

theorem Chip.Holds.railFaultOp {r : Nat} {above : Bool} {c : Chip} (hc : c.Canonical) :
    (Sys2Proof.Machine.railFault r above c).Canonical := by
  unfold Sys2Proof.Machine.railFault
  exact .ite frontReset.beside (.ite hc (.ite (.ite hc hc.beside) (.ite hc hc.railFault)))

theorem Chip.Holds.holdEnds {straps : Nat} {c : Chip} (hc : c.Canonical) : (holdEnds straps c).Canonical :=
  .ite hc hc.release

theorem Chip.Holds.configSpace {c : Chip} (hc : c.Canonical) : c.configSpace.Canonical := hc.beside

theorem Chip.Holds.applyPending {c : Chip} {p : Nat → Bool} (hc : c.Canonical) : (c.applyPending p).Canonical :=
  hc.beside.setAll

theorem Chip.Holds.pixelPower {c : Chip} {use : PixelUse} (hc : c.Canonical) : (c.pixelPower use).Canonical :=
  hc.elsewhere.seq fun h => .ite h ((h.elsewhere.applyPending.configSpace.foldl (fun h4 => h4.set)).setAll)

theorem Chip.Holds.clearEscalation {c : Chip} (hc : c.Canonical) : c.clearEscalation.Canonical := hc.beside

theorem Chip.Holds.pixelUp {c : Chip} {use : PixelUse} (hc : c.Canonical) : (c.pixelUp use).Canonical :=
  (Chip.Holds.ite hc hc.clearEscalation).pixelPower

theorem Chip.Holds.psiState {c : Chip} {new : Int} (hc : c.Canonical) : (c.psiState new).Canonical :=
  hc.set.when (·.raise.emcyFor)

theorem Chip.Holds.psirelStart {c : Chip} (hc : c.Canonical) : c.psirelStart.Canonical := hc.beside.psiState.set

theorem Chip.Holds.hostP {c : Chip} (hc : c.Canonical) : c.hostP.Canonical := hc.when (·.applyPending.psirelStart)

theorem Chip.Holds.unpark {c : Chip} (hc : c.Canonical) : c.unpark.Canonical := hc.modActBank.modActBank.beside.refreshBanks

theorem Chip.Holds.freeBit {c : Chip} (hc : c.Holds I) : (c.freeBit).2.Holds I := hc.beside

theorem Chip.Holds.reportFrac {c : Chip} {x : Frac} (hc : c.Canonical) : (c.reportFrac x).2.Canonical := by
  unfold Chip.reportFrac
  split
  · exact hc
  · exact hc.beside

theorem Chip.Holds.reportFracs {c : Chip} {key : Nat → Nat} {l : List Frac} (hc : c.Canonical) :
    (c.reportFracs key l).Canonical :=
  hc.foldl (fun h => h.reportFrac.set)

theorem Chip.Holds.publishAdmission {c : Chip} {d l : List Frac} {admitted : Bool} (hc : c.Canonical) :
    (c.publishAdmission d l admitted).Canonical :=
  hc.beside.set.reportFracs.when (·.reportFracs.reportFracs)

theorem Chip.Holds.admitted {c : Chip} {key : Nat} {v : Int} (hc : c.Canonical) : (c.admitted key v).1.Canonical :=
  hc.set.publishAdmission.when (·.bump)

theorem Chip.Holds.headRunRequest {h : Nat} {c : Chip} (hc : c.Canonical) : (headRunRequest h c).1.Canonical := by
  unfold Sys2Proof.Machine.headRunRequest
  have hadmitted := hc.admitted (key := K.runRequest h) (v := 1)
  generalize c.admitted (K.runRequest h) 1 = p at hadmitted ⊢
  obtain ⟨d, refused⟩ := p
  dsimp only at hadmitted ⊢
  split_ifs
  exacts [hc, hc, hadmitted, hadmitted.set.modHead, hadmitted.set.headStart, hadmitted.set]

theorem Chip.Holds.refusedStart {c : Chip} {region block cell key : Nat} (hc : c.Canonical) :
    (c.refusedStart region block cell key).Canonical :=
  hc.raise

theorem Chip.Holds.startHeads {c : Chip} (hc : c.Canonical) : c.startHeads.Canonical :=
  (((hc.foldl (fun h1 => h1.set)).foldl (fun h2 => h2.set)).foldl (fun h3 => h3.headRunRequest.when (·.refusedStart))).setAll

theorem Chip.Holds.srcRunRequest {i : Nat} {c : Chip} (hc : c.Canonical) : (srcRunRequest i c).1.Canonical := by
  unfold Sys2Proof.Machine.srcRunRequest
  have hadmitted := hc.admitted (key := K.srcRun i) (v := 1)
  generalize c.admitted (K.srcRun i) 1 = p at hadmitted ⊢
  obtain ⟨d, refused⟩ := p
  dsimp only at hadmitted ⊢
  split_ifs
  exacts [hc, hc, hadmitted, hadmitted.set.set.modSource.refreshSets]

theorem Chip.Holds.startCsi {c : Chip} (hc : c.Canonical) : c.startCsi.Canonical :=
  (hc.foldl (fun h1 => h1.set)).foldl (fun h2 => h2.srcRunRequest.when (·.refusedStart))

theorem Chip.Holds.receiversStart {c : Chip} (hc : c.Canonical) : c.receiversStart.Canonical :=
  hc.foldl (fun h => h.when (·.set))

theorem Chip.Holds.toStandby {c : Chip} {target : Nat} (hc : c.Canonical) : (c.toStandby target).Canonical :=
  hc.elsewhere.standDown.abandonGnoner.set

theorem Chip.Holds.pixelInUse {c : Chip} (hc : c.Canonical) : c.pixelInUse.Canonical :=
  (hc.when (·.foldl (fun h => h.set))).elsewhere.set.receiversStart.startCsi.elsewhere.bootLoads.when (·.toStandby)

theorem Chip.Holds.resume {c : Chip} (hc : c.Canonical) : c.resume.Canonical :=
  (hc.hostP.when (·.set)).elsewhere.seq fun h3 => (Chip.Holds.ite h3 h3.unpark).seq fun h4 => ((Chip.Holds.ite h4 (.ite
    h4.elsewhere h4.pixelUp)).startHeads).when (·.pixelInUse)

theorem Chip.Holds.pixelDieRetry {c : Chip} (hc : c.Canonical) : (pixelDieRetry c).Canonical := by
  unfold Sys2Proof.Machine.pixelDieRetry
  split
  · exact hc
  · split
    · exact hc
    · exact hc.pixelUp
    · exact hc.resume

theorem Chip.Holds.pixSupplyTimeout {rail : Nat} {c : Chip} (hc : c.Canonical) : (pixSupplyTimeout rail c).Canonical :=
  .ite hc (hc.startFailed (fun h => h.raise))

theorem Chip.Holds.bootDead {c : Chip} (hc : c.Canonical) : c.bootDead.Canonical := hc.elsewhere

theorem Chip.Holds.gnonerStart {ok0 ok1 : Bool} {c : Chip} (hc : c.Canonical) : (gnonerStart ok0 ok1 c).Canonical :=
  .ite hc (hc.elsewhere.seq fun h => .ite h.elsewhere h.bootDead)

theorem Chip.Holds.gnonerTimeout {c : Chip} (hc : c.Canonical) : (gnonerTimeout c).Canonical :=
  .ite hc (.ite hc.elsewhere (.ite hc.elsewhere hc.bootDead))

theorem Chip.Holds.startRecords {c : Chip} (hc : c.Canonical) : c.startRecords.Canonical := by
  unfold Chip.startRecords
  dsimp only
  split
  · exact ((((Chip.Holds.ite (((hc.foldl (fun h => h.raise))).raise) ((hc.foldl (fun h => h.raise))))).raise)).raise
  · exact (((Chip.Holds.ite (((hc.foldl (fun h => h.raise))).raise) ((hc.foldl (fun h => h.raise))))).raise)

theorem Chip.Holds.releaseStart {c : Chip} (hc : c.Canonical) : c.releaseStart.Canonical := hc.setAll

theorem Chip.Holds.formNodeDefaults {c : Chip} {stored : List Nat} (hc : c.Canonical) : (c.formNodeDefaults stored).Canonical :=
  hc.foldl (fun h => .ite h h.set)

theorem Chip.Holds.applyStored {c : Chip} (hc : c.Canonical) : c.applyStored.Canonical := by
  unfold Chip.applyStored
  dsimp only
  split
  · exact hc.setAll.applyPending.formNodeDefaults
  · exact hc.setAll.applyPending.formNodeDefaults.beside

theorem Chip.Holds.bandTrims {c : Chip} (hc : c.Canonical) : c.bandTrims.Canonical := hc.foldl (fun h => h.selectTrims)

theorem Chip.Holds.valuesStart {c : Chip} {vsol : Int} (hc : c.Canonical) : (c.valuesStart vsol).Canonical :=
  (hc.bandTrims.applyStored.setTrips.releaseStart.set.foldl (fun h2 => h2.set)).setAll.elsewhere.set

theorem Chip.Holds.leapTrims {c : Chip} {h : Nat} (hc : c.Canonical) : (c.leapTrims h).Canonical :=
  (hc.foldl (fun h1 => by split; exacts [h1, h1.beside.set])).foldl (fun h2 => by split; exacts [h2, h2.beside.set])

theorem Chip.Holds.bankTrims {c : Chip} {b : Nat} (hc : c.Canonical) : (c.bankTrims b).Canonical :=
  hc.foldl (fun h1 => h1.foldl (fun h2 => by split; exacts [h2, h2.modBank.when (·.putTrim)]))

theorem Chip.Holds.bufferTrims {c : Chip} {r : Nat} (hc : c.Canonical) : (c.bufferTrims r).Canonical := by
  unfold Chip.bufferTrims
  dsimp only
  split
  · exact hc
  · exact hc.beside.set

theorem Chip.Holds.nvmStart {c : Chip} (hc : c.Canonical) : c.nvmStart.Canonical :=
  (hc.foldl (fun h => h.bankTrims.leapTrims)).bufferTrims.bufferTrims.reportImages.setAll.foldl (fun h4 =>
    by split; exacts [h4.set, h4])

theorem Chip.Holds.loseCount {c : Chip} {num g : Nat} (hc : c.Canonical) : (c.loseCount num g).Canonical := hc.beside

theorem Chip.Holds.loseLog {c : Chip} {slot : Nat} (hc : c.Canonical) : (c.loseLog slot).Canonical := hc.beside

theorem Chip.Holds.loseAnchor {c : Chip} {set slot : Nat} (hc : c.Canonical) : (c.loseAnchor set slot).Canonical :=
  hc.beside

theorem Chip.Holds.loseTrim {c : Chip} {target set g : Nat} (hc : c.Canonical) : (c.loseTrim target set g).Canonical :=
  hc.beside

theorem Chip.Holds.nvmLose {c : Chip} {g : Nat} (hc : c.Canonical) : (c.nvmLose g).Canonical :=
  .ite hc (.ite hc.beside (.ite hc.beside (.ite hc.loseCount (.ite hc.loseLog (.ite hc.loseAnchor (hc.when (·.loseTrim)))))))

theorem Chip.Holds.nvmAgain {c : Chip} (hc : c.Canonical) : c.nvmAgain.Canonical := .ite hc.beside hc.nvmApply

theorem Chip.Holds.nvmFound {c : Chip} {found : List NvmFind} (hc : c.Canonical) : (c.nvmFound found).Canonical :=
  hc.foldl (fun h => .ite h.bump.nvmLose.raise h.bump.nvmAgain)

theorem Chip.Holds.chipStartPark {c : Chip} (hc : c.Canonical) : c.chipStartPark.Canonical :=
  (Chip.Holds.ite ((hc.when (·.takeSlot)).takeSlot) (hc.when (·.takeSlot))).refreshBanks

theorem Chip.Holds.canBootUp {c : Chip} (hc : c.Canonical) : c.canBootUp.Canonical := hc.canSend.set

theorem Chip.Holds.canStatus {c : Chip} (hc : c.Holds I) : c.canStatus.Holds I := hc.setAll

theorem Chip.Holds.modCan {c : Chip} {f : Can → Can} (hc : c.Canonical) : (c.modCan f).Canonical := hc.beside

theorem Chip.Holds.canRestart {c : Chip} (hc : c.Canonical) : c.canRestart.Canonical := hc.modCan.canStatus

theorem Chip.Holds.flashSend {c : Chip} {sel : Nat} {l : List (List Byte)} (hc : c.Canonical) : (c.flashSend sel l).Canonical :=
  hc.foldl (fun h => h.emit)

theorem Chip.Holds.flashProbe {c : Chip} (hc : c.Canonical) : c.flashProbe.Canonical := hc.foldl (fun h => h.flashSend)

theorem Chip.Holds.flashConfigure {c : Chip} {l : List FlashDevice} (hc : c.Canonical) : (c.flashConfigure l).Canonical := by
  unfold Chip.flashConfigure
  dsimp only
  split
  · exact hc
  · exact (hc.foldl (fun h => h.flashSend)).setAll.foldl (fun h3 => h3.flashSend)

theorem Chip.Holds.flashStart {c : Chip} {f : FlashReport} (hc : c.Canonical) : (c.flashStart f).Canonical := by
  unfold Chip.flashStart
  split
  · exact hc
  · split
    · exact hc
    · exact hc.flashProbe.raise
    · exact hc.flashProbe.flashConfigure
    · exact hc.flashProbe.flashConfigure

theorem Chip.Holds.calTrigger {c : Chip} (hc : c.Canonical) : c.calTrigger.Canonical := hc.beside.refreshCal

theorem Chip.Holds.replayFault {c : Chip} {f : Nat × Bool} (hc : c.Canonical) : (c.replayFault f).Canonical :=
  hc.railFault.beside.when (·.vsolUpdate)

theorem Chip.Holds.gnonerReady {vsol : Int} {flash : FlashReport} {found : List NvmFind} {c : Chip} (hc : c.Canonical) :
    (gnonerReady vsol flash found c).Canonical := by
  unfold Sys2Proof.Machine.gnonerReady
  refine .ite hc ?_
  extract_lets waiting rails cleared boot pins ready stored linked hk measuring ended lasting faulty started
  have hstored : stored.Canonical := hc.elsewhere.elsewhere.nvmFound.nvmStart.valuesStart.startRecords
  have hlinked : linked.Canonical := hstored.canRestart.canBootUp.psirelStart.chipStartPark.vsolUpdate
  have hfaulty : faulty.Canonical := hlinked.elsewhere.calTrigger.flashStart.foldl fun h => h.replayFault
  have hstarted : started.Canonical := .ite hfaulty hfaulty.pixelUp.startHeads
  exact hstarted.foldl fun h => h.replayFault

theorem Chip.Holds.releaseIsolation {c : Chip} (hc : c.Canonical) : c.releaseIsolation.Canonical := hc.beside.when (·.set)

theorem Chip.Holds.dramSize {c : Chip} {gib : Nat} (hc : c.Canonical) : (c.dramSize gib).Canonical := hc.setAll

theorem Chip.Holds.channelFailed {c : Chip} {ch : Nat} (hc : c.Canonical) : (c.channelFailed ch).Canonical := hc.set.raise

theorem Chip.Holds.toSingle {c : Chip} {ch : Nat} (hc : c.Canonical) : (c.toSingle ch).Canonical := hc.elsewhere

theorem Chip.Holds.singleRestart {c : Chip} {ch : Nat} (hc : c.Canonical) : (c.singleRestart ch).Canonical :=
  (hc.channelFailed.toSingle.foldl (fun h2 => by split; exacts [.ite h2 h2.solsticeAbandon,
    h2])).pixelLost.set.set.pixelPower.when (·.set)

theorem Chip.Holds.dramTrained {ch : Nat} {ok : Bool} {gib : Nat} {c : Chip} (hc : c.Canonical) :
    (dramTrained ch ok gib c).Canonical :=
  .ite hc ((hc.when (·.releaseIsolation)).seq fun h1 => .ite (h1.elsewhere.set.when (·.dramSize)) (.ite (.ite (h1.startFailed (fun h2
    => h2.channelFailed)) h1.channelFailed) (.ite (h1.channelFailed.toSingle.seq fun h2 => .ite h2 h2.dramSize)
    h1.singleRestart)))

theorem Chip.Holds.laneTest {c : Chip} {mask ok : Nat} (hc : c.Canonical) : (c.laneTest mask ok).Canonical :=
  (hc.elsewhere.foldl (fun h => h.when (·.elsewhere.raise))).set

theorem Okay.guardNot {b : Bool} {code : Abort} {k : Except Abort Chip} (hk : Okay Chip.Canonical k) :
    Okay Chip.Canonical (guardNot b code k) :=
  .ite trivial hk

theorem Chip.Holds.paletteLoad {v : Nat} {c : Chip} (hc : c.Canonical) : Okay Chip.Canonical (paletteLoad v c) :=
  .guardNot (.ok hc.beside)

theorem Chip.Holds.applyKept {c : Chip} (hc : c.Canonical) : c.applyKept.Canonical := by
  refine hc.beside.foldl fun {d e} h => .ite ?_ (h.foldl fun h => h.when (·.modSource))
  have hr := paletteLoad (v := e.2.toNat) h
  generalize Sys2Proof.Machine.paletteLoad e.2.toNat d = r at hr ⊢
  match r, hr with
  | .ok _, h => exact h
  | .error _, _ => exact h

theorem Chip.Holds.msix1 {c : Chip} {vec : Nat} (hc : c.Canonical) : (c.msix1 vec).Canonical := .ite hc.beside hc.emit

theorem Chip.Holds.mbxMessage {c : Chip} {ch : Nat} (hc : c.Canonical) : (c.mbxMessage ch).Canonical :=
  .ite hc.msix0 hc.msix1

theorem Chip.Holds.mbxIrq {c : Chip} {ch b : Nat} (hc : c.Canonical) : (c.mbxIrq ch b).Canonical :=
  hc.noteBit.seq fun h => .ite h (h.set.when (·.mbxMessage))

theorem Chip.Holds.mbxEmpty {c : Chip} {ch : Nat} (hc : c.Holds I) : (c.mbxEmpty ch).Holds I :=
  (hc.foldl (fun h => h.set.set)).setAll.modMbx.bump

theorem Chip.Holds.mbxRestarted {c : Chip} {ch : Nat} (hc : c.Canonical) : (c.mbxRestarted ch).Canonical :=
  hc.mbxEmpty.mbxIrq

theorem Chip.Holds.mbxPixelStart {c : Chip} (hc : c.Canonical) : c.mbxPixelStart.Canonical :=
  hc.foldl (fun h => h.mbxRestarted.set)

theorem Chip.Holds.pixelBlocks {c : Chip} (hc : c.Canonical) : c.pixelBlocks.Canonical :=
  hc.applyPending.hkJudge.elsewhere.setAll.mbxPixelStart.applyKept

theorem Chip.Holds.pixelRegions {c : Chip} (hc : c.Canonical) : c.pixelRegions.Canonical := hc.setAll

theorem Chip.Holds.headStopRequest {h : Nat} {c : Chip} (hc : c.Canonical) : (headStopRequest h c).Canonical :=
  hc.set.modHead.seq fun h1 => .ite h1.biasOff.solsticeHeadGone.headRest (.ite h1.set.headRampDown (h1.when
    (·.set.modHead.solsticeHeadGone.headStopsStandin.calHeadGone)))

theorem Chip.Holds.csiClose {c : Chip} {i : Nat} (hc : c.Canonical) : (c.csiClose i).Canonical :=
  .ite hc ((hc.modSource.when (·.bump.seq fun h2 => by split; exacts [h2.modWork, h2])).closeWorks)

theorem Chip.Holds.srcRest {c : Chip} {i : Nat} (hc : c.Canonical) : (c.srcRest i).Canonical :=
  (hc.csiClose.set.set.refreshSets.foldl (fun h3 => h3.streamSettle)).applyStopped

theorem Chip.Holds.srcStop {i : Nat} {c : Chip} (hc : c.Canonical) : (srcStop i c).Canonical :=
  hc.set.seq fun h => .ite h h.srcRest

theorem Chip.Holds.streamStop {n : Nat} {c : Chip} (hc : c.Canonical) : (streamStop n c).Canonical :=
  hc.set.seq fun h => .ite h (.ite h.set.applyStopped h.set)

theorem Chip.Holds.readmit {c : Chip} (hc : c.Canonical) : c.readmit.Canonical :=
  (hc.publishAdmission.foldl (fun h2 => .ite h2.headStopRequest.refusedStart h2.srcStop.refusedStart)).foldl (fun h3 =>
    h3.streamStop.refusedStart)

theorem Chip.Holds.dramInit {lanesOk : Nat} {c : Chip} (hc : c.Canonical) : (dramInit lanesOk c).Canonical :=
  .ite hc (hc.pixelBlocks.laneTest.seq fun h => .ite h.safeState ((h.pixelRegions.when (·.readmit)).when (·.pixelInUse)))

theorem Chip.Holds.noteAbort {c : Chip} {m : Master} {key : Nat} {code : Abort} (hc : c.Canonical) :
    (c.noteAbort m key code).Canonical := by
  unfold Chip.noteAbort
  split
  · exact hc
  · exact hc.set.bump

theorem Chip.Holds.refuse {c : Chip} {m : Master} {key : Nat} {code : Abort} (hc : c.Canonical) :
    (c.refuse m key code).Canonical :=
  hc.noteAbort.seq fun h => .ite h h.emit

theorem Chip.Holds.attempt {c : Chip} {m : Master} {key : Nat} {r : Except Abort Chip} (hc : c.Canonical)
    (hr : Okay Chip.Canonical r) : (c.attempt m key r).Canonical :=
  match r, hr with
  | .ok _, h => h
  | .error _, _ => hc.refuse

theorem Chip.Holds.command {c : Chip} {m : Master} {key : Nat} {op : Chip → Except Abort Chip} (hc : c.Canonical) (hop : ∀
      {a : Chip}, a.Canonical → Okay Chip.Canonical (op a)) :
    (c.command m key op).Canonical :=
  .ite (.ite hc.refuse (hc.attempt (hop hc))) hc

theorem Chip.Holds.chipReset {c : Chip} {cause : Nat} : (c.chipReset cause).Canonical :=
  have hbase : Chip.Canonical { Chip.reset with
    pendingP := c.pendingP, errq := c.errq, nvm := c.nvm.afterReset } := ⟨rfl, rfl⟩
  hbase.elsewhere.setAll.set

theorem Chip.Holds.chipResetWrite {v : Nat} {c : Chip} : Okay Chip.Canonical (chipResetWrite v c) := .guardNot (.ok chipReset)

theorem Chip.Holds.toRun {c : Chip} (hc : c.Canonical) : c.toRun.Canonical := hc.elsewhere.set.resume

theorem Chip.Holds.toDeep {c : Chip} (hc : c.Canonical) : c.toDeep.Canonical :=
  hc.elsewhere.seq fun h => ((Chip.Holds.ite h h.pixelLost).abandonGnoner).set

theorem Chip.Holds.enterL4 {c : Chip} (hc : c.Canonical) : c.enterL4.Canonical :=
  (hc.pixelLost.abandonGnoner.foldl (fun h2 => h2.solsticeStandby)).startPark

theorem Chip.Holds.throttleTo {c : Chip} {n : Nat} (hc : c.Canonical) : (c.throttleTo n).Canonical :=
  .ite hc ((((hc.set.modThermal.when (·.bump)).when (·.foldl (fun h3 => h3.modStream))).when (·.elsewhere)).when (·.enterL4))

theorem Chip.Holds.modeRequest {v : Nat} {c : Chip} (hc : c.Canonical) : Okay Chip.Canonical (modeRequest v c) :=
  .guardNot (.ite (.ok hc.elsewhere.set) (.ite (.ok (.ite hc hc.toStandby)) (.ite (.ok (.ite hc.toRun (hc.when (·.toDeep)))) (.ite
    trivial (.ite (.ok hc) (.guardNot (.ok (.ite hc.throttleTo.toRun hc.toRun))))))))

theorem Chip.Holds.sleep {c : Chip} (hc : c.Canonical) : c.sleep.Canonical := hc.elsewhere.canStatus.set.set

theorem Chip.Holds.standbyReached {c : Chip} (hc : c.Canonical) : (standbyReached c).Canonical :=
  .ite (.ite hc.sleep hc.elsewhere.set) hc

theorem Chip.Holds.controllerWakes {c : Chip} (hc : c.Canonical) : c.controllerWakes.Canonical := hc.elsewhere

theorem Chip.Holds.mcWakeComplete {c : Chip} (hc : c.Canonical) : (mcWakeComplete c).Canonical :=
  hc.when (·.controllerWakes.canStatus.setAll.hostP.calTrigger.when (·.pixelUp))

theorem Chip.Holds.wake {c : Chip} (hc : c.Canonical) : c.wake.Canonical := hc.when (·.elsewhere)

theorem Chip.Holds.spsWake {c : Chip} (hc : c.Canonical) : (spsWake c).Canonical := hc.when (·.beside.wake)

theorem Chip.Holds.modClk {c : Chip} {f : Clk → Clk} (hc : c.Canonical) : (c.modClk f).Canonical := hc.elsewhere

theorem Chip.Holds.biasTick {c : Chip} {h : Nat} (hc : c.Canonical) : (c.biasTick h).Canonical :=
  .ite hc hc.modHead.reportBias

theorem Chip.Holds.readEnds {c : Chip} (hc : c.Canonical) : c.readEnds.Canonical := by
  unfold Chip.readEnds
  dsimp only
  split
  · exact hc.when (·.set)
  · exact hc

theorem Chip.Holds.timeTick {c : Chip} (hc : c.Canonical) : c.timeTick.Canonical := by
  unfold Chip.timeTick
  exact hc.beside.modClk

theorem Chip.Holds.clkTick {c : Chip} (hc : c.Canonical) : (clkTick c).Canonical :=
  hc.modClk.timeTick.readEnds.foldl (fun h2 => h2.biasTick)

theorem Chip.Holds.timeBaseCompare {c : Chip} (hc : c.Canonical) : (timeBaseCompare c).Canonical := hc.when (·.modClk)

theorem Chip.Holds.backupTrim {periods : Nat} {c : Chip} (hc : c.Canonical) : (backupTrim periods c).Canonical :=
  hc.when (·.modClk)

theorem Chip.Holds.refLost {c : Chip} (hc : c.Canonical) : c.refLost.Canonical :=
  (hc.modClk.set.beside.beside.canStatus.when (·.standDown)).seq fun h5 => .ite h5 h5.raise

theorem Chip.Holds.refBack {c : Chip} (hc : c.Canonical) : c.refBack.Canonical := by
  unfold Chip.refBack
  extract_lets lost back root psi link can bus raised
  have hroot : root.Canonical := hc.modClk.set
  have hbus : bus.Canonical := hroot.beside.beside.canStatus
  have hraised : raised.Canonical := (hbus.when (·.calBanks)).raise
  refine .ite hroot (.ite hbus ?_)
  split
  exacts [hraised, hraised.pixelUp, hraised.resume]

theorem Chip.Holds.monitorWindow {edges : Nat} {c : Chip} (hc : c.Canonical) : (monitorWindow edges c).Canonical :=
  .ite hc (.ite (hc.modClk.when (·.refLost)) (hc.modClk.seq fun h => .ite h.refBack (.ite h h.set)))

theorem Chip.Holds.dividerSwitch {c : Chip} (hc : c.Canonical) : (dividerSwitch c).Canonical := by
  unfold Sys2Proof.Machine.dividerSwitch
  split
  · exact hc.when (·.set.modClk)
  · exact hc

theorem Chip.Holds.dieLinkLost {c : Chip} (hc : c.Canonical) : (dieLinkLost c).Canonical :=
  .ite (hc.startFailed (fun h => h.raise)) (hc.when (·.raise.pixelFault))

theorem Chip.Holds.attempt2 {d : Chip} {m : Master} {key : Nat} {r : Chip × Option Abort} (_ : d.Canonical) (hr : r.1.Canonical) :
    (d.attempt2 m key r).Canonical := by
  unfold Chip.attempt2
  split
  exacts [hr, hr.refuse]

theorem Chip.Holds.taking {c : Chip} {r : Except Abort Chip} (hc : c.Canonical) (hr : Okay Chip.Canonical r) :
    (c.taking r).1.Canonical :=
  match r, hr with
  | .ok _, h => h
  | .error _, _ => hc

theorem Chip.Holds.onlyOne {v : Nat} {op : Chip → Except Abort Chip} {c : Chip} (hop : ∀ {a : Chip}, a.Canonical → Okay
      Chip.Canonical (op a)) (hc : c.Canonical) :
    (onlyOne v op c).1.Canonical :=
  hc.taking (.guardNot (hop hc))

theorem Chip.Holds.tnrReseed {s : Nat} {c : Chip} (hc : c.Canonical) : Okay Chip.Canonical (tnrReseed s c) :=
  .ite (.ok hc.modSource) (.ok hc.beside)

theorem Chip.Holds.rxRunStart {k : Nat} {c : Chip} (hc : c.Canonical) : (rxRunStart k c).Canonical := hc.set.when (·.set)

theorem Chip.Holds.rxStop {k : Nat} {c : Chip} (hc : c.Canonical) : Okay Chip.Canonical (rxStop k c) :=
  .guardNot (.ok hc.set.set)

theorem Chip.Holds.srcRunOne {i : Nat} {c : Chip} (hc : c.Canonical) : (srcRunOne i c).1.Canonical := by
  unfold Sys2Proof.Machine.srcRunOne
  split
  · exact hc.srcRunRequest
  · exact hc.set

theorem Chip.Holds.streamStart {n : Nat} {c : Chip} (hc : c.Canonical) : (streamStart n c).1.Canonical := by
  unfold Sys2Proof.Machine.streamStart
  have hadmitted := hc.admitted (key := K.streamRun n) (v := 1)
  generalize c.admitted (K.streamRun n) 1 = p at hadmitted ⊢
  obtain ⟨d, refused⟩ := p
  dsimp only at hadmitted ⊢
  split_ifs
  exacts [hc, hc, hc, hadmitted, hadmitted.discardJobs.setAll.modStream]

theorem Chip.Holds.streamRunOne {n : Nat} {c : Chip} (hc : c.Canonical) : (streamRunOne n c).1.Canonical := by
  unfold Sys2Proof.Machine.streamRunOne
  split
  · exact hc.streamStart
  · exact hc.set

theorem Chip.Holds.paletteWrite {v : Nat} {c : Chip} (hc : c.Canonical) : Okay Chip.Canonical (paletteWrite v c) :=
  .ite hc.paletteLoad (.guardNot (.ok hc.beside))

theorem Chip.Holds.ackBits {c : Chip} {key mask : Nat} (hc : c.Canonical) : (c.ackBits key mask).Canonical := hc.set

theorem Chip.Holds.pcieEventAck {v : Nat} {c : Chip} (hc : c.Canonical) : (pcieEventAck v c).Canonical :=
  hc.ackBits.foldl (fun h2 => h2.when (·.msix0))

theorem Chip.Holds.oneOrTwo {v : Nat} {one two : Chip → Except Abort Chip} {c : Chip} (hone : ∀ {a : Chip}, a.Canonical →
      Okay Chip.Canonical (one a)) (htwo : ∀ {a : Chip}, a.Canonical → Okay Chip.Canonical (two a)) (hc : c.Canonical) :
    (oneOrTwo v one two c).1.Canonical :=
  hc.taking (.ite (hone hc) (.ite (htwo hc) trivial))

theorem Chip.Holds.mbxByHost {ch : Nat} {m : Master} {c : Chip} {k : Except Abort Chip} (hc : c.Canonical) (hk : Okay
      Chip.Canonical k) :
    Okay Chip.Canonical (mbxByHost ch m c k) :=
  .ite hk (.ite (.ite (.ok hc) trivial) trivial)

theorem Chip.Holds.mbxFlag {c : Chip} {ch b : Nat} {on : Bool} (hc : c.Canonical) : (c.mbxFlag ch b on).Canonical := hc.set

theorem Chip.Holds.mbxSend {ch : Nat} {m : Master} {c : Chip} (hc : c.Canonical) : Okay Chip.Canonical (mbxSend ch m c) :=
  hc.mbxByHost (.guardNot (.guardNot (.guardNot (hc.set.mbxFlag.modMbx.bump.seq fun h2 => .ok (.ite h2 h2.bump)))))

theorem Chip.Holds.mbxRecall {ch : Nat} {m : Master} {c : Chip} (hc : c.Canonical) : Okay Chip.Canonical (mbxRecall ch m c) :=
  hc.mbxByHost (.ok (.ite hc.set.mbxFlag.mbxFlag.bump (hc.when (·.mbxFlag.mbxFlag.bump))))

theorem Chip.Holds.mbxD2hRelease {ch : Nat} {m : Master} {c : Chip} (hc : c.Canonical) :
    Okay Chip.Canonical (mbxD2hRelease ch m c) :=
  hc.mbxByHost (.ok hc.set.modMbx)

theorem Chip.Holds.mbxIrqAck {ch : Nat} {m : Master} {v : Nat} {c : Chip} (hc : c.Canonical) :
    Okay Chip.Canonical (mbxIrqAck ch m v c) :=
  hc.mbxByHost (.ok (hc.ackBits.foldl (fun h => h.when (·.mbxMessage))))

theorem Chip.Holds.dmaStart {ch : Nat} {m : Master} {c : Chip} (hc : c.Canonical) : Okay Chip.Canonical (dmaStart ch m c) :=
  .guardNot (.guardNot (.guardNot (.guardNot (.ok (hc.when (·.modDma.set))))))

theorem Chip.Holds.copyDone {c : Chip} {ch : Nat} {x : StatCopy} {st n : Nat} (hc : c.Canonical) :
    (c.copyDone ch x st n).Canonical :=
  (by split; exacts [hc.when (·.emit), hc] : Chip.Canonical _).dmaEnd

theorem Chip.Holds.sequenceStop {c : Chip} {ch st bytes : Nat} (hc : c.Canonical) : (c.sequenceStop ch st bytes).Canonical := by
  unfold Chip.sequenceStop
  split
  · exact hc.copyDone
  · exact hc.dmaEnd

theorem Chip.Holds.dmaFetch {c : Chip} {ch a n : Nat} (hc : c.Holds I) : (c.dmaFetch ch a n).2.Holds I := by
  refine List.foldlRecOn (motive := fun acc : List Byte × Chip => acc.2.Holds I) _ _ hc.dramRead fun acc h _ _ => ?_
  dsimp only
  split
  · exact h
  · exact h.freeBit

theorem Chip.Holds.dmaBeat {c : Chip} {ch : Nat} {d : DmaDesc} {src : List Byte} {off e n : Nat} (hc : c.Holds I) :
    (c.dmaBeat ch d src off e n).Holds I := by
  unfold Chip.dmaBeat
  extract_lets bytes read
  have hread : read.Holds I := hc.when (·.flashReadNow)
  split
  next data fetched h =>
  have hfetched : fetched.Holds I := by
    split at h
    · exact Chip.Holds.of_eq hread.dmaFetch (congrArg Prod.snd h)
    · exact Chip.Holds.of_eq hread (congrArg Prod.snd h)
  exact (hfetched.when (·.modDma)).dmaPut

theorem Chip.Holds.dmaMove {ch : Nat} {d : DmaDesc} {src : List Byte} {first limit fuel n : Nat} {c : Chip}
    (hc : c.Holds I) : (Chip.dmaMove ch d src first limit fuel n c).2.2.Holds I := by
  induction fuel generalizing n c with
  | zero => exact hc
  | succ fuel ih =>
    unfold Chip.dmaMove
    dsimp only
    split
    · exact hc
    · split
      · exact hc
      · exact ih hc.dmaBeat

theorem Chip.Holds.dmaRun {c : Chip} {ch : Nat} {src : List Byte} {bytes : Nat} (hc : c.Holds I) :
    (c.dmaRun ch src bytes).2.2.Holds I :=
  hc.dmaMove

theorem Chip.Holds.dmaStop {c : Chip} {ch st bytes : Nat} {dst : Bool} (hc : c.Canonical) :
    (c.dmaStop ch st bytes dst).Canonical := by
  unfold Chip.dmaStop
  extract_lets src
  refine .ite hc.sequenceStop ?_
  have hr := hc.dmaRun (ch := ch) (src := src) (bytes := bytes)
  generalize c.dmaRun ch src bytes = r at hr ⊢
  match r, hr with
  | (_, some (f, _), d), h => exact (Chip.Holds.when (p := f = 6) h (·.bump)).dmaEnd
  | (_, none, _), h => exact h.dmaEnd

theorem Chip.Holds.dmaSettle {c : Chip} {ch st : Nat} (hc : c.Canonical) : (c.dmaSettle ch st).Canonical :=
  hc.beside.dmaStop

theorem Chip.Holds.dmaCease {c : Chip} {ch st : Nat} (hc : c.Canonical) : (c.dmaCease ch st).Canonical :=
  .ite hc.dmaSettle (hc.when (·.dmaEnd))

theorem Chip.Holds.dmaAbort {ch : Nat} {m : Master} {c : Chip} (hc : c.Canonical) : Okay Chip.Canonical (dmaAbort ch m c) :=
  .guardNot (.guardNot (.ok hc.dmaCease))

theorem Chip.Holds.startImage {c : Chip} {img : Image} (hc : c.Canonical) : (c.startImage img).Canonical :=
  hc.beside.seq fun h => ((Chip.Holds.ite h h.beginImage).set).set

theorem Chip.Holds.storeOp {g v : Nat} {c : Chip} (hc : c.Canonical) : Okay Chip.Canonical (Sys2Proof.Machine.storeOp g v c) :=
  .guardNot (.ok hc.startImage)

theorem Chip.Holds.restoreOp {g v : Nat} {c : Chip} (hc : c.Canonical) :
    Okay Chip.Canonical (Sys2Proof.Machine.restoreOp g v c) :=
  .guardNot (.ok hc.startImage)

theorem Chip.Holds.schedule {c : Chip} {region block why : Nat} (hc : c.Canonical) : (c.schedule region block why).Canonical :=
  hc.modRegion

theorem Chip.Holds.regionReset {v : Nat} {c : Chip} (hc : c.Canonical) : Okay Chip.Canonical (regionReset v c) :=
  .guardNot (.guardNot (.ok hc.schedule))

theorem Chip.Holds.releaseHold {c : Chip} {o : Nat} (hc : c.Canonical) : (c.releaseHold o).Canonical :=
  hc.beside.applyStopped

theorem Chip.Holds.stageHold {v : Nat} {c : Chip} (hc : c.Canonical) : Okay Chip.Canonical (stageHold v c) :=
  .guardNot (.ok (hc.set.foldl (fun h2 => h2.when (·.releaseHold))))

theorem Chip.Holds.lockWrite {m : Master} {n v : Nat} {c : Chip} (hc : c.Canonical) : Okay Chip.Canonical (lockWrite m n v c) :=
  .ok (.ite hc.set hc.bump)

theorem Chip.Holds.lockForce {m : Master} {v : Nat} {c : Chip} (hc : c.Canonical) : Okay Chip.Canonical (lockForce m v c) :=
  .guardNot (.ok (hc.foldl (fun h => h.when (·.set.bump))))

theorem Chip.Holds.errqAck {r v : Nat} {c : Chip} (hc : c.Canonical) : Okay Chip.Canonical (errqAck r v c) := .ok hc.beside

theorem Chip.Holds.cfgStatus {c : Chip} {h : Nat} {bad : Bool} (hc : c.Canonical) : (c.cfgStatus h bad).Canonical := hc.set

theorem Chip.Holds.cfgRequest {h v : Nat} {c : Chip} (hc : c.Canonical) : Okay Chip.Canonical (cfgRequest h v c) :=
  .guardNot (.ok hc.modHead.cfgStatus)

theorem Chip.Holds.urgentStatus {c : Chip} {seq st : Nat} (hc : c.Canonical) : (c.urgentStatus seq st).Canonical := hc.set

theorem Chip.Holds.urgentRequest {v : Nat} {c : Chip} (hc : c.Canonical) : Okay Chip.Canonical (urgentRequest v c) :=
  .guardNot (hc.modHk.seq fun h => .ite (.ok h.urgentStatus) (.ite (.ok h.urgentStatus.bump) (.ok h.urgentStatus.modHk)))

theorem Chip.Holds.calRevert {v : Nat} {c : Chip} (hc : c.Canonical) : Okay Chip.Canonical (calRevert v c) :=
  .guardNot (.guardNot (hc.bump.seq fun h1 => .ite (.ite (.ok h1.revertHead) (.ok h1.modHead)) (.ok (h1.foldl (fun h2 => .ite
    h2.putBuffer h2.beside)))))

theorem Chip.Holds.solsticeCommand {h : Nat} {c : Chip} (hc : c.Canonical) : Okay Chip.Canonical (solsticeCommand h c) :=
  .guardNot (.guardNot (.ok hc.set.solsticeIdle))

theorem Chip.Holds.solsticeWithdraw {h : Nat} {c : Chip} (hc : c.Canonical) : Okay Chip.Canonical (solsticeWithdraw h c) :=
  .guardNot (.ok (.ite hc.solsticeAbandon hc.set.solsticeIdle))

theorem Chip.Holds.onionLoad {v : Nat} {c : Chip} (hc : c.Canonical) : Okay Chip.Canonical (onionLoad v c) :=
  .guardNot (.guardNot (.guardNot (.guardNot (.ok hc.startLoad))))

theorem Okay.setRange {v : Nat} {k : Except Abort Chip} (hk : Okay Chip.Canonical k) : Okay Chip.Canonical (setRange v k) :=
  .guardNot hk

theorem Chip.Holds.onionEvict {v : Nat} {c : Chip} (hc : c.Canonical) : Okay Chip.Canonical (onionEvict v c) :=
  .setRange (.guardNot (.guardNot (.ok hc.dropSet.set.set.refreshSets)))

theorem Chip.Holds.onionRevert {v : Nat} {c : Chip} (hc : c.Canonical) : Okay Chip.Canonical (onionRevert v c) :=
  .setRange (.guardNot (.guardNot (.guardNot (.ok hc.beside.bump.refreshSets))))

theorem Chip.Holds.wantSave {c : Chip} {s : Nat} (hc : c.Canonical) : (c.wantSave s).Canonical :=
  (Chip.Holds.ite hc hc.beside).nextSave

theorem Chip.Holds.onionSave {v : Nat} {c : Chip} (hc : c.Canonical) : Okay Chip.Canonical (onionSave v c) :=
  .setRange (.guardNot (.ok hc.wantSave))

theorem Chip.Holds.bankRunStart {b : Nat} {c : Chip} (hc : c.Canonical) : Okay Chip.Canonical (bankRunStart b c) :=
  .guardNot (.guardNot (.ok hc.set.refreshBanks))

theorem Chip.Holds.bankStop {b : Nat} {c : Chip} (hc : c.Canonical) : Okay Chip.Canonical (bankStop b c) :=
  .guardNot (.guardNot (.guardNot (.ok (hc.discardQueue.cutOff.cutOff.when (·.modActBank)).set.refreshBanks)))

theorem Chip.Holds.shutterCommand {b : Nat} {pos : Int} {c : Chip} (hc : c.Canonical) :
    Okay Chip.Canonical (shutterCommand b pos c) := by
  unfold Sys2Proof.Machine.shutterCommand
  split
  · exact trivial
  · exact .guardNot (.guardNot (.ok hc.takeSlot.clampUpdate.refreshBanks))

theorem Chip.Holds.bankFaultClear {b : Nat} {c : Chip} (hc : c.Canonical) : Okay Chip.Canonical (bankFaultClear b c) :=
  .guardNot (.ite (.ok hc.modActBank.set.set.set.refreshBanks) (.ok hc))

theorem Chip.Holds.enqueuePanel {c : Chip} {ch : Nat} (hc : c.Canonical) : (c.enqueuePanel ch).Canonical :=
  hc.modActBank.set

theorem Chip.Holds.chEnergise {ch : Nat} {c : Chip} (hc : c.Canonical) : Okay Chip.Canonical (chEnergise ch c) := by
  unfold Sys2Proof.Machine.chEnergise
  split
  · exact trivial
  · exact .guardNot (.ok hc.enqueuePanel.clampUpdate.refreshBanks)

theorem Chip.Holds.dropRequest {c : Chip} {ch : Nat} (hc : c.Canonical) : (c.dropRequest ch).Canonical :=
  hc.modActBank.when (·.set)

theorem Chip.Holds.chRelease {ch : Nat} {c : Chip} (hc : c.Canonical) : Okay Chip.Canonical (chRelease ch c) := by
  unfold Sys2Proof.Machine.chRelease
  dsimp only
  split
  · exact trivial
  · exact .ok (.ite hc.toDecay (hc.when (·.dropRequest.refreshBanks)))

theorem Chip.Holds.portBecomes {c : Chip} {role : Nat} (hc : c.Canonical) : (c.portBecomes role).Canonical :=
  hc.releaseLocks.beside.setAll

theorem Chip.Holds.spRole {v : Nat} {c : Chip} (hc : c.Canonical) : Okay Chip.Canonical (spRole v c) :=
  .ite (.ite (.ok hc.beside) (.guardNot (.ok hc.portBecomes))) (.ite (.ok hc) (.ok hc.beside))

theorem Chip.Holds.spmErase {off : Nat} {c : Chip} (hc : c.Canonical) : Okay Chip.Canonical (spmErase off c) :=
  .guardNot (.guardNot (.ok hc.startErase))

theorem Chip.Holds.flushPage {c : Chip} (hc : c.Canonical) : c.flushPage.Canonical := by
  unfold Chip.flushPage
  split
  · exact hc
  · extract_lets spm closed
    have hclosed : closed.Canonical := hc.beside
    exact .ite hclosed.beside hclosed.startProgram

theorem Chip.Holds.spmFlush {c : Chip} (hc : c.Canonical) : Okay Chip.Canonical (spmFlush c) := .guardNot (.ok hc.flushPage)

theorem Chip.Holds.spmCopyStart {c : Chip} (hc : c.Canonical) : Okay Chip.Canonical (spmCopyStart c) :=
  .guardNot (.guardNot (hc.set.beside.seq fun h2 => .ok (.ite h2 h2.copyNext)))

theorem Chip.Holds.acceptTrigger {c : Chip} {target node mask : Nat} (hc : c.Canonical) :
    (c.acceptTrigger target node mask).Canonical :=
  .ite (.ite hc.bump (.ite hc hc.beside)) hc

theorem Chip.Holds.sendTrigger {c : Chip} {target node mask : Nat} (hc : c.Canonical) :
    (c.sendTrigger target node mask).Canonical :=
  (hc.beside.when (·.emit.bump)).acceptTrigger

theorem Chip.Holds.canTrigger {v : Nat} {c : Chip} (hc : c.Canonical) : Okay Chip.Canonical (canTrigger v c) :=
  .guardNot (.ok (.ite hc.sendTrigger (.ite hc.acceptTrigger hc.bump)))

theorem Chip.Holds.psirelTimeSet {v : Nat} {c : Chip} (hc : c.Canonical) : Okay Chip.Canonical (psirelTimeSet v c) :=
  .guardNot (.guardNot (.ok hc.beside))

theorem Chip.Holds.psirelTimeAdjust {v : Int} {c : Chip} (hc : c.Canonical) : Okay Chip.Canonical (psirelTimeAdjust v c) :=
  .guardNot (.guardNot (.guardNot (.ok hc.beside)))

theorem Chip.Holds.psirelTrigger {v : Nat} {c : Chip} (hc : c.Canonical) : Okay Chip.Canonical (psirelTrigger v c) :=
  .guardNot (.ok (hc.when (·.sendTrigger)))

theorem Chip.Holds.psirelWake {v : Nat} {c : Chip} (hc : c.Canonical) : Okay Chip.Canonical (psirelWake v c) :=
  .guardNot (.ok (hc.when (·.emit)))

theorem Chip.Holds.clearCount {c : Chip} {key : Nat} (hc : c.Canonical) : (c.clearCount key).Canonical := hc.set

theorem Chip.Holds.bankModeSet {c : Chip} {b : Nat} (hc : c.Canonical) : (c.bankModeSet b).Canonical :=
  (Chip.Holds.ite hc.dropRequest (hc.when (·.discardQueue))).refreshBanks

theorem Chip.Holds.onWritten {c : Chip} {key : Nat} (hc : c.Canonical) : (c.onWritten key).Canonical :=
  .ite hc.set (.ite hc.refreshSets (.ite hc.setTrips (.ite hc.bankModeSet (hc.when (·.bankModeSet)))))

theorem Chip.Holds.onWrite {c : Chip} {key : Nat} (hc : c.Canonical) : (c.onWrite key).Canonical := hc.when (·.hkJudge)

theorem Chip.Holds.takeValue {c : Chip} {key : Nat} {r : Row} {v : Int} (hc : c.Canonical) :
    (c.takeValue key r v).Canonical := by
  unfold Chip.takeValue
  split
  · exact hc.beside
  · split
    · exact hc.applyF
    · exact .ite hc.applyF hc.beside
  · exact hc.onWrite.set.onWritten

theorem Chip.Holds.storeValue {c : Chip} {key : Nat} {r : Row} {v : Int} (hc : c.Canonical) :
    (c.storeValue key r v).1.Canonical := by
  unfold Chip.storeValue
  split
  · exact hc.clearCount
  · split
    · exact hc
    · have hadmitted := hc.admitted (key := key) (v := v)
      generalize c.admitted key v = p at hadmitted ⊢
      obtain ⟨d, refused⟩ := p
      dsimp only at hadmitted ⊢
      split_ifs
      exacts [hadmitted, hadmitted.takeValue, hc.takeValue]

/-- A value of 1 starts, any other stops. -/
theorem Chip.Holds.split {p : Prop} [Decidable p] {a b : Chip × Option Abort} (ha : a.1.Canonical) (hb : b.1.Canonical) :
    (if p then a else b).1.Canonical := by
  split
  exacts [ha, hb]

/-- The operation of each command object of the front die. -/
theorem Chip.Holds.frontCommands {m : Master} {v : Nat} {x : Int} {r : CommandRow} {n : Nat} {c : Chip} (hc : c.Canonical)
    (hr : r ∈ frontCommands m v x) : (r.op n c).1.Canonical := by
  simp only [Sys2Proof.Machine.frontCommands, List.mem_cons, List.not_mem_nil, or_false] at hr
  rcases hr with rfl | rfl | rfl | rfl | rfl | rfl | rfl | rfl | rfl | rfl | rfl | rfl | rfl | rfl | rfl | rfl | rfl | rfl |
    rfl | rfl | rfl | rfl | rfl | rfl | rfl | rfl | rfl | rfl | rfl | rfl | rfl | rfl
  exacts [hc.taking hc.storeOp, hc.taking hc.restoreOp, hc.taking hc.modeRequest, hc.taking chipResetWrite,
    hc.taking hc.regionReset, hc.taking hc.stageHold, hc.taking hc.lockWrite, hc.taking hc.lockForce, hc.taking hc.errqAck,
    .split hc.headRunRequest hc.headStopRequest, hc.taking hc.cfgRequest, hc.taking hc.urgentRequest,
    hc.onlyOne fun h => h.calTrigger, hc.taking hc.calRevert,
    hc.oneOrTwo (fun h => h.solsticeCommand) (fun h => h.solsticeWithdraw), hc.taking hc.onionLoad, hc.taking hc.onionEvict,
    hc.taking hc.onionRevert, hc.taking hc.onionSave, hc.taking (.ite hc.bankRunStart hc.bankStop),
    hc.taking (.ite hc.shutterCommand trivial), hc.onlyOne fun h => h.bankFaultClear,
    hc.oneOrTwo (fun h => h.chEnergise) (fun h => h.chRelease), hc.taking hc.spRole, hc.taking hc.spmErase,
    hc.onlyOne fun h => h.spmFlush, hc.onlyOne fun h => h.spmCopyStart, hc.taking hc.canTrigger, hc.taking hc.psirelTimeSet,
    hc.taking hc.psirelTimeAdjust, hc.taking hc.psirelTrigger, hc.taking hc.psirelWake]

/-- The operation of each command object of the pixel die. -/
theorem Chip.Holds.pixelCommands {m : Master} {v : Nat} {r : CommandRow} {n : Nat} {c : Chip} (hc : c.Canonical)
    (hr : r ∈ pixelCommands m v) : (r.op n c).1.Canonical := by
  simp only [Sys2Proof.Machine.pixelCommands, List.mem_cons, List.not_mem_nil, or_false] at hr
  rcases hr with rfl | rfl | rfl | rfl | rfl | rfl | rfl | rfl | rfl | rfl | rfl
  exacts [hc.onlyOne fun h => h.tnrReseed, 
    .split hc.rxRunStart (hc.taking hc.rxStop), .split hc.srcRunOne hc.srcStop, .split hc.streamRunOne hc.streamStop,
    hc.taking hc.paletteWrite, hc.pcieEventAck,
    hc.oneOrTwo (fun h => h.mbxSend) (fun h => h.mbxRecall), hc.onlyOne fun h => h.mbxD2hRelease, hc.taking hc.mbxIrqAck,
    hc.onlyOne fun h => h.dmaStart, hc.onlyOne fun h => h.dmaAbort]

theorem Chip.Holds.commandOf {m : Master} {key : Nat} {x : Int} {op : Chip → Chip × Option Abort} {c : Chip} (hc : c.Canonical)
    (hop : commandOf m key x = some op) : (op c).1.Canonical := by
  obtain ⟨r, hr, hrow⟩ := List.exists_of_findSome?_eq_some hop
  obtain ⟨n, -, rfl⟩ := Option.map_eq_some_iff.1 hrow
  split at hr
  · exact hc.pixelCommands hr
  · exact hc.frontCommands hr

theorem Chip.Holds.writeValue {c : Chip} {m : Master} {key : Nat} {r : Row} {v : Option Int} (hc : c.Canonical) :
    (c.writeValue m key r v).1.Canonical := by
  unfold Chip.writeValue
  split
  · exact hc
  · split
    · exact hc
    · split
      · exact hc
      · split
        · exact hc
        · split
          · exact hc
          · split
            · next hop => exact hc.commandOf hop
            · exact hc.storeValue

theorem Chip.Holds.holdHalf {c : Chip} {m : Master} {key w : Nat} (hc : c.Canonical) : (c.holdHalf m key w).Canonical :=
  hc.beside

theorem Chip.Holds.joinHalf {c : Chip} {m : Master} {key : Nat} {r : Row} {high : Nat} (hc : c.Canonical) :
    (c.joinHalf m key r high).2.Canonical :=
  hc.beside

theorem Chip.Holds.writePart {c : Chip} {m : Master} {key : Nat} {r : Row} {part : Part} {v : Slot} (hc : c.Canonical) :
    (c.writePart m key r part v).Canonical := by
  unfold Chip.writePart
  split
  · exact hc.refuse
  · exact hc.attempt2 hc.writeValue
  · exact .ite (hc.attempt2 hc.writeValue) hc.holdHalf
  · have hjoined := hc.joinHalf (m := m) (key := key) (r := r) (high := v.toNat)
    exact .ite hc (hjoined.attempt2 hjoined.writeValue)

theorem Chip.Holds.objectWrite {m : Master} {key : Nat} {part : Part} {v : Slot} {c : Chip} (hc : c.Canonical) :
    (objectWrite m key part v c).Canonical := by
  unfold Sys2Proof.Machine.objectWrite
  split
  · exact hc
  · split
    · exact hc.refuse
    · split
      · exact .ite hc.refuse (.ite hc.refuse (.ite (.ite hc hc.refuse) (.ite hc hc.refuse)))
      · exact .ite hc.refuse (.ite (.ite hc hc.refuse) hc.writePart)

theorem Chip.Holds.objectWrites {key : Nat} {l : List MasterWrite} {c : Chip} (hc : c.Canonical) :
    (objectWrites key l c).Canonical :=
  hc.foldl (fun h => h.objectWrite)

theorem Chip.Holds.slotCommand {c : Chip} {m : Master} {key : Nat} {v : Slot} {op : Nat → Chip → Except Abort Chip} (hc :
      c.Canonical) (hop : ∀ {a : Nat} {b : Chip}, b.Canonical → Okay Chip.Canonical (op a b)) :
    (c.slotCommand m key v op).Canonical :=
  hc.command (fun h => by split; exacts [trivial, hop h])

theorem Chip.Holds.halfWriteExpiry {m : Master} {c : Chip} (hc : c.Canonical) : (halfWriteExpiry m c).Canonical := by
  unfold Sys2Proof.Machine.halfWriteExpiry
  split
  · exact hc
  · exact hc.beside

theorem Chip.Holds.lockRead {c : Chip} {m : Master} {n : Nat} (hc : c.Canonical) : (c.lockRead m n).1.Canonical := by
  unfold Chip.lockRead
  split
  · exact hc.set
  · exact hc

theorem Chip.Holds.readPage {c : Chip} {key : Nat} (hc : c.Canonical) : (c.readPage key).Canonical := by
  unfold Chip.readPage
  split
  · exact hc.lockRead.emit
  · split
    · exact hc.emit
    · exact hc.refuse.emit

theorem Chip.Holds.slotRead {c : Chip} {m : Master} {key : Nat} (hc : c.Canonical) :
    Okay (·.2.Canonical) (c.slotRead m key) := by
  unfold Chip.slotRead
  split
  · split
    · exact .ite trivial (.ite trivial (.ok hc))
    · exact trivial
  · split
    · exact trivial
    · split
      · exact trivial
      · split
        · exact .ok hc
        · split
          · exact .ok hc
          · split
            · exact .ok hc.lockRead
            · exact .ok hc

theorem Chip.Holds.latchHalf {c : Chip} {m : Master} {key v : Nat} (hc : c.Canonical) : (c.latchHalf m key v).Canonical :=
  hc.beside

theorem Chip.Holds.readRefused {c : Chip} {m : Master} {key : Nat} {a : Abort} {zero : OutMsg} (hc : c.Canonical) :
    (c.readRefused m key a zero).Canonical :=
  .ite ((Chip.Holds.ite hc hc.refuse).emit) hc.refuse

theorem Chip.Holds.readLow {c : Chip} {m : Master} {key : Nat} (hc : c.Canonical) : (c.readLow m key).Canonical := by
  unfold Chip.readLow
  have hr := hc.slotRead (m := m) (key := key)
  generalize c.slotRead m key = r at hr ⊢
  match r, hr with
  | .ok _, h =>
    dsimp only
    split
    · exact h.emit.when (·.latchHalf)
    · exact h.emit
  | .error _, _ => exact hc.readRefused

theorem Chip.Holds.halfReadLatchExpiry {m : Master} {c : Chip} (hc : c.Canonical) : (halfReadLatchExpiry m c).Canonical :=
  hc.beside

theorem Chip.Holds.readHigh {c : Chip} {m : Master} {key : Nat} (hc : c.Canonical) : (c.readHigh m key).Canonical := by
  unfold Chip.readHigh
  split
  · exact hc.halfReadLatchExpiry.emit
  · split
    · exact hc.emit
    · exact hc.readRefused

theorem Chip.Holds.readSlot {c : Chip} {m : Master} {key : Nat} (hc : c.Canonical) : (c.readSlot m key).Canonical := by
  unfold Chip.readSlot
  have hr := hc.slotRead (m := m) (key := key)
  generalize c.slotRead m key = r at hr ⊢
  match r, hr with
  | .ok _, h => exact h.emit
  | .error _, _ => exact hc.readRefused

theorem Chip.Holds.halfReadLow {m : Master} {key : Nat} {part : ReadPart} {c : Chip} (hc : c.Canonical) :
    (halfReadLow m key part c).Canonical := by
  unfold Sys2Proof.Machine.halfReadLow
  split
  · exact .ite hc (.ite hc.readPage hc.refuse.emit)
  · split
    · exact hc
    · split
      · exact hc.readLow
      · exact hc.readHigh
      · exact hc.foldl (fun h => h.readSlot)
      · exact hc.readRefused

theorem Chip.Holds.lockReadOp {m : Master} {n : Nat} {c : Chip} (hc : c.Canonical) :
    Okay Chip.Canonical (Sys2Proof.Machine.lockRead m n c) :=
  .ok hc.lockRead.emit

theorem Chip.Holds.lockReads {ms : List Master} {n : Nat} {c : Chip} (hc : c.Canonical) : (lockReads ms n c).Canonical :=
  hc.foldl (fun h1 => h1.command (fun h2 => h2.lockReadOp))

theorem Chip.Holds.nvmRest {c : Chip} (hc : c.Canonical) : c.nvmRest.Canonical := hc.set

theorem Chip.Holds.storeComplete {c : Chip} (hc : c.Canonical) : (storeComplete c).Canonical := by
  unfold Sys2Proof.Machine.storeComplete
  dsimp only
  split
  · exact hc
  · exact .ite hc (hc.beside.seq fun h => (Chip.Holds.ite h.beside
    h.beside).beside.total.reportImages.set.nvmRest.nvmWrite)

theorem Chip.Holds.command2 {c : Chip} {m : Master} {key : Nat} {op : Chip → Chip × Option Abort} (hc : c.Canonical) (hop
      : ∀ {a : Chip}, a.Canonical → (op a).1.Canonical) :
    (c.command2 m key op).Canonical :=
  .ite (.ite hc.refuse (hc.attempt2 (hop hc))) hc

theorem Chip.Holds.headLastFrameEnd {h : Nat} {c : Chip} (hc : c.Canonical) : (headLastFrameEnd h c).Canonical :=
  hc.when (·.headRampDown)

theorem Chip.Holds.headStopComplete {h : Nat} {c : Chip} (hc : c.Canonical) : (headStopComplete h c).Canonical :=
  hc.when (·.headRest.when (·.headStart))

theorem Chip.Holds.applyBias {c : Chip} {h : Nat} {force : Bool} (hc : c.Canonical) : (c.applyBias h force).Canonical :=
  .ite hc hc.bumpBy.modHead.biasTo

theorem Chip.Holds.startRamp {c : Chip} {h : Nat} (hc : c.Canonical) : (c.startRamp h).Canonical :=
  hc.set.selectTrims.modHead.applyBias

theorem Chip.Holds.scriptNext {c : Chip} {h : Nat} (hc : c.Canonical) : (c.scriptNext h).Canonical :=
  .ite hc.startRamp (hc.modHead.seq fun h1 => .ite h1.modHead h1.modHead)

theorem Chip.Holds.headSupplySettled {h : Nat} {c : Chip} (hc : c.Canonical) : (headSupplySettled h c).Canonical :=
  .ite hc (.ite hc.loseHead (.ite hc.loseHead ((Chip.Holds.ite hc hc.set).modHead.scriptNext)))

theorem Chip.Holds.headBiasSettled {h : Nat} {c : Chip} (hc : c.Canonical) : (headBiasSettled h c).Canonical :=
  hc.when (·.modHead)

theorem Chip.Holds.cfgTransactionStart {h : Nat} {c : Chip} (hc : c.Canonical) : (cfgTransactionStart h c).Canonical := by
  unfold Sys2Proof.Machine.cfgTransactionStart
  dsimp only
  split
  · exact hc
  · split
    · exact hc
    · exact hc.modHead.cfgStatus.emit

theorem Chip.Holds.cfgTransactionComplete {h data : Nat} {c : Chip} (hc : c.Canonical) :
    (cfgTransactionComplete h data c).Canonical := by
  unfold Sys2Proof.Machine.cfgTransactionComplete
  dsimp only
  split
  · exact hc
  · split
    · exact ((Chip.Holds.ite hc.modHead.set hc.modHead)).cfgStatus
    · exact (((Chip.Holds.ite hc.modHead.set hc.modHead)).cfgStatus).scriptNext
    · exact (((Chip.Holds.ite hc.modHead.set hc.modHead)).cfgStatus).seq fun h1 => .ite h1.loseHead h1.scriptNext
    · exact (((Chip.Holds.ite hc.modHead.set hc.modHead)).cfgStatus).modHead.when (·.bump)
    · exact (((Chip.Holds.ite hc.modHead.set hc.modHead)).cfgStatus).modHead

theorem Chip.Holds.cfgScriptWaitEnd {h : Nat} {c : Chip} (hc : c.Canonical) : (cfgScriptWaitEnd h c).Canonical :=
  hc.when (·.modHead.scriptNext)

theorem Chip.Holds.cfgCheckFailure {h : Nat} {c : Chip} (hc : c.Canonical) : (cfgCheckFailure h c).Canonical :=
  hc.when (·.loseHead)

theorem Chip.Holds.endSwing {c : Chip} {h : Nat} (hc : c.Canonical) : (c.endSwing h).Canonical := hc.modHead

theorem Chip.Holds.takeNumber {c : Chip} {s : Nat} (hc : c.Canonical) : (c.takeNumber s).2.Canonical := hc.modSource

theorem Chip.Holds.headFrameOpen {c : Chip} {h : Nat} (hc : c.Canonical) : (c.headFrameOpen h).1.Canonical :=
  (((hc.when (·.endSwing)).when (·.set)).when (·.beside)).takeNumber.set.modHead

theorem Chip.Holds.applyStaged {c : Chip} {owner : Nat} (hc : c.Canonical) : (c.applyStaged owner).Canonical :=
  .ite hc hc.beside.applyWrites

theorem Chip.Holds.headFrameApply {c : Chip} {h : Nat} {f : HeadFrame} (hc : c.Canonical) :
    (c.headFrameApply h f).1.Canonical :=
  hc.applyStaged

theorem Chip.Holds.stepSet {c : Chip} {h : Nat} {changed : Bool} (hc : c.Canonical) : (c.stepSet h changed).1.Canonical := by
  unfold Chip.stepSet
  extract_lets s p resident missing
  have hmissing : missing.Canonical := hc.modHead.bump
  split_ifs
  · exact hc.modHead.refreshSets
  · exact hc
  · dsimp only
    exact hmissing.raise

theorem Chip.Holds.headFrameBand {c : Chip} {h : Nat} {f : HeadFrame} (hc : c.Canonical) : (c.headFrameBand h f).1.Canonical :=
  (((hc.set.when (·.bump.set)).selectTrims.when (·.revertHead.modHead)).stepSet.when (·.applyBias))

theorem Chip.Holds.startPasses {c : Chip} {src : Nat} (hc : c.Canonical) : (c.startPasses src).Canonical :=
  hc.beside.refreshSets

theorem Chip.Holds.solsticeDueBits {c : Chip} {h cap : Nat} (hc : c.Canonical) : (c.solsticeDueBits h cap).Canonical := by
  unfold Chip.solsticeDueBits
  dsimp only
  split
  · exact hc.set
  · exact hc.set

theorem Chip.Holds.solsticeBegin {c : Chip} {h : Nat} (hc : c.Canonical) : (c.solsticeBegin h).Canonical := by
  unfold Chip.solsticeBegin
  dsimp only
  split
  · exact hc.modSol.clearAverage.solsticePhase.solsticeRequest
  · exact hc.modSol.clearAverage.solsticePhase

theorem Chip.Holds.solsticeSettled {c : Chip} {h : Nat} {e : SolEvent} (hc : c.Canonical) : (c.solsticeSettled h e).Canonical :=
  hc.when (·.clearAverage.solsticePhase)

theorem Chip.Holds.solsticeRestart {c : Chip} {h : Nat} {e : SolEvent} (hc : c.Canonical) : (c.solsticeRestart h e).Canonical :=
  .ite hc.solsticeAbandon hc.modEvent.bump.clearAverage.solsticePhase

theorem Chip.Holds.solsticeReopen {c : Chip} {h : Nat} {e : SolEvent} (hc : c.Canonical) :
    (c.solsticeReopen h e).Canonical := by
  unfold Chip.solsticeReopen
  dsimp only
  split
  · exact hc.solsticeAbandon
  · exact .ite hc.solsticeAbandon hc.modSol.beside.refreshSets.solsticePhase.solsticeOpen

theorem Chip.Holds.solsticeAveraged {c : Chip} {h : Nat} {e : SolEvent} (hc : c.Canonical) :
    (c.solsticeAveraged h e).Canonical :=
  hc.when (·.solsticeReopen)

theorem Chip.Holds.solsticeClosed {c : Chip} {h : Nat} {e : SolEvent} {f : SolFrame} (hc : c.Canonical) :
    (c.solsticeClosed h e f).Canonical :=
  .ite hc.solsticeAbandon (.ite hc.solsticeAbandon (.ite (.ite hc.solsticeAbandon (hc.when (·.solsticePhase.solsticeSettled)))
    (.ite hc.solsticeRestart.solsticeSettled hc.solsticeSettled.solsticeAveraged)))

theorem Chip.Holds.solsticeReopening {c : Chip} {h : Nat} {e : SolEvent} (hc : c.Canonical) :
    (c.solsticeReopening h e).Canonical :=
  .ite hc.solsticeAbandon (.ite (hc.when (·.set.set.when (·.solsticeEnd))) (.ite hc.solsticePhase.solsticeOpen (hc.when
    (·.solsticeEnd))))

theorem Chip.Holds.solsticeStep {c : Chip} {h : Nat} {f : SolFrame} (hc : c.Canonical) : (c.solsticeStep h f).Canonical := by
  unfold Chip.solsticeStep
  dsimp only
  split
  · exact (((hc.when (·.solsticeDueBits))).solsticeIdle).when (·.solsticeBegin)
  · exact (((hc.when (·.solsticeDueBits))).set).modEvent.seq fun h2 => .ite h2.solsticeClosed h2.solsticeReopening

theorem Chip.Holds.replaceRetired {c : Chip} {b : Nat} {r : Nat × Nat} (hc : c.Canonical) :
    (c.replaceRetired b r).Canonical := by
  unfold Chip.replaceRetired
  split
  exacts [((by split; exacts [.ite hc.modBank.refreshStandin (hc.when (·.cancelStandin)), hc] : Chip.Canonical _).foldl (fun h2 =>
    h2.when (·.offSlot))).serve, hc]

theorem Chip.Holds.dropWaiting {c : Chip} {b : Nat} (hc : c.Canonical) : (c.dropWaiting b).Canonical := by
  unfold Chip.dropWaiting
  split
  · exact hc.when (·.cancelStandin.calNext)
  · exact hc

theorem Chip.Holds.stepRetired {c : Chip} {b : Nat} (hc : c.Canonical) : (c.stepRetired b).1.Canonical := by
  unfold Chip.stepRetired
  extract_lets l taken replaced lost
  have hreplaced : replaced.Canonical := Chip.Holds.foldl hc.modBank fun h => h.replaceRetired
  have hlost : lost.Canonical := hreplaced.foldl fun h => by
    extract_lets other
    split
    exacts [h.set, h]
  exact hlost.refreshSpares.dropWaiting

theorem Chip.Holds.pruneGaps {c : Chip} {b : Nat} (hc : c.Canonical) : (c.pruneGaps b).Canonical := hc.modBank

theorem Chip.Holds.stepStandin {c : Chip} {b : Nat} {allowed lost : Bool} (hc : c.Canonical) :
    (c.stepStandin b allowed lost).1.Canonical := by
  unfold Chip.stepStandin
  dsimp only
  split
  · exact hc
  · split
    · exact hc.endStandin
    · split
      · exact hc.modBank.offSlot.serve.bump.bump.refreshStandin
      · exact hc

theorem Chip.Holds.bankStep {c : Chip} {b : Nat} {allowed lost : Bool} (hc : c.Canonical) :
    (c.bankStep b allowed lost).1.Canonical :=
  hc.pruneGaps.stepRetired.stepStandin.when (·.bump)

theorem Chip.Holds.headFrameSolstice {c : Chip} {h : Nat} {f : HeadFrame} (hc : c.Canonical) :
    (c.headFrameSolstice h f).1.Canonical :=
  (hc.startPasses.solsticeStep.bankStep.calNext.when (·.modSource))

theorem Chip.Holds.headSync {c : Chip} {h : Nat} (hc : c.Canonical) : (c.headSync h).Canonical := hc.when (·.emit)

theorem Chip.Holds.loadTables {c : Chip} {s : Nat} (hc : c.Canonical) : (c.loadTables s).Canonical :=
  (hc.when (·.modSource)).when (·.modSource)

theorem Chip.Holds.formTnr {c : Chip} {s : Nat} {w : Work} (hc : c.Canonical) : (c.formTnr s w).1.Canonical :=
  (hc.when (·.bump)).modSource

theorem Chip.Holds.formWork {c : Chip} {s : Nat} {w : Work} (hc : c.Canonical) : (c.formWork s w).1.Canonical := by
  unfold Chip.formWork
  extract_lets x w
  split
  · exact hc
  · generalize deltaT w.tFpa w.tRef = dT
    obtain ⟨dT, clamped⟩ := dT
    dsimp -zeta only
    extract_lets counted formed g saturated throttled
    have hformed : (counted.formTnr s formed).1.Canonical := (hc.when (·.bump)).formTnr
    have hsaturated : saturated.Canonical := hformed.bumpBy
    have hthrottled : throttled.Canonical := hsaturated.when (·.bump)
    split
    exacts [hformed, hthrottled]

theorem Chip.Holds.formSeed {c : Chip} {s : Nat} {w : Work} (hc : c.Canonical) : (c.formSeed s w).1.Canonical := by
  unfold Chip.formSeed
  dsimp only
  split
  · exact hc
  · exact hc.modSource.when (·.bump)

theorem Chip.Holds.streamApply {c : Chip} {n frame : Nat} (hc : c.Canonical) : (c.streamApply n frame).Canonical :=
  hc.applyStaged.modStream

theorem Chip.Holds.discardFrame {c : Chip} {n : Nat} (hc : c.Canonical) : (c.discardFrame n).Canonical := hc.bump

theorem Chip.Holds.streamFrameStart {c : Chip} {n frame prev : Nat} {first real : Bool} (hc : c.Canonical) :
    (c.streamFrameStart n frame prev first real).Canonical :=
  .ite hc ((hc.when (·.streamApply)).seq fun h => .ite h (h.set.modStream.seq fun h3 => .ite h3 (h3.modStream.seq fun h4 =>
    .ite h4.bump (h4.set.modStream.seq fun h6 => .ite h6.discardFrame h6.modStream))))

theorem Chip.Holds.streamsFrameStart {c : Chip} {s frame prev : Nat} {first real : Bool} (hc : c.Canonical) :
    (c.streamsFrameStart s frame prev first real).Canonical :=
  hc.foldl (fun h => h.when (·.streamFrameStart))

theorem Chip.Holds.beginFrame {c : Chip} {s : Nat} {w : Work} {lines : Bool} (hc : c.Canonical) :
    (c.beginFrame s w lines).Canonical :=
  (hc.closeWorks.when (·.loadTables.set)).formWork.formSeed.modSource.streamsFrameStart.finishAll

theorem Chip.Holds.headFrameBegin {c : Chip} {h : Nat} {f : HeadFrame} (hc : c.Canonical) : (c.headFrameBegin h f).Canonical :=
  ((hc.modSol.when (·.modHead)).when (·.modSource)).beginFrame.when (·.modSource)

theorem Chip.Holds.headFrame {c : Chip} {h : Nat} (hc : c.Canonical) : (c.headFrame h).Canonical := by
  unfold Chip.headFrame
  have hopened := hc.headFrameOpen (h := h)
  generalize c.headFrameOpen h = p at hopened ⊢
  obtain ⟨opened, f⟩ := p
  have happlied := hopened.headFrameApply (h := h) (f := f)
  dsimp only at happlied ⊢
  generalize opened.headFrameApply h f = p at happlied ⊢
  obtain ⟨applied, f⟩ := p
  have hband := happlied.headFrameBand (h := h) (f := f)
  dsimp only at hband ⊢
  generalize applied.headFrameBand h f = p at hband ⊢
  obtain ⟨band, f⟩ := p
  have hsol := (hband.headSync (h := h)).headFrameSolstice (h := h) (f := f)
  dsimp only at hsol ⊢
  generalize (band.headSync h).headFrameSolstice h f = p at hsol ⊢
  obtain ⟨sol, f⟩ := p
  dsimp only at hsol ⊢
  exact (hsol.when (·.loseHead)).modHead.when (·.headFrameBegin)

theorem Chip.Holds.headFrameStart {h : Nat} {c : Chip} (hc : c.Canonical) : (headFrameStart h c).Canonical :=
  .ite hc hc.headFrame

theorem Chip.Holds.gapReads {c : Chip} {h : Nat} (hc : c.Canonical) : (c.gapReads h).Canonical := hc.modHead

theorem Chip.Holds.leapStep {c : Chip} {h : Nat} {step : Option CalStep} (hc : c.Canonical) :
    (c.leapStep h step).Canonical := by
  unfold Chip.leapStep
  split
  exacts [.ite hc (hc.beside.seq fun h1 => (by split; exacts [h1.bump.set, h1.bump.set.set] : Chip.Canonical _).putLeapTrim.seq
    fun h3 => .ite h3 h3.modHead), hc]

theorem Chip.Holds.leapBuffer {c : Chip} {h : Nat} {step : Option CalStep} (hc : c.Canonical) :
    (c.leapBuffer h step).Canonical := by
  unfold Chip.leapBuffer
  dsimp only
  split
  · exact hc
  · split
    · exact hc.beside.putBuffer
    · split
      · exact hc.when (·.bufferStep.calBanks)
      · exact hc

theorem Chip.Holds.tapsJudged {c : Chip} {h : Nat} (hc : c.Canonical) : (c.tapsJudged h).Canonical := hc.when (·.loseHead)

theorem Chip.Holds.tapOutOf {c : Chip} {h t st code : Nat} {resp : Int} (hc : c.Canonical) :
    (c.tapOutOf h t st code resp).Canonical := by
  unfold Chip.tapOutOf
  dsimp only
  split
  · exact hc.set.bump.raise
  · split
    · exact hc.set.bump.raise.modWork
    · exact hc.set.bump.raise

theorem Chip.Holds.tapFault {c : Chip} {h t st code : Nat} {resp : Int} (hc : c.Canonical) :
    (c.tapFault h t st code resp).Canonical :=
  hc.tapOutOf.tapsJudged

theorem Chip.Holds.tapTest {c : Chip} {h : Nat} {resp : List Int} (hc : c.Canonical) : (c.tapTest h resp).Canonical :=
  ((hc.set.modHead.when (·.tapFault)).foldl (fun h3 => h3.tapOutOf)).seq fun h3 => .ite h3 h3.tapsJudged

theorem Chip.Holds.leapLine {h : Nat} {resp : List Int} {step refStep : Option CalStep} {c : Chip} (hc : c.Canonical) :
    (leapLine h resp step refStep c).Canonical :=
  .ite hc hc.modHead.tapTest.leapBuffer.leapStep.gapReads

theorem Chip.Holds.blankStandin {c : Chip} {b : Nat} (hc : c.Canonical) : (c.blankStandin b).Canonical := by
  unfold Chip.blankStandin
  split
  · exact hc
  · split
    · split
      · exact hc
      · exact hc.modBank
    · exact hc.modBank
    · exact hc

theorem Chip.Holds.blankingStart {h : Nat} {c : Chip} (hc : c.Canonical) : (blankingStart h c).Canonical :=
  hc.when (·.modHead.blankStandin)

theorem Chip.Holds.headVerificationEnd {h : Nat} {c : Chip} (hc : c.Canonical) : (headVerificationEnd h c).Canonical :=
  .ite ((hc.endSwing.foldl (fun h2 => h2.when (·.tapFault))).seq fun h2 => .ite h2.loseHead h2.set.modHead) hc

theorem Chip.Holds.tapRailShort {h t : Nat} {c : Chip} (hc : c.Canonical) : (tapRailShort h t c).Canonical :=
  hc.when (·.tapFault)

theorem Chip.Holds.headSupplyOvercurrent {h : Nat} {e : LimitEvent} {c : Chip} (hc : c.Canonical) :
    (headSupplyOvercurrent h e c).Canonical := by
  unfold Sys2Proof.Machine.headSupplyOvercurrent
  dsimp only
  split
  · exact hc
  · split
    · exact hc.set
    · exact hc.when (·.set)
    · exact hc.loseHead

theorem Chip.Holds.headSupplyUndercurrent {h : Nat} {c : Chip} (hc : c.Canonical) : (headSupplyUndercurrent h c).Canonical :=
  hc.when (·.loseHead)

theorem Chip.Holds.biasOvercurrent {h b : Nat} {e : LimitEvent} {c : Chip} (hc : c.Canonical) :
    (biasOvercurrent h b e c).Canonical := by
  unfold Sys2Proof.Machine.biasOvercurrent
  split
  · split
    · exact hc.modHead
    · exact hc.modHead
    · exact hc.loseHead
  · exact hc

theorem Chip.Holds.biasOpen {h b : Nat} {c : Chip} (hc : c.Canonical) : (biasOpen h b c).Canonical := hc.when (·.loseHead)

theorem Chip.Holds.headRetry {h : Nat} {c : Chip} (hc : c.Canonical) : (headRetry h c).Canonical :=
  hc.when (·.modHead.headStart)

theorem Chip.Holds.triggerHead {c : Chip} {h : Nat} (hc : c.Canonical) : (c.triggerHead h).Canonical :=
  .ite hc (.ite hc.bump hc.modHead)

theorem Chip.Holds.triggerDelivery {h : Nat} {c : Chip} (hc : c.Canonical) : (triggerDelivery h c).Canonical := by
  unfold Sys2Proof.Machine.triggerDelivery
  dsimp only
  split
  · exact hc
  · exact hc.beside.triggerHead

theorem Chip.Holds.triggerTimeout {h : Nat} {c : Chip} (hc : c.Canonical) : (triggerTimeout h c).Canonical :=
  hc.when (·.modHead.bump.headFrame)

theorem Chip.Holds.retire {c : Chip} {b j : Nat} (hc : c.Canonical) : (c.retire b j).Canonical :=
  hc.modBank.offSlot.seq fun h2 => (by split; exacts [h2.modBank, h2] : Chip.Canonical _).modRegion.raise.refreshSpares.calNext

theorem Chip.Holds.modBlock {c : Chip} {region b : Nat} {f : BlockHist → BlockHist} (hc : c.Canonical) :
    (c.modBlock region b f).Canonical :=
  hc.modRegion

theorem Chip.Holds.blockReset {c : Chip} {region b : Nat} (hc : c.Canonical) : (c.blockReset region b).Canonical :=
  hc.modBlock.seq fun h => .ite h.schedule h.modBlock.raise

theorem Chip.Holds.countCell {c : Chip} {region b cell code : Nat} (hc : c.Canonical) :
    (c.countCell region b cell code).Canonical :=
  hc.modBlock.when (·.blockReset)

theorem Chip.Holds.converterWatchdog {b j : Nat} {c : Chip} (hc : c.Canonical) : (converterWatchdog b j c).Canonical :=
  .ite hc (.ite hc.raise (hc.bump.raise.modBank.seq fun h3 => .ite h3.modBank.retire h3.countCell))

theorem Chip.Holds.converterResetEnd {b j : Nat} {c : Chip} (hc : c.Canonical) : (converterResetEnd b j c).Canonical :=
  hc.modBank

theorem Chip.Holds.hkTrigger {c : Chip} (hc : c.Canonical) : (hkTrigger c).Canonical := .ite hc (.ite hc.bump hc.modHk)

theorem Chip.Holds.hkPublish {c : Chip} {values : List (Nat × Nat × Int)} (hc : c.Canonical) :
    (c.hkPublish values).Canonical := by
  unfold Chip.hkPublish
  exact (hc.foldl fun h => h.foldl fun h => h.set).setAll.modHk

theorem Chip.Holds.tfpaRound {c : Chip} {h : Nat} (hc : c.Canonical) : (c.tfpaRound h).Canonical := by
  unfold Chip.tfpaRound
  extract_lets read taken
  have hread : read.Canonical := by
    unfold read
    split
    exacts [hc.when (·.set), hc]
  have htaken : taken.Canonical := hread.modHead
  split
  · exact htaken.set.set
  · exact htaken.when (·.set.raise)

theorem Chip.Holds.limitEntry {c : Chip} {j kind : Nat} (hc : c.Canonical) : (c.limitEntry j kind).Canonical :=
  hc.raise.emcyFor

theorem Chip.Holds.limitRound {c : Chip} {time j : Nat} (hc : c.Canonical) : (c.limitRound time j).Canonical :=
  (hc.when (·.modThermal)).seq fun h => .ite h.set (((h.setAll.when (·.limitEntry)).when (·.limitEntry)).when (·.modThermal))

theorem Chip.Holds.limitsRound {c : Chip} (hc : c.Canonical) : c.limitsRound.Canonical := by
  unfold Chip.limitsRound
  exact (hc.foldl fun h => h.limitRound).modThermal

theorem Chip.Holds.sensorEntry {c : Chip} {j : Nat} {st : Int} (hc : c.Canonical) : (c.sensorEntry j st).Canonical :=
  .ite hc ((by split; exacts [hc, hc.beside] : Chip.Canonical _).raise.modThermal)

theorem Chip.Holds.sensorRound {c : Chip} (hc : c.Canonical) : c.sensorRound.Canonical := by
  unfold Chip.sensorRound
  refine hc.modThermal.foldl fun h => ?_
  extract_lets was now shown entered
  have hentered : entered.Canonical := h.set.when (·.sensorEntry)
  split
  exacts [hentered.set, hentered]

theorem Chip.Holds.refreshRound {c : Chip} {ch : Nat} {mr4 : Option Nat} (hc : c.Canonical) :
    (c.refreshRound ch mr4).Canonical := by
  unfold Chip.refreshRound
  refine .ite hc ?_
  extract_lets temps
  split
  next band judged h =>
  have hjudged : judged.Canonical := by
    split at h
    · exact Chip.Holds.of_eq hc (congrArg Prod.snd h)
    · exact Chip.Holds.of_eq hc.beside (congrArg Prod.snd h)
  dsimp only
  split
  · exact hjudged.modThermal.setAll
  · exact hjudged.modThermal.bump.set

theorem Chip.Holds.throttleRound {c : Chip} (hc : c.Canonical) : c.throttleRound.Canonical :=
  (hc.when (·.raise)).modThermal.seq fun h2 => (by split; exacts [h2.set, h2] : Chip.Canonical _).seq fun h3 => .ite h3.throttleTo
    h3.modThermal

theorem Chip.Holds.thermalShutdown {c : Chip} {sensor : Nat} {reading : Int} (hc : c.Canonical) :
    (c.thermalShutdown sensor reading).Canonical :=
  (Chip.Holds.ite hc hc.toSafe.bump.set).raise.emcyFor

theorem Chip.Holds.shutdownRound {c : Chip} (hc : c.Canonical) : c.shutdownRound.Canonical := by
  unfold Chip.shutdownRound
  dsimp only
  split
  · exact .ite hc.modThermal hc.modThermal.thermalShutdown
  · exact hc.modThermal

theorem Chip.Holds.headCurrents {c : Chip} {h : Nat} (hc : c.Canonical) : (c.headCurrents h).Canonical := hc.modHead

theorem Chip.Holds.nvmHoldCheck {c : Chip} (hc : c.Canonical) : c.nvmHoldCheck.Canonical := hc.when (·.nvmEnterHold)

theorem Chip.Holds.calRound {c : Chip} (hc : c.Canonical) : c.calRound.Canonical :=
  (by split; exacts [hc.when (·.calTrigger), hc] : Chip.Canonical _).calStop.refreshCal

theorem Chip.Holds.calInterrupt {c : Chip} (hc : c.Canonical) : c.calInterrupt.Canonical :=
  hc.beside.seq fun h1 => .ite h1 ((h1.foldl (fun h2 => (by split; exacts [.ite h2 h2.cancelStandin, h2] : Chip.Canonical
    _).beside)).beside.calStop)

theorem Chip.Holds.vrefRound {c : Chip} (hc : c.Canonical) : c.vrefRound.Canonical :=
  .ite hc ((hc.beside.set.when (·.raise.emcyFor)).when (·.calInterrupt))

theorem Chip.Holds.hkComplete {sums0 sums1 : List Nat} {mr0 mr1 : Option Nat} {c : Chip} (hc : c.Canonical) :
    (hkComplete sums0 sums1 mr0 mr1 c).Canonical :=
  .ite hc (((hc.hkPublish.foldl (fun h2 =>
    h2.tfpaRound)).sensorRound.limitsRound.shutdownRound.throttleRound.refreshRound.refreshRound.foldl (fun h5 =>
    h5.headCurrents)).vrefRound.calRound.nvmHoldCheck)

theorem Chip.Holds.throttleStepDown {c : Chip} (hc : c.Canonical) : (throttleStepDown c).Canonical := .ite hc hc.throttleTo

theorem Chip.Holds.throttleFloorEnd {j : Nat} {c : Chip} (hc : c.Canonical) : (throttleFloorEnd j c).Canonical :=
  hc.modThermal

theorem Chip.Holds.l4Exit {c : Chip} (hc : c.Canonical) : (l4Exit c).Canonical := by
  unfold Sys2Proof.Machine.l4Exit
  dsimp only
  split
  · exact hc
  · split
    · exact hc.throttleTo
    · split
      · exact hc.throttleTo
      · exact hc.throttleTo.unpark.pixelUp
      · exact hc.throttleTo.pixelUp

theorem Chip.Holds.levelTrip {die : Nat} {v : Int} {c : Chip} (hc : c.Canonical) : (levelTrip die v c).Canonical :=
  .ite hc ((hc.when (·.controllerWakes)).thermalShutdown)

theorem Chip.Holds.urgentLeave {c : Chip} {k : Nat} (hc : c.Canonical) : (c.urgentLeave k).Canonical := hc.modHk

theorem Chip.Holds.urgentComplete {k code : Nat} {c : Chip} (hc : c.Canonical) : (urgentComplete k code c).Canonical := by
  unfold Sys2Proof.Machine.urgentComplete
  split
  · exact hc
  · exact hc.urgentLeave.urgentStatus.setAll

theorem Chip.Holds.urgentMeasured {k code : Nat} {input : Option Int} {c : Chip} (hc : c.Canonical) :
    (urgentMeasured k code input c).Canonical := by
  unfold Sys2Proof.Machine.urgentMeasured
  split
  · exact hc.urgentComplete
  · exact hc.urgentComplete

theorem Chip.Holds.cellExpired {c : Chip} {region b cell code ctx0 ctx1 : Nat} (hc : c.Canonical) :
    (c.cellExpired region b cell code ctx0 ctx1).Canonical :=
  (Chip.Holds.ite hc hc.raise).seq fun h => .ite h h.countCell

theorem Chip.Holds.watchdog {c : Chip} {region b cell code ctx0 ctx1 : Nat} {reset : Chip → Chip} (hc : c.Canonical)
      (hreset : ∀ {a : Chip}, a.Canonical → (reset a).Canonical) :
    (c.watchdog region b cell code ctx0 ctx1 reset).Canonical :=
  .ite hc (.ite hc.cellExpired (hreset hc.cellExpired))

theorem Chip.Holds.hkWatchdog {k : Nat} {c : Chip} (hc : c.Canonical) : (hkWatchdog k c).Canonical :=
  .ite hc <| hc.watchdog fun h => by
    dsimp only
    split
    · exact h.modHk.urgentLeave.urgentStatus
    · exact h.modHk

theorem Chip.Holds.calRunStart {refs : List CalStep} {c : Chip} (hc : c.Canonical) : (calRunStart refs c).Canonical :=
  .ite hc (((by split; exacts [hc.set, hc] : Chip.Canonical _).beside.foldl (fun h3 => h3.when
    (·.bufferStep))).calBanks.refreshCal)

theorem Chip.Holds.converterCalibrated {b : Nat} {t : Trim} {c : Chip} (hc : c.Canonical) :
    (converterCalibrated b t c).Canonical := by
  unfold Sys2Proof.Machine.converterCalibrated
  dsimp only
  split
  · exact hc
  · split
    · exact hc
    · split
      · exact hc.when (·.modBank)
      · exact hc.when (·.newTrim.calCounted.offNode.beside.calNext)

theorem Chip.Holds.calRunComplete {c : Chip} (hc : c.Canonical) : (calRunComplete c).Canonical :=
  hc.when (·.bump.set.beside.refreshCal)

theorem Chip.Holds.countConverters {c : Chip} {b : Nat} {l : List Raw} (hc : c.Canonical) : (c.countConverters b l).Canonical :=
  hc.foldl (fun h => h.bumpBy.bumpBy.bumpBy)

theorem Chip.Holds.enqueue {c : Chip} {s : Nat} {l : Line} (hc : c.Canonical) : (c.enqueue s l).Canonical :=
  hc.modSource.modWork.set

theorem Chip.Holds.headLine {c : Chip} {h row : Nat} {samples : List (List Sample)} {raws : List Raw} {taps : Nat} (hc :
      c.Canonical) :
    (c.headLine h row samples raws taps).Canonical := by
  unfold Chip.headLine
  dsimp only
  split
  · exact hc
  · exact hc.modWork.seq fun h1 => .ite h1 (.ite h1.enqueue h1.modWork.raise)

theorem Chip.Holds.lineEligible {h : Nat} {raws : List (List (Option (BitVec 16)))} {c : Chip} (hc : c.Canonical) :
    (lineEligible h raws c).Canonical :=
  .ite hc ((hc.countConverters.modHead.when (·.modWork.headLine)).when (·.closeWorks))

theorem Chip.Holds.dramFinds {c : Chip} {ch cell : Nat} {corrected uncorrectable : List Nat} (hc : c.Canonical) :
    (c.dramFinds ch cell corrected uncorrectable).Canonical :=
  hc.bumpBy.bumpBy.foldl (fun h2 => h2.raise)

theorem Chip.Holds.dramMeets {c : Chip} {client : Nat} {addrs : List Nat} (hc : c.Canonical) :
    (c.dramMeets client addrs).Canonical :=
  hc.foldl (fun h => h.dramFinds)

theorem Chip.Holds.badRecord {c : Chip} {s id lane idx : Nat} (hc : c.Canonical) : (c.badRecord s id lane idx).Canonical :=
  hc.bump.raise.modWork

theorem Chip.Holds.badAccumulator {c : Chip} (hc : c.Canonical) : c.badAccumulator.Canonical := hc.beside.dramMeets

theorem Chip.Holds.badTemporal {c : Chip} {s id lane idx : Nat} (hc : c.Canonical) : (c.badTemporal s id lane idx).Canonical :=
  hc.bump.raise.modWork

theorem Chip.Holds.thermalLine {c : Chip} {s : Nat} {l : Line} {w : Work} {badRec badState badAcc : List Nat} (hc :
      c.Canonical) :
    (c.thermalLine s l w badRec badState badAcc).Canonical :=
  ((hc.modWork.bumpBy.bumpBy.total.dramMeets.foldl (fun h4 => h4.beside.badRecord)).when (·.foldl (fun h5 =>
    h5.badAccumulator))).when (·.dramMeets.foldl (fun h7 => h7.beside.badTemporal))

theorem Chip.Holds.processLine {c : Chip} {s : Nat} {l : Line} {badRec badState badAcc : List (BitVec 16)} (hc : c.Canonical) :
    (c.processLine s l badRec badState badAcc).Canonical := by
  unfold Chip.processLine
  dsimp only
  split
  · exact .ite hc.thermalLine hc.modWork
  · exact hc

theorem Chip.Holds.lineGrant {r : Nat} {badRec badState badAcc : List (BitVec 16)} {c : Chip} (hc : c.Canonical) :
    (lineGrant r badRec badState badAcc c).Canonical := by
  unfold Sys2Proof.Machine.lineGrant
  dsimp only
  split
  · exact hc
  · split
    · exact hc
    · exact hc.beside.seq fun h => ((Chip.Holds.ite h h.total).when (·.bump)).processLine.modSource

theorem Chip.Holds.dramFixed {c : Chip} {addrs : List (BitVec 40)} (hc : c.Canonical) : (c.dramFixed addrs).Canonical :=
  hc.foldl (fun h => h.when (·.dramFinds))

theorem Chip.Holds.releaseOp {c : Chip} {r : Nat} (hc : c.Canonical) : (c.release r).Canonical := hc.beside

theorem Chip.Holds.lineComplete {r : Nat} {c : Chip} (hc : c.Canonical) : (lineComplete r c).Canonical := by
  unfold Sys2Proof.Machine.lineComplete
  dsimp only
  split
  · exact hc
  · split
    · exact hc.releaseOp
    · exact hc.releaseOp.modSource.modWork.finishAll

theorem Chip.Holds.nucLaneWatchdog {lane : Nat} {c : Chip} (hc : c.Canonical) : (nucLaneWatchdog lane c).Canonical := by
  unfold Sys2Proof.Machine.nucLaneWatchdog
  dsimp only
  split
  · exact hc
  · exact hc.watchdog (fun h1 => h1.bump.seq fun h2 => (Chip.Holds.ite h2 h2.beside).releaseOp)

theorem Chip.Holds.blockResetTimeout {region block : Nat} {c : Chip} (hc : c.Canonical) :
    (blockResetTimeout region block c).Canonical :=
  hc.when (·.schedule)

theorem Chip.Holds.acqHead {c : Chip} {h : Nat} (hc : c.Canonical) : (c.acqHead h).Canonical :=
  hc.when (·.headLostFrame.headOutputsOff.modHead.setAll.solsticeHeadGone.headStopsStandin)

theorem Chip.Holds.csiNumber {c : Chip} {i : Nat} (hc : c.Canonical) : (c.csiNumber i).2.Canonical := hc.takeNumber.setAll

theorem Chip.Holds.csiSubstitute {c : Chip} {i : Nat} (hc : c.Canonical) : (c.csiSubstitute i).Canonical :=
  hc.csiNumber.modSource.beginFrame

theorem Chip.Holds.csiLose {c : Chip} {i : Nat} (hc : c.Canonical) : (c.csiLose i).Canonical :=
  hc.csiClose.set.csiSubstitute

theorem Chip.Holds.acqRestart {c : Chip} (hc : c.Canonical) : c.acqRestart.Canonical :=
  (hc.foldl (fun h1 => h1.acqHead.modBank)).seq fun h1 => .ite ((h1.foldl (fun h2 => .ite h2 h2.set)).foldl (fun h3 => h3.when
    (·.csiLose))) h1

theorem Chip.Holds.clearLines {c : Chip} (hc : c.Canonical) : c.clearLines.Canonical :=
  hc.beside.foldl (fun h2 => h2.modSource)

theorem Chip.Holds.pixRestart {c : Chip} (hc : c.Canonical) : c.pixRestart.Canonical :=
  hc.clearLines.foldl (fun h2 => h2.modSource.finishAll)

theorem Chip.Holds.flashFails {c : Chip} {q : FlashSeq} (hc : c.Canonical) : (c.flashFails q).Canonical := by
  unfold Chip.flashFails
  dsimp only
  split
  · exact hc
  · exact hc.beside.copyStatus
  · exact hc.beside.saveStatus

theorem Chip.Holds.flashFault {c : Chip} {q : FlashSeq} (hc : c.Canonical) : (c.flashFault q).Canonical :=
  hc.beside.bump.set.raise.flashFails

theorem Chip.Holds.memRestart {c : Chip} (hc : c.Canonical) : c.memRestart.Canonical :=
  (by split; exacts [hc.flashFault, hc] : Chip.Canonical _).applyPending.nvmHoldCheck.when (·.elsewhere.foldl (fun h4 => h4.when
    (·.set)))

theorem Chip.Holds.dmaHostRestart {c : Chip} (hc : c.Canonical) : c.dmaHostRestart.Canonical :=
  hc.foldl (fun h => h.when (·.dmaCease))

theorem Chip.Holds.hostRestart {c : Chip} (hc : c.Canonical) : c.hostRestart.Canonical :=
  (Chip.Holds.ite (((hc.foldl (fun h1 => h1.discardJobs)).dmaHostRestart).foldl (fun h2 => h2.mbxRestarted))
    hc).canRestart.applyPending.psirelStart.beside.set

theorem Chip.Holds.hkpRestart {c : Chip} (hc : c.Canonical) : c.hkpRestart.Canonical :=
  (hc.elsewhere.releaseLocks.when (·.foldl (fun h2 => h2.mbxRestarted))).elsewhere

theorem Chip.Holds.restartRegion {c : Chip} {region block why : Nat} (hc : c.Canonical) :
    (c.restartRegion region block why).Canonical :=
  hc.modRegion.set.raise.seq fun h2 => .ite h2.acqRestart (.ite h2.pixRestart (.ite h2.memRestart (.ite h2.hostRestart
    h2.hkpRestart)))

theorem Chip.Holds.countedRestart {c : Chip} {region block : Nat} (hc : c.Canonical) :
    (c.countedRestart region block).Canonical :=
  .ite hc.modRegion.safeState hc.modRegion.restartRegion

theorem Chip.Holds.restartDue {c : Chip} {region : Nat} (hc : c.Canonical) : (c.restartDue region).Canonical := by
  unfold Chip.restartDue
  split
  · exact hc
  · exact .ite hc (.ite hc.modRegion (.ite hc.countedRestart hc.restartRegion))

theorem Chip.Holds.regionRestart {region : Nat} {c : Chip} (hc : c.Canonical) : (regionRestart region c).Canonical :=
  .ite hc ((hc.foldl (fun h => h.restartDue)).restartDue)

theorem Chip.Holds.writeHeld {c : Chip} (hc : c.Canonical) : c.writeHeld.Canonical :=
  hc.beside.set.foldl (fun h2 => h2.nvmWrite)

theorem Chip.Holds.nvmHoldRelease {c : Chip} (hc : c.Canonical) : (nvmHoldRelease c).Canonical :=
  hc.when (·.beside.seq fun h => (Chip.Holds.ite h h.set).writeHeld)

theorem Chip.Holds.restartEnds {c : Chip} {region lanesOk : Nat} (hc : c.Canonical) :
    (c.restartEnds region lanesOk).Canonical :=
  .ite hc.acqResume (.ite (hc.laneTest.seq fun h1 => .ite h1.safeState (h1.when (·.readmit))) (.ite ((hc.foldl (fun h1 => h1.when
    (·.set))).nvmHoldRelease.seq fun h2 => .ite h2 h2.flashNext) (.ite hc hc.elsewhere.calTrigger)))

theorem Chip.Holds.resetEnded {c : Chip} {region : Nat} (hc : c.Canonical) : (c.resetEnded region).Canonical := hc.modRegion

theorem Chip.Holds.regionRestartComplete {region lanesOk : Nat} {c : Chip} (hc : c.Canonical) :
    (regionRestartComplete region lanesOk c).Canonical :=
  .ite hc hc.modRegion.resetEnded.restartEnds.set

theorem Chip.Holds.regionRestartTimeout {region : Nat} {c : Chip} (hc : c.Canonical) :
    (regionRestartTimeout region c).Canonical :=
  .ite (((hc.modRegion.resetEnded.when (·.elsewhere)).safeState).set) hc

theorem Chip.Holds.gnonerWatchdog {c : Chip} (hc : c.Canonical) : (gnonerWatchdog c).Canonical :=
  .ite hc hc.raise.countedRestart

theorem Chip.Holds.loadFree {c : Chip} {l : SetLoad} (hc : c.Canonical) : (c.loadFree l).Canonical :=
  hc.dmaRelease.modDma.set

theorem Chip.Holds.loadMoved {c : Chip} {l : SetLoad} {w h base : Nat} (hc : c.Canonical) :
    (c.loadMoved l w h base).Canonical :=
  (Chip.Holds.ite hc hc.xipRead).dmaProgram.total.modDma.dmaEnd

theorem Chip.Holds.loadDone {c : Chip} {l : SetLoad} {h recs : List Byte} {slot : Option (List Byte)} {base : Nat} (hc :
      c.Canonical) :
    (c.loadDone l h recs slot base).Canonical :=
  hc.putSet.setAll.loadStatus.refreshSets

theorem Chip.Holds.loadImage {c : Chip} {l : SetLoad} {h recs a b : List Byte} (hc : c.Canonical) :
    (c.loadImage l h recs a b).Canonical := by
  unfold Chip.loadImage
  dsimp only
  split
  · exact hc.beside.loadFree.loadFailed
  · split
    · exact hc.beside.loadFree.loadFailed
    · exact .ite hc.dmaProgram.dmaEnd (hc.beside.loadMoved.seq fun h1 => .ite h1.loadFailed h1.loadDone)

theorem Chip.Holds.onionLoadComplete {r : SetImage} {c : Chip} (hc : c.Canonical) : (onionLoadComplete r c).Canonical := by
  unfold Sys2Proof.Machine.onionLoadComplete
  split
  · exact hc
  · split
    · exact hc.dmaEnd
    · exact .ite hc.dmaEnd hc.loadImage.bootLoads

theorem Chip.Holds.seedUsers {c : Chip} {s : Nat} (hc : c.Canonical) : (c.seedUsers s).Canonical :=
  hc.foldl (fun h => h.beside)

theorem Chip.Holds.autosave {c : Chip} {s : Nat} (hc : c.Canonical) : (c.autosave s).Canonical := hc.when (·.wantSave)

theorem Chip.Holds.writeAnchor {c : Chip} {s : Nat} (hc : c.Canonical) : (c.writeAnchor s).Canonical := by
  unfold Chip.writeAnchor
  dsimp only
  split
  · exact hc
  · exact hc.nvmWrite

theorem Chip.Holds.onionPassComplete {s : Nat} {c : Chip} (hc : c.Canonical) : (onionPassComplete s c).Canonical := by
  unfold Sys2Proof.Machine.onionPassComplete
  dsimp only
  split
  · exact hc.beside.putSet.setAll.writeAnchor.autosave.seedUsers.refreshSets
  · exact hc

theorem Chip.Holds.flashError {c : Chip} {q : FlashSeq} (hc : c.Canonical) : (c.flashError q).Canonical :=
  hc.flashFault.flashNext

theorem Chip.Holds.saveFails {c : Chip} {s : Nat} (hc : c.Canonical) : (c.saveFails s).Canonical := by
  unfold Chip.saveFails
  dsimp only
  split
  · exact hc.flashError
  · exact hc.beside.saveStatus.flashNext

theorem Chip.Holds.saveEnds {c : Chip} {s st : Nat} (hc : c.Canonical) : (c.saveEnds s st).Canonical :=
  (hc.beside.saveStatus.when (·.set)).flashNext

theorem Chip.Holds.saveField {c : Chip} {s : Nat} {second : Bool} {d : SetData} (hc : c.Canonical) :
    (c.saveField s second d).Canonical :=
  hc.bumpBy.bumpBy.emit.emit

theorem Chip.Holds.onionSaveComplete {r : SaveResult} {c : Chip} (hc : c.Canonical) : (onionSaveComplete r c).Canonical := by
  unfold Sys2Proof.Machine.onionSaveComplete
  dsimp only
  split
  · exact hc
  · split
    · exact hc
    · split
      · exact hc.saveFails
      · exact hc.saveFails
      · exact .ite hc.saveFails (.ite hc.saveEnds (.ite hc.saveEnds (hc.saveField.seq fun h => .ite h.beside.saveStatus
        h.emit.bump.set.saveEnds)))

theorem Chip.Holds.solsticeCommitComplete {h : Nat} {c : Chip} (hc : c.Canonical) : (solsticeCommitComplete h c).Canonical := by
  unfold Sys2Proof.Machine.solsticeCommitComplete
  dsimp only
  split
  · exact hc
  · split
    · exact hc
    · exact hc.beside.putSet.setAll.nvmWrite.set.writeAnchor.logOnly.setAll.modSol.autosave.refreshSets.solsticeIdle

theorem Chip.Holds.solsticeCloseTimeout {h : Nat} {c : Chip} (hc : c.Canonical) : (solsticeCloseTimeout h c).Canonical :=
  hc.when (·.solsticeAbandon)

theorem Chip.Holds.shutterStuck {h : Nat} {c : Chip} (hc : c.Canonical) : (shutterStuck h c).Canonical := by
  unfold Sys2Proof.Machine.shutterStuck
  dsimp only
  split
  · exact hc.when (·.modEvent.solsticePhase.bump.raise.emcyFor)
  · exact hc

theorem Chip.Holds.shutterReopenRetry {h : Nat} {c : Chip} (hc : c.Canonical) : (shutterReopenRetry h c).Canonical :=
  hc.when (·.solsticeOpen)

theorem Chip.Holds.boostStart {ch : Nat} {c : Chip} (hc : c.Canonical) : (boostStart ch c).Canonical :=
  .ite ((hc.modActBank.modActCh.set.when (·.set)).refreshBanks) hc

theorem Chip.Holds.sensed {c : Chip} {ch : Nat} {l : List Nat} (hc : c.Canonical) : (c.sensed ch l).Canonical := by
  unfold Chip.sensed
  dsimp only
  split
  · exact hc.modActCh.set
  · exact hc.modActCh

theorem Chip.Holds.peakReached {ch current : Nat} {c : Chip} (hc : c.Canonical) : (peakReached ch current c).Canonical :=
  hc.when (·.sensed.modActCh.seq fun h => .ite h.toDecay ((h.when (·.bump)).modActCh.set))

theorem Chip.Holds.boostTimeout {ch : Nat} {c : Chip} (hc : c.Canonical) : (boostTimeout ch c).Canonical :=
  hc.when (·.toDecay)

theorem Chip.Holds.motionDetected {ch current : Nat} {c : Chip} (hc : c.Canonical) : (motionDetected ch current c).Canonical :=
  hc.when (·.sensed.modActCh)

theorem Chip.Holds.holdEnd {ch : Nat} {c : Chip} (hc : c.Canonical) : (holdEnd ch c).Canonical := hc.when (·.toDecay)

theorem Chip.Holds.reportAfter {c : Chip} {ch r : Nat} (hc : c.Canonical) : (c.reportAfter ch r).Canonical :=
  hc.when (·.modActBank)

theorem Chip.Holds.shutterAfter {c : Chip} {ch r : Nat} (hc : c.Canonical) : (c.shutterAfter ch r).Canonical :=
  hc.when (·.set)

theorem Chip.Holds.publish {c : Chip} {ch r : Nat} {highest : Int} (hc : c.Canonical) : (c.publish ch r highest).Canonical :=
  hc.setAll.nvmWrite.shutterAfter.reportAfter.when (·.bump.raise)

theorem Chip.Holds.endNow {c : Chip} {ch r : Nat} (hc : c.Canonical) : (c.endNow ch r).Canonical := hc.beside.publish

theorem Chip.Holds.latchBank {c : Chip} {b ctx : Nat} (hc : c.Canonical) : (c.latchBank b ctx).Canonical :=
  (Chip.Holds.ite (((hc.when (·.beside.endNow)).beside).endNow) (hc.when
    (·.beside.endNow))).discardQueue.modActBank.set.set.refreshBanks.raise.emcyFor.when (·.parkFault)

theorem Chip.Holds.endLatching {c : Chip} {ch r : Nat} (hc : c.Canonical) : (c.endLatching ch r).Canonical :=
  hc.endNow.latchBank

theorem Chip.Holds.holdOvercurrent {ch : Nat} {c : Chip} (hc : c.Canonical) : (holdOvercurrent ch c).Canonical :=
  hc.when (·.endLatching)

theorem Chip.Holds.clampAdd {c : Chip} {e : Nat} (hc : c.Canonical) : (c.clampAdd e).Canonical := hc.beside.clampUpdate

theorem Chip.Holds.decayEnd {ch : Nat} {samples : List (BitVec 32)} {timedOut : Bool} {c : Chip} (hc : c.Canonical) :
    (decayEnd ch samples timedOut c).Canonical :=
  hc.when (·.sensed.modActCh.clampAdd.seq fun h2 => .ite h2.endLatching (.ite h2.endLatching h2.set.refreshBanks))

theorem Chip.Holds.clampExceeded {ch : Nat} {samples : List (BitVec 32)} {c : Chip} (hc : c.Canonical) :
    (clampExceeded ch samples c).Canonical :=
  hc.when (·.sensed.modActCh.clampAdd.endLatching)

theorem Chip.Holds.clampHoldoffEnd {c : Chip} (hc : c.Canonical) : (clampHoldoffEnd c).Canonical :=
  hc.when (·.beside.modActBank.modActBank.refreshBanks)

theorem Chip.Holds.afterOperation {c : Chip} {b r : Nat} (hc : c.Canonical) : (c.afterOperation b r).Canonical :=
  (Chip.Holds.ite hc.parkNext (.ite (.ite hc.parkFault hc.modActBank) hc)).clampHold.refreshBanks

theorem Chip.Holds.operationComplete {ch highest : Nat} {c : Chip} (hc : c.Canonical) :
    (operationComplete ch highest c).Canonical :=
  hc.when (·.publish.afterOperation)

theorem Chip.Holds.switchOvercurrent {ch : Nat} {c : Chip} (hc : c.Canonical) : (switchOvercurrent ch c).Canonical :=
  hc.when (·.endLatching)

theorem Chip.Holds.crossCurrent {ch : Nat} {c : Chip} (hc : c.Canonical) : (crossCurrent ch c).Canonical :=
  .ite (.ite hc.endLatching hc.latchBank) hc

theorem Chip.Holds.offstateTest {c : Chip} (hc : c.Canonical) : (offstateTest c).Canonical :=
  .ite ((hc.when (·.modActBank)).modActBank) (hc.when (·.modActBank))

theorem Chip.Holds.offstateTestEnd {b found : Nat} {c : Chip} (hc : c.Canonical) : (offstateTestEnd b found c).Canonical :=
  hc.when (·.modActBank.set.bumpBy.when (·.latchBank))

theorem Chip.Holds.vsolRecovered {inRange : Bool} {c : Chip} (hc : c.Canonical) : (vsolRecovered inRange c).Canonical :=
  hc.beside.vsolUpdate

theorem Chip.Holds.paletteCopyComplete {p : Nat} {c : Chip} (hc : c.Canonical) : (paletteCopyComplete p c).Canonical := by
  unfold Sys2Proof.Machine.paletteCopyComplete
  dsimp only
  split
  · exact hc
  · exact hc.beside.bump

theorem Chip.Holds.eccLost {c : Chip} {i : Nat} {long : Bool} (hc : c.Canonical) : (c.eccLost i long).Canonical := by
  unfold Chip.eccLost
  dsimp only
  split
  · exact ((Chip.Holds.ite hc.bump.modSource hc.bump)).modWork
  · exact (Chip.Holds.ite hc.bump.modSource hc.bump)

theorem Chip.Holds.headerLost {c : Chip} {k : Nat} {long : Bool} (hc : c.Canonical) : (c.headerLost k long).Canonical := by
  unfold Chip.headerLost
  dsimp only
  split
  · exact (hc.bump.foldl (fun h => h.when (·.modSource)))
  · exact ((hc.bump.foldl (fun h => h.when (·.modSource)))).eccLost
  · exact (((hc.bump.foldl (fun h => h.when (·.modSource)))).beside).eccLost

theorem Chip.Holds.csiPacket {c : Chip} {k : Nat} {hdr : CsiHeader} {long : Bool} {use : Chip → Chip} (hc : c.Canonical)
      (huse : ∀ {a : Chip}, a.Canonical → (use a).Canonical) :
    (c.csiPacket k hdr long use).Canonical := by
  unfold Chip.csiPacket
  dsimp only
  split
  · exact hc
  · split
    · exact huse hc.set
    · exact huse hc.set.bump
    · exact hc.set.headerLost

theorem Chip.Holds.csiOpen {c : Chip} {i marks : Nat} (hc : c.Canonical) : (c.csiOpen i marks).Canonical := by
  unfold Chip.csiOpen
  extract_lets s closed seeded applied passed
  have hpassed : passed.Canonical := (hc.csiClose.when (·.modSource)).set.applyStaged.startPasses
  have hnumber := hpassed.csiNumber (i := i)
  generalize passed.csiNumber i = p at hnumber ⊢
  obtain ⟨w, d⟩ := p
  dsimp only at hnumber ⊢
  exact (Chip.Holds.ite hnumber hnumber.modSource).beginFrame.modSource

theorem Chip.Holds.csiFrameStart {k vc : Nat} {hdr : CsiHeader} {number : Nat} {c : Chip} (hc : c.Canonical) :
    (csiFrameStart k vc hdr number c).Canonical :=
  hc.csiPacket fun h => by
    dsimp only
    split
    · exact h.bump.bump
    · exact (h.bump.when (·.bump)).csiOpen.modSource

theorem Chip.Holds.csiCheck {c : Chip} {k i : Nat} {w : Work} {l : CsiLine} (hc : c.Canonical) :
    (c.csiCheck k i w l).Canonical :=
  (Chip.Holds.ite hc hc.bump.bump.modWork).seq fun h => .ite h ((h.when (·.bump.modWork)).when (·.bump.modWork))

theorem Chip.Holds.csiBeyond {c : Chip} {k i : Nat} {w : Work} {l : CsiLine} (hc : c.Canonical) :
    (c.csiBeyond k i w l).Canonical :=
  hc.csiCheck.seq fun h => (Chip.Holds.ite h h.bump).modSource.modWork

theorem Chip.Holds.csiEnqueue {c : Chip} {i row : Nat} {w : Work} {vals : List Nat} (hc : c.Canonical) :
    (c.csiEnqueue i row w vals).Canonical :=
  .ite (hc.modWork.when (·.enqueue)) (hc.when (·.enqueue))

theorem Chip.Holds.csiTake {c : Chip} {k i row : Nat} {w : Work} {l : CsiLine} (hc : c.Canonical) :
    (c.csiTake k i row w l).Canonical :=
  hc.csiCheck.seq fun h => .ite h h.csiEnqueue

theorem Chip.Holds.csiLine {c : Chip} {k i : Nat} {l : CsiLine} (hc : c.Canonical) : (c.csiLine k i l).Canonical := by
  unfold Chip.csiLine
  dsimp only
  split
  · exact hc
  · exact hc.modSource.seq fun h => .ite h.csiBeyond (.ite h.bump.modWork h.csiTake)

theorem Chip.Holds.csiLong {k vc : Nat} {l : CsiLine} {c : Chip} (hc : c.Canonical) : (csiLong k vc l c).Canonical :=
  hc.csiPacket fun h => by
    refine .ite h (.ite h.bump ?_)
    split
    · exact h.bump
    · exact .ite h.bump (.ite h.csiLine (.ite h.csiOpen.csiLine h.bump))

theorem Chip.Holds.csiFrameEnd {k vc : Nat} {hdr : CsiHeader} {c : Chip} (hc : c.Canonical) :
    (csiFrameEnd k vc hdr c).Canonical :=
  hc.csiPacket (fun h => by split; exacts [h.bump, h.csiClose])

theorem Chip.Holds.csiSourceTimeout {i : Nat} {c : Chip} (hc : c.Canonical) : (csiSourceTimeout i c).Canonical :=
  .ite hc hc.bump.raise.csiLose

theorem Chip.Holds.csiSubstituteFrame {i : Nat} {c : Chip} (hc : c.Canonical) : (csiSubstituteFrame i c).Canonical :=
  hc.when (·.csiSubstitute)

theorem Chip.Holds.csiLaneWatchdog {k lane : Nat} {c : Chip} (hc : c.Canonical) : (csiLaneWatchdog k lane c).Canonical :=
  hc.when (·.watchdog (fun h => h.set))

theorem Chip.Holds.popJob {c : Chip} {n : Nat} (hc : c.Canonical) : (c.popJob n).Canonical := hc.modStream.streamSettle

theorem Chip.Holds.frameWindow {c : Chip} {n : Nat} {j : Job} {s : Nat} (hc : c.Canonical) :
    (c.frameWindow n j s).1.Canonical := by
  unfold Chip.frameWindow
  dsimp only
  split
  · exact hc.modStream.set
  · split
    · split
      · exact hc.modStream.set
      · exact hc.modStream.set
    · exact hc.modStream.set

theorem Chip.Holds.writeback {c : Chip} {n : Nat} {j : Job} {lines slot : Nat} {done : Bool} (hc : c.Canonical) :
    (c.writeback n j lines slot done).Canonical :=
  .ite hc hc.emit

theorem Chip.Holds.putJob {c : Chip} {n : Nat} {j : Job} (hc : c.Canonical) : (c.putJob n j).Canonical := hc.modStream

theorem Chip.Holds.writeLine {c : Chip} {n : Nat} {j : Job} {img : Stored} {slot : Nat} {win : Nat × Nat} (hc : c.Canonical) :
    (c.writeLine n j img slot win).Canonical :=
  (hc.bumpBy.emit.when (·.writeback)).putJob

theorem Chip.Holds.streamLineOutput {n : Nat} {c : Chip} (hc : c.Canonical) : (streamLineOutput n c).Canonical := by
  unfold Sys2Proof.Machine.streamLineOutput
  split
  · exact hc
  · split
    · exact hc
    · refine .ite hc (.ite hc.discardFrame.popJob ?_)
      extract_lets v
      split
      next d w0 w1 h =>
      have hd : d.Canonical := by
        split at h
        · exact Chip.Holds.of_eq hc (congrArg Prod.fst h)
        · split at h
          · exact Chip.Holds.of_eq hc.frameWindow (congrArg Prod.fst h)
          · exact Chip.Holds.of_eq hc (congrArg Prod.fst h)
      split
      · exact hd.writeLine
      · split
        · exact hd.writeLine
        · exact (Chip.Holds.ite hd.bump hd.bump.msix0).modStream.popJob

theorem Chip.Holds.streamFrameComplete {n : Nat} {c : Chip} (hc : c.Canonical) : (streamFrameComplete n c).Canonical := by
  unfold Sys2Proof.Machine.streamFrameComplete
  dsimp only
  split
  · exact hc
  · split
    · exact .ite hc ((((hc.emit.writeback.when (·.msix0)).when (·.msix0)).modStream.setAll.bump.when (·.bump)).popJob)
    · exact hc

theorem Chip.Holds.streamWatchdog {n : Nat} {writer fits : Bool} {c : Chip} (hc : c.Canonical) :
    (streamWatchdog n writer fits c).Canonical :=
  .ite (hc.watchdog (fun h => by split; exacts [h, .ite h (.ite h.putJob h.discardFrame.popJob)])) (hc.watchdog (fun h =>
    by split; exacts [h, .ite h (.ite h.putJob h.discardFrame.popJob)]))

theorem Chip.Holds.alarmKnown {c : Chip} {s number st : Nat} (hc : c.Canonical) : (c.alarmKnown s number st).Canonical :=
  hc.beside

theorem Chip.Holds.queueCopy {c : Chip} {s seq : Nat} (hc : c.Canonical) : (c.queueCopy s seq).Canonical :=
  .ite hc (.ite hc.bump hc.beside)

theorem Chip.Holds.roiObjects {c : Chip} {s : Nat} {r : StatRec} (hc : c.Canonical) : (c.roiObjects s r).Canonical :=
  hc.foldl (fun h => h.setAll)

theorem Chip.Holds.statRecordComplete {s : Nat} {c : Chip} (hc : c.Canonical) : (statRecordComplete s c).Canonical := by
  unfold Sys2Proof.Machine.statRecordComplete
  dsimp only
  split
  · exact hc
  · exact hc.modSource.set.set.alarmKnown.seq fun h2 => (Chip.Holds.ite h2 h2.setAll).bumpBy.roiObjects.queueCopy

theorem Chip.Holds.statCopyStart {ch : Nat} {c : Chip} (hc : c.Canonical) : (statCopyStart ch c).Canonical := by
  unfold Sys2Proof.Machine.statCopyStart
  dsimp only
  split
  · exact hc
  · exact .ite hc (.ite hc.dropCopy.bump hc.dmaBegin.beside)

theorem Chip.Holds.dmaGrantTo {c : Chip} {ch : Nat} {src : List Byte} (hc : c.Canonical) : (c.dmaGrantTo ch src).Canonical :=
  hc.modDma.beside.set.set.total.when (·.set)

theorem Chip.Holds.statCopyComplete {ch status : Nat} {c : Chip} (hc : c.Canonical) :
    (statCopyComplete ch status c).Canonical := by
  unfold Sys2Proof.Machine.statCopyComplete
  split
  · exact hc
  · refine .ite hc ?_
    extract_lets granted st
    have hgranted : granted.Canonical := .ite hc hc.dmaGrantTo
    split
    next n d h =>
    have hd : d.Canonical := by
      split at h
      · exact Chip.Holds.of_eq hgranted (congrArg Prod.snd h)
      · exact Chip.Holds.of_eq hgranted.beside (congrArg Prod.snd h)
    exact hd.copyDone

theorem Chip.Holds.dmaOutstanding {c : Chip} {spaces : List Nat} (hc : c.Holds I) :
    (c.dmaOutstanding spaces).2.Holds I := by
  unfold Chip.dmaOutstanding
  dsimp only
  split
  · exact hc
  · split
    · exact hc.beside.dmaRun
    · exact hc

theorem Chip.Holds.dmaResetSpaces {c : Chip} {spaces : List Nat} {n : Nat} (hc : c.Holds I) :
    (c.dmaResetSpaces spaces n).Holds I :=
  hc.foldl (fun h => h.when (·.dmaEnd))

theorem Chip.Holds.mbxEmptyAll {c : Chip} {chs : List Nat} (hc : c.Holds I) : (c.mbxEmptyAll chs).Holds I :=
  hc.foldl (fun h => h.mbxEmpty)

theorem Chip.Holds.hostResets {c : Chip} {n : Nat} (hc : c.Holds I) : (c.hostResets n).Holds I :=
  hc.modPcie.stopHostWork.releaseLocks.releaseLocks.mbxEmptyAll.dmaResetSpaces

theorem Chip.Holds.perstAssert {c : Chip} (hc : c.Canonical) : (perstAssert c).Canonical :=
  .ite hc ((hc.elsewhere.when (·.bump.dmaOutstanding.linkTo.hostResets)).when (·.elsewhere.when (·.pixelLost)))

theorem Chip.Holds.perstDeassert {c : Chip} (hc : c.Canonical) : (perstDeassert c).Canonical :=
  .ite hc (hc.elsewhere.modPcie.seq fun h1 => .ite h1.linkTo (h1.when (·.elsewhere.seq fun h2 => .ite h2.wake (.ite h2.elsewhere
    h2.pixelUp))))

theorem Chip.Holds.hotReset {c : Chip} (hc : c.Canonical) : (hotReset c).Canonical :=
  hc.when (·.bump.dmaOutstanding.linkTo.hostResets)

theorem Chip.Holds.flrF0 {c : Chip} (hc : c.Canonical) : (flrF0 c).Canonical :=
  hc.when (·.bump.dmaOutstanding.modPcie.stopHostWork.releaseLocks.mbxEmptyAll.dmaResetSpaces)

theorem Chip.Holds.flrF1 {c : Chip} (hc : c.Canonical) : (flrF1 c).Canonical :=
  hc.when (·.bump.dmaOutstanding.modPcie.releaseLocks.mbxEmptyAll.dmaResetSpaces)

theorem Chip.Holds.linkDown {c : Chip} (hc : c.Canonical) : (linkDown c).Canonical :=
  hc.when (·.linkTo.releaseLocks.releaseLocks)

theorem Chip.Holds.flush1 {c : Chip} (hc : c.Canonical) : c.flush1.Canonical :=
  hc.foldl (fun h => h.when (·.modPcie.emit))

theorem Chip.Holds.flush0 {c : Chip} (hc : c.Canonical) : c.flush0.Canonical :=
  hc.foldl (fun h => h.when (·.modPcie.emit))

theorem Chip.Holds.linkPower {c : Chip} {p : LinkPower} (hc : c.Canonical) : (c.linkPower p).Canonical :=
  .ite hc (hc.set.when (·.flush0.flush1))

theorem Chip.Holds.pcieConfigWrite {w : CfgWrite} {c : Chip} (hc : c.Canonical) : (pcieConfigWrite w c).Canonical := by
  unfold Sys2Proof.Machine.pcieConfigWrite
  split
  · exact hc
  · split
    · exact .ite (hc.when (·.modPcie.flush1)) hc.modPcie.flush0
    · exact .ite (hc.when (·.modPcie.flush1)) hc.modPcie.flush0
    · exact hc.modPcie
    · exact hc.modPcie.linkPower
    · exact hc.modPcie
    · exact hc.modPcie

theorem Chip.Holds.busMasterDisable {c : Chip} (hc : c.Canonical) : (busMasterDisable c).Canonical := hc.pcieConfigWrite

theorem Chip.Holds.pmeTurnOff {c : Chip} (hc : c.Canonical) : (pmeTurnOff c).Canonical := hc.when (·.set.modPcie)

theorem Chip.Holds.aerUncorrectable {c : Chip} {b : Nat} (hc : c.Canonical) : (c.aerUncorrectable b).Canonical :=
  hc.when (·.modPcie.bump)

theorem Chip.Holds.poisonedWrite {c : Chip} (hc : c.Canonical) : c.poisonedWrite.Canonical := hc.bump.aerUncorrectable

theorem Chip.Holds.bar2Access {off : Nat} {acc : Bar2} {c : Chip} (hc : c.Canonical) : (bar2Access off acc c).Canonical := by
  unfold Sys2Proof.Machine.bar2Access
  dsimp only
  split
  · exact hc
  · split
    · exact (hc.when (·.bump)).dramRead.dramMeets.seq fun h3 => (Chip.Holds.ite h3 h3.bump).emit
    · exact .ite hc.poisonedWrite ((hc.when (·.bump)).dmaPut)

theorem Chip.Holds.aerCorrectable {c : Chip} {b : Nat} (hc : c.Canonical) : (c.aerCorrectable b).Canonical :=
  hc.when (·.modPcie.bump)

theorem Chip.Holds.pcieError {e : PcieError} {c : Chip} (hc : c.Canonical) : (pcieError e c).Canonical := by
  unfold Sys2Proof.Machine.pcieError
  split
  · exact hc
  · split
    · exact hc.aerCorrectable
    · exact hc.aerUncorrectable
    · exact hc.poisonedWrite
    · exact hc.bump

theorem Chip.Holds.canCalibrate {c : Chip} {bitTime : Nat} (hc : c.Canonical) : (c.canCalibrate bitTime).Canonical :=
  .ite hc (.ite hc.modCan.canStatus hc.modCan)

theorem Chip.Holds.canReceivedWell {c : Chip} (hc : c.Canonical) : c.canReceivedWell.Canonical := hc.modCan.canStatus

theorem Chip.Holds.nmtEnter {c : Chip} {st : Int} (hc : c.Canonical) : (c.nmtEnter st).Canonical := hc.when (·.set)

theorem Chip.Holds.reloadComm {c : Chip} (hc : c.Canonical) : c.reloadComm.Canonical :=
  (hc.foldl (fun h => h.set)).setAll.formNodeDefaults

theorem Chip.Holds.imageFound {c : Chip} {found : List NvmFind} (hc : c.Canonical) : (c.imageFound found).Canonical :=
  hc.nvmFound

theorem Chip.Holds.resetCommunication {c : Chip} {found : List NvmFind} (hc : c.Canonical) :
    (c.resetCommunication found).Canonical :=
  hc.imageFound.set.applyPending.reloadComm.canRestart.releaseLocks.canBootUp

theorem Chip.Holds.nmtResetNode {c : Chip} {found : List NvmFind} (hc : c.Canonical) : (nmtResetNode c found).Canonical :=
  hc.when (·.resetCommunication.when fun _ => chipReset)

theorem Chip.Holds.nmtResetCommunication {c : Chip} {found : List NvmFind} (hc : c.Canonical) :
    (nmtResetCommunication c found).Canonical :=
  hc.when (·.resetCommunication)

theorem Chip.Holds.nmtFrame {c : Chip} {data : List Byte} (hc : c.Canonical) : (c.nmtFrame data).Canonical := by
  unfold Chip.nmtFrame
  dsimp only
  split
  · exact hc
  · split
    · exact hc.nmtEnter
    · exact hc.nmtEnter
    · exact hc.nmtEnter
    · exact hc.nmtResetNode
    · exact hc.nmtResetCommunication
    · exact hc

theorem Chip.Holds.slotWrite {c : Chip} {m : Master} {key : Nat} {v : Slot} (hc : c.Canonical) :
    (c.slotWrite m key v).1.Canonical := by
  unfold Chip.slotWrite
  split
  · exact hc
  · split
    · exact hc
    · exact hc.writeValue

theorem Chip.Holds.pdoWrite {c : Chip} {key w v : Nat} (hc : c.Canonical) : (c.pdoWrite key w v).Canonical := by
  unfold Chip.pdoWrite
  split
  · exact hc
  · next r _ =>
    refine .ite hc ?_
    have hr := hc.slotWrite (m := .can) (key := key) (v := if r.signed then slotOf (sx v w) else BitVec.ofNat 64 v)
    generalize c.slotWrite .can key _ = p at hr ⊢
    match p, hr with
    | (_, none), h => exact h
    | (_, some _), h => exact h.noteAbort.bump

theorem Chip.Holds.rpdoReceived {n : Nat} {data : List Byte} {c : Chip} (hc : c.Canonical) :
    (rpdoReceived n data c).Canonical :=
  .ite hc (.ite hc.bump (.ite hc.bump.set (hc.foldl (fun h => h.pdoWrite))))

theorem Chip.Holds.canFrameReceived {f : CanFrame} {c : Chip} (hc : c.Canonical) : (canFrameReceived f c).Canonical :=
  .ite hc (hc.canReceivedWell.canCalibrate.seq fun h1 => .ite h1 (.ite h1.nmtFrame (h1.foldl (fun h2 => h2.when
    (·.rpdoReceived)))))

theorem Chip.Holds.usdoRefuse {c : Chip} {key : Nat} {code : Abort} (hc : c.Canonical) : (c.usdoRefuse key code).Canonical :=
  hc.noteAbort.canTransmit

theorem Chip.Holds.usdoSession {c : Chip} {u : Option Usdo} (hc : c.Canonical) : (c.usdoSession u).Canonical := hc.beside

theorem Chip.Holds.domainWrite {c : Chip} {m : Master} {key : Nat} {l : List Byte} (hc : c.Canonical) :
    (c.domainWrite m key l).1.Canonical := by
  unfold Chip.domainWrite
  split
  · exact hc
  · split
    · exact hc
    · split
      · exact hc
      · split
        · split
          · exact hc
          · split
            · exact hc
            · exact hc.putDomain
        · split
          · split
            · exact hc
            · exact hc.putDomain
          · exact hc

theorem Chip.Holds.download {c : Chip} {key : Nat} {l : List Byte} (hc : c.Canonical) : (c.download key l).1.Canonical := by
  unfold Chip.download
  split
  · exact hc
  · split
    · exact hc.domainWrite
    · exact hc.writeValue

theorem Chip.Holds.usdoAnswer {c : Chip} {bytes : List Byte} {last : Bool} (hc : c.Canonical) :
    (c.usdoAnswer bytes last).Canonical :=
  hc.canTransmit

theorem Chip.Holds.downloadNow {c : Chip} {key : Nat} {l : List Byte} (hc : c.Canonical) :
    (c.downloadNow key l).Canonical := by
  unfold Chip.downloadNow
  dsimp only
  split
  · exact hc.download.usdoAnswer
  · exact hc.download.usdoRefuse

theorem Chip.Holds.upload {c : Chip} {key : Nat} (hc : c.Canonical) : Okay (·.2.Canonical) (c.upload key) := by
  unfold Chip.upload
  split
  · exact .ite (Okay.map (P := fun _ => True) (Okay.always fun _ => trivial) fun _ => hc) (hc.slotRead.map fun h => h)
  · exact hc.slotRead.map fun h => h

theorem Chip.Holds.uploadSubs {c : Chip} {l : List Nat} (hc : c.Canonical) : Okay (·.2.Canonical) (c.uploadSubs l) := by
  induction l generalizing c with
  | nil => exact hc
  | cons key l ih =>
    unfold Chip.uploadSubs
    have hr := hc.upload (key := key)
    generalize c.upload key = r at hr ⊢
    match r, hr with
    | .ok _, h => exact (ih h).map fun h => h
    | .error _, _ => trivial

theorem Chip.Holds.uploadAll {c : Chip} {whole : Bool} {key : Nat} (hc : c.Canonical) :
    Okay (·.2.Canonical) (c.uploadAll whole key) :=
  .ite hc.upload (.ite trivial hc.uploadSubs)

theorem Chip.Holds.logFound {c : Chip} {found : List NvmFind} (hc : c.Canonical) : (c.logFound found).Canonical :=
  .ite hc hc.nvmFound.setAll

theorem Chip.Holds.uploadNext {c : Chip} {key : Nat} {l : List Byte} (hc : c.Canonical) : (c.uploadNext key l).Canonical :=
  .ite hc.usdoSession.usdoAnswer hc.usdoSession.usdoAnswer

theorem Chip.Holds.usdoInitiate {r : UsdoRequest} {c : Chip} {found : List NvmFind} (hc : c.Canonical) :
    (usdoInitiate r c found).Canonical := by
  refine .ite hc ?_
  have hended : Chip.Canonical (match c.can.usdo with
      | some u => (c.usdoSession none).usdoRefuse u.key Abort.localControl
      | none => c) := by
    split
    exacts [hc.usdoSession.usdoRefuse, hc]
  refine hended.seq fun h => .ite h.usdoRefuse (.ite h.usdoRefuse (.ite ?download ?upload))
  case download =>
    split
    exacts [h.usdoRefuse, .ite h.downloadNow (.ite h.usdoRefuse h.usdoSession.usdoAnswer)]
  case upload =>
    have hr := (h.when (p := keyOf r.idx r.sub / 256 = K.nvmLog / 256) (·.logFound (found := found))).uploadAll
      (whole := r.whole) (key := keyOf r.idx r.sub)
    generalize Chip.uploadAll _ r.whole (keyOf r.idx r.sub) = x at hr ⊢
    match x, hr with
    | .ok _, h => exact h.uploadNext
    | .error _, _ => exact h.usdoRefuse

theorem Chip.Holds.usdoSegment {r : UsdoSegment} {c : Chip} (hc : c.Canonical) : (usdoSegment r c).Canonical := by
  unfold Sys2Proof.Machine.usdoSegment
  dsimp only
  split
  · exact hc
  · exact .ite hc (.ite hc.usdoSession.usdoRefuse (.ite hc.uploadNext (.ite hc.usdoSession.usdoRefuse (.ite
    hc.usdoSession.downloadNow hc.usdoSession.usdoAnswer))))

theorem Chip.Holds.usdoTimeout {c : Chip} (hc : c.Canonical) : (usdoTimeout c).Canonical := by
  unfold Sys2Proof.Machine.usdoTimeout
  split
  · exact hc
  · exact hc.usdoSession.bump

theorem Chip.Holds.tpdoEventTimer {n : Nat} {c : Chip} (hc : c.Canonical) : (tpdoEventTimer n c).Canonical :=
  hc.when (·.tpdoEvent)

theorem Chip.Holds.tpdoInhibitEnd {n : Nat} {c : Chip} (hc : c.Canonical) : (tpdoInhibitEnd n c).Canonical :=
  hc.modCan.seq fun h => .ite (.ite h.bump (.ite h h.tpdoSend)) h

theorem Chip.Holds.emcyInhibitEnd {c : Chip} (hc : c.Canonical) : (emcyInhibitEnd c).Canonical := by
  unfold Sys2Proof.Machine.emcyInhibitEnd
  dsimp only
  split
  · exact hc
  · split
    · exact hc.modCan
    · exact hc.modCan.modCan.emcyTransmit

theorem Chip.Holds.heartbeat {c : Chip} (hc : c.Canonical) : (heartbeat c).Canonical := hc.when (·.canSend)

theorem Chip.Holds.setTime {c : Chip} {t : Nat} (hc : c.Canonical) : (c.setTime t).Canonical := hc.elsewhere

theorem Chip.Holds.psirelMarkSend {c : Chip} (hc : c.Canonical) : (psirelMarkSend c).Canonical :=
  .ite hc ((by split; exacts [hc, hc.beside.setTime] : Chip.Canonical _).when (·.emit))

theorem Chip.Holds.psiSteer {c : Chip} {e : Int} (hc : c.Canonical) : (c.psiSteer e).Canonical := hc.beside.set

theorem Chip.Holds.psiStep {c : Chip} {e : Int} (hc : c.Canonical) : (c.psiStep e).Canonical := hc.setTime.bump

theorem Chip.Holds.takeMark {c : Chip} {mk : PsiMark} (hc : c.Canonical) : (c.takeMark mk).Canonical :=
  hc.setAll.beside.seq fun h2 => .ite (h2.beside.psiSteer.when (·.psiState)) (.ite (.ite h2.psiStep.beside.psiState h2.psiSteer)
    (h2.beside.seq fun h3 => (Chip.Holds.ite h3.psiStep h3.psiSteer).psiState))

theorem Chip.Holds.forwardMark {c : Chip} {mk : PsiMark} (hc : c.Canonical) : (c.forwardMark mk).Canonical :=
  .ite hc hc.set.emit

theorem Chip.Holds.psirelMarkReceived {mk : PsiMark} {c : Chip} (hc : c.Canonical) : (psirelMarkReceived mk c).Canonical :=
  .ite hc ((hc.beside.when (·.set)).seq fun h2 => (Chip.Holds.ite h2.set.psiState (.ite h2.beside.psiState (.ite h2.takeMark
    h2.beside.bump))).forwardMark)

theorem Chip.Holds.psirelHoldover {c : Chip} (hc : c.Canonical) : (psirelHoldover c).Canonical := hc.when (·.bump.psiState)

theorem Chip.Holds.psirelReturnMeasure {r : PsiReturn} {c : Chip} (hc : c.Canonical) : (psirelReturnMeasure r c).Canonical := by
  unfold Sys2Proof.Machine.psirelReturnMeasure
  dsimp only
  split
  · exact hc
  · split
    · exact hc.set
    · split
      · exact hc.beside.set
      · exact hc.beside.set.seq fun h => .ite h h.raise
      · exact hc.beside.set.seq fun h => .ite h h.raise

theorem Chip.Holds.psirelCableDelayPublish {c : Chip} (hc : c.Canonical) : (psirelCableDelayPublish c).Canonical :=
  .ite hc hc.set

theorem Chip.Holds.psirelPeriodicTrigger {c : Chip} (hc : c.Canonical) : (psirelPeriodicTrigger c).Canonical :=
  hc.when (·.sendTrigger)

theorem Chip.Holds.psirelTriggerReceived {t : PsiTrigger} {c : Chip} (hc : c.Canonical) :
    (psirelTriggerReceived t c).Canonical :=
  .ite hc (hc.beside.emit.when (·.acceptTrigger))

theorem Chip.Holds.psirelInputInvalid {violations : Nat} {c : Chip} (hc : c.Canonical) :
    (psirelInputInvalid violations c).Canonical :=
  .ite hc (hc.bumpBy.when (·.beside))

theorem Chip.Holds.mbxTimeout {ch : Nat} {d2h : Bool} {c : Chip} (hc : c.Canonical) : (mbxTimeout ch d2h c).Canonical :=
  .ite hc (.ite (hc.when (·.modMbx.bump)) (hc.when (·.modMbx.mbxFlag.bump.mbxIrq)))

theorem Chip.Holds.mbxTake {ch : Nat} {c : Chip} (hc : c.Canonical) : (mbxTake ch c).Canonical :=
  hc.when (·.set.modMbx.mbxIrq)

theorem Chip.Holds.mbxD2hSend {ch : Nat} {c : Chip} (hc : c.Canonical) : (mbxD2hSend ch c).Canonical := by
  unfold Sys2Proof.Machine.mbxD2hSend
  dsimp only
  split
  · exact hc
  · split
    · exact hc
    · exact .ite hc ((hc.foldl (fun h => h.set)).modMbx.set.bump.mbxIrq.when (·.wakeCause))

theorem Chip.Holds.mbxChannelWatchdog {ch : Nat} {c : Chip} (hc : c.Canonical) : (mbxChannelWatchdog ch c).Canonical :=
  hc.when (·.watchdog (fun h => h.mbxRestarted))

theorem Chip.Holds.mbxObjectRead {ch : Nat} {w : List Nat} {c : Chip} (hc : c.Canonical) :
    (mbxObjectRead ch w c).2.Canonical := by
  unfold Sys2Proof.Machine.mbxObjectRead
  dsimp only
  have hr := hc.slotRead (m := mbxMaster ch) (key := requestKey (at' w 1))
  generalize c.slotRead _ _ = r at hr ⊢
  match r, hr with
  | .ok _, h => exact h
  | .error _, _ => exact hc.noteAbort

theorem Chip.Holds.mbxObjectWrite {ch : Nat} {w : List Nat} {c : Chip} (hc : c.Canonical) :
    (mbxObjectWrite ch w c).2.Canonical := by
  unfold Sys2Proof.Machine.mbxObjectWrite
  dsimp only
  have hr := hc.slotWrite (m := mbxMaster ch) (key := requestKey (at' w 1)) (v := BitVec.ofNat 64 (at' w 2 + at' w 3 * 2 ^ 32))
  generalize c.slotWrite _ _ _ = p at hr ⊢
  match p, hr with
  | (_, none), h => exact h
  | (_, some _), h => exact h.noteAbort

theorem Chip.Holds.slotRun {c : Chip} {m : Master} {key n : Nat} (hc : c.Canonical) :
    Okay (·.2.Canonical) (c.slotRun m key n) := by
  induction n generalizing c key with
  | zero => exact hc
  | succ n ih =>
    unfold Chip.slotRun
    have hr := hc.slotRead (m := m) (key := key)
    generalize c.slotRead m key = r at hr ⊢
    match r, hr with
    | .error _, _ => trivial
    | .ok (_, d), h =>
      have hs := ih (key := key + 1) h
      dsimp only
      generalize d.slotRun m (key + 1) n = s at hs ⊢
      match s, hs with
      | .error _, _ => trivial
      | .ok _, h => exact h

theorem Chip.Holds.mbxObjectReadMulti {ch : Nat} {w : List Nat} {c : Chip} (hc : c.Canonical) :
    (mbxObjectReadMulti ch w c).2.Canonical := by
  unfold Sys2Proof.Machine.mbxObjectReadMulti
  extract_lets key n m r
  have hr : Okay (·.2.Canonical) r := .ite trivial (.ite trivial hc.slotRun)
  generalize r = r at hr ⊢
  match r, hr with
  | .ok _, h => exact h
  | .error _, _ => exact hc.noteAbort

theorem Chip.Holds.mbxEcho {w : List Nat} {c : Chip} (hc : c.Canonical) : (mbxEcho w c).2.Canonical := hc

theorem Chip.Holds.fwSlotStatus {_w : List Nat} {c : Chip} (hc : c.Canonical) : (fwSlotStatus _w c).2.Canonical := hc

theorem Chip.Holds.dmaRequestAssert {req : Nat} {c : Chip} (hc : c.Canonical) : (dmaRequestAssert req c).Canonical :=
  .ite hc (hc.beside.foldl (fun h2 => h2.modDma.when (·.set)))

theorem Chip.Holds.dmaRequestWithdraw {req : Nat} {c : Chip} (hc : c.Canonical) : (dmaRequestWithdraw req c).Canonical :=
  .ite hc (hc.beside.foldl (fun h2 => .ite (h2.modDma.bump.when (·.set)) (by split; exacts [h2.when (·.beside.modDma.bump), h2])))

theorem Chip.Holds.dmaUnitEnds {c : Chip} {g : Grant} (hc : c.Canonical) : (c.dmaUnitEnds g).Canonical := by
  refine .ite hc.dmaRelease.modDma.set ?_
  have hr := hc.dmaRun (ch := g.ch) (src := g.src) (bytes := (c.dmaDesc g.ch).unitLength * (c.dmaDesc g.ch).elem)
  generalize c.dmaRun _ _ _ = r at hr ⊢
  match r, hr with
  | (_, some _, _), h => exact (h.when (·.bump)).dmaEnd
  | (_, none, _), h => exact h.dmaRelease.modDma.set

theorem Chip.Holds.dmaGrant {src : List Byte} {c : Chip} (hc : c.Canonical) : (dmaGrant src c).Canonical :=
  .ite hc ((by split; exacts [.ite hc hc.dmaUnitEnds, hc] : Chip.Canonical _).seq fun h => .ite h
    (by split; exacts [h.dmaGrantTo, h]))

theorem Chip.Holds.dmaComplete {c : Chip} (hc : c.Canonical) : (dmaComplete c).Canonical := by
  unfold Sys2Proof.Machine.dmaComplete
  dsimp only
  split
  · exact hc.when (·.dmaStop)
  · exact hc

theorem Chip.Holds.dmaBeatError {bytes st : Nat} {dst : Bool} {c : Chip} (hc : c.Canonical) :
    (dmaBeatError bytes st dst c).Canonical := by
  unfold Sys2Proof.Machine.dmaBeatError
  dsimp only
  split
  · exact hc.when (·.dmaStop.when (·.dramMeets))
  · exact hc

theorem Chip.Holds.dmaTimeout {bytes : Nat} {dst : Bool} {c : Chip} (hc : c.Canonical) :
    (dmaTimeout bytes dst c).Canonical := by
  unfold Sys2Proof.Machine.dmaTimeout
  dsimp only
  split
  · exact .ite hc (hc.dmaStop.when (·.cellExpired))
  · exact hc

theorem Chip.Holds.modSps {c : Chip} {f : Sps → Sps} (hc : c.Canonical) : (c.modSps f).Canonical := hc.beside

theorem Chip.Holds.spsFrameStart {c : Chip} (hc : c.Canonical) : (spsFrameStart c).Canonical :=
  hc.beside.when (·.emit.modSps.set)

theorem Chip.Holds.spsAnswer {c : Chip} {r : SpRequest} {status : Nat} {rest : List Byte} (hc : c.Canonical) :
    (c.spsAnswer r status rest).Canonical :=
  .ite hc hc.modSps

theorem Chip.Holds.spsRefuse {c : Chip} {r : SpRequest} {code : Abort} {rest : List Byte} (hc : c.Canonical) :
    (c.spsRefuse r code rest).Canonical :=
  hc.noteAbort.spsAnswer

theorem Chip.Holds.afterRoleWrite {c : Chip} (hc : c.Canonical) : c.afterRoleWrite.Canonical := hc.when (·.portBecomes)

theorem Chip.Holds.spsExecute {c : Chip} {r : SpRequest} (hc : c.Canonical) : (c.spsExecute r).Canonical := by
  unfold Chip.spsExecute
  dsimp only
  have hkept := hc.modSps (f := fun (p : Sps) => { p with reply := none, request := some r })
  generalize c.modSps _ = d at hkept ⊢
  refine .ite hkept.spsRefuse (.ite ?_ hkept)
  have hr := hkept.slotWrite (m := .sp) (key := r.key) (v := BitVec.ofNat 64 (fieldAt r.data 0 8))
  generalize d.slotWrite _ _ _ = p at hr ⊢
  match p, hr with
  | (_, none), h => exact h.spsAnswer.afterRoleWrite
  | (_, some _), h => exact h.spsRefuse

theorem Chip.Holds.spsFramed {c : Chip} {r : SpRequest} (hc : c.Canonical) : (c.spsFramed r).Canonical :=
  .ite hc.modSps (.ite hc.modSps ((hc.when (·.modSps.bump)).modSps.bump.seq fun h2 => .ite h2 h2.spsExecute))

theorem Chip.Holds.spsFrameEnd {bytes : List Byte} {c : Chip} (hc : c.Canonical) : (spsFrameEnd bytes c).Canonical := by
  unfold Sys2Proof.Machine.spsFrameEnd
  dsimp only
  split
  · exact hc.beside.portBecomes
  · split
    · split
      · exact hc.beside.set.modSps.bump
      · exact hc.beside.set.spsFramed
    · exact hc.beside

theorem Chip.Holds.spsCarryOut {op : Nat} {f : SpRequest → Chip → Chip} {c : Chip} (hf : ∀ {a : SpRequest} {b : Chip},
      b.Canonical → (f a b).Canonical) (hc : c.Canonical) :
    (spsCarryOut op f c).Canonical := by
  unfold Sys2Proof.Machine.spsCarryOut
  split
  · exact hc
  · exact .ite (hf hc) hc

theorem Chip.Holds.spsReadSlot {r : SpRequest} {c : Chip} (hc : c.Canonical) : (spsReadSlot r c).Canonical := by
  unfold Sys2Proof.Machine.spsReadSlot
  have hr := hc.slotRead (m := .sp) (key := r.key)
  generalize c.slotRead _ _ = x at hr ⊢
  match x, hr with
  | .ok _, h => exact h.spsAnswer
  | .error _, _ => exact hc.spsRefuse

theorem Chip.Holds.spsWriteSlot {r : SpRequest} {c : Chip} (hc : c.Canonical) : (spsWriteSlot r c).Canonical := by
  unfold Sys2Proof.Machine.spsWriteSlot
  have hr := hc.slotWrite (m := .sp) (key := r.key) (v := BitVec.ofNat 64 (fieldAt r.data 0 8))
  generalize c.slotWrite _ _ _ = p at hr ⊢
  match p, hr with
  | (_, none), h => exact h.spsAnswer
  | (_, some _), h => exact h.spsRefuse

theorem Chip.Holds.spsReadSlots {r : SpRequest} {c : Chip} (hc : c.Canonical) : (spsReadSlots r c).Canonical := by
  unfold Sys2Proof.Machine.spsReadSlots
  dsimp only
  split
  · exact hc.spsRefuse
  · split
    · exact hc.spsRefuse
    · split
      · exact hc.spsRefuse
      · split
        · exact hc.spsRefuse
        · split
          · exact hc.spsAnswer
          · exact hc.spsRefuse

theorem Chip.Holds.spsDomainRead {found : List NvmFind} {r : SpRequest} {c : Chip} (hc : c.Canonical) :
    (spsDomainRead found r c).Canonical := by
  unfold Sys2Proof.Machine.spsDomainRead
  dsimp only
  split
  · exact ((hc.when (·.logFound))).spsRefuse
  · split
    · exact ((hc.when (·.logFound))).spsRefuse
    · exact ((hc.when (·.logFound))).spsAnswer

theorem Chip.Holds.spsDomainWrite {r : SpRequest} {c : Chip} (hc : c.Canonical) : (spsDomainWrite r c).Canonical := by
  unfold Sys2Proof.Machine.spsDomainWrite
  dsimp only
  split
  · exact hc.spsRefuse
  · split
    · exact hc.spsRefuse
    · split
      · exact hc.modSps.spsAnswer
      · split
        · exact hc.spsRefuse
        · exact .ite hc.modSps.spsAnswer hc.spsRefuse

theorem Chip.Holds.spsDomainEnd {r : SpRequest} {c : Chip} (hc : c.Canonical) : (spsDomainEnd r c).Canonical := by
  unfold Sys2Proof.Machine.spsDomainEnd
  split
  · exact hc.spsRefuse
  · next key l _ =>
    refine .ite hc.spsRefuse (.ite hc.modSps.spsRefuse ?_)
    have hr := (hc.modSps (f := fun (p : Sps) => { p with transfer := none })).domainWrite (m := .sp) (key := key) (l := l)
    generalize Chip.domainWrite _ _ _ _ = p at hr ⊢
    match p, hr with
    | (_, none), h => exact h.spsAnswer
    | (_, some _), h => exact h.spsRefuse

theorem Chip.Holds.spsReplyReady {c : Chip} (hc : c.Canonical) : (spsReplyReady c).Canonical := by
  unfold Sys2Proof.Machine.spsReplyReady
  split
  · exact hc
  · exact hc.modSps

theorem Chip.Holds.programByte {c : Chip} {off : Nat} {b : Byte} (hc : c.Canonical) : (c.programByte off b).Canonical := by
  unfold Chip.programByte
  dsimp only
  split
  · exact .ite hc.beside hc.flushPage.beside
  · exact hc.beside

theorem Chip.Holds.programBytes {c : Chip} {off : Nat} {l : List Byte} (hc : c.Canonical) :
    (c.programBytes off l).Canonical := by
  induction l generalizing c off with
  | nil => exact hc
  | cons b bs ih => exact ih hc.programByte

theorem Chip.Holds.xipProgramWrite {off : Nat} {data : List Byte} {c : Chip} (hc : c.Canonical) :
    (xipProgramWrite off data c).Canonical :=
  hc.when (·.programBytes)

theorem Chip.Holds.spmStatusPoll {status : Nat} {c : Chip} (hc : c.Canonical) : (spmStatusPoll status c).Canonical := by
  unfold Sys2Proof.Machine.spmStatusPoll
  dsimp only
  split
  · exact hc
  · split
    · exact hc.emit.set.flashError
    · split
      · split
        · exact hc.emit.set.beside.set
        · exact hc.emit.set.beside.set.flashNext
      · exact hc.emit.set

theorem Chip.Holds.spmSequenceTimeout {c : Chip} (hc : c.Canonical) : (spmSequenceTimeout c).Canonical := by
  unfold Sys2Proof.Machine.spmSequenceTimeout
  split
  · exact hc
  · exact hc.flashError

theorem Chip.Holds.spmCopyComplete {result : Nat} {c : Chip} (hc : c.Canonical) : (spmCopyComplete result c).Canonical := by
  unfold Sys2Proof.Machine.spmCopyComplete
  dsimp only
  split
  · exact hc
  · exact .ite hc.beside.copyStatus (hc.when (·.beside.dramMeets.copyStatus))

theorem Chip.Holds.dramScrubPass {ch : Nat} {corrected uncorrectable : List (BitVec 40)} {link : Nat} {c : Chip} (hc :
      c.Canonical) :
    (dramScrubPass ch corrected uncorrectable link c).Canonical :=
  .ite ((hc.when (·.bumpBy)).dramFinds.bump) hc

theorem Chip.Holds.nvmWriteWatchdog {c : Chip} (hc : c.Canonical) : (nvmWriteWatchdog c).Canonical :=
  .ite hc hc.nvmAgain.cellExpired

theorem Chip.Holds.pcieLinkUp {speed width : Nat} {power : LinkPower} {c : Chip} (hc : c.Canonical) :
    (pcieLinkUp speed width power c).Canonical :=
  .ite hc.linkPower (hc.when (·.setAll.modPcie.flush0.flush1))

theorem Chip.Holds.msixUnmask {f1 : Bool} {vec : Nat} {c : Chip} (hc : c.Canonical) : (msixUnmask f1 vec c).Canonical :=
  .ite hc (.ite (hc.when (·.modPcie.flush1)) hc.modPcie.flush0)

theorem Chip.Holds.canErrorDetected {tx : Bool} {weight : Nat} {c : Chip} (hc : c.Canonical) :
    (canErrorDetected tx weight c).Canonical :=
  .ite hc ((hc.modCan.when (·.modCan.bump)).canStatus.when (·.emcyBare))

theorem Chip.Holds.canBusOffRecovery {c : Chip} (hc : c.Canonical) : (canBusOffRecovery c).Canonical :=
  hc.when (·.modCan.canStatus.emcyBare)

theorem Chip.Holds.csiSotError {k : Nat} {c : Chip} (hc : c.Canonical) : (csiSotError k c).Canonical := hc.when (·.bump.set)

theorem Chip.Holds.csiDeskew {k : Nat} {c : Chip} (hc : c.Canonical) : (csiDeskew k c).Canonical := hc.when (·.bump.set)

theorem Chip.Holds.psirelInInverted {c : Chip} (hc : c.Canonical) : (psirelInInverted c).Canonical := hc.when (·.set)

theorem Chip.Holds.hkPartEnd {k : Nat} {c : Chip} (hc : c.Canonical) : (hkPartEnd k c).Canonical := hc.hkJudge.modHk

theorem Chip.Holds.bankResetEnded {c : Chip} {b : Nat} (hc : c.Canonical) : (c.bankResetEnded b).Canonical := hc.modBank

theorem Chip.Holds.dmaBlockReset {c : Chip} (hc : c.Canonical) : c.dmaBlockReset.Canonical := by
  unfold Chip.dmaBlockReset
  split
  · exact hc.modDma
  · exact hc

theorem Chip.Holds.rewriteFrames {c : Chip} {fits : Nat} (hc : c.Canonical) : (c.rewriteFrames fits).Canonical :=
  hc.foldl (fun h => by split; exacts [h, .ite h (.ite h.putJob h.discardFrame.popJob)])

theorem Chip.Holds.blockResetComplete {region block fits : Nat} {c : Chip} (hc : c.Canonical) :
    (blockResetComplete region block fits c).Canonical :=
  .ite hc (hc.modBlock.resetEnded.seq fun h => .ite h.bankResetEnded (.ite h.dmaBlockReset (h.when (·.rewriteFrames))))

theorem Chip.Holds.cellResetComplete {region block cell : Nat} {c : Chip} (hc : c.Canonical) :
    (cellResetComplete region block cell c).Canonical :=
  .ite hc.beside (hc.when (·.converterResetEnd))

end

end Sys2Proof.Machine
end

section
/-! Every command, and with it every step, keeps the stores canonical. -/

namespace Sys2Proof.Machine

/-- What a command leaves has canonical stores. -/
def LeavesCanonical (r : Res) : Prop := ∀ t, r = .next t → t.chip.Canonical

theorem LeavesCanonical.of_run {r : Res} {s : State} {f : Chip → Chip} (hr : r = run s f) (hs : s.chip.Canonical)
    (hf : (f s.chip.fresh).Canonical) : LeavesCanonical r := by
  intro t ht
  rw [hr] at ht
  cases ht
  exact hs.settle hf

/-- Every meaning keeps the stores canonical, as its operations do. -/
theorem exec_leavesCanonical (i : Instr) {s : State} (h : s.chip.Canonical) : LeavesCanonical (exec i s) :=
  have hc : s.chip.fresh.Canonical := h.beside
  match i with
  | .internalPorRelease _ => .of_run rfl h hc.release
  | .sysRst => .of_run rfl h hc.sysRst
  | .railTripCrossing _ _ => .of_run rfl h hc.railCrossing
  | .railFault _ _ => .of_run rfl h hc.railFaultOp
  | .frontDieResetHoldEnd _ => .of_run rfl h hc.holdEnds
  | .pixelDieRetry => .of_run rfl h hc.pixelDieRetry
  | .pixSupplyTimeout _ => .of_run rfl h hc.pixSupplyTimeout
  | .gnonerStart _ _ => .of_run rfl h hc.gnonerStart
  | .gnonerStartTimeout => .of_run rfl h hc.gnonerTimeout
  | .gnonerReady _ _ _ => .of_run rfl h hc.gnonerReady
  | .dramTrainingComplete _ _ _ => .of_run rfl h hc.dramTrained
  | .dramInitComplete _ => .of_run rfl h hc.dramInit
  | .chipReset _ _ => .of_run rfl h (hc.command fun _ => Chip.Holds.chipResetWrite)
  | .modeRequestRun _ => .of_run rfl h (hc.command fun h => h.modeRequest)
  | .modeRequestStandby _ => .of_run rfl h (hc.command fun h => h.modeRequest)
  | .modeRequestDeepStandby _ => .of_run rfl h (hc.command fun h => h.modeRequest)
  | .standbyReached => .of_run rfl h hc.standbyReached
  | .mcWakeComplete => .of_run rfl h hc.mcWakeComplete
  | .spsWake => .of_run rfl h hc.spsWake
  | .clkTick => .of_run rfl h hc.clkTick
  | .timeBaseCompare => .of_run rfl h hc.timeBaseCompare
  | .backupOscTrim _ => .of_run rfl h hc.backupTrim
  | .refclkMonitorWindow _ => .of_run rfl h hc.monitorWindow
  | .clkPixDividerSwitch => .of_run rfl h hc.dividerSwitch
  | .dieLinkAlignmentLost => .of_run rfl h hc.dieLinkLost
  | .objectWrite _ _ _ _ _ _ => .of_run rfl h hc.objectWrites
  | .stageHoldWrite _ _ => .of_run rfl h (hc.slotCommand fun h => h.stageHold)
  | .halfWriteLow _ _ _ _ => .of_run rfl h hc.objectWrite
  | .halfWriteExpiry _ => .of_run rfl h hc.halfWriteExpiry
  | .halfReadLow _ _ _ _ => .of_run rfl h hc.halfReadLow
  | .halfReadLatchExpiry _ => .of_run rfl h hc.halfReadLatchExpiry
  | .lockRead _ _ _ => .of_run rfl h hc.lockReads
  | .lockWrite _ _ _ => .of_run rfl h (hc.command fun h => h.lockWrite)
  | .lockForce _ _ => .of_run rfl h (hc.command fun h => h.lockForce)
  | .store _ _ _ => .of_run rfl h (hc.command fun h => h.storeOp)
  | .restore _ _ _ => .of_run rfl h (hc.command fun h => h.restoreOp)
  | .storeComplete => .of_run rfl h hc.storeComplete
  | .regionReset _ _ => .of_run rfl h (hc.command fun h => h.regionReset)
  | .errqAck _ _ _ => .of_run rfl h (hc.command fun h => h.errqAck)
  | .headRunRequest _ _ => .of_run rfl h (hc.command2 fun h => h.headRunRequest)
  | .headStopRequest _ _ => .of_run rfl h (hc.command fun h => .ok h.headStopRequest)
  | .headLastFrameEnd _ => .of_run rfl h hc.headLastFrameEnd
  | .headStopComplete _ => .of_run rfl h hc.headStopComplete
  | .headSupplySettled _ => .of_run rfl h hc.headSupplySettled
  | .headBiasSettled _ => .of_run rfl h hc.headBiasSettled
  | .cfgRequest _ _ _ => .of_run rfl h (hc.command fun h => h.cfgRequest)
  | .cfgTransactionStart _ => .of_run rfl h hc.cfgTransactionStart
  | .cfgTransactionComplete _ _ => .of_run rfl h hc.cfgTransactionComplete
  | .cfgScriptWaitEnd _ => .of_run rfl h hc.cfgScriptWaitEnd
  | .cfgCheckFailure _ => .of_run rfl h hc.cfgCheckFailure
  | .headFrameStart _ => .of_run rfl h hc.headFrameStart
  | .leapLine _ _ _ _ => .of_run rfl h hc.leapLine
  | .blankingStart _ => .of_run rfl h hc.blankingStart
  | .headVerificationEnd _ => .of_run rfl h hc.headVerificationEnd
  | .tapRailShort _ _ => .of_run rfl h hc.tapRailShort
  | .headSupplyOvercurrent _ _ => .of_run rfl h hc.headSupplyOvercurrent
  | .headSupplyUndercurrent _ => .of_run rfl h hc.headSupplyUndercurrent
  | .biasOvercurrent _ _ _ => .of_run rfl h hc.biasOvercurrent
  | .biasOpen _ _ => .of_run rfl h hc.biasOpen
  | .headRetry _ => .of_run rfl h hc.headRetry
  | .triggerDelivery _ => .of_run rfl h hc.triggerDelivery
  | .triggerTimeout _ => .of_run rfl h hc.triggerTimeout
  | .converterWatchdog _ _ => .of_run rfl h hc.converterWatchdog
  | .converterResetEnd _ _ => .of_run rfl h hc.converterResetEnd
  | .hkRoundTrigger => .of_run rfl h hc.hkTrigger
  | .hkRoundComplete _ _ _ _ _ => .of_run rfl h hc.hkComplete
  | .throttleStepDown => .of_run rfl h hc.throttleStepDown
  | .throttleFloorEnd _ => .of_run rfl h hc.throttleFloorEnd
  | .l4Exit => .of_run rfl h hc.l4Exit
  | .levelTrip _ _ => .of_run rfl h hc.levelTrip
  | .hkUrgentRequest _ _ => .of_run rfl h (hc.command fun h => h.urgentRequest)
  | .hkUrgentComplete _ _ _ => .of_run rfl h hc.urgentMeasured
  | .hkConverterWatchdog _ => .of_run rfl h hc.hkWatchdog
  | .calCommand _ => .of_run rfl h (hc.command fun h => .ok h.calTrigger)
  | .calRunStart _ _ => .of_run rfl h hc.calRunStart
  | .converterCalibrationComplete _ _ _ _ _ => .of_run rfl h hc.converterCalibrated
  | .calRunComplete => .of_run rfl h hc.calRunComplete
  | .calRevert _ _ => .of_run rfl h (hc.command fun h => h.calRevert)
  | .lineEligible _ _ => .of_run rfl h hc.lineEligible
  | .lineGrant _ _ _ _ _ => .of_run (exec_lineGrant ..) h hc.dramFixed.lineGrant
  | .lineComplete _ => .of_run rfl h hc.lineComplete
  | .nucLaneWatchdog _ => .of_run rfl h hc.nucLaneWatchdog
  | .blockResetTimeout _ _ => .of_run rfl h hc.blockResetTimeout
  | .regionRestart _ => .of_run rfl h hc.regionRestart
  | .regionRestartComplete _ _ => .of_run rfl h hc.regionRestartComplete
  | .regionRestartTimeout _ => .of_run rfl h hc.regionRestartTimeout
  | .gnonerWatchdog => .of_run rfl h hc.gnonerWatchdog
  | .onionLoad _ _ => .of_run rfl h (hc.command fun h => h.onionLoad)
  | .onionLoadComplete _ => .of_run rfl h hc.onionLoadComplete
  | .onionPassComplete _ => .of_run rfl h hc.onionPassComplete
  | .onionRevert _ _ => .of_run rfl h (hc.command fun h => h.onionRevert)
  | .onionSave _ _ => .of_run rfl h (hc.command fun h => h.onionSave)
  | .onionSaveComplete _ => .of_run rfl h hc.onionSaveComplete
  | .onionEvict _ _ => .of_run rfl h (hc.command fun h => h.onionEvict)
  | .solsticeRequest _ _ => .of_run rfl h (hc.command fun h => h.solsticeCommand)
  | .solsticeAbandonCommand _ _ => .of_run rfl h (hc.command fun h => h.solsticeWithdraw)
  | .solsticeCommitComplete _ => .of_run rfl h hc.solsticeCommitComplete
  | .solsticeCloseTimeout _ => .of_run rfl h hc.solsticeCloseTimeout
  | .shutterStuck _ => .of_run rfl h hc.shutterStuck
  | .shutterReopenRetry _ => .of_run rfl h hc.shutterReopenRetry
  | .chEnergise _ _ => .of_run rfl h (hc.command fun h => h.chEnergise)
  | .chRelease _ _ => .of_run rfl h (hc.command fun h => h.chRelease)
  | .shutterClose _ _ => .of_run rfl h (hc.command fun h => h.shutterCommand)
  | .shutterOpen _ _ => .of_run rfl h (hc.command fun h => h.shutterCommand)
  | .bankRunStart _ _ => .of_run rfl h (hc.command fun h => h.bankRunStart)
  | .bankStop _ _ => .of_run rfl h (hc.command fun h => h.bankStop)
  | .bankFaultClear _ _ => .of_run rfl h (hc.command fun h => h.bankFaultClear)
  | .boostStart _ => .of_run rfl h hc.boostStart
  | .peakReached _ _ => .of_run (exec_peakReached ..) h hc.peakReached.refreshBanks
  | .boostTimeout _ => .of_run rfl h hc.boostTimeout
  | .motionDetected _ _ => .of_run rfl h hc.motionDetected
  | .holdEnd _ => .of_run rfl h hc.holdEnd
  | .holdOvercurrent _ => .of_run rfl h hc.holdOvercurrent
  | .decayEnd _ _ => .of_run rfl h hc.decayEnd
  | .decayTimeout _ _ => .of_run rfl h hc.decayEnd
  | .clampEnergyExceeded _ _ => .of_run rfl h hc.clampExceeded
  | .clampHoldoffEnd => .of_run rfl h hc.clampHoldoffEnd
  | .operationComplete _ _ => .of_run rfl h hc.operationComplete
  | .switchOvercurrent _ => .of_run rfl h hc.switchOvercurrent
  | .crossCurrent _ => .of_run rfl h hc.crossCurrent
  | .offstateTest => .of_run rfl h hc.offstateTest
  | .offstateTestEnd _ _ => .of_run rfl h hc.offstateTestEnd
  | .vsolReversed => .of_run (exec_vsolReversed ..) h hc.beside.vsolUpdate
  | .vsolRecovered _ => .of_run rfl h hc.vsolRecovered
  | .parkComplete => .of_run rfl h (hc.when (·.beside.refreshBanks))
  | .tnrReseed _ _ => .of_run rfl h (hc.command fun h => h.tnrReseed)
  | .paletteLoad _ _ => .of_run rfl h (hc.command fun h => h.paletteWrite)
  | .paletteCopyComplete _ => .of_run rfl h hc.paletteCopyComplete
  | .srcRunRequest _ _ => .of_run rfl h (hc.command2 fun h => h.srcRunOne)
  | .srcStop _ _ => .of_run rfl h (hc.command fun h => .ok h.srcStop)
  | .rxRunStart _ _ => .of_run rfl h (hc.command fun h => .ok h.rxRunStart)
  | .rxStop _ _ => .of_run rfl h (hc.command fun h => h.rxStop)
  | .csiFrameStartPacket _ _ _ _ => .of_run rfl h hc.csiFrameStart
  | .csiLongPacket _ _ _ => .of_run rfl h hc.csiLong
  | .csiFrameEndPacket _ _ _ => .of_run rfl h hc.csiFrameEnd
  | .csiSourceTimeout _ => .of_run rfl h hc.csiSourceTimeout
  | .csiSubstituteFrame _ => .of_run rfl h hc.csiSubstituteFrame
  | .csiLaneWatchdog _ _ => .of_run rfl h hc.csiLaneWatchdog
  | .streamStart _ _ => .of_run rfl h (hc.command2 fun h => h.streamRunOne)
  | .streamStop _ _ => .of_run rfl h (hc.command fun h => .ok h.streamStop)
  | .streamLineOutput _ => .of_run rfl h hc.streamLineOutput
  | .streamFrameComplete _ => .of_run rfl h hc.streamFrameComplete
  | .streamWatchdog _ _ _ => .of_run rfl h hc.streamWatchdog
  | .statRecordComplete _ => .of_run rfl h hc.statRecordComplete
  | .statHostCopyStart _ => .of_run rfl h hc.statCopyStart
  | .statHostCopyComplete _ _ => .of_run rfl h hc.statCopyComplete
  | .perstAssert => .of_run rfl h hc.perstAssert
  | .perstDeassert => .of_run rfl h hc.perstDeassert
  | .hotReset => .of_run rfl h hc.hotReset
  | .flrF0 => .of_run rfl h hc.flrF0
  | .flrF1 => .of_run rfl h hc.flrF1
  | .linkDown => .of_run rfl h hc.linkDown
  | .busMasterDisable => .of_run rfl h hc.busMasterDisable
  | .pmeTurnOff => .of_run rfl h hc.pmeTurnOff
  | .pcieEventAck _ _ => .of_run rfl h (hc.command fun h => .ok h.pcieEventAck)
  | .bar2Access _ _ _ => .of_run (exec_bar2Access ..) h hc.dramFixed.bar2Access
  | .pcieErrorReceived _ => .of_run rfl h hc.pcieError
  | .canFrameReceived _ => .of_run rfl h hc.canFrameReceived
  | .canWake => .of_run rfl h hc.wake
  | .nmtStartRemote => .of_run rfl h hc.nmtEnter
  | .nmtStopRemote => .of_run rfl h hc.nmtEnter
  | .nmtEnterPreOperational => .of_run rfl h hc.nmtEnter
  | .nmtResetCommunication _ => .of_run rfl h hc.nmtResetCommunication
  | .nmtResetNode _ => .of_run rfl h hc.nmtResetNode
  | .usdoInitiate _ _ => .of_run (exec_usdoInitiate ..) h hc.usdoInitiate
  | .usdoSegment _ => .of_run rfl h hc.usdoSegment
  | .usdoTimeout => .of_run rfl h hc.usdoTimeout
  | .rpdoReceived _ _ => .of_run rfl h hc.rpdoReceived
  | .tpdoEventTimer _ => .of_run rfl h hc.tpdoEventTimer
  | .tpdoInhibitEnd _ => .of_run rfl h hc.tpdoInhibitEnd
  | .emcyInhibitEnd => .of_run rfl h hc.emcyInhibitEnd
  | .heartbeat => .of_run rfl h hc.heartbeat
  | .canTrigger _ _ => .of_run rfl h (hc.command fun h => h.canTrigger)
  | .psirelMarkSend => .of_run rfl h hc.psirelMarkSend
  | .psirelMarkReceived _ => .of_run rfl h hc.psirelMarkReceived
  | .psirelHoldover => .of_run rfl h hc.psirelHoldover
  | .psirelReturnMeasure _ => .of_run rfl h hc.psirelReturnMeasure
  | .psirelCableDelayPublish => .of_run rfl h hc.psirelCableDelayPublish
  | .psirelTrigger _ _ => .of_run rfl h (hc.command fun h => h.psirelTrigger)
  | .psirelPeriodicTrigger => .of_run rfl h hc.psirelPeriodicTrigger
  | .psirelTriggerReceived _ => .of_run rfl h hc.psirelTriggerReceived
  | .psirelTimeSet _ _ => .of_run rfl h (hc.command fun h => h.psirelTimeSet)
  | .psirelTimeAdjust _ _ => .of_run rfl h (hc.command fun h => h.psirelTimeAdjust)
  | .psirelWake _ _ => .of_run rfl h (hc.command fun h => h.psirelWake)
  | .psirelWakeDetect => .of_run rfl h hc.wake
  | .psirelInputInvalid _ => .of_run rfl h hc.psirelInputInvalid
  | .mbxSend _ _ => .of_run rfl h (hc.command fun h => h.mbxSend)
  | .mbxRecall _ _ => .of_run rfl h (hc.command fun h => h.mbxRecall)
  | .mbxD2hRelease _ _ => .of_run rfl h (hc.command fun h => h.mbxD2hRelease)
  | .mbxIrqAck _ _ _ => .of_run rfl h (hc.command fun h => h.mbxIrqAck)
  | .mbxTimeout _ _ => .of_run rfl h hc.mbxTimeout
  | .mbxTake _ => .of_run rfl h hc.mbxTake
  | .mbxD2hSend _ => .of_run rfl h hc.mbxD2hSend
  | .mbxChannelWatchdog _ => .of_run rfl h hc.mbxChannelWatchdog
  | .mbxObjectRead _ => .of_run rfl h (hc.mbxServe fun h => h.mbxObjectRead)
  | .mbxObjectWrite _ => .of_run rfl h (hc.mbxServe fun h => h.mbxObjectWrite)
  | .mbxObjectReadMulti _ => .of_run rfl h (hc.mbxServe fun h => h.mbxObjectReadMulti)
  | .mbxEcho _ => .of_run rfl h (hc.mbxServe fun h => h.mbxEcho)
  | .fwImageWrite _ _ => .of_run rfl h hc.serveSlot
  | .fwCommit _ _ => .of_run rfl h hc.serveSlot
  | .fwSlotStatus _ => .of_run rfl h (hc.mbxServe fun h => h.fwSlotStatus)
  | .dmaStart _ _ => .of_run rfl h (hc.command fun h => h.dmaStart)
  | .dmaAbort _ _ => .of_run rfl h (hc.command fun h => h.dmaAbort)
  | .dmaRequestAssert _ => .of_run rfl h hc.dmaRequestAssert
  | .dmaRequestWithdraw _ => .of_run rfl h hc.dmaRequestWithdraw
  | .dmaGrant _ _ => .of_run (exec_dmaGrant ..) h hc.dramFixed.dmaGrant
  | .dmaComplete _ => .of_run (exec_dmaComplete ..) h hc.dramFixed.dmaComplete
  | .dmaBeatError _ _ _ => .of_run rfl h hc.dmaBeatError
  | .dmaTimeout _ _ => .of_run rfl h hc.dmaTimeout
  | .spRoleWrite _ _ => .of_run rfl h (hc.command fun h => .guardNot h.spRole)
  | .spsFrameStart => .of_run rfl h hc.spsFrameStart
  | .spsFrameEnd _ => .of_run rfl h hc.spsFrameEnd
  | .spsNop => .of_run rfl h hc
  | .spsReadSlot => .of_run rfl h (hc.spsCarryOut fun h => h.spsReadSlot)
  | .spsWriteSlot => .of_run rfl h (hc.spsCarryOut fun h => h.spsWriteSlot)
  | .spsReadSlots => .of_run rfl h (hc.spsCarryOut fun h => h.spsReadSlots)
  | .spsDomainRead _ => .of_run rfl h (hc.spsCarryOut fun h => h.spsDomainRead)
  | .spsDomainWrite => .of_run rfl h (hc.spsCarryOut fun h => h.spsDomainWrite)
  | .spsDomainEnd => .of_run rfl h (hc.spsCarryOut fun h => h.spsDomainEnd)
  | .spsReplyReady => .of_run rfl h hc.spsReplyReady
  | .xipRead _ _ => .of_run rfl h hc.xipRead
  | .xipProgramWrite _ _ => .of_run rfl h hc.xipProgramWrite
  | .pageBufferTimeout => .of_run rfl h hc.flushPage
  | .spmFlush _ => .of_run rfl h (hc.command fun h => h.spmFlush)
  | .spmErase _ _ => .of_run rfl h (hc.command fun h => h.spmErase)
  | .spmStatusPoll _ _ => .of_run (exec_spmStatusPoll ..) h hc.dramFixed.spmStatusPoll
  | .spmSequenceTimeout => .of_run rfl h hc.spmSequenceTimeout
  | .spmCopyStart _ => .of_run rfl h (hc.command fun h => h.spmCopyStart)
  | .spmCopyComplete _ => .of_run rfl h hc.spmCopyComplete
  | .dramScrubPass _ _ _ _ => .of_run rfl h hc.dramScrubPass
  | .nvmWriteWatchdog => .of_run rfl h hc.nvmWriteWatchdog
  | .nvmHoldRelease => .of_run rfl h hc.nvmHoldRelease
  | .pcieLinkUp _ _ _ => .of_run rfl h hc.pcieLinkUp
  | .pcieConfigWrite _ => .of_run rfl h hc.pcieConfigWrite
  | .msixVectorUnmask _ _ => .of_run rfl h hc.msixUnmask
  | .canErrorDetected _ _ => .of_run rfl h hc.canErrorDetected
  | .canBusOffRecovery => .of_run rfl h hc.canBusOffRecovery
  | .csiSotError _ => .of_run rfl h hc.csiSotError
  | .csiDeskewSequence _ => .of_run rfl h hc.csiDeskew
  | .psirelInInverted => .of_run rfl h hc.psirelInInverted
  | .hkConverterRoundEnd _ => .of_run rfl h hc.hkPartEnd
  | .blockResetComplete _ _ _ => .of_run rfl h hc.blockResetComplete
  | .cellResetComplete _ _ _ => .of_run rfl h hc.cellResetComplete

theorem step_canonical {s t : State} (hs : s.chip.Canonical) (h : step s = .next t) : t.chip.Canonical := by
  cases hp : s.pending with
  | nil =>
    rw [step_empty hp] at h
    cases h
    exact hs.elsewhere
  | cons i rest =>
    rw [step_cons hp] at h
    exact exec_leavesCanonical i (s := { s with pending := rest }) hs t h

theorem Chip.canonical_iff {c : Chip} : c.Canonical ↔ c.storesCanonical := Iff.rfl

/-- Settles O57: every operation keeps the stores canonical, so every command and every step does. -/
theorem storesStayCanonical : Obligations.StoresStayCanonical := by
  unfold Obligations.StoresStayCanonical
  refine ⟨fun s t hs h => ?_, ⟨rfl, rfl⟩, fun c h => ?_⟩
  · exact Chip.canonical_iff.1 (step_canonical (Chip.canonical_iff.2 hs) h)
  · have hc := Chip.canonical_iff.2 h
    exact ⟨fun _ _ => Chip.canonical_iff.1 hc.set, fun _ => Chip.canonical_iff.1 hc.setAll,
      fun _ _ => Chip.canonical_iff.1 hc.dramWrite, fun _ => Chip.canonical_iff.1 hc.dropSet⟩

end Sys2Proof.Machine
end

section
/-! SUPPORT. Effects of commands whose work is known on the part as a command finds it. -/

namespace Sys2Proof.Machine

/-- A command whose work on the part that it finds is known. -/
theorem effect_of_eq {i : Instr} {s : State} {f : Chip → Chip} {c d : Chip} (h : exec i s = run s f) (hf : f s.chip.fresh = d)
    (hd : d.agrees c) : Effect i s c :=
  effect_of_run h (by subst hf; exact hd)

/-- The same, where the work leaves exactly the part of the statement. -/
theorem effect_eq {i : Instr} {s : State} {f : Chip → Chip} {c : Chip} (h : exec i s = run s f) (hf : f s.chip.fresh = c) :
    Effect i s c :=
  effect_of_eq h hf c.agrees_refl

/-- A command that leaves the part as it is. -/
theorem effect_none {i : Instr} {s : State} {f : Chip → Chip} (h : exec i s = run s f) (hf : f s.chip.fresh = s.chip.fresh) :
    Effect i s s.chip :=
  effect_of_eq h hf (Chip.agrees_out _ _)

/-- A command whose work is known leaves what the settled part has. -/
theorem leaves_of_eq {i : Instr} {s : State} {f : Chip → Chip} {d : Chip} {P : Chip → Prop} (h : exec i s = run s f)
    (hf : f s.chip.fresh = d) (hp : P (settle s.chip d)) : Leaves i s P :=
  leaves_of_run h (by subst hf; exact hp)

/-! ### Work that neither reads nor sends messages -/

/-- A part with other messages sent. -/
def Chip.sending (c : Chip) (l : List OutMsg) : Chip := { c with out := l }

theorem Chip.agrees_sending (c : Chip) (l : List OutMsg) : (c.sending l).agrees c := Chip.agrees_out c l

/-- Work that neither reads nor sends messages. -/
def Silent (f : Chip → Chip) : Prop := ∀ (c : Chip) (l : List OutMsg), f (c.sending l) = (f c).sending l

/-- Such work does the same on the part with the messages of the command before. -/
theorem effect_of_silent {i : Instr} {s : State} {f : Chip → Chip} {c : Chip} (h : exec i s = run s f) (hs : Silent f)
    (hf : f s.chip = c) : Effect i s c :=
  effect_of_eq h (hs s.chip []) (hf ▸ Chip.agrees_sending _ _)

theorem Silent.id : Silent fun c => c := fun _ _ => rfl

theorem Silent.ite {p : Chip → Prop} [∀ c, Decidable (p c)] {f g : Chip → Chip}
    (hp : ∀ (c : Chip) (l : List OutMsg), p (c.sending l) = p c) (hf : Silent f) (hg : Silent g) :
    Silent fun c => if p c then f c else g c := by
  intro c l
  have hc := hp c l
  dsimp only
  by_cases h : p c
  · rw [if_pos (hc.mpr h), if_pos h, hf]
  · rw [if_neg (fun h' => h (hc.mp h')), if_neg h, hg]

theorem Silent.comp {f g : Chip → Chip} (hg : Silent g) (hf : Silent f) : Silent fun c => g (f c) := by
  intro c l
  dsimp only
  rw [hf, hg]

theorem Chip.set_silent (k : Nat) (v : Int) : Silent (·.set k v) := fun _ _ => rfl

theorem Chip.setAll_silent (l : List (Nat × Int)) : Silent (·.setAll l) := by
  induction l with
  | nil => exact .id
  | cons e l ih => exact .comp ih (Chip.set_silent e.1 e.2)

theorem Chip.setTrips_silent : Silent Chip.setTrips := fun _ _ => rfl

theorem Chip.nvmHold_silent (w : NvmWrite) : Silent (·.nvmHold w) := by
  intro c l
  unfold Chip.nvmHold Chip.sending
  dsimp only
  split
  · rfl
  · cases w with
    | count num n => dsimp only; split <;> rfl
    | _ => rfl

theorem Chip.nvmEnterHold_silent : Silent Chip.nvmEnterHold :=
  .ite (fun _ _ => rfl) .id (.ite (fun _ _ => rfl) (fun _ _ => rfl) fun _ _ => rfl)

theorem Chip.nvmApply_silent (w : NvmWrite) : Silent (·.nvmApply w) := by cases w <;> exact fun _ _ => rfl

theorem Chip.nvmWrite_silent (w : NvmWrite) : Silent (·.nvmWrite w) :=
  .ite (fun _ _ => rfl) (.comp (Chip.nvmHold_silent w) Chip.nvmEnterHold_silent)
    (.ite (fun _ _ => rfl) (fun _ _ => rfl) (Chip.nvmApply_silent w))

end Sys2Proof.Machine
end

section
/-! The start-up commands (R455 to R457). -/

namespace Sys2Proof.Machine

/-- What the straps set. -/
def strapObjects (straps : Nat) : List (Nat × Int) :=
  let role := bits straps 4 4
  [(K.straps, straps), (K.spRole, role), (K.spsState, role), (K.spmState, if role = 0 then 1 else 0)]

/-- A part whose boot ROM begins to verify. -/
def Chip.verifies (c : Chip) : Chip :=
  { c with pins := { c.pins with sysRstLow := false }, boot := { c.boot with phase := .verifying } }

/-- A part that has sampled its straps and begins to verify. -/
def Chip.strapsSampled (c : Chip) (straps : Nat) : Chip := (c.verifies.setAll (strapObjects straps)).setTrips

section
variable {c : Chip} {straps : Nat}

theorem release_held (hphase : c.boot.phase = .held) (hrails : c.frontRailsIn = true) :
    release straps c =
      if c.boot.cause = 1 then (c.strapsSampled straps).nvmWrite (.count 0 1) else c.strapsSampled straps := by
  rw [release, if_neg (by simp [hphase, hrails])]
  rfl

theorem holdEnds_low (h : c.pins.sysRstLow = true) : holdEnds straps c = c := if_pos h

theorem holdEnds_high (h : c.pins.sysRstLow = false) : holdEnds straps c = release straps c := if_neg (by simp [h])

theorem gnonerTimeout_again (hphase : c.boot.phase = .starting) (h : c.boot.failures < 2) :
    gnonerTimeout c = { c with boot := { c.boot with failures := c.boot.failures + 1 } } := by
  rw [gnonerTimeout, if_neg (by simp [hphase])]
  exact if_pos (by omega)

theorem gnonerTimeout_otherSlot (hphase : c.boot.phase = .starting) (h : 2 ≤ c.boot.failures) (hfell : c.boot.fellFrom = none)
    (hother : c.boot.verified.getD (1 - c.boot.slot) false = true) :
    gnonerTimeout c =
      { c with boot := { c.boot with failures := 0, fellFrom := some c.boot.slot, slot := 1 - c.boot.slot } } := by
  rw [gnonerTimeout, if_neg (by simp [hphase])]
  dsimp only
  rw [if_neg (by omega), if_pos (by simpa [hfell, at'] using hother)]

theorem gnonerTimeout_dead (hphase : c.boot.phase = .starting) (h : 2 ≤ c.boot.failures)
    (hnone : c.boot.fellFrom.isSome = true ∨ c.boot.verified.getD (1 - c.boot.slot) false = false) :
    gnonerTimeout c = c.bootDead := by
  rw [gnonerTimeout, if_neg (by simp [hphase])]
  dsimp only
  rw [if_neg (by omega), if_neg]
  rcases hnone with h | h
  · simp [Option.isSome_iff_ne_none.1 h]
  · simp only [at', h, Bool.and_false, Bool.false_eq_true, not_false_eq_true, show (default : Bool) = false from rfl]

end

theorem Chip.verifies_silent : Silent Chip.verifies := fun _ _ => rfl

theorem Chip.verified_silent (l : List (Nat × Int)) : Silent fun c => (c.verifies.setAll l).setTrips :=
  .comp Chip.setTrips_silent (.comp (Chip.setAll_silent l) Chip.verifies_silent)

theorem Chip.strapsSampled_silent (straps : Nat) : Silent (·.strapsSampled straps) := Chip.verified_silent _

theorem release_silent (straps : Nat) : Silent (release straps) := by
  have h : release straps = fun c => if c.boot.phase ≠ .held ∨ !c.frontRailsIn then c
    else if c.boot.cause = 1 then (c.strapsSampled straps).nvmWrite (.count 0 1) else c.strapsSampled straps := rfl
  rw [h]
  exact .ite (fun _ _ => rfl) .id (.ite (fun _ _ => rfl) (.comp (Chip.nvmWrite_silent _) (Chip.strapsSampled_silent _))
    (Chip.strapsSampled_silent _))

theorem holdEnds_silent (straps : Nat) : Silent (holdEnds straps) := .ite (fun _ _ => rfl) .id (release_silent straps)

theorem bits_strap4 (straps : BitVec 6) : bits straps.toNat 4 4 = if straps[4] then 1 else 0 := by
  revert straps
  decide

theorem strapObjects_eq (straps : BitVec 6) :
    strapObjects straps.toNat = [(K.straps, (straps.toNat : Int)), (K.spRole, if straps[4] then 1 else 0),
      (K.spsState, if straps[4] then 1 else 0), (K.spmState, if straps[4] then 0 else 1)] := by
  simp only [strapObjects, bits_strap4]
  cases straps[4] <;> rfl

theorem gnonerStart_verifying {c : Chip} {ok0 ok1 : Bool} {a b : Slot'} (hphase : c.boot.phase = .verifying)
    (hslots : c.nvm.slots = [a, b]) :
    gnonerStart ok0 ok1 c =
      (let v0 := ok0 && a.magic && a.sound 0
       let v1 := ok1 && b.magic && b.sound 1
       let d := { c with boot := { c.boot with
         verified := [v0, v1], failures := 0, fellFrom := none
         slot := if v0 && (!v1 || decide (b.release ≤ a.release)) then 0 else 1 } }
       if v0 || v1 then { d with boot := { d.boot with phase := .starting } } else d.bootDead) := by
  have ha : at' c.nvm.slots 0 = a := by rw [hslots]; rfl
  have hb : at' c.nvm.slots 1 = b := by rw [hslots]; rfl
  rw [gnonerStart, if_neg (by simp [hphase]), ha, hb]

/-- What Gnoner takes from the NVM, and the links that it starts (R457). -/
def Chip.gnonerLinks (c : Chip) (vsol : Int) (found : List NvmFind) : Chip :=
  ((((((c.nvmFound found).nvmStart.valuesStart vsol).startRecords).canRestart.canBootUp).psirelStart).chipStartPark).vsolUpdate

/-- The rounds, the calibration and the flash begin (R457). -/
def Chip.gnonerMeasures (c : Chip) (flash : FlashReport) : Chip :=
  ({ c with hk := { c.hk with on := true } } : Chip).calTrigger.flashStart flash

/-- The pixel die and the heads start, and the rail faults that waited act before or after (R457, assumption 115). -/
def Chip.gnonerPowers (c : Chip) (waiting : List (Nat × Bool)) : Chip :=
  let c3 := (waiting.filter (fun f => c.railIn f.1)).foldl Chip.replayFault c
  (waiting.filter (fun f => !c.railIn f.1)).foldl Chip.replayFault (if c3.inSafe then c3 else (c3.pixelUp .full).startHeads)

/-- A part on which Gnoner reports ready. -/
def Chip.gnonerIsReady (c : Chip) : Chip :=
  { c with
    rails := { c.rails with fault := List.replicate 11 false, waiting := [] }
    boot := { c.boot with phase := .ready }, pins := { c.pins with canStbyHigh := false } }

theorem gnonerReady_starting {c : Chip} {vsol : Int} {flash : FlashReport} {found : List NvmFind} (hphase : c.boot.phase = .starting) :
    gnonerReady vsol flash found c =
      ((c.gnonerIsReady.gnonerLinks vsol found).gnonerMeasures flash).gnonerPowers c.rails.waiting := by
  rw [gnonerReady, if_neg (not_not.2 hphase)]
  extract_lets waiting rails cleared boot pins ready stored linked hk measuring ended lasting faulty started
  have hready : ready = c.gnonerIsReady := rfl
  clear_value ready
  have hlinked : linked = ready.gnonerLinks vsol found := rfl
  clear_value linked
  have hmeasuring : measuring = linked.gnonerMeasures flash := rfl
  clear_value measuring
  rw [← hready, ← hlinked, ← hmeasuring]
  rfl

/-- Settles O1, clause by clause along the sequence: the release, the boot ROM's choice and its retries, and the start. -/
theorem startUpSequence : Obligations.StartUpSequence := by
  unfold Obligations.StartUpSequence
  refine ⟨?release, fun s straps h => effect_none rfl (holdEnds_low h), ⟨?start, ?again, ?otherSlot, ?dead⟩, ?ready⟩
  case release =>
    intro s straps i hi hphase hrails c
    have hf : release straps.toNat s.chip = if s.chip.boot.cause = 1 then c.nvmWrite (.count 0 1) else c := by
      rw [release_held hphase hrails, Chip.strapsSampled, strapObjects_eq]
      rfl
    rcases hi with rfl | ⟨rfl, hlow⟩
    · exact effect_of_silent rfl (release_silent _) hf
    · exact effect_of_silent rfl (holdEnds_silent _) ((holdEnds_high hlow).trans hf)
  case start =>
    intro s ok0 ok1 a b hphase hslots
    refine effect_of_eq rfl (gnonerStart_verifying hphase hslots) ?_
    dsimp only
    generalize (ok0 && a.magic && a.sound 0) = v0
    generalize (ok1 && b.magic && b.sound 1) = v1
    by_cases hr : b.release ≤ a.release <;> cases v0 <;> cases v1 <;> simp [hr] <;> exact ⟨rfl, fun _ _ => rfl⟩
  case again => exact fun s hphase h => effect_of_eq rfl (gnonerTimeout_again hphase h) ⟨rfl, fun _ _ => rfl⟩
  case otherSlot =>
    exact fun s hphase h hfell _ hother => effect_of_eq rfl (gnonerTimeout_otherSlot hphase h hfell hother) ⟨rfl, fun _ _ => rfl⟩
  case dead =>
    exact fun s hphase h hnone => effect_of_eq rfl (gnonerTimeout_dead hphase h hnone) ⟨rfl, fun _ _ => rfl⟩
  case ready =>
    intro s vsol flash found hphase c0 c1 c2 c3
    refine effect_of_eq rfl (gnonerReady_starting hphase) ?_
    have hready : s.chip.fresh.gnonerIsReady = c0 := rfl
    clear_value c0
    have hlinks : c0.gnonerLinks vsol.toInt found = c1 := rfl
    clear_value c1
    have hmeasures : c1.gnonerMeasures flash = c2 := rfl
    rw [hready, hlinks, hmeasures]
    exact Chip.agrees_refl _

end Sys2Proof.Machine
end

section
/-! Resets of the chip and of the front die (R44, R467, R468). -/

namespace Sys2Proof.Machine

/-! ### SYS_RST and undervoltage of a front-die rail -/

/-- Where no group write is under way, a cut of the supply leaves the NVM as it is. -/
theorem Chip.nvmCut_ended {c : Chip} {l : List NvmBusy} (h : ∀ b ∈ l, b.ends ≤ c.mono) : c.nvmCut l = c := by
  induction l with
  | nil => rfl
  | cons b rest ih =>
    obtain ⟨hb, hrest⟩ := List.forall_mem_cons.1 h
    rw [Chip.nvmCut, if_pos hb, ih hrest]

theorem Chip.frontReset_ended {c : Chip} {cause : Nat} (h : ∀ b ∈ c.nvm.writing, b.ends ≤ c.mono) :
    c.frontReset cause = c.frontLeft cause := by
  rw [Chip.frontReset, Chip.nvmCut_ended h]

/-- No object is kept. -/
theorem Chip.get_frontLeft (c : Chip) (cause k : Nat) : (c.frontLeft cause).get k = objDefault k := rfl

theorem modAt_const {α : Type} (l : List α) (i : Nat) (a : α) : modAt l i (fun _ => a) = l.set i a := by
  rw [modAt, List.set_eq_modify]

section
variable {c : Chip} {r : Nat} {above : Bool}

theorem railFault_front (hr : frontRail r = true) (hended : ∀ b ∈ c.nvm.writing, b.ends ≤ c.mono) :
    railFault r false c = { c.frontLeft 1 with rails := { level := c.rails.level.set r .under } } := by
  rw [railFault, if_pos (by simp [hr]), Chip.frontReset_ended hended]
  dsimp only
  rw [modAt_const]
  rfl

/-- A rail fault that is declared before Gnoner is ready. -/
def Chip.faultWaits (c : Chip) (r : Nat) (above : Bool) : Chip :=
  { c with rails := { c.rails with
    fault := c.rails.fault.set r true, level := c.rails.level.set r (if above then .above else .under)
    waiting := c.rails.waiting ++ [(r, above)] } }

theorem railFault_beforeReady (hr : (frontRail r && !above) = false) (hphase : c.boot.phase = .verifying ∨ c.boot.phase = .starting) :
    railFault r above c =
      if (r < 6 ∧ c.pins.pixPwrEn = false) ∨
        (c.rails.fault.getD r false = true ∧ c.rails.level.getD r .inRange = if above then .above else .under)
      then c else c.faultWaits r above := by
  have hheld : c.boot.phase ≠ .held := by rcases hphase with h | h <;> simp [h]
  have hready : c.boot.phase ≠ .ready := by rcases hphase with h | h <;> simp [h]
  rw [railFault]
  dsimp only
  rw [if_neg (by simp [hr]), if_neg hheld, if_pos hready, modAt_const, modAt_const]
  simp only [Bool.not_eq_true']
  rfl

end

theorem Chip.get_chipReset {c : Chip} {cause k : Nat}
    (hk : k ∉ [K.straps, K.actuatorFitted, K.refclkState, K.nvmGroupWrites, K.nvmHeld, K.nvmState]) :
    (c.chipReset cause).get k = objDefault k := by
  simp only [List.mem_cons, List.not_mem_nil, or_false, not_or] at hk
  obtain ⟨hstraps, hfitted, hrefclk, hwrites, hheld, hstate⟩ := hk
  rw [Chip.chipReset]
  dsimp only
  rw [Chip.get_set_other _ _ _ _ hstate, Chip.get_setAll_other _ _ _ (by simp [hstraps, hfitted, hrefclk, hwrites, hheld])]
  rfl

theorem Chip.get_chipReset_straps (c : Chip) (cause : Nat) : (c.chipReset cause).get K.straps = c.get K.straps := by
  rw [Chip.chipReset]
  dsimp only
  rw [Chip.get_set_other _ _ _ _ (by decide), List.map_cons, Chip.setAll_cons, Chip.get_setAll_other _ _ _ (by simp)]
  exact Chip.get_set_same _ _ _

/-- Settles O2: the reset parts hold their fields by definition, and no object but those that a reset keeps. -/
theorem chipAndFrontDieResets : Obligations.ChipAndFrontDieResets := by
  unfold Obligations.ChipAndFrontDieResets
  refine ⟨⟨?sysRst, ?undervoltage, ?waits⟩, ?chipReset⟩
  case sysRst =>
    intro s hended
    refine leaves_of_eq (d := s.chip.fresh.frontLeft 2) rfl (Chip.frontReset_ended hended) ?_
    simp only [settle_boot, settle_errq, settle_staged, settle_dram, settle_pendingP, settle_clk, settle_rails, settle_nvm]
    refine ⟨rfl, rfl, rfl, rfl, rfl, rfl, rfl, rfl, rfl, rfl, rfl, rfl, fun k hk => ?_⟩
    rw [settle_get _ _ _ hk, Chip.get_frontLeft]
  case undervoltage =>
    intro s r hr6 hr8 hended
    refine leaves_of_eq rfl (railFault_front (c := s.chip.fresh) (by simp [frontRail, hr6, hr8]) hended) ?_
    simp only [settle_boot, settle_errq, settle_staged, settle_dram, settle_pendingP, settle_clk, settle_rails, settle_nvm]
    refine ⟨rfl, rfl, rfl, rfl, rfl, rfl, rfl, rfl, rfl, fun k hk => ?_⟩
    rw [settle_get _ _ _ hk]
    rfl
  case waits =>
    intro s r above hr hphase level
    have hfront : (frontRail r.val && !above) = false := by
      rcases hr with h | h | h
      · simp [frontRail, h]
      · simp [frontRail, h]
      · simp [h]
    have hf := railFault_beforeReady (c := s.chip.fresh) hfront hphase
    refine ⟨fun h => effect_none rfl (hf.trans (if_pos h)), fun hon hnone => ?_⟩
    refine effect_of_eq (d := s.chip.fresh.faultWaits r.val above) rfl (hf.trans (if_neg ?_)) ⟨rfl, fun _ _ => rfl⟩
    rintro (⟨hlt, hoff⟩ | ⟨hfault, -⟩)
    · rcases hon with hge | hon
      · omega
      · exact Bool.false_ne_true (hoff.symm.trans hon)
    · exact Bool.false_ne_true (hnone.symm.trans hfault)
  case chipReset =>
    intro s m hs
    refine leaves_of_command (d := s.chip.fresh.chipReset 3) rfl hs rfl ?_
    simp only [settle_boot, settle_errq, settle_staged, settle_dram, settle_pendingP, settle_clk, settle_nvm]
    refine ⟨rfl, rfl, rfl, rfl, rfl, rfl, rfl, rfl, ?_, fun k hk hkept => ?_⟩
    · rw [settle_get _ _ _ (by decide), Chip.get_chipReset_straps]
      rfl
    · rw [settle_get _ _ _ hk, Chip.get_chipReset hkept]

end Sys2Proof.Machine
end

section
/-! Operating modes (R462, R463) and failures of the pixel die (R37, R473, R480). -/

namespace Sys2Proof.Machine

/-! ### A restart of HKP that deep standby abandons -/

/-- A part in standby whose region HKP restarts. -/
def standbyInRestart : Chip :=
  ({ boot := { phase := .ready }
     regions := List.replicate 4 {} ++ [{ restarting := true }] } : Chip).set K.chipMode 2

theorem modeRequest_standbyInRestart : modeRequest 3 standbyInRestart = .ok standbyInRestart.toDeep := rfl

theorem standbyInRestart_toDeep_ends : (standbyInRestart.toDeep.regionOf 5).restarting = false := by decide

/-- What an effect says of the work of its command. -/
theorem agrees_of_effect {i : Instr} {s : State} {f : Chip → Chip} {c : Chip} (h : exec i s = run s f) (he : Effect i s c) :
    (settle s.chip (f s.chip.fresh)).agrees c := by
  obtain ⟨t, ht, -, hc⟩ := he
  rw [h, run] at ht
  cases ht
  exact hc

theorem Chip.regions_of_agrees {a b : Chip} (h : a.agrees b) : a.regions = b.regions := by
  have hbody := congrArg Chip.regions h.1
  exact hbody

/-- Refutes O6: a request of deep standby abandons the restart of HKP that is under way, and the statement's part still has it. -/
theorem not_operatingModes : ¬ Obligations.OperatingModes := by
  unfold Obligations.OperatingModes
  rintro ⟨requests, -⟩
  have hs : standbyInRestart.serves .mc K.modeRequest := by decide
  obtain ⟨-, -, standby⟩ := requests { chip := standbyInRestart, pending := [] } .mc hs rfl
  obtain ⟨-, -, deep⟩ := standby rfl
  have hagrees := agrees_of_effect (f := fun c => c.command .mc K.modeRequest (modeRequest 3)) rfl (deep rfl)
  have hregion := Chip.regions_of_agrees hagrees
  change (settle standbyInRestart (standbyInRestart.command .mc K.modeRequest (modeRequest 3))).regions = standbyInRestart.regions at hregion
  rw [settle_regions, Chip.command_ok hs modeRequest_standbyInRestart] at hregion
  have hends := standbyInRestart_toDeep_ends
  rw [Chip.regionOf, hregion] at hends
  exact absurd hends (by decide)

/-! ### Supply timeouts, a lost die link and rail faults -/

theorem Chip.pixelRuns_iff {c : Chip} : c.pixelRuns = true ↔ c.get K.pixelDieState = 2 := decide_eq_true_iff

theorem Chip.pixelStarts_of_runs {c : Chip} (h : c.pixelRuns = true) : c.pixelStarts = false := by
  simp [Chip.pixelStarts, Chip.pixelRuns_iff.1 h]

theorem pixSupplyTimeout_starts {c : Chip} {r : Nat} (h : c.pixelStarts = true) :
    pixSupplyTimeout r c = c.startFailed 0 0x0009 (fun c n => c.raise 3 0 0xFF 0xFF 0x0009 (r + 1) n) := by
  rw [pixSupplyTimeout, if_neg (by simp [h])]

theorem dieLinkLost_starts {c : Chip} (h : c.pixelStarts = true) :
    dieLinkLost c = c.startFailed 0 0x000A (fun c _ => c.raise 3 0 0xFF 0xFF 0x000A 0 0) := by
  rw [dieLinkLost, if_pos h]

theorem dieLinkLost_runs {c : Chip} (h : c.pixelRuns = true) : dieLinkLost c = (c.raise 3 0 0xFF 0xFF 0x000A 0 0).pixelFault := by
  rw [dieLinkLost, if_neg (by simp [Chip.pixelStarts_of_runs h]), if_pos h]

/-- A rail fault known and told (Table 16.10). -/
def Chip.faultTold (c : Chip) (r : Nat) (above : Bool) : Chip :=
  (({ c with rails := { c.rails with
    fault := c.rails.fault.set r true, level := c.rails.level.set r (if above then .above else .under) } } : Chip).raise
      1 5 5 0xFF 0x5008 (r + 1) (if above then 2 else 1)).emcyFor 0x3000 5 0x5008

theorem Chip.get_faultTold_pixelDieState (c : Chip) (r : Nat) (above : Bool) :
    (c.faultTold r above).get K.pixelDieState = c.get K.pixelDieState := by
  rw [Chip.faultTold, (Chip.emcyFor_extends _ _ _ _).1.2 _ (by decide), (Chip.raise_recorded _ _ _ _ _ _ _ _ (by decide)).2 _ (by decide) (by decide)]
  rfl

/-- A rail of the pixel die that fails while it is on. -/
theorem railFault_pixel {c : Chip} {r : Nat} {above : Bool} (hr : r < 6) (hphase : c.boot.phase = .ready)
    (hon : c.pins.pixPwrEn = true) (hnone : c.rails.fault.getD r false = false) :
    railFault r above c =
      if (c.faultTold r above).pixelStarts then
        (c.faultTold r above).startFailed 0 0x0009 (fun c n => c.raise 3 0 0xFF 0xFF 0x0009 (r + 1) n)
      else (c.faultTold r above).pixelFault.raise 3 0 0xFF 0xFF 0x0009 (r + 1) 0 := by
  have hfront : frontRail r = false := by simp [frontRail]; omega
  rw [railFault]
  dsimp only
  rw [if_neg (by simp [hfront]), if_neg (by simp [hphase]), if_neg (by simp [hphase]),
    if_neg (by rw [hnone]; simp), Chip.railFault, if_neg (by simp [hon]), if_neg (by omega), Chip.railFaulty]
  dsimp only
  rw [if_pos hr, modAt_const, modAt_const]
  rfl

/-- Settles O5: the branches of the four commands, where a message told about the fault changes no state of the die. -/
theorem pixelDieFailures : Obligations.PixelDieFailures := by
  unfold Obligations.PixelDieFailures
  refine ⟨?supply, ?link, ?rail, ?retry⟩
  case supply =>
    intro s r h
    refine effect_eq (f := pixSupplyTimeout r.val) rfl ?_
    have hrails : s.chip.fresh.rails = s.chip.rails := rfl
    rw [pixSupplyTimeout_starts (c := s.chip.fresh) h, Chip.startFailed, hrails]
  case link =>
    intro s
    exact ⟨fun h => effect_eq rfl (dieLinkLost_runs (c := s.chip.fresh) h), fun h => effect_eq rfl (dieLinkLost_starts (c := s.chip.fresh) h)⟩
  case rail =>
    intro s r above hr hphase hon hnone c0 c
    have hf := railFault_pixel (c := s.chip.fresh) (above := above) hr hphase hon hnone
    have hc : c = s.chip.fresh.faultTold r.val above := rfl
    have hstate : c.get K.pixelDieState = s.chip.get K.pixelDieState := Chip.get_faultTold_pixelDieState s.chip.fresh _ _
    rw [← hc] at hf
    clear_value c
    have hstarts : c.pixelStarts = s.chip.pixelStarts := by rw [Chip.pixelStarts, hstate]; rfl
    refine ⟨fun h => effect_eq rfl (hf.trans (if_neg ?_)), fun h => effect_eq rfl (hf.trans (if_pos (hstarts.trans h)))⟩
    simp [hstarts, Chip.pixelStarts_of_runs h]
  case retry =>
    intro s hpixel hclock hlevel hphase
    have hretry : ¬ (s.chip.fresh.get K.pixelDieState ≠ 3 ∨ s.chip.fresh.get K.refclkState ≠ 0 ∨
        s.chip.fresh.get K.throttleLevel = 4 ∨ s.chip.fresh.boot.phase ≠ .ready) := by
      rintro (h | h | h | h)
      · exact h hpixel
      · exact h hclock
      · exact hlevel h
      · exact h hphase
    refine ⟨fun h => effect_eq (f := pixelDieRetry) rfl ?_, fun h => effect_eq (f := pixelDieRetry) rfl ?_,
      fun h => effect_none (f := pixelDieRetry) rfl ?_⟩
    all_goals
      have hwanted : s.chip.fresh.wantedUse = _ := h
      rw [pixelDieRetry, if_neg hretry, hwanted]

end Sys2Proof.Machine
end

section
/-! PCIe: resets, link training, configuration writes, interrupts and errors (R363 to R372). -/

namespace Sys2Proof.Machine

/-! ### Messages of the MSI-X tables -/

/-- Sending the pending messages of Function 0 moves their pending bits only. -/
theorem Chip.flush0_agrees (c : Chip) : c.flush0.agrees c := by
  have hstep : ∀ (d : Chip) (v : Nat), Chip.extends' (if bitOf d.pcie.pend0 v && !bitOf d.pcie.mask0 v && d.canSend0 then
      (d.modPcie (fun p => { p with pend0 := putBit p.pend0 v false })).emit (.msix false v) else d) d :=
    fun d v => Chip.extends_ite (fun _ => ⟨⟨rfl, fun _ _ => rfl⟩, ⟨[.msix false v], rfl⟩⟩) fun _ => d.extends_refl
  exact (Chip.extends_foldl _ hstep (List.range 64) c).1

theorem bitOf_zero (v : Nat) : bitOf 0 v = false := by simp [bitOf]

/-- Where nothing pends, Function 1 sends nothing. -/
theorem Chip.flush1_none {c : Chip} (h : c.pcie.pend1 = 0) : c.flush1 = c := by
  unfold Chip.flush1
  generalize List.range 8 = l
  induction l with
  | nil => rfl
  | cons v l ih =>
    rw [List.foldl_cons, if_neg (by simp [h, bitOf_zero])]
    exact ih

/-! ### Resets and the link -/

section
variable {c : Chip}

theorem hotReset_linked (hon : c.pixelOn = true) (hlink : c.get K.pcieLinkState ≠ 0) :
    hotReset c = (((c.bump K.pcieResets).dmaOutstanding [1, 3]).2.linkTo 1).hostResets ((c.bump K.pcieResets).dmaOutstanding [1, 3]).1 := by
  rw [hotReset, if_pos ⟨hon, hlink⟩]

theorem flrF0_linked (hon : c.pixelOn = true) (hlink : c.linkUp = true) :
    flrF0 c = ((((((c.bump K.pcieFlrs).dmaOutstanding [1]).2.modPcie Pcie.reset0).stopHostWork.releaseLocks 3).mbxEmptyAll
      (List.range 6)).dmaResetSpaces [1] ((c.bump K.pcieFlrs).dmaOutstanding [1]).1) := by
  exact if_pos ⟨hon, hlink⟩

theorem flrF1_linked (hon : c.pixelOn = true) (hlink : c.linkUp = true) (hf1 : c.f1Present = true) :
    flrF1 c = (((((c.bump K.pcieFlrs).dmaOutstanding [3]).2.modPcie Pcie.reset1).releaseLocks 2).mbxEmptyAll
      [6, 7]).dmaResetSpaces [3] ((c.bump K.pcieFlrs).dmaOutstanding [3]).1 := by
  exact if_pos ⟨hon, hlink, hf1⟩

theorem linkDown_linked (hon : c.pixelOn = true) (hlink : 2 ≤ c.get K.pcieLinkState) :
    linkDown c = ((c.linkTo 0).releaseLocks 3).releaseLocks 2 := if_pos ⟨hon, hlink⟩

theorem pcieLinkUp_trained {speed width : Nat} (hon : c.pixelOn = true) (hperst : c.pins.perstLow = false)
    (hlink : c.get K.pcieLinkState ≤ 1) (hspeed : speed ≠ 0) (hwidth : width = 1 ∨ width = 2 ∨ width = 4) :
    pcieLinkUp speed width .l0 c = (((c.setAll [(K.pcieLinkState, 2),
      (K.pcieLinkSpeed, (min speed (c.nat K.pcieSpeedLimit) : Nat)), (K.pcieLinkWidth, width)]).modPcie
        (fun (p : Pcie) => { p with l2 := false })).flush0).flush1 := by
  rw [pcieLinkUp, if_neg (by omega), if_pos ⟨hon, by simp [hperst], rfl, hspeed, hwidth⟩]

theorem pcieLinkUp_powered {speed width : Nat} {power : LinkPower} (hlink : 2 ≤ c.get K.pcieLinkState) :
    pcieLinkUp speed width power c = c.linkPower power := if_pos hlink

theorem pmeTurnOff_linked (hon : c.pixelOn = true) (hlink : c.linkUp = true) :
    pmeTurnOff c = (c.set K.pcieLinkState 6).modPcie (fun p => { p with l2 := true }) := if_pos ⟨hon, hlink⟩

theorem configWrites_linked (hon : c.pixelOn = true) (hlink : c.linkUp = true) : ¬ (!(c.pixelOn && c.linkUp)) = true := by
  simp [hon, hlink]

theorem pcieConfigWrite_pmeEnable (h : ¬ (!(c.pixelOn && c.linkUp)) = true) (b : Bool) :
    pcieConfigWrite (.pmeEnable b) c = c.modPcie (fun p => { p with pmeEn := b }) := if_neg h

theorem pcieConfigWrite_clearUncorrectable (h : ¬ (!(c.pixelOn && c.linkUp)) = true) (mask : BitVec 32) :
    pcieConfigWrite (.clearUncorrectable mask) c = c.modPcie (fun p => { p with aerUnc := clearBits p.aerUnc mask.toNat }) := if_neg h

theorem pcieConfigWrite_clearCorrectable (h : ¬ (!(c.pixelOn && c.linkUp)) = true) (mask : BitVec 32) :
    pcieConfigWrite (.clearCorrectable mask) c = c.modPcie (fun p => { p with aerCor := clearBits p.aerCor mask.toNat }) := if_neg h

theorem pcieConfigWrite_aspm (h : ¬ (!(c.pixelOn && c.linkUp)) = true) (l0s l1 l12 : Bool) :
    pcieConfigWrite (.aspm l0s l1 l12) c =
      (c.modPcie (fun p => { p with aspmL0s := l0s, aspmL1 := l1, aspmL12 := l12 })).linkPower .l0 := if_neg h

theorem pcieConfigWrite_busMaster0 (h : ¬ (!(c.pixelOn && c.linkUp)) = true) (b : Bool) :
    pcieConfigWrite (.busMaster false b) c = (c.modPcie (fun p => { p with busMaster0 := b })).flush0 := if_neg h

theorem pcieConfigWrite_power0 (h : ¬ (!(c.pixelOn && c.linkUp)) = true) (b : Bool) :
    pcieConfigWrite (.power false b) c = (c.modPcie (fun p => { p with d3hot0 := b })).flush0 := if_neg h

theorem pcieConfigWrite_busMaster1 (h : ¬ (!(c.pixelOn && c.linkUp)) = true) (hf1 : c.f1Present = true) (hnone : c.pcie.pend1 = 0) (b : Bool) :
    pcieConfigWrite (.busMaster true b) c = c.modPcie (fun p => { p with busMaster1 := b }) :=
  (if_neg h).trans ((if_pos hf1).trans (Chip.flush1_none hnone))

theorem pcieConfigWrite_power1 (h : ¬ (!(c.pixelOn && c.linkUp)) = true) (hf1 : c.f1Present = true) (hnone : c.pcie.pend1 = 0) (b : Bool) :
    pcieConfigWrite (.power true b) c = c.modPcie (fun p => { p with d3hot1 := b }) :=
  (if_neg h).trans ((if_pos hf1).trans (Chip.flush1_none hnone))

end

/-- Settles O9: each reset, link and configuration command on its own conditions. -/
theorem pcieLinkAndResets : Obligations.PcieLinkAndResets := by
  unfold Obligations.PcieLinkAndResets
  refine ⟨fun s hon => ⟨fun hlink => ?hot, fun hlink => ⟨?flr0, fun hf1 => ?flr1⟩, fun hlink => ?down⟩,
    fun s hon => ⟨fun sp w hperst hlink hspeed hwidth => ?up, fun sp w power hlink => ?power, fun hlink => ?config⟩⟩
  case hot => exact effect_eq rfl (hotReset_linked (c := s.chip.fresh) hon hlink)
  case flr0 => exact effect_eq rfl (flrF0_linked (c := s.chip.fresh) hon hlink)
  case flr1 => exact effect_eq rfl (flrF1_linked (c := s.chip.fresh) hon hlink hf1)
  case down => exact effect_eq rfl (linkDown_linked (c := s.chip.fresh) hon hlink)
  case up => exact effect_eq rfl (pcieLinkUp_trained (c := s.chip.fresh) hon hperst hlink hspeed hwidth)
  case power => exact effect_eq rfl (pcieLinkUp_powered (c := s.chip.fresh) hlink)
  case config =>
    have h : ¬ (!(s.chip.fresh.pixelOn && s.chip.fresh.linkUp)) = true := configWrites_linked hon hlink
    have hflush {d e : Chip} (hd : d.agrees e) : d.flush0.agrees e := Chip.agrees_trans d.flush0_agrees hd
    refine ⟨?_, ?_, fun b => ?_, fun mask => ?_, fun mask => ?_, fun b _ => ⟨?_, ?_⟩, fun b hf1 hnone => ⟨?_, ?_⟩, fun l0s l1 l12 => ?_⟩
    · exact effect_of_eq rfl (pmeTurnOff_linked (c := s.chip.fresh) hon hlink) ⟨rfl, fun _ _ => rfl⟩
    · exact effect_of_eq rfl (pcieConfigWrite_busMaster0 h false) (hflush ⟨rfl, fun _ _ => rfl⟩)
    · exact effect_of_eq rfl (pcieConfigWrite_pmeEnable h b) ⟨rfl, fun _ _ => rfl⟩
    · exact effect_of_eq rfl (pcieConfigWrite_clearUncorrectable h mask) ⟨rfl, fun _ _ => rfl⟩
    · exact effect_of_eq rfl (pcieConfigWrite_clearCorrectable h mask) ⟨rfl, fun _ _ => rfl⟩
    · exact effect_of_eq rfl (pcieConfigWrite_busMaster0 h b) (hflush ⟨rfl, fun _ _ => rfl⟩)
    · exact effect_of_eq rfl (pcieConfigWrite_power0 h b) (hflush ⟨rfl, fun _ _ => rfl⟩)
    · exact effect_of_eq rfl (pcieConfigWrite_busMaster1 (c := s.chip.fresh) h hf1 hnone b) ⟨rfl, fun _ _ => rfl⟩
    · exact effect_of_eq rfl (pcieConfigWrite_power1 (c := s.chip.fresh) h hf1 hnone b) ⟨rfl, fun _ _ => rfl⟩
    · exact effect_eq rfl (pcieConfigWrite_aspm h l0s l1 l12)

end Sys2Proof.Machine
end

section
/-! PCIe interrupts, event bits and errors (R367, R368, R372). -/

namespace Sys2Proof.Machine

/-! ### A vector that sends once -/

/-- A fold whose step changes the part at one element only, and only once. -/
theorem foldl_once {α β : Type} {f : α → β → α} {a b : α} {x : β} (hx : f a x = b) (hother : ∀ y, y ≠ x → f a y = a)
    (hdone : ∀ y, f b y = b) {l : List β} (hmem : x ∈ l) : l.foldl f a = b := by
  have hrest : ∀ l : List β, l.foldl f b = b := by
    intro l
    induction l with
    | nil => rfl
    | cons y l ih => rw [List.foldl_cons, hdone, ih]
  induction l with
  | nil => simp at hmem
  | cons y l ih =>
    rw [List.foldl_cons]
    by_cases hy : y = x
    · rw [hy, hx, hrest]
    · rw [hother y hy]
      exact ih ((List.mem_cons.1 hmem).resolve_left (Ne.symm hy))

theorem bitOf_two_pow (v u : Nat) : bitOf (2 ^ v) u = decide (v = u) := by
  have h := Nat.testBit_eq_decide_div_mod_eq (x := 2 ^ v) (i := u)
  rw [Nat.testBit_two_pow] at h
  exact h.symm

theorem putBit_two_pow (v : Nat) : putBit (2 ^ v) v false = 0 := by
  simp [putBit, bitOf_two_pow]

theorem bitOf_putBit_false (x v : Nat) : bitOf (putBit x v false) v = false := by
  unfold putBit
  split
  case isTrue h =>
    have h' : x / 2 ^ v % 2 = 1 := by simpa [bitOf] using h
    have hle : 2 ^ v ≤ x := by
      by_contra hlt
      rw [Nat.div_eq_of_lt (by omega)] at h'
      omega
    have hdiv : (x - 2 ^ v) / 2 ^ v = x / 2 ^ v - 1 := by
      have := Nat.sub_mul_div x (2 ^ v) 1
      simpa using this
    simp only [Bool.false_eq_true, if_false, bitOf, hdiv, decide_eq_false_iff_not]
    omega
  case isFalse h => simpa using h

/-- The pending bit of one vector of Function 0 cleared, and its message sent. -/
def Chip.sent0 (c : Chip) (v : Nat) : Chip := (c.modPcie (fun p => { p with pend0 := 0 })).emit (.msix false v)

def Chip.sent1 (c : Chip) (v : Nat) : Chip := (c.modPcie (fun p => { p with pend1 := 0 })).emit (.msix true v)

theorem Chip.unmasked1_agrees (c : Chip) (v : Nat) :
    ((c.fresh.modPcie (fun p => { p with mask1 := putBit p.mask1 v false })).sent1 v).agrees
      { c with pcie := { c.pcie with mask1 := putBit c.pcie.mask1 v false, pend1 := 0 } } :=
  Chip.agrees_trans (Chip.extends_emit _ _).1 ⟨rfl, fun _ _ => rfl⟩

theorem Chip.sent0_agrees (c : Chip) (v : Nat) : (c.sent0 v).agrees c := ⟨rfl, fun _ _ => rfl⟩

section
variable {c : Chip} {v : Nat}

theorem Chip.flush0_one (hv : v < 64) (hpend : c.pcie.pend0 = 2 ^ v) (hmask : bitOf c.pcie.mask0 v = false)
    (hsend : c.canSend0 = true) : c.flush0 = c.sent0 v := by
  refine foldl_once (x := v) ?_ (fun u hu => ?_) (fun u => ?_) (List.mem_range.2 hv)
  · rw [if_pos (by simp [hpend, hmask, hsend, bitOf_two_pow])]
    have hput : putBit c.pcie.pend0 v false = 0 := by rw [hpend, putBit_two_pow]
    exact congrArg (fun x => (c.modPcie (fun p => { p with pend0 := x })).emit (.msix false v)) hput
  · exact if_neg (by simp [hpend, bitOf_two_pow, Ne.symm hu])
  · exact if_neg (by simp [Chip.sent0, Chip.modPcie, Chip.emit, bitOf_zero])

theorem Chip.flush1_one (hv : v < 8) (hpend : c.pcie.pend1 = 2 ^ v) (hmask : bitOf c.pcie.mask1 v = false)
    (hsend : c.canSend1 = true) : c.flush1 = c.sent1 v := by
  refine foldl_once (x := v) ?_ (fun u hu => ?_) (fun u => ?_) (List.mem_range.2 hv)
  · rw [if_pos (by simp [hpend, hmask, hsend, bitOf_two_pow])]
    have hput : putBit c.pcie.pend1 v false = 0 := by rw [hpend, putBit_two_pow]
    exact congrArg (fun x => (c.modPcie (fun p => { p with pend1 := x })).emit (.msix true v)) hput
  · exact if_neg (by simp [hpend, bitOf_two_pow, Ne.symm hu])
  · exact if_neg (by simp [Chip.sent1, Chip.modPcie, Chip.emit, bitOf_zero])

theorem msixUnmask_sends0 (hon : c.pixelOn = true) (hlink : c.linkUp = true) (hsend : c.canSend0 = true) (hv : v < 64)
    (hpend : c.pcie.pend0 = 2 ^ v) :
    msixUnmask false v c = (c.modPcie (fun p => { p with mask0 := putBit p.mask0 v false })).sent0 v :=
  (if_neg (configWrites_linked hon hlink)).trans (Chip.flush0_one hv hpend (bitOf_putBit_false _ _) hsend)

theorem msixUnmask_sends1 (hon : c.pixelOn = true) (hlink : c.linkUp = true) (hsend : c.canSend1 = true) (hf1 : c.f1Present = true)
    (hv : v < 8) (hpend : c.pcie.pend1 = 2 ^ v) :
    msixUnmask true v c = (c.modPcie (fun p => { p with mask1 := putBit p.mask1 v false })).sent1 v :=
  (if_neg (configWrites_linked hon hlink)).trans ((if_pos rfl).trans ((if_pos ⟨hf1, hv⟩).trans (Chip.flush1_one hv hpend (bitOf_putBit_false _ _) hsend)))

end

/-! ### A part that shows its conditions already -/

section
variable {a c : Chip}

theorem Chip.pcieEvents_zero : c.pcieEvents 0 = c := by
  unfold Chip.pcieEvents
  generalize List.range 7 = l
  refine (if_congr Iff.rfl ?_ rfl).trans (ite_self c)
  induction l with
  | nil => rfl
  | cons b l ih =>
    rw [List.foldl_cons, if_neg (by simp [bitOf_zero])]
    exact ih

/-- A part that reads as the one before beside PCIE_EVENT_STATUS has no event to tell. -/
theorem announce_quiet (hget : ∀ k, k ≠ K.pcieEventStatus → c.get k = a.get k) (hentered : c.entered = a.entered) :
    Chip.announce a c = c := by
  have hevents : eventsBetween a c = 0 := by
    have halarms : ∀ s < 6, c.get (K.alarmState s) = a.get (K.alarmState s) :=
      fun s hs => hget _ (by interval_cases s <;> decide)
    have halarm : (List.range 6).any (fun s => decide (a.get (K.alarmState s) ≠ c.get (K.alarmState s))) = false := by
      rw [List.any_eq_false]
      intro s hs
      simp [halarms s (List.mem_range.1 hs)]
    unfold eventsBetween
    simp only [halarm, hentered, hget K.errorRegister (by decide), hget K.throttleLevel (by decide), hget K.chipMode (by decide),
      hget K.pixelDieState (by decide), hget K.psirelState (by decide), hget K.canState (by decide), hget K.nmtState (by decide)]
    simp
  have hunchanged : (tpdoEventKeys.filter fun k => decide (a.get k ≠ c.get k)) = [] := by
    refine List.filter_eq_nil_iff.2 fun k hk => ?_
    have hother : ∀ k ∈ tpdoEventKeys, k ≠ K.pcieEventStatus := by decide
    simp [hget k (hother k hk)]
  have hclear : ¬ (a.get K.errorRegister ≠ 0 ∧ c.get K.errorRegister = 0) := by
    rw [hget _ (by decide)]
    exact fun h => h.1 h.2
  unfold Chip.announce
  refine (if_congr Iff.rfl ?_ rfl).trans (ite_self c)
  rw [if_neg hclear]
  dsimp only
  rw [hevents, Chip.pcieEvents_zero, Chip.tpdoEvents, hunchanged]
  rfl

/-- Settling a part that reads as the one before beside PCIE_EVENT_STATUS keeps every object, where that one shows its conditions. -/
theorem settle_quiet (hstatus : a.statusRight) (hlevel : a.get K.canState = 1 ∨ a.get K.canState = 2 → a.get K.canState = a.can.level)
    (hbody : c.body = a.body) (hlevels : c.can.level = a.can.level) (hget : ∀ k, k ≠ K.pcieEventStatus → c.get k = a.get k) (k : Nat) :
    (settle a c).get k = c.get k := by
  obtain ⟨herr, -⟩ := hstatus
  have hagrees : c.agrees a := ⟨hbody, fun k hk => hget k (by rintro rfl; exact hk (by decide))⟩
  have hcan : c.get K.canState = a.get K.canState := hget _ (by decide)
  have hrecovers : ∀ k, c.canRecovers.get k = c.get k := by
    intro k
    unfold Chip.canRecovers
    split
    case isTrue h =>
      rw [Chip.get_set]
      split
      case isTrue hk => rw [hk, hlevels, hcan, hlevel (hcan ▸ h)]
      case isFalse => rfl
    case isFalse => rfl
  have hshown : ∀ k, c.withStatus.get k = c.get k := by
    intro k
    change (c.canRecovers.set K.errorRegister c.canRecovers.errorRegisterOf).get k = _
    rw [Chip.get_set]
    split
    case isTrue hk =>
      rw [hk, Chip.agrees_errorRegisterOf (Chip.agrees_trans (Chip.canRecovers_extends c).1 hagrees) ((hrecovers _).trans hcan),
        hget _ (by decide), herr]
    case isFalse => exact hrecovers k
  have hentered : c.withStatus.entered = a.entered := by
    have h := congrArg Chip.entered ((Chip.withStatus_extends c).1.1.trans hbody)
    exact h
  rw [settle, announce_quiet (fun k hk => (hshown k).trans (hget k hk)) hentered, hshown]

end

/-! ### Acknowledged events -/

/-- A message of Function 0 that is sent or pends. -/
theorem Chip.msix0_same (c : Chip) (vec : Nat) :
    (c.msix0 vec).body = c.body ∧ (c.msix0 vec).dict = c.dict ∧ (c.msix0 vec).can = c.can := by
  unfold Chip.msix0
  split
  · exact ⟨rfl, rfl, rfl⟩
  · exact ⟨rfl, rfl, rfl⟩

theorem pcieEventAck_same (c : Chip) (v : Nat) :
    (pcieEventAck v c).body = c.body ∧ (pcieEventAck v c).dict = (c.ackBits K.pcieEventStatus v).dict ∧ (pcieEventAck v c).can = c.can := by
  unfold pcieEventAck
  dsimp only
  refine List.foldlRecOn (motive := fun d : Chip => d.body = c.body ∧ d.dict = (c.ackBits K.pcieEventStatus v).dict ∧ d.can = c.can)
    _ _ ⟨rfl, rfl, rfl⟩ fun d ⟨hbody, hdict, hcan⟩ b _ => ?_
  split
  · obtain ⟨hbody', hdict', hcan'⟩ := d.msix0_same (d.nat K.pcieEventVector)
    exact ⟨hbody'.trans hbody, hdict'.trans hdict, hcan'.trans hcan⟩
  · exact ⟨hbody, hdict, hcan⟩

theorem get_pcieEventAck (c : Chip) (v k : Nat) : (pcieEventAck v c).get k = (c.ackBits K.pcieEventStatus v).get k := by
  obtain ⟨-, hdict, -⟩ := pcieEventAck_same c v
  rw [← Chip.dict_get, hdict, Chip.dict_get]

/-! ### Errors received -/

section
variable {c : Chip}

theorem pcieErrors_heard (hon : c.pixelOn = true) (hlink : c.get K.pcieLinkState ≠ 0) :
    ¬ (!c.pixelOn || decide (c.get K.pcieLinkState = 0)) = true := by simp [hon, hlink]

theorem pcieError_correctable (h : ¬ (!c.pixelOn || decide (c.get K.pcieLinkState = 0)) = true) {b : Fin 16} (hb : b.val ∈ aerCorBits) :
    pcieError (.correctable b) c = (c.modPcie (fun p => { p with aerCor := putBit p.aerCor b.val true })).bump K.pcieCorrectable :=
  (if_neg h).trans (if_pos hb)

theorem Chip.aerUncorrectable_logged {b : Nat} (hb : b ∈ aerUncBits) :
    c.aerUncorrectable b = (c.modPcie (fun p => { p with aerUnc := putBit p.aerUnc b true })).bump K.pcieUncorrectable := if_pos hb

theorem pcieError_uncorrectable (h : ¬ (!c.pixelOn || decide (c.get K.pcieLinkState = 0)) = true) {b : Fin 32} (hb : b.val ∈ aerUncBits) :
    pcieError (.uncorrectable b) c = (c.modPcie (fun p => { p with aerUnc := putBit p.aerUnc b.val true })).bump K.pcieUncorrectable :=
  (if_neg h).trans (Chip.aerUncorrectable_logged hb)

theorem pcieError_poisonedWrite (h : ¬ (!c.pixelOn || decide (c.get K.pcieLinkState = 0)) = true) :
    pcieError .poisonedWrite c =
      ((c.bump K.pciePoisonedRx).modPcie (fun p => { p with aerUnc := putBit p.aerUnc 12 true })).bump K.pcieUncorrectable :=
  (if_neg h).trans (Chip.aerUncorrectable_logged (by decide))

theorem pcieError_retrain (h : ¬ (!c.pixelOn || decide (c.get K.pcieLinkState = 0)) = true) :
    pcieError .retrain c = c.bump K.pcieRetrains := if_neg h

end

/-- Settles O10: a vector sends once, acknowledged bits are all that a part at rest changes, and errors are logged in AER. -/
theorem pcieInterruptsAndErrors : Obligations.PcieInterruptsAndErrors := by
  unfold Obligations.PcieInterruptsAndErrors
  refine ⟨⟨fun s v hon hlink hsend hpend => ?sends0, fun s v hon hlink hsend hf1 hv hpend => ?sends1⟩,
    fun s m v hs hstatus hlevel => ?acked, fun s hon hlink => ?errors⟩
  case sends0 =>
    have hf := msixUnmask_sends0 (c := s.chip.fresh) hon hlink hsend v.isLt hpend
    refine answer_of_run (f := msixUnmask false v.val) rfl ?_ ?_
    · change (msixUnmask false v.val s.chip.fresh).agrees _
      rw [hf]
      exact Chip.agrees_trans (Chip.sent0_agrees _ _) ⟨rfl, fun _ _ => rfl⟩
    · change _ <+: (msixUnmask false v.val s.chip.fresh).out
      rw [hf]
      exact List.prefix_rfl
  case sends1 =>
    have hf := msixUnmask_sends1 (c := s.chip.fresh) hon hlink hsend hf1 hv hpend
    refine answer_of_run (f := msixUnmask true v.val) rfl ?_ ?_
    · change (msixUnmask true v.val s.chip.fresh).agrees _
      rw [hf]
      exact Chip.unmasked1_agrees _ _
    · change _ <+: (msixUnmask true v.val s.chip.fresh).out
      rw [hf]
      exact List.prefix_rfl
  case acked =>
    refine leaves_of_command (d := pcieEventAck v.toNat s.chip.fresh) rfl hs rfl ?_
    obtain ⟨hbody, -, hcan⟩ := pcieEventAck_same s.chip.fresh v.toNat
    have hget : ∀ k, k ≠ K.pcieEventStatus → (pcieEventAck v.toNat s.chip.fresh).get k = s.chip.get k := fun k hk => by
      rw [get_pcieEventAck, Chip.get_ackBits _ _ _ _ hk]
      rfl
    have hquiet := settle_quiet hstatus hlevel hbody (congrArg Can.level hcan) hget
    refine ⟨?_, (settle_body _ _).trans hbody, fun k hk => (hquiet k).trans (hget k hk)⟩
    rw [hquiet, get_pcieEventAck]
    exact Chip.get_set_same _ _ _
  case errors =>
    have h : ¬ (!s.chip.fresh.pixelOn || decide (s.chip.fresh.get K.pcieLinkState = 0)) = true := pcieErrors_heard hon hlink
    refine ⟨fun b hb => ?_, fun b hb => ?_, ?_, ?_⟩
    · exact effect_of_eq rfl (pcieError_correctable h hb) ⟨rfl, fun _ _ => rfl⟩
    · exact effect_of_eq rfl (pcieError_uncorrectable h hb) ⟨rfl, fun _ _ => rfl⟩
    · exact effect_of_eq rfl (pcieError_poisonedWrite h) ⟨rfl, fun _ _ => rfl⟩
    · exact effect_of_eq rfl (pcieError_retrain h) ⟨rfl, fun _ _ => rfl⟩

end Sys2Proof.Machine
end

section
/-! BAR2 (R366). -/

namespace Sys2Proof.Machine

section
variable {c : Chip} {a : Nat}

theorem Chip.writeBlocked_outside {n : Nat} (h : c.imagesIn a n = []) : c.writeBlocked a n = false := by
  rw [Chip.writeBlocked, h]
  rfl

/-- Bytes put one after the other. -/
theorem foldl_put (f : Chip → Byte × Nat → Chip) (base : Nat)
    (hf : ∀ (d : Chip) (b : Byte) (i : Nat), a + i < base → f d (b, i) = { d with dram := d.dram.put (a + i) b }) (l : List Byte) :
    ∀ (d : Chip) (i : Nat), a + i + l.length ≤ base → (l.zipIdx i).foldl f d = { d with dram := d.dram.write (a + i) l } := by
  induction l with
  | nil => exact fun _ _ _ => rfl
  | cons b l ih =>
    intro d i h
    rw [List.length_cons] at h
    rw [List.zipIdx_cons, List.foldl_cons, hf d b i (by omega), ih _ _ (by omega)]
    rfl

/-- A write below the reserved area and outside the images puts its bytes. -/
theorem Chip.dramWrite_outside {l : List Byte} (hbase : a + l.length ≤ c.reservedBase) (h : c.imagesIn a l.length = []) :
    c.dramWrite a l = { c with dram := c.dram.write a l } := by
  unfold Chip.dramWrite
  dsimp only
  rw [h]
  refine foldl_put _ c.reservedBase (fun d b i hi => ?_) l c 0 hbase
  exact if_neg (by simp; omega)

theorem Memory.read_eq_tab (m : Memory) (n : Nat) : ∀ a, m.read a n = tab n (fun i => m.byte (a + i)) := by
  induction n with
  | zero => exact fun _ => rfl
  | succ n ih =>
    intro a
    rw [Memory.read, ih (a + 1), tab, tab, List.range_succ_eq_map, List.map_cons, List.map_map]
    congr 1
    refine List.map_congr_left fun i _ => ?_
    simp only [Function.comp_apply]
    congr 1
    omega

/-- A read below the reserved area and outside the images answers the bytes of the memory. -/
theorem Chip.dramRead_outside {n : Nat} (hbase : a + n ≤ c.reservedBase) (h : c.imagesIn a n = []) :
    c.dramRead a n = (c.dram.read a n, c) := by
  unfold Chip.dramRead
  dsimp only
  rw [h, if_pos hbase, Memory.read_eq_tab]
  refine Prod.ext ?_ rfl
  refine List.map_congr_left fun i hi => ?_
  have hlt := List.mem_range.1 hi
  exact if_neg (by omega)

end

section
variable {c : Chip} {off : Nat}

theorem bar2_reached (hon : c.pixelOn = true) (hlink : c.linkUp = true) (hd3 : c.pcie.d3hot0 = false) :
    ¬ (!(c.pixelOn && c.linkUp) || c.pcie.d3hot0) = true := by simp [hon, hlink, hd3]

/-- What lies below the reserved area lies in the capacity. -/
theorem Chip.inside_capacity {a n : Nat} (hbase : a + n ≤ c.reservedBase) : min n (c.nat K.dramCapacity - a) = n := by
  unfold Chip.reservedBase at hbase
  omega

theorem bar2Access_write {data : List Byte} (h : ¬ (!(c.pixelOn && c.linkUp) || c.pcie.d3hot0) = true)
    (hbase : c.nat K.pcieBar2Base + off + data.length ≤ c.reservedBase)
    (himg : c.imagesIn (c.nat K.pcieBar2Base + off) data.length = []) :
    bar2Access off (.write data false) c = { c with dram := c.dram.write (c.nat K.pcieBar2Base + off) data } := by
  rw [bar2Access, if_neg h]
  simp only [Chip.inside_capacity hbase]
  rw [if_neg (Nat.lt_irrefl _), List.take_length, if_neg Bool.false_ne_true, Chip.dmaPut, if_pos rfl,
    Chip.writeBlocked_outside himg, if_neg Bool.false_ne_true, Chip.dramWrite_outside hbase himg]

theorem bar2Access_read {len : BitVec 13} (h : ¬ (!(c.pixelOn && c.linkUp) || c.pcie.d3hot0) = true)
    (hbase : c.nat K.pcieBar2Base + off + len.toNat ≤ c.reservedBase)
    (himg : c.imagesIn (c.nat K.pcieBar2Base + off) len.toNat = []) :
    bar2Access off (.read len []) c = c.emit (.bar2 (c.dram.read (c.nat K.pcieBar2Base + off) len.toNat) false) := by
  rw [bar2Access, if_neg h]
  simp only [Chip.inside_capacity hbase]
  rw [if_neg (Nat.lt_irrefl _), Chip.dramRead_outside hbase himg, Nat.sub_self, List.replicate_zero,
    List.append_nil]
  rfl

end

/-- Settles O11: outside the images BAR2 writes and reads the bytes of the memory one by one. -/
theorem bar2ReachesDram : Obligations.Bar2ReachesDram := by
  unfold Obligations.Bar2ReachesDram
  refine ⟨?write, ?read⟩
  case write =>
    intro s off data hon hlink hd3 a hbase himg
    have h : ¬ (!(s.chip.fresh.pixelOn && s.chip.fresh.linkUp) || s.chip.fresh.pcie.d3hot0) = true := bar2_reached hon hlink hd3
    exact effect_of_eq (exec_bar2Access s off _ []) (bar2Access_write h hbase himg) ⟨rfl, fun _ _ => rfl⟩
  case read =>
    intro s off len hon hlink hd3 a hbase himg
    have h : ¬ (!(s.chip.fresh.pixelOn && s.chip.fresh.linkUp) || s.chip.fresh.pcie.d3hot0) = true := bar2_reached hon hlink hd3
    have hf := bar2Access_read (c := s.chip.fresh) (off := off.toNat) h hbase himg
    refine answer_of_run (exec_bar2Access s off _ []) ?_ ?_
    · change (bar2Access off.toNat (.read len []) s.chip.fresh).agrees _
      rw [hf]
      exact ⟨rfl, fun _ _ => rfl⟩
    · change _ <+: (bar2Access off.toNat (.read len []) s.chip.fresh).out
      rw [hf]
      exact List.prefix_rfl

end Sys2Proof.Machine
end

section
/-! The CAN node (R374 to R381). -/

namespace Sys2Proof.Machine

/-! ### Messages sent -/

/-- A message is sent where the controller may transmit. -/
theorem Chip.canTransmit_sends {c : Chip} (o : OutMsg) (h : c.canMayTransmit = true) :
    ∃ d : Chip, d.agrees c ∧ d.out = c.out ∧ c.canTransmit o = d.emit o := by
  refine ⟨_, ?_, ?_, if_pos h⟩
  · exact Chip.agrees_trans (Chip.extends_set (by decide)).1 ⟨rfl, fun _ _ => rfl⟩
  · rfl

theorem Chip.canTransmit_prefix {c : Chip} (o : OutMsg) (h : c.canMayTransmit = true) : c.out ++ [o] <+: (c.canTransmit o).out := by
  obtain ⟨d, -, hout, hsent⟩ := c.canTransmit_sends o h
  rw [hsent, Chip.emit_out, hout]

theorem Chip.canSend_prefix {c : Chip} (ident : Nat) (data : List Byte) (h : c.canMayTransmit = true) :
    c.out ++ [.can ident data c.canSwitches] <+: (c.canSend ident data).out := Chip.canTransmit_prefix _ h

/-- What a command answers that sends one CAN message and changes only what messages change. -/
theorem answer_of_sent {i : Instr} {s : State} {f : Chip → Chip} {d : Chip} {o : OutMsg} (h : exec i s = run s f)
    (hf : f s.chip.fresh = d) (hd : d.agrees s.chip) (ho : [o] <+: d.out) : Answer i s [o] s.chip :=
  answer_of_run h (by subst hf; exact hd) (by subst hf; exact ho)

section
variable {c : Chip}

theorem heartbeat_sent (hlist : c.nmtListens = true) (htime : c.get K.heartbeatTime ≠ 0) :
    heartbeat c = c.canSend (0x700 + c.nat K.canNodeId) [BitVec.ofNat 8 (c.nat K.nmtState)] := if_pos ⟨hlist, htime⟩

/-- The inhibit time has ended, and the first EMCY message leaves the queue. -/
def Chip.emcyNext (c : Chip) (rest : List Emcy) : Chip :=
  (c.modCan (fun k => { k with emcyInhibited := false })).modCan (fun k => { k with emcyQueue := rest })

theorem Chip.emcyNext_agrees (rest : List Emcy) : (c.emcyNext rest).agrees c := ⟨rfl, fun _ _ => rfl⟩

theorem emcyInhibitEnd_next {e : Emcy} {rest : List Emcy} (hq : c.can.emcyQueue = e :: rest) (hallowed : c.emcyAllowed = true) :
    emcyInhibitEnd c = (c.emcyNext rest).emcyTransmit e := by
  unfold emcyInhibitEnd
  rw [if_neg (by simp [hallowed])]
  have hq' : (c.modCan (fun k => { k with emcyInhibited := false })).can.emcyQueue = e :: rest := hq
  dsimp only
  rw [hq']
  rfl

theorem Chip.emcyTransmit_prefix (e : Emcy) (h : c.canMayTransmit = true) :
    c.out ++ [.can (c.nat K.emcyCobId % 2048) e.bytes c.canSwitches] <+: (c.emcyTransmit e).out := by
  have hsent := c.canSend_prefix (c.nat K.emcyCobId % 2048) e.bytes h
  unfold Chip.emcyTransmit
  dsimp only
  split
  · exact hsent
  · exact hsent

theorem Chip.canState_of_mayTransmit (h : c.canMayTransmit = true) : c.get K.canState ≠ 3 := by
  unfold Chip.canMayTransmit at h
  simp only [Bool.and_eq_true, decide_eq_true_eq] at h
  obtain ⟨⟨-, hstate⟩, -⟩ := h
  exact hstate

theorem tpdoEventTimer_sent {n : Nat} (htimer : c.get (K.tpdoEventTimer n) ≠ 0) (hphase : c.boot.phase = .ready)
    (hawake : c.mode.asleep = false) (hvalid : c.tpdoValid n = true) (hhkp : c.boot.hkpRestart = false) (hnmt : c.get K.nmtState = 5)
    (hcan : c.get K.canState ≠ 3) (hfree : (at' c.can.tpdo n).inhibited = false) : tpdoEventTimer n c = c.tpdoSend n := by
  rw [tpdoEventTimer, if_pos ⟨htimer, hphase, by simp [hawake]⟩, Chip.tpdoEvent, if_neg (by simp [hvalid, hhkp]),
    if_neg (by simp [hnmt, hcan]), if_neg (by simp [hfree])]

theorem Chip.tpdoSend_prefix (n : Nat) (h : c.canMayTransmit = true) :
    c.out ++ [.can (c.nat (K.tpdoCobId n) % 2048) (c.tpdoData n) c.canSwitches] <+: (c.tpdoSend n).out := c.canSend_prefix _ _ h

/-- A transmit PDO whose inhibit time has ended. -/
def Chip.tpdoFree (c : Chip) (n : Nat) : Chip := c.modCan fun k => { k with
  tpdo := modAt k.tpdo n (fun t => { t with inhibited := false, waiting := false }) }

theorem tpdoInhibitEnd_sent {n : Nat} (hinh : (at' c.can.tpdo n).inhibited = true) (hwait : (at' c.can.tpdo n).waiting = true)
    (hnmt : c.get K.nmtState = 5) (hcan : c.get K.canState ≠ 3) (hhkp : c.boot.hkpRestart = false) :
    tpdoInhibitEnd n c = (c.tpdoFree n).tpdoSend n := by
  unfold tpdoInhibitEnd
  dsimp only
  have hnmt' : (c.tpdoFree n).get K.nmtState = 5 := hnmt
  have hcan' : (c.tpdoFree n).get K.canState ≠ 3 := hcan
  rw [if_pos ⟨hinh, hwait⟩]
  change (if (c.tpdoFree n).get K.nmtState ≠ 5 ∨ (c.tpdoFree n).get K.canState = 3 then _ else if c.boot.hkpRestart = true then _ else _) = _
  rw [if_neg (by simp [hnmt', hcan']), if_neg (by simp [hhkp])]
  rfl

/-! ### Error counts -/

theorem Chip.get_canStatus_canState :
    c.canStatus.get K.canState =
      if c.pins.canStbyHigh then 4 else if c.can.calibrating then 5 else if c.can.off then 3 else c.can.level := by
  rw [Chip.canStatus, Chip.setAll_cons, Chip.get_setAll_other]
  · exact Chip.get_set_same _ _ _
  · simp only [List.mem_cons, List.not_mem_nil, or_false, forall_eq_or_imp, forall_eq]
    decide

theorem Chip.get_canStatus_canRec : c.canStatus.get K.canRec = (min c.can.rec' 255 : Nat) := by
  rw [Chip.canStatus, Chip.setAll_cons, Chip.setAll_cons, Chip.setAll_cons, Chip.setAll_nil]
  rw [Chip.get_set_same]
  omega

theorem Chip.get_canStatus_other {k : Nat} (hk : k ∉ [K.canState, K.canTec, K.canRec]) : c.canStatus.get k = c.get k := by
  simp only [List.mem_cons, List.not_mem_nil, or_false, not_or] at hk
  obtain ⟨hstate, htec, hrec⟩ := hk
  rw [Chip.canStatus, Chip.get_setAll_other]
  simp [hstate, htec, hrec]

theorem Chip.canStatus_can : c.canStatus.can = c.can := Chip.setAll_can _ _

/-- A CAN_STATE that does not recover stands. -/
theorem settle_canState (a : Chip) (h : c.get K.canState ≠ 1 ∧ c.get K.canState ≠ 2) : (settle a c).get K.canState = c.get K.canState := by
  obtain ⟨hwarning, hpassive⟩ := h
  have hstatus := announce_statusOf a c.withStatus
  simp only [Chip.statusOf, Prod.mk.injEq] at hstatus
  obtain ⟨-, hcan, -⟩ := hstatus
  rw [settle, hcan]
  have hrecovers : c.canRecovers = c := if_neg (by simp [hwarning, hpassive])
  rw [Chip.withStatus, hrecovers]
  exact Chip.get_set_other _ _ _ _ (by decide)

theorem Chip.rec_of_agrees {a b : Chip} (h : a.agrees b) : a.can.rec' = b.can.rec' ∧ a.can.off = b.can.off := by
  obtain ⟨hbody, -⟩ := h
  have hrec := congrArg (fun c : Chip => c.can.rec') hbody
  have hoff := congrArg (fun c : Chip => c.can.off) hbody
  exact ⟨hrec, hoff⟩

/-- The status told, and an EMCY message where the node becomes passive. -/
def Chip.canShown (c : Chip) (was : Int) : Chip :=
  if c.canStatus.get K.canState = 2 ∧ was ≠ 2 then c.canStatus.emcyBare 0x8120 else c.canStatus

theorem Chip.canShown_agrees (was : Int) : (c.canShown was).agrees c.canStatus :=
  (Chip.extends_ite (fun _ => Chip.emcyBare_extends _ _) fun _ => Chip.extends_refl _).1

/-- A receive error counted. -/
def Chip.canReceiveError (c : Chip) (weight : Nat) : Chip := c.modCan fun n => { n with rec' := min (n.rec' + weight) 255 }

/-- A node that its transmit errors take off the bus. -/
def Chip.canBusOff (c : Chip) : Chip := (c.modCan (fun n => { n with off := true })).bump K.canBusOffs

theorem canErrorDetected_receive {weight : Nat} (hon : c.canOnBus = true) :
    canErrorDetected false weight c =
      (if 256 ≤ c.can.tec then (c.canReceiveError weight).canBusOff else c.canReceiveError weight).canShown (c.get K.canState) := by
  unfold canErrorDetected
  rw [if_neg (by simp [hon])]
  rfl

/-- A transmit error counted. -/
def Chip.canTransmitError (c : Chip) (weight : Nat) : Chip := c.modCan fun n => { n with tec := n.tec + weight }

theorem canErrorDetected_transmit {weight : Nat} (hon : c.canOnBus = true) (htec : 256 ≤ c.can.tec + weight) :
    canErrorDetected true weight c = (c.canTransmitError weight).canBusOff.canShown (c.get K.canState) := by
  unfold canErrorDetected
  rw [if_neg (by simp [hon])]
  change Chip.canShown (if 256 ≤ (c.canTransmitError weight).can.tec then (c.canTransmitError weight).canBusOff
    else c.canTransmitError weight) _ = _
  have htec' : 256 ≤ (c.canTransmitError weight).can.tec := htec
  rw [if_pos htec']

/-- A node back on the bus. -/
def Chip.canBack (c : Chip) : Chip := c.modCan fun n => { n with off := false, tec := 0, rec' := 0 }

theorem canBusOffRecovery_off (hoff : c.can.off = true) : canBusOffRecovery c = c.canBack.canStatus.emcyBare 0x8140 := if_pos hoff

end

theorem leaves_receiveError {s : State} {w : BitVec 8} (hon : s.chip.canOnBus = true) :
    Leaves (.canErrorDetected false w) s (fun c =>
      c.can.rec' = min (s.chip.can.rec' + w.toNat) 255 ∧ c.get K.canRec = (min (s.chip.can.rec' + w.toNat) 255 : Nat)) := by
  refine leaves_of_eq rfl (canErrorDetected_receive (c := s.chip.fresh) hon) ?_
  generalize hd : (if 256 ≤ s.chip.fresh.can.tec then (s.chip.fresh.canReceiveError w.toNat).canBusOff
    else s.chip.fresh.canReceiveError w.toNat) = d
  have hrec : d.can.rec' = min (s.chip.can.rec' + w.toNat) 255 := by
    subst hd
    split <;> rfl
  generalize s.chip.fresh.get K.canState = was
  obtain ⟨hsettled, -⟩ := Chip.rec_of_agrees (Chip.agrees_trans (settle_extends s.chip (d.canShown was)).1 (Chip.canShown_agrees was))
  refine ⟨by rw [hsettled, Chip.canStatus_can, hrec], ?_⟩
  rw [settle_get _ _ _ (by decide), (Chip.canShown_agrees was).2 _ (by decide), Chip.get_canStatus_canRec, hrec]
  omega

theorem leaves_busOff {s : State} {w : BitVec 8} (hon : s.chip.canOnBus = true) (hcal : s.chip.can.calibrating = false)
    (htec : 256 ≤ s.chip.can.tec + w.toNat) :
    Leaves (.canErrorDetected true w) s (fun c => c.can.off = true ∧ c.get K.canState = 3 ∧
      c.get K.canBusOffs = min (s.chip.get K.canBusOffs + 1) 0xFFFFFFFF) := by
  refine leaves_of_eq rfl (canErrorDetected_transmit (c := s.chip.fresh) hon htec) ?_
  generalize hd : (s.chip.fresh.canTransmitError w.toNat).canBusOff = d
  have hpin : d.pins.canStbyHigh = false := by
    subst hd
    have h : s.chip.pins.canStbyHigh = false := by
      unfold Chip.canOnBus at hon
      simp only [Bool.and_eq_true, Bool.not_eq_true'] at hon
      obtain ⟨⟨-, h⟩, -⟩ := hon
      exact h
    exact h
  have hcal' : d.can.calibrating = false := by subst hd; exact hcal
  have hoff : d.can.off = true := by subst hd; rfl
  have hcount : d.get K.canBusOffs = min (s.chip.get K.canBusOffs + 1) 0xFFFFFFFF := by subst hd; exact Chip.get_set_same _ _ _
  generalize s.chip.fresh.get K.canState = was
  have hstate : d.canStatus.get K.canState = 3 := by
    rw [Chip.get_canStatus_canState, hpin, hcal', hoff]
    rfl
  have hshown : d.canShown was = d.canStatus := if_neg (by simp [hstate])
  rw [hshown]
  refine ⟨?_, ?_, ?_⟩
  · rw [(Chip.rec_of_agrees (settle_extends _ _).1).2, Chip.canStatus_can, hoff]
  · rw [settle_canState _ (by simp [hstate]), hstate]
  · rw [settle_get _ _ _ (by decide), Chip.get_canStatus_other (by decide), hcount]

theorem leaves_recovery {s : State} (hoff : s.chip.can.off = true) (hpin : s.chip.pins.canStbyHigh = false)
    (hcal : s.chip.can.calibrating = false) :
    Leaves .canBusOffRecovery s (fun c => c.can.off = false ∧ c.can.rec' = 0 ∧ c.get K.canState = 0 ∧ c.get K.canRec = 0) := by
  refine leaves_of_eq rfl (canBusOffRecovery_off (c := s.chip.fresh) hoff) ?_
  generalize hd : s.chip.fresh.canBack = d
  have hpin' : d.pins.canStbyHigh = false := by subst hd; exact hpin
  have hcal' : d.can.calibrating = false := by subst hd; exact hcal
  have hcan : d.can.off = false ∧ d.can.rec' = 0 ∧ d.can.tec = 0 := by subst hd; exact ⟨rfl, rfl, rfl⟩
  obtain ⟨hoff', hrec, htec⟩ := hcan
  have hagrees := (Chip.emcyBare_extends d.canStatus 0x8140).1
  obtain ⟨hsettledRec, hsettledOff⟩ := Chip.rec_of_agrees (Chip.agrees_trans (settle_extends s.chip _).1 hagrees)
  have hstate : (d.canStatus.emcyBare 0x8140).get K.canState = 0 := by
    have hkept : KeptByMessages (fun c => c.get K.canState = 0) := by
      refine ⟨fun {c k v} hk h => ?_, fun {c e} hce h => ?_⟩
      · rw [Chip.get_set_other _ _ _ _ (by rintro rfl; revert hk; decide), h]
      · obtain ⟨hdict, -, -⟩ := hce
        rw [← Chip.dict_get, hdict, Chip.dict_get, h]
    refine hkept.emcy ?_
    rw [Chip.get_canStatus_canState, hpin', hcal', hoff', Can.level, htec, hrec]
    rfl
  refine ⟨?_, ?_, ?_, ?_⟩
  · rw [hsettledOff, Chip.canStatus_can, hoff']
  · rw [hsettledRec, Chip.canStatus_can, hrec]
  · rw [settle_canState _ (by simp [hstate]), hstate]
  · rw [settle_get _ _ _ (by decide), hagrees.2 _ (by decide), Chip.get_canStatus_canRec, hrec]
    rfl

/-- Settles O12: the messages of the node where it may transmit, and its error counts as the status then tells them. -/
theorem canNode : Obligations.CanNode := by
  unfold Obligations.CanNode
  refine ⟨⟨fun s hlist => ⟨?start, ?stop, ?pre, ?reset, ?resetState⟩, fun s hasleep hphase => ?wake⟩,
    fun s hsend => ⟨fun hlist htime => ?heartbeat, fun e rest hq hallowed => ?emcy,
      fun n htimer hphase hawake hvalid hhkp hnmt hfree => ?timer, fun n hinh hwait hnmt hhkp => ?inhibit⟩,
    fun s w hon => leaves_receiveError hon, fun s w hon hcal htec => leaves_busOff hon hcal htec,
    fun s hoff hpin hcal => leaves_recovery hoff hpin hcal⟩
  case start => exact effect_of_eq rfl (if_pos hlist) ⟨rfl, fun _ _ => rfl⟩
  case stop => exact effect_of_eq rfl (if_pos hlist) ⟨rfl, fun _ _ => rfl⟩
  case pre => exact effect_of_eq rfl (if_pos hlist) ⟨rfl, fun _ _ => rfl⟩
  case reset => exact effect_eq rfl (if_pos hlist)
  case resetState =>
    refine leaves_of_eq rfl (if_pos hlist) ?_
    rw [settle_get _ _ _ (by decide)]
    exact Chip.get_set_same _ _ _
  case wake => exact effect_of_eq rfl (if_pos ⟨hasleep, hphase⟩) ⟨rfl, fun _ _ => rfl⟩
  case heartbeat =>
    exact answer_of_sent rfl (heartbeat_sent (c := s.chip.fresh) hlist htime)
      (Chip.agrees_trans (Chip.canSend_extends _ _ _).1 (Chip.agrees_out _ _)) (Chip.canSend_prefix (c := s.chip.fresh) _ _ hsend)
  case emcy =>
    exact answer_of_sent rfl (emcyInhibitEnd_next (c := s.chip.fresh) hq hallowed)
      (Chip.agrees_trans (Chip.emcyTransmit_extends _ _).1 (Chip.agrees_trans (Chip.emcyNext_agrees rest) (Chip.agrees_out _ _)))
      (Chip.emcyTransmit_prefix (c := s.chip.fresh.emcyNext rest) e hsend)
  case timer =>
    have hcan := Chip.canState_of_mayTransmit hsend
    exact answer_of_sent rfl (tpdoEventTimer_sent (c := s.chip.fresh) htimer hphase hawake hvalid hhkp hnmt hcan hfree)
      (Chip.agrees_trans (Chip.tpdoSend_extends _ _).1 (Chip.agrees_out _ _)) (Chip.tpdoSend_prefix (c := s.chip.fresh) n.val hsend)
  case inhibit =>
    intro c
    have hcan := Chip.canState_of_mayTransmit hsend
    exact answer_of_sent rfl (tpdoInhibitEnd_sent (c := s.chip.fresh) hinh hwait hnmt hcan hhkp)
      (Chip.agrees_trans (Chip.tpdoSend_extends _ _).1 ⟨rfl, fun _ _ => rfl⟩) (Chip.tpdoSend_prefix (c := s.chip.fresh.tpdoFree n.val) n.val hsend)

end Sys2Proof.Machine
end

section
/-! Psirel: marks and the link (R390 to R399). -/

namespace Sys2Proof.Machine

/-- What a command answers whose work is known. -/
theorem answer_of_eq {i : Instr} {s : State} {f : Chip → Chip} {msgs : List OutMsg} {c d : Chip} (h : exec i s = run s f)
    (hf : f s.chip.fresh = d) (hd : d.agrees c) (hm : msgs <+: d.out) : Answer i s msgs c :=
  answer_of_run h (by subst hf; exact hd) (by subst hf; exact hm)

theorem guardNot_pass {b : Bool} {code : Abort} {k : Except Abort Chip} (h : b = false) : guardNot b code k = k := by
  rw [guardNot, h]
  rfl

/-! ### Marks -/

section
variable {c : Chip}

/-- The mark that the master sends for the latest multiple of 1 ms. -/
def Chip.ownMark (c : Chip) : OutMsg := .psirel 0x3C (psiMarkBytes true (c.now / 1000000 * 1000000) 0 c.psi.ownC.1 0
  (c.nat K.psirelTimescale + c.psi.ownC.2 + c.psi.stepSeq * 16))

theorem psirelMarkSend_master (hrole : c.get K.psirelRole = 1) (hlink : c.psiLinkOn = true) (hnone : c.psi.setTime = none) :
    psirelMarkSend c = c.emit c.ownMark := by
  have hmember : ¬ c.psiRole = 2 := by simp [Chip.psiRole, hrole]
  have hmaster : c.psiRole = 1 ∧ c.psiLinkOn = true := ⟨hrole, hlink⟩
  rw [psirelMarkSend, if_neg hmember, hnone, Chip.ownMark]
  dsimp only
  rw [if_pos hmaster, psiMarkStart]

theorem Chip.setTime_dict (t : Nat) : (c.setTime t).dict = c.dict := by
  unfold Chip.setTime
  rfl

theorem Chip.setTime_time (t : Nat) : (c.setTime t).clk.time = (t + 2 ^ 64 - c.clk.cycle * c.clk.sub % 2 ^ 64) % 2 ^ 64 := by
  unfold Chip.setTime
  rfl

theorem Chip.setTime_psi (t : Nat) : (c.setTime t).psi = c.psi := by
  unfold Chip.setTime
  rfl

/-- A time that waits is taken. -/
def Chip.timeTaken (c : Chip) (t : Nat) : Chip :=
  ({ c with psi := { c.psi with setTime := none, stepSeq := nextSeq c.psi.stepSeq 15 } } : Chip).setTime t

theorem Chip.timeTaken_time {t : Nat} (hsub : c.clk.sub = 0) (ht : t < 2 ^ 64) : (c.timeTaken t).clk.time = t := by
  rw [Chip.timeTaken, Chip.setTime_time]
  simp only [hsub, Nat.mul_zero, Nat.zero_mod]
  omega

theorem psirelMarkSend_alone {t : Nat} (hrole : c.get K.psirelRole = 0) (htime : c.psi.setTime = some t) :
    psirelMarkSend c = c.timeTaken t := by
  have hmember : ¬ c.psiRole = 2 := by simp [Chip.psiRole, hrole]
  have hmaster : ¬ ((c.timeTaken t).psiRole = 1 ∧ (c.timeTaken t).psiLinkOn = true) := by
    have hdict : (c.timeTaken t).dict = c.dict := by rw [Chip.timeTaken, Chip.setTime_dict]
    have hrole' : (c.timeTaken t).psiRole = 0 := by
      rw [Chip.psiRole, ← Chip.dict_get, hdict, Chip.dict_get, hrole]
    simp [hrole']
  unfold Chip.timeTaken at hmaster ⊢
  rw [psirelMarkSend, if_neg hmember, htime]
  dsimp only
  rw [if_neg hmaster]

theorem psirelTimeSet_taken {v : Nat} (hv : v % 1000000 = 0) (hrole : c.get K.psirelRole ≠ 2) :
    psirelTimeSet v c = .ok { c with psi := { c.psi with setTime := some v } } := by
  rw [psirelTimeSet, guardNot_pass (by simp [hv]), guardNot_pass (by simp [Chip.psiRole, hrole])]

theorem psirelTimeAdjust_taken {v : Int} (hlow : -1000000 ≤ v) (hhigh : v ≤ 1000000) (hrole : c.get K.psirelRole ≠ 2) :
    psirelTimeAdjust v c = .ok { c with psi := { c.psi with slew := c.psi.slew + v * 1000000 } } := by
  rw [psirelTimeAdjust, guardNot_pass (by simpa using hhigh), guardNot_pass (by simpa using hlow),
    guardNot_pass (by simp [Chip.psiRole, hrole])]

/-! ### A locked member -/

section
variable {mk : PsiMark}

/-- The integral part of the loop after an error. -/
def Chip.integAfter (c : Chip) (e : Int) : Int := clampI (c.psi.integ + rne (e * 1000) 10) (-700000) 700000

/-- A member that a mark reaches, before it judges it. -/
def Chip.markArrived (c : Chip) (mk : PsiMark) : Chip :=
  ({ c with psi := { c.psi with inputInvalid := false } } : Chip).set K.psirelUpstreamDelay
    (lowBits (mk.d.toNat + mk.c.toNat + c.nat K.psirelExtraDelay : Nat) 32)

/-- The values that a member reads from a mark. -/
def Chip.markValues (c : Chip) (mk : PsiMark) : List (Nat × Int) :=
  [(K.psirelError, satS (c.markError mk) 32), (K.psirelHops, min (mk.hops.toNat + 1) 255), (K.psirelTimescale, mk.flags.toNat % 2)]

/-- What a locked member reads from a mark that lies near. -/
def Chip.markRead (c : Chip) (mk : PsiMark) : Chip :=
  { c.setAll (c.markValues mk) with psi := { (c.setAll (c.markValues mk)).psi with lastT := some mk.t.toNat } }

theorem Chip.takeMark_locked (hstate : c.get K.psirelState = 4) (hlow : -16000 ≤ c.markError mk) (hhigh : c.markError mk ≤ 16000) :
    c.takeMark mk = (c.markRead mk).psiSteer (c.markError mk) := by
  have hnear : ¬ (decide (16000 < c.markError mk ∨ c.markError mk < -16000)) = true := by simp; omega
  unfold Chip.takeMark
  dsimp only
  rw [if_neg (by simp [hstate]), if_pos hstate, if_neg hnear]
  rfl

theorem psirelMarkReceived_locked (hrole : c.get K.psirelRole = 2) (hlink : c.psiLinkOn = true) (hstate : c.get K.psirelState = 4)
    (hcrc : mk.crcOk = true) (hhops : mk.hops.toNat < 64) (ht : 1000000 ≤ mk.t.toNat) (hlast : c.psi.lastT = some (mk.t.toNat - 1000000))
    (hlow : -16000 ≤ c.markError mk) (hhigh : c.markError mk ≤ 16000) :
    psirelMarkReceived mk c = (((c.markArrived mk).markRead mk).psiSteer (c.markError mk)).forwardMark mk := by
  have hvalid : ({ c with psi := { c.psi with inputInvalid := false } } : Chip).markValid mk = true := by
    simp [Chip.markValid, hcrc, hlast, ht]
  have herr : (c.markArrived mk).markError mk = c.markError mk := by
    unfold Chip.markError Chip.nat
    rw [Chip.markArrived, Chip.get_set_other _ _ _ _ (by decide)]
    rfl
  have hstate' : (c.markArrived mk).get K.psirelState = 4 := by
    rw [Chip.markArrived, Chip.get_set_other _ _ _ _ (by decide)]
    exact hstate
  have htake := Chip.takeMark_locked (c := c.markArrived mk) (mk := mk) hstate' (herr ▸ hlow) (herr ▸ hhigh)
  rw [herr] at htake
  have hrole' : c.psiRole = 2 := hrole
  unfold psirelMarkReceived
  rw [if_neg (by simp [hrole', hlink])]
  dsimp only
  rw [hvalid, if_pos hcrc, if_neg (by rw [hcrc]; omega)]
  change Chip.forwardMark (if mk.crcOk = true ∧ c.get K.psirelState = 6 then _ else if true = true then (c.markArrived mk).takeMark mk else _) mk = _
  rw [if_neg (by simp [hstate]), if_pos rfl, htake]

end

theorem Chip.forwardMark_kept (mk : PsiMark) : (c.forwardMark mk).psi = c.psi ∧ (c.forwardMark mk).clk = c.clk ∧
    ∀ k, k ≠ K.psirelTransit → (c.forwardMark mk).get k = c.get k := by
  unfold Chip.forwardMark
  dsimp only
  split
  · exact ⟨rfl, rfl, fun _ _ => rfl⟩
  · exact ⟨rfl, rfl, fun k hk => Chip.get_set_other _ _ _ _ hk⟩

theorem Chip.get_besidePsi (p : Psi) (k : Nat) : Chip.get { c with psi := p } k = c.get k := rfl

theorem Chip.psiSteer_eq (e : Int) : c.psiSteer e = ({ c with psi := { c.psi with integ := c.integAfter e } } : Chip).set K.psirelRateAdj
    (-(clampI (rne (e * 1000) 6 + c.integAfter e) (-700000) 700000)) := rfl

theorem Chip.get_psiSteer (e : Int) {k : Nat} (hk : k ≠ K.psirelRateAdj) : (c.psiSteer e).get k = c.get k := by
  rw [Chip.psiSteer_eq, Chip.get_set_other _ _ _ _ hk, Chip.get_besidePsi]

/-- What a locked member holds after a near mark. -/
theorem Chip.markRead_steered (mk : PsiMark) (e : Int) :
    ((c.markRead mk).psiSteer e).get K.psirelState = c.get K.psirelState ∧
    ((c.markRead mk).psiSteer e).get K.psirelError = satS (c.markError mk) 32 ∧
    ((c.markRead mk).psiSteer e).get K.psirelHops = min (mk.hops.toNat + 1) 255 ∧
    ((c.markRead mk).psiSteer e).psi.lastT = some mk.t.toNat ∧ ((c.markRead mk).psiSteer e).psi.integ = c.integAfter e ∧
    ((c.markRead mk).psiSteer e).get K.psirelRateAdj = -(clampI (rne (e * 1000) 6 + c.integAfter e) (-700000) 700000) ∧
    ((c.markRead mk).psiSteer e).clk = c.clk := by
  have hsteer : ∀ k, k ≠ K.psirelRateAdj → ((c.markRead mk).psiSteer e).get k = (c.setAll (c.markValues mk)).get k := fun k hk => by
    rw [Chip.get_psiSteer _ hk, Chip.markRead, Chip.get_besidePsi]
  have hinteg : (c.markRead mk).psi.integ = c.psi.integ := by
    unfold Chip.markRead
    rw [Chip.setAll_psi]
  refine ⟨?_, ?_, ?_, rfl, ?_, ?_, ?_⟩
  · rw [hsteer _ (by decide), Chip.markValues, Chip.get_setAll_other]
    simp only [List.mem_cons, List.not_mem_nil, or_false, forall_eq_or_imp, forall_eq]
    decide
  · rw [hsteer _ (by decide), Chip.markValues, Chip.setAll_cons, Chip.get_setAll_other]
    · exact Chip.get_set_same _ _ _
    · simp only [List.mem_cons, List.not_mem_nil, or_false, forall_eq_or_imp, forall_eq]
      decide
  · rw [hsteer _ (by decide), Chip.markValues, Chip.setAll_cons, Chip.setAll_cons, Chip.get_setAll_other]
    · rw [Chip.get_set_same]
      omega
    · simp only [List.mem_cons, List.not_mem_nil, or_false, forall_eq]
      decide
  · rw [Chip.psiSteer_eq, Chip.set_psi, Chip.integAfter, hinteg, Chip.integAfter]
  · rw [Chip.psiSteer_eq, Chip.get_set_same, Chip.integAfter, hinteg, Chip.integAfter]
  · rw [Chip.psiSteer_eq, Chip.set_clk]
    unfold Chip.markRead
    rw [Chip.setAll_clk]

theorem psirelHoldover_locked (hrole : c.get K.psirelRole = 2) (hstate : c.get K.psirelState = 4) :
    psirelHoldover c = (c.bump K.psirelHoldovers).psiState 5 := if_pos ⟨hrole, hstate⟩

theorem Chip.get_psiState {new : Int} {k : Nat} (hk : k ∉ statusKeys) (hr : k ∉ recordKeys) :
    (c.psiState new).get k = (c.set K.psirelState new).get k := by
  unfold Chip.psiState
  dsimp only
  split
  · rw [(Chip.emcyFor_extends _ _ _ _).1.2 _ hk, Chip.get_raise _ _ _ _ _ _ _ _ (by decide) _ hk hr]
  · rfl

end

/-- Settles O13: the commands of the master and the loop of a locked member, each on its own conditions. -/
theorem psirelMarks : Obligations.PsirelMarks := by
  unfold Obligations.PsirelMarks
  refine ⟨⟨?send, ?take, ?set, ?adjust⟩, ?received, ?holdover⟩
  case send =>
    intro s hrole hlink hnone
    exact answer_of_eq rfl (psirelMarkSend_master (c := s.chip.fresh) hrole hlink hnone) ⟨rfl, fun _ _ => rfl⟩ List.prefix_rfl
  case take =>
    intro s t hrole htime hsub ht
    refine leaves_of_eq rfl (psirelMarkSend_alone (c := s.chip.fresh) hrole htime) ?_
    rw [settle_clk, settle_psi]
    refine ⟨Chip.timeTaken_time hsub ht, ?_, ?_⟩
    · rw [Chip.timeTaken, Chip.setTime_psi]
    · rw [Chip.timeTaken, Chip.setTime_psi]
      rfl
  case set =>
    intro s m v hs hv hrole
    exact effect_of_command rfl hs (psirelTimeSet_taken (c := s.chip.fresh) hv hrole) ⟨rfl, fun _ _ => rfl⟩
  case adjust =>
    intro s m v hs hlow hhigh hrole
    exact effect_of_command rfl hs (psirelTimeAdjust_taken (c := s.chip.fresh) hlow hhigh hrole) ⟨rfl, fun _ _ => rfl⟩
  case received =>
    intro s mk hrole hlink hstate hcrc hhops ht hlast hlow hhigh e integ
    have hf := psirelMarkReceived_locked (c := s.chip.fresh) hrole hlink hstate hcrc hhops ht hlast hlow hhigh
    have he : s.chip.fresh.markError mk = e := rfl
    rw [he] at hf
    have herr : satS e 32 = e := ((satS_spec e 32).2.2 (by simp; omega) (by simp; omega))
    generalize hd : s.chip.fresh.markArrived mk = d at hf
    have hdget : ∀ k, k ≠ K.psirelUpstreamDelay → d.get k = s.chip.get k := fun k hk => by
      subst hd
      exact Chip.get_set_other _ _ _ _ hk
    have hdclk : d.clk = s.chip.clk := by subst hd; rfl
    have hdpsi : d.psi.integ = s.chip.psi.integ := by subst hd; rfl
    have hderr : d.markError mk = e := by
      unfold Chip.markError Chip.nat
      rw [hdget _ (by decide), Chip.now, hdclk]
      rfl
    obtain ⟨hstate', herror, hhop, hlastT, hinteg, hrate, hclk⟩ := Chip.markRead_steered (c := d) mk e
    have hinteg' : d.integAfter e = integ := by rw [Chip.integAfter, hdpsi]
    generalize (d.markRead mk).psiSteer e = x at hstate' herror hhop hlastT hinteg hrate hclk hf
    obtain ⟨hpsi, hclk', hget⟩ := Chip.forwardMark_kept (c := x) mk
    refine leaves_of_eq rfl hf ?_
    rw [settle_get _ _ _ (by decide), settle_get _ _ _ (by decide), settle_get _ _ _ (by decide), settle_get _ _ _ (by decide),
      settle_psi, settle_clk, hpsi, hclk', hget _ (by decide), hget _ (by decide), hget _ (by decide), hget _ (by decide)]
    refine ⟨?_, ?_, ?_, hlastT, ?_, ?_, ?_⟩
    · rw [hstate', hdget _ (by decide), hstate]
    · rw [herror, hderr, herr]
    · rw [hhop]; omega
    · rw [hinteg, hinteg']
    · rw [hrate, hinteg']
    · rw [hclk, hdclk]
  case holdover =>
    intro s hrole hstate
    refine leaves_of_eq rfl (psirelHoldover_locked (c := s.chip.fresh) hrole hstate) ⟨?_, ?_⟩
    · rw [settle_get _ _ _ (by decide), Chip.get_psiState (by decide) (by decide)]
      exact Chip.get_set_same _ _ _
    · rw [settle_get _ _ _ (by decide), Chip.get_psiState (by decide) (by decide), Chip.get_set_other _ _ _ _ (by decide)]
      exact Chip.get_set_same _ _ _

/-! ### Return measurements and inputs -/

section
variable {c : Chip}

theorem psirelReturnMeasure_valid {x : BitVec 16} (hlink : c.psiLinkOn = true) (hen : c.get K.psirelRetEnable ≠ 0) :
    psirelReturnMeasure (.valid x) c =
      ({ c with psi := { c.psi with lastC := some x.toNat, lastRet := 0, returns := (x.toNat :: c.psi.returns).take 64 } } : Chip).set
        K.psirelRetState 0 := by
  rw [psirelReturnMeasure, if_neg (by simp [hlink]), if_neg hen]

theorem psirelCableDelayPublish_mean (hlink : c.psiLinkOn = true) (hen : c.get K.psirelRetEnable ≠ 0) (hret : c.psi.returns ≠ []) :
    psirelCableDelayPublish c = c.set K.psirelCableDelay (rneDiv (sumN c.psi.returns) c.psi.returns.length) := by
  rw [psirelCableDelayPublish, if_neg (by simp [hlink, hen, hret])]

theorem Chip.wake_asleep (hasleep : c.mode.asleep = true) (hphase : c.boot.phase = .ready) :
    c.wake = { c with mode := { c.mode with waking := true } } := if_pos ⟨hasleep, hphase⟩

theorem psirelWake_master (hrole : c.get K.psirelRole = 1) (hlink : c.psiLinkOn = true) : psirelWake 1 c = .ok (c.emit .psirelGap) := by
  rw [psirelWake, guardNot_pass (by decide), if_pos ⟨hrole, hlink⟩]

theorem psirelInputInvalid_member {n : Nat} (hrole : c.get K.psirelRole = 2) (hlink : c.psiLinkOn = true) :
    psirelInputInvalid n c = ({ c with psi := { c.psi with
      inputInvalid := c.psi.inputInvalid || decide (n = 0 ∨ 16 < n) } } : Chip).bumpBy K.psirelCodeErrors n := by
  have hrole' : c.psiRole = 2 := hrole
  rw [psirelInputInvalid, if_neg (by simp [hrole', hlink])]
  dsimp only
  split
  case isTrue h =>
    simp only [h, decide_true, Bool.or_true]
    rfl
  case isFalse h =>
    simp only [h, decide_false, Bool.or_false]

theorem psirelInInverted_member (hrole : c.get K.psirelRole = 2) (hlink : c.psiLinkOn = true) :
    psirelInInverted c = c.set K.psirelInInverted 1 := if_pos ⟨hrole, hlink⟩

end

/-- Settles O14: measurements, wake gaps and input faults where the link is on. -/
theorem psirelLink : Obligations.PsirelLink := by
  unfold Obligations.PsirelLink
  refine ⟨fun s _ hlink hen => ⟨fun x => ?measure, fun hret => ?mean⟩, fun s m hs hrole hlink => ?gap, fun s hasleep hphase => ?wake,
    fun s n hrole hlink => ⟨?invalid, ?inverted⟩⟩
  case measure => exact effect_of_eq rfl (psirelReturnMeasure_valid (c := s.chip.fresh) hlink hen) ⟨rfl, fun _ _ => rfl⟩
  case mean => exact effect_of_eq rfl (psirelCableDelayPublish_mean (c := s.chip.fresh) hlink hen hret) ⟨rfl, fun _ _ => rfl⟩
  case gap =>
    exact answer_of_command rfl hs (psirelWake_master (c := s.chip.fresh) hrole hlink) rfl (Chip.agrees_out _ _)
  case wake => exact effect_of_eq rfl (Chip.wake_asleep (c := s.chip.fresh) hasleep hphase) ⟨rfl, fun _ _ => rfl⟩
  case invalid => exact effect_of_eq rfl (psirelInputInvalid_member (c := s.chip.fresh) hrole hlink) ⟨rfl, fun _ _ => rfl⟩
  case inverted => exact effect_of_eq rfl (psirelInInverted_member (c := s.chip.fresh) hrole hlink) ⟨rfl, fun _ _ => rfl⟩

end Sys2Proof.Machine
end

section
/-! Triggers (R385, R397). -/

namespace Sys2Proof.Machine

section
variable {c : Chip}

/-! ### Triggers written -/

section
variable {v : Nat} (hv : triggerInvalid v = false)
include hv

theorem psirelTrigger_master (hrole : c.get K.psirelRole = 1) :
    psirelTrigger v c = .ok (c.sendTrigger (c.now + c.nat K.psirelTriggerLead) (bits v 13 0) (bits v 23 16)) := by
  have hrole' : c.psiRole = 1 := hrole
  rw [psirelTrigger, guardNot_pass hv, if_pos hrole']

theorem canTrigger_master (hrole : c.get K.psirelRole = 1) :
    canTrigger v c = .ok (c.sendTrigger (c.now + c.nat K.psirelTriggerLead) (bits v 13 0) (bits v 23 16)) := by
  have hrole' : c.psiRole = 1 := hrole
  rw [canTrigger, guardNot_pass hv]
  dsimp only
  rw [if_pos hrole']

theorem canTrigger_alone (hrole : c.get K.psirelRole = 0) :
    canTrigger v c = .ok (c.acceptTrigger (c.now + c.nat K.psirelTriggerLead) (bits v 13 0) (bits v 23 16)) := by
  have hrole' : c.psiRole = 0 := hrole
  rw [canTrigger, guardNot_pass hv]
  dsimp only
  rw [if_neg (by simp [hrole']), if_pos hrole']

theorem canTrigger_member (hrole : c.get K.psirelRole = 2) : canTrigger v c = .ok (c.bump K.canTriggersIgnored) := by
  have hrole' : c.psiRole = 2 := hrole
  rw [canTrigger, guardNot_pass hv]
  dsimp only
  rw [if_neg (by simp [hrole']), if_neg (by simp [hrole'])]

end

/-! ### Periodic triggers -/

/-- The latest target at or before an instant, of those a phase and a period give. -/
theorem latestTarget {target ahead p : Nat} {phase k : Int} (htarget : (target : Int) = phase + k * p) (hle : target ≤ ahead)
    (hlt : ahead < target + p) : ((ahead : Int) - ((ahead : Int) - phase) % p).toNat = target := by
  have hsplit : (ahead : Int) - phase = ((ahead - target : Nat) : Int) + k * p := by omega
  have hrest : (((ahead - target : Nat) : Int) + k * p) % p = ((ahead - target : Nat) : Int) := by
    rw [Int.add_mul_emod_self_right]
    exact Int.emod_eq_of_lt (by omega) (by omega)
  rw [hsplit, hrest]
  omega

theorem psirelPeriodicTrigger_master {target : Nat} {k : Int} (hrole : c.get K.psirelRole = 1) (hperiod : c.nat K.psirelTrigPeriod ≠ 0)
    (htarget : (target : Int) = c.get K.psirelTrigPhase + k * c.nat K.psirelTrigPeriod)
    (hle : target ≤ c.now + c.nat K.psirelTriggerLead) (hlt : c.now + c.nat K.psirelTriggerLead < target + c.nat K.psirelTrigPeriod) :
    psirelPeriodicTrigger c = c.sendTrigger target 0 (c.nat K.psirelTrigGroups) := by
  have hrole' : c.psiRole = 1 := hrole
  rw [psirelPeriodicTrigger]
  dsimp only
  rw [if_pos ⟨hrole', hperiod⟩, latestTarget htarget hle hlt]

/-! ### Triggers received -/

/-- A part that has forwarded a trigger. -/
def Chip.forwarded (c : Chip) (o : OutMsg) : Chip := ({ c with psi := { c.psi with inputInvalid := false } } : Chip).emit o

theorem Chip.forwarded_agrees (o : OutMsg) :
    (c.fresh.forwarded o).agrees { c with psi := { c.psi with inputInvalid := false } } := ⟨rfl, fun _ _ => rfl⟩

/-- The message by which a member passes a trigger on. -/
def triggerMessage (t : PsiTrigger) : OutMsg :=
  .psirel 0x7C (psiTriggerBytes t.crcOk t.target.toNat t.node.toNat t.mask.toNat t.seq.toNat)

theorem psirelTriggerReceived_member {t : PsiTrigger} (hrole : c.get K.psirelRole = 2) (hlink : c.psiLinkOn = true) :
    psirelTriggerReceived t c =
      if t.crcOk then (c.forwarded (triggerMessage t)).acceptTrigger t.target.toNat t.node.toNat t.mask.toNat else c.forwarded (triggerMessage t) := by
  have hrole' : c.psiRole = 2 := hrole
  rw [psirelTriggerReceived, if_neg (by simp [hrole', hlink])]
  rfl

section
variable {target node mask : Nat}

theorem Chip.acceptTrigger_other (hzero : node ≠ 0) (hnode : node ≠ c.nat K.psirelNode) : c.acceptTrigger target node mask = c :=
  if_neg (by simp only [hzero, hnode, or_self, not_false_eq_true])

theorem Chip.acceptTrigger_late (hnode : node = 0 ∨ node = c.nat K.psirelNode) (hlate : target < c.now) :
    c.acceptTrigger target node mask = c.bump K.psirelTriggersLate := by
  rw [Chip.acceptTrigger, if_pos hnode, if_pos hlate]

theorem Chip.acceptTrigger_noHead (hnode : node = 0 ∨ node = c.nat K.psirelNode) (htime : c.now ≤ target)
    (hheads : c.triggeredHeads mask = 0) : c.acceptTrigger target node mask = c := by
  rw [Chip.acceptTrigger, if_pos hnode, if_neg (by omega)]
  dsimp only
  rw [if_pos hheads]

theorem Chip.acceptTrigger_kept (hnode : node = 0 ∨ node = c.nat K.psirelNode) (htime : c.now ≤ target)
    (hheads : c.triggeredHeads mask ≠ 0) : c.acceptTrigger target node mask =
      { c with psi := { c.psi with waiting := c.psi.waiting ++ [{ target := target, heads := c.triggeredHeads mask }] } } := by
  rw [Chip.acceptTrigger, if_pos hnode, if_neg (by omega)]
  dsimp only
  rw [if_neg hheads]

end

end

/-- Parts that agree still agree when the Psirel part is replaced in both. -/
theorem Chip.agrees_psi {a b : Chip} (h : a.agrees b) (x : Psi) : Chip.agrees { a with psi := x } { b with psi := x } :=
  ⟨congrArg (fun c : Chip => { c with psi := x }) h.1, h.2⟩

/-- Settles O15: each role's branch, and the target of a periodic trigger by its remainder. -/
theorem triggers : Obligations.Triggers := by
  unfold Obligations.Triggers
  refine ⟨fun s m v hv => ⟨?psirel, ?alone, ?master, ?member⟩, ?periodic, ?received⟩
  case psirel => exact fun hs hrole => effect_of_command rfl hs (psirelTrigger_master (c := s.chip.fresh) hv hrole) (Chip.agrees_refl _)
  case alone => exact fun hs hrole => effect_of_command rfl hs (canTrigger_alone (c := s.chip.fresh) hv hrole) (Chip.agrees_refl _)
  case master => exact fun hs hrole => effect_of_command rfl hs (canTrigger_master (c := s.chip.fresh) hv hrole) (Chip.agrees_refl _)
  case member => exact fun hs hrole => effect_of_command rfl hs (canTrigger_member (c := s.chip.fresh) hv hrole) ⟨rfl, fun _ _ => rfl⟩
  case periodic =>
    intro s target k hrole hperiod ahead htarget hle hlt
    exact effect_eq rfl (psirelPeriodicTrigger_master (c := s.chip.fresh) hrole hperiod htarget hle hlt)
  case received =>
    intro s t hrole hlink msg
    have hf := psirelTriggerReceived_member (c := s.chip.fresh) (t := t) hrole hlink
    have hsent : (s.chip.fresh.forwarded (triggerMessage t)).out = [msg] := rfl
    have hagrees := s.chip.forwarded_agrees (triggerMessage t)
    have hnow : (s.chip.fresh.forwarded (triggerMessage t)).now = s.chip.now := rfl
    have hnode : (s.chip.fresh.forwarded (triggerMessage t)).nat K.psirelNode = s.chip.nat K.psirelNode := rfl
    have hheads : (s.chip.fresh.forwarded (triggerMessage t)).triggeredHeads t.mask.toNat = s.chip.triggeredHeads t.mask.toNat := rfl
    have hwaiting : (s.chip.fresh.forwarded (triggerMessage t)).psi = { s.chip.psi with inputInvalid := false } := rfl
    generalize s.chip.fresh.forwarded (triggerMessage t) = d at *
    have hprefix : [msg] <+: d.out := hsent ▸ List.prefix_rfl
    have hon {c : Chip} (hcrc : t.crcOk = true) (h : d.acceptTrigger t.target.toNat t.node.toNat t.mask.toNat = c) :
        psirelTriggerReceived t s.chip.fresh = c := by rw [hf, if_pos hcrc, h]
    refine ⟨?other, fun hcrc hn => ⟨fun hlate => ?late, fun htime hnone => ?noHead⟩, fun hcrc hn htime hsome => ?kept⟩
    case other =>
      intro h
      refine answer_of_eq (d := d) rfl ?_ hagrees hprefix
      by_cases hcrc : t.crcOk = true
      · obtain ⟨hzero, hother⟩ := h.resolve_left (by simp [hcrc])
        exact hon hcrc (Chip.acceptTrigger_other hzero (hnode ▸ hother))
      · rw [hf, if_neg hcrc]
    case late =>
      exact answer_of_eq rfl (hon hcrc (Chip.acceptTrigger_late (hnode ▸ hn) (hnow ▸ hlate))) (Chip.agrees_bump hagrees (by decide)) hprefix
    case noHead =>
      exact answer_of_eq rfl (hon hcrc (Chip.acceptTrigger_noHead (hnode ▸ hn) (hnow ▸ htime) (hheads ▸ hnone))) hagrees hprefix
    case kept =>
      refine answer_of_eq rfl (hon hcrc (Chip.acceptTrigger_kept (hnode ▸ hn) (hnow ▸ htime) (hheads ▸ hsome))) ?_ hprefix
      rw [hheads, hwaiting]
      exact Chip.agrees_psi hagrees _

end Sys2Proof.Machine
end

section
/-! SUPPORT. What a watchdog may change: the records, and the history of the cells, blocks and regions that it resets (R469 to R472). -/

namespace Sys2Proof.Machine

/-- The first part is the second with records and with the history of its regions moved. -/
def Chip.watched (a b : Chip) : Prop := Chip.recorded { a with regions := [] } { b with regions := [] }

section
variable {a b c : Chip}

theorem Chip.watched_refl (c : Chip) : c.watched c := Chip.recorded_refl _

theorem Chip.watched_trans (h : a.watched b) (h' : b.watched c) : a.watched c := Chip.recorded_trans h h'

theorem Chip.watched_of_recorded (h : a.recorded b) : a.watched b := by
  obtain ⟨hapart, hget⟩ := h
  exact ⟨congrArg (fun c : Chip => { c with regions := [] }) hapart, hget⟩

theorem Chip.watched_ite {p : Prop} [Decidable p] (ha : a.watched c) (hb : b.watched c) : (if p then a else b).watched c := by
  split
  exacts [ha, hb]

theorem Chip.modRegion_watched (r : Nat) (f : RegionHist → RegionHist) : (c.modRegion r f).watched c := ⟨rfl, fun _ _ _ => rfl⟩

theorem Chip.modBlock_watched (r i : Nat) (f : BlockHist → BlockHist) : (c.modBlock r i f).watched c := Chip.modRegion_watched _ _

theorem Chip.raise_watched (level region block cell code ctx0 ctx1 : Nat) (hr : region ≤ 5) :
    (c.raise level region block cell code ctx0 ctx1).watched c := Chip.watched_of_recorded (Chip.raise_recorded _ _ _ _ _ _ _ _ hr)

theorem Chip.schedule_watched (r i k : Nat) : (c.schedule r i k).watched c := Chip.modRegion_watched _ _

theorem Chip.blockReset_watched {region : Nat} (b : Nat) (hr : region ≤ 5) : (c.blockReset region b).watched c := by
  unfold Chip.blockReset
  dsimp only
  refine Chip.watched_ite (Chip.watched_trans (Chip.schedule_watched _ _ _) (Chip.modBlock_watched _ _ _)) ?_
  exact Chip.watched_trans (Chip.raise_watched _ _ _ _ _ _ _ hr)
    (Chip.watched_trans (Chip.modBlock_watched _ _ _) (Chip.modBlock_watched _ _ _))

theorem Chip.countCell_watched {region : Nat} (b cell code : Nat) (hr : region ≤ 5) : (c.countCell region b cell code).watched c := by
  unfold Chip.countCell
  dsimp only
  exact Chip.watched_ite (Chip.watched_trans (Chip.blockReset_watched _ hr) (Chip.modBlock_watched _ _ _)) (Chip.modBlock_watched _ _ _)

theorem Chip.cellExpired_watched {region : Nat} (b cell code ctx0 ctx1 : Nat) (hr : region ≤ 5) :
    (c.cellExpired region b cell code ctx0 ctx1).watched c := by
  unfold Chip.cellExpired
  dsimp only
  have hraised : Chip.watched (if code = 0 then c else c.raise 0 region b cell code ctx0 ctx1) c :=
    Chip.watched_ite (Chip.watched_refl c) (Chip.raise_watched _ _ _ _ _ _ _ hr)
  exact Chip.watched_ite hraised (Chip.watched_trans (Chip.countCell_watched _ _ _ hr) hraised)

theorem Chip.watched_hk (h : a.watched b) : a.hk = b.hk := by
  have h' := Chip.recorded_hk h
  exact h'

theorem Chip.watched_clk (h : a.watched b) : a.clk = b.clk := by
  have h' := Chip.recorded_clk h
  exact h'

theorem Chip.watchdog_free {region i cell code ctx0 ctx1 : Nat} {reset : Chip → Chip} (hs : c.suspended region i = false)
    (hh : c.cellHeld region i = false) :
    c.watchdog region i cell code ctx0 ctx1 reset = reset (c.cellExpired region i cell code ctx0 ctx1) := by
  rw [Chip.watchdog, hs, hh]
  rfl

theorem Chip.watchdog_held {region i cell code ctx0 ctx1 : Nat} {reset : Chip → Chip} (hs : c.suspended region i = false)
    (hh : c.cellHeld region i = true) :
    c.watchdog region i cell code ctx0 ctx1 reset = c.cellExpired region i cell code ctx0 ctx1 := by
  rw [Chip.watchdog, hs, hh]
  rfl

theorem Chip.watchdog_suspended {region i cell code ctx0 ctx1 : Nat} {reset : Chip → Chip} (hs : c.suspended region i = true) :
    c.watchdog region i cell code ctx0 ctx1 reset = c := by
  rw [Chip.watchdog, hs]
  rfl

end

end Sys2Proof.Machine
end

section
/-! Housekeeping rounds and urgent conversions (R162 to R168). -/

namespace Sys2Proof.Machine

/-! ### Urgent conversions -/

section
variable {c : Chip} {v : Nat}

/-- A part whose urgent requests have taken a sequence. -/
def Chip.urgentSeqAt (c : Chip) (seq : Nat) : Chip := c.modHk fun x => { x with urgentSeq := seq }

/-- The outcomes of a request of a channel that exists, for the sequence that it takes. -/
theorem urgentRequest_of {seq : Nat} (hch : v % 256 ≤ 31) (hseq : nextSeq c.hk.urgentSeq 0xFFFF = seq) :
    urgentRequest v c =
      if hkCount (v % 256) ≤ v / 256 ∨ (!c.hkMeasures (v % 256)) = true ∨ (at' c.hk.busy (v % 256 / 16) && c.hkWasReset (v % 256 / 16)) = true then
        .ok ((c.urgentSeqAt seq).urgentStatus seq 4)
      else if c.hkBusy (v % 256 / 16) then .ok (((c.urgentSeqAt seq).urgentStatus seq 3).bump K.hkUrgentDropped)
      else .ok (((c.urgentSeqAt seq).urgentStatus seq 1).modHk (fun (x : Hk) => { x with urgent := modAt x.urgent (v % 256 / 16) (fun _ =>
        some { ch := v % 256, member := v / 256, time := (c.now + c.nat K.hkSettle) % 2 ^ 64, seq := seq }) })) := by
  rw [urgentRequest]
  dsimp only
  rw [guardNot_pass (by simp; omega), hseq]
  rfl

end

section
variable {c : Chip} {k : Nat} {u : Urgent}

theorem urgentComplete_of {code : Nat} (hu : at' c.hk.urgent k = some u) :
    urgentComplete k code c = (c.urgentLeave k).setAll [(K.hkUrgentStatus, (u.seq * 2 ^ 16 + 2 : Nat)),
      (K.hkUrgentResult, hkValue code 1 (hkFull u.ch u.member)), (K.hkUrgentTime, u.time)] := by
  rw [urgentComplete, hu, Chip.setAll_cons]
  rfl

theorem urgentMeasured_code {code : Nat} : urgentMeasured k code none c = urgentComplete k code c := rfl

theorem urgentMeasured_input {code : Nat} {x : Int} (hu : at' c.hk.urgent k = some u) :
    urgentMeasured k code (some x) c = urgentComplete k (hkCode x (hkFull u.ch u.member)) c := by
  unfold urgentMeasured
  rw [hu]

theorem Chip.urgentLeave_agrees : (c.fresh.urgentLeave k).agrees (c.urgentLeave k) := ⟨rfl, fun _ _ => rfl⟩

theorem Chip.agrees_setAll {a b : Chip} (h : a.agrees b) (l : List (Nat × Int)) : (a.setAll l).agrees (b.setAll l) := by
  induction l generalizing a b with
  | nil => exact h
  | cons e l ih => exact ih (Chip.agrees_set h _ _)

end

/-- Settles O18: a request by the state of its converter, and the end of a conversion. -/
theorem urgentConversions : Obligations.UrgentConversions := by
  unfold Obligations.UrgentConversions
  refine ⟨?request, ?complete⟩
  case request =>
    intro s m v hs hch ch seq c
    have hf := urgentRequest_of (c := s.chip.fresh) hch (seq := seq) rfl
    have hc : (s.chip.fresh.urgentSeqAt seq).agrees c := ⟨rfl, fun _ _ => rfl⟩
    have hclear : v.toNat / 256 < hkCount ch → s.chip.hkMeasures ch = true →
        (at' s.chip.hk.busy (ch / 16) = true → s.chip.hkWasReset (ch / 16) = false) →
        ¬ (hkCount ch ≤ v.toNat / 256 ∨ (!s.chip.hkMeasures ch) = true ∨
          (at' s.chip.hk.busy (ch / 16) && s.chip.hkWasReset (ch / 16)) = true) := by
      rintro hm hmeas hreset (h | h | h)
      · omega
      · simp [hmeas] at h
      · obtain ⟨hbusy, hwas⟩ := Bool.and_eq_true_iff.1 h
        simp [hreset hbusy] at hwas
    refine ⟨fun hm hmeas hfree => ?accepted, fun hm hmeas hbusy hreset => ?dropped, fun h => ?invalid⟩
    case accepted =>
      have hnot : at' s.chip.hk.busy (ch / 16) = true → s.chip.hkWasReset (ch / 16) = false := by
        intro h
        simp [Chip.hkBusy, h] at hfree
      refine effect_of_command rfl hs (hf.trans ((if_neg (hclear hm hmeas hnot)).trans (if_neg ?_))) ?_
      · exact Bool.eq_false_iff.1 hfree
      · exact Chip.agrees_set (Chip.agrees_hk (Chip.agrees_out s.chip []) _) _ _
    case dropped =>
      refine effect_of_command rfl hs (hf.trans ((if_neg (hclear hm hmeas hreset)).trans (if_pos hbusy))) ?_
      exact Chip.agrees_bump (Chip.agrees_set hc _ _) (by decide)
    case invalid =>
      refine effect_of_command rfl hs (hf.trans (if_pos ?_)) (Chip.agrees_set hc _ _)
      rcases h with h | h | ⟨hbusy, hreset⟩
      · exact .inl h
      · exact .inr (.inl (by rw [Bool.not_eq_true']; exact h))
      · exact .inr (.inr (Bool.and_eq_true_iff.2 ⟨hbusy, hreset⟩))
  case complete =>
    intro s k code input u hu read
    have hf {code : Nat} := urgentComplete_of (c := s.chip.fresh) (code := code) hu
    cases input with
    | none =>
      exact effect_of_eq (f := urgentMeasured k.val code.toNat none) rfl (urgentMeasured_code.trans hf)
        (Chip.agrees_setAll Chip.urgentLeave_agrees _)
    | some x =>
      exact effect_of_eq (f := urgentMeasured k.val code.toNat (some x)) rfl ((urgentMeasured_input (c := s.chip.fresh) hu).trans hf)
        (Chip.agrees_setAll Chip.urgentLeave_agrees _)

/-! ### Rounds -/

section
variable {c : Chip} {k : Nat}

/-- A converter in reset, which begins now. -/
def Chip.hkReset (c : Chip) (k : Nat) : Chip :=
  (c.cellExpired 5 1 k 0x5007 k 0).modHk fun x => { x with reset := modAt x.reset k (fun _ => some c.mono) }

theorem Chip.suspended_none {region b : Nat} (h : waitsOn region b = []) : c.suspended region b = false := by
  rw [Chip.suspended, h]
  rfl

theorem Chip.hkReset_urgent (k : Nat) : (c.hkReset k).hk.urgent = c.hk.urgent := by
  have hhk : (c.cellExpired 5 1 k 0x5007 k 0).hk = c.hk := Chip.watched_hk (Chip.cellExpired_watched 1 k 0x5007 k 0 (by decide))
  rw [Chip.hkReset, Chip.modHk_hk, hhk]

/-- What a watchdog does to a converter whose cell is free to reset. -/
theorem hkWatchdog_free (hbusy : c.hkBusy k = true) (hheld : c.cellHeld 5 1 = false) :
    (at' c.hk.urgent k = none → hkWatchdog k c = c.hkReset k) ∧
    ∀ u, at' c.hk.urgent k = some u → hkWatchdog k c = ((c.hkReset k).urgentLeave k).urgentStatus u.seq 4 := by
  have hclk : (c.cellExpired 5 1 k 0x5007 k 0).clk = c.clk := Chip.watched_clk (Chip.cellExpired_watched 1 k 0x5007 k 0 (by decide))
  have hreset : ((c.cellExpired 5 1 k 0x5007 k 0).modHk fun (x : Hk) => { x with
      reset := modAt x.reset k (fun _ => some (c.cellExpired 5 1 k 0x5007 k 0).mono) }) = c.hkReset k := by
    rw [Chip.mono, hclk, Chip.hkReset, Chip.mono]
  rw [hkWatchdog, if_neg (by simp [hbusy]), Chip.watchdog_free (Chip.suspended_none rfl) hheld]
  dsimp only
  rw [hreset, Chip.hkReset_urgent]
  refine ⟨fun h => ?_, fun u h => ?_⟩
  · rw [h]
  · rw [h]

theorem hkComplete_ends {sums0 sums1 : List Nat} {mr0 mr1 : Option Nat} (hon : c.hk.on = true) (hround : c.hk.round = true)
    (hwaits : c.hk.waits.any id = false) :
    hkComplete sums0 sums1 mr0 mr1 c = (((((((((((c.hkPublish (c.hkValues 0 sums0 ++ c.hkValues 1 sums1)).tfpaRound 0).tfpaRound 1).tfpaRound
      2).tfpaRound 3).sensorRound.limitsRound.shutdownRound.throttleRound.refreshRound 0 mr0).refreshRound 1 mr1).headCurrents
        0).headCurrents 1).headCurrents 2).headCurrents 3).vrefRound.calRound.nvmHoldCheck := by
  have hrange : List.range 4 = [0, 1, 2, 3] := rfl
  rw [hkComplete, if_neg (by simp [hon, hround, hwaits])]
  simp only [hrange, List.foldl_cons, List.foldl_nil]

end

theorem Chip.hkJudge_silent : Silent Chip.hkJudge := .ite (fun _ _ => rfl) (fun _ _ => rfl) .id

theorem hkPartEnd_silent (k : Nat) : Silent (hkPartEnd k) := fun c l => by
  rw [hkPartEnd, Chip.hkJudge_silent c l]
  rfl

/-- Settles O17: what each command does where its round or its conversion runs. -/
theorem housekeepingRounds : Obligations.HousekeepingRounds := by
  unfold Obligations.HousekeepingRounds
  refine ⟨⟨?ended, ?watchdog⟩, ?complete⟩
  case ended =>
    intro s k
    exact effect_of_silent rfl (hkPartEnd_silent k.val) rfl
  case watchdog =>
    intro s k hbusy hheld c
    obtain ⟨hnone, hsome⟩ := hkWatchdog_free (c := s.chip.fresh) hbusy hheld
    exact ⟨fun h => effect_eq rfl (hnone h), fun u h => effect_eq rfl (hsome u h)⟩
  case complete =>
    intro s hk0 hk1 mr0 mr1 inputs hon hround hwaits sums published judged refreshed
    have hsums : ∀ (k : Nat) (l : List (BitVec 22)), (if inputs.isEmpty then l.map (·.toNat) else
        hkSums k s.chip.hk.average (inputs.drop (30 * k))) = sums k l :=
      fun k l => if_congr List.isEmpty_iff rfl rfl
    have hexec : exec (.hkRoundComplete hk0 hk1 mr0 mr1 inputs) s =
        run s (hkComplete (sums 0 hk0) (sums 1 hk1) (mr0.map (·.toNat)) (mr1.map (·.toNat))) := by
      rw [← hsums, ← hsums]
      rfl
    clear_value sums
    exact effect_eq hexec (hkComplete_ends (c := s.chip.fresh) hon hround hwaits)

end Sys2Proof.Machine
end

section
/-! The throttle level and the comparators (R173 to R186). -/

namespace Sys2Proof.Machine

/-! ### The level falls -/

/-- Two parts with the same objects, modes, heads, memory, temperatures, clocks of the boot and waiting writes. -/
structure Chip.SameBesidePath (a b : Chip) : Prop where
  dict : a.dict = b.dict
  mode : a.mode = b.mode
  heads : a.heads = b.heads
  dram : a.dram = b.dram
  thermal : a.thermal = b.thermal
  boot : a.boot = b.boot

theorem Chip.halvedStreams_same (c : Chip) (l : List Nat) :
    (l.foldl (fun (c : Chip) (k : Nat) => c.modStream k (fun (x : Stream) => { x with halved := none })) c).SameBesidePath c := by
  refine List.foldlRecOn (motive := fun d : Chip => d.SameBesidePath c) _ _ ⟨rfl, rfl, rfl, rfl, rfl, rfl⟩ fun d hd k _ => ?_
  obtain ⟨hdict, hmode, hheads, hdram, hthermal, hboot⟩ := hd
  exact ⟨hdict, hmode, hheads, hdram, hthermal, hboot⟩

/-- A level that falls to one below L4 moves the level and the dwell only, beside the streams and the clock divider. -/
theorem Chip.throttleTo_falls {c : Chip} {n : Nat} (hn : n < c.nat K.throttleLevel) (h4 : n < 4) :
    (c.throttleTo n).SameBesidePath ((c.set K.throttleLevel n).modThermal (fun (x : Thermal) => { x with below := false })) := by
  unfold Chip.throttleTo
  dsimp only
  rw [if_neg (by omega), if_neg (show ¬ c.nat K.throttleLevel < n by omega), if_neg (show ¬ n = 4 by omega)]
  generalize (c.set K.throttleLevel n).modThermal (fun (x : Thermal) => { x with below := false }) = d
  have hstreams : Chip.SameBesidePath (if n = 0 then (List.range 8).foldl (fun (c : Chip) (k : Nat) =>
      c.modStream k (fun (x : Stream) => { x with halved := none })) d else d) d := by
    split
    · exact Chip.halvedStreams_same d _
    · exact ⟨rfl, rfl, rfl, rfl, rfl, rfl⟩
  generalize (if n = 0 then (List.range 8).foldl (fun (c : Chip) (k : Nat) =>
    c.modStream k (fun (x : Stream) => { x with halved := none })) d else d) = e at hstreams ⊢
  obtain ⟨hdict, hmode, hheads, hdram, hthermal, hboot⟩ := hstreams
  split
  · exact ⟨hdict, hmode, hheads, hdram, hthermal, hboot⟩
  · exact ⟨hdict, hmode, hheads, hdram, hthermal, hboot⟩

theorem Chip.get_of_dict {a b : Chip} (h : a.dict = b.dict) (k : Nat) : a.get k = b.get k := by
  rw [← Chip.dict_get, h, Chip.dict_get]

section
variable {c : Chip}

theorem throttleStepDown_falls (hpos : 0 < c.nat K.throttleLevel) (hlt : c.nat K.throttleLevel < 4) (hbelow : c.thermal.below = true)
    (hfloor : c.throttleFloor < c.nat K.throttleLevel) : throttleStepDown c = c.throttleTo (c.nat K.throttleLevel - 1) := by
  rw [throttleStepDown]
  exact if_neg (by simp only [hbelow, Bool.not_true, Bool.false_eq_true, false_or]; omega)

/-! ### L4 is left -/

/-- What powering the pixel die up or ending the park leaves as it is. -/
def Chip.poweredUp (a b : Chip) : Prop := a.heads = b.heads ∧ a.get K.throttleLevel = b.get K.throttleLevel

theorem Chip.unpark_poweredUp : c.unpark.poweredUp c := by
  refine ⟨rfl, ?_⟩
  unfold Chip.unpark Chip.refreshBanks
  dsimp only
  rw [Chip.get_set_other _ _ _ _ (by decide), Chip.get_set_other _ _ _ _ (by decide)]
  rfl

theorem Chip.applyPending_kept (c : Chip) (p : Nat → Bool) {k : Nat} (hk : p k = false) :
    (c.applyPending p).get k = c.get k ∧ (c.applyPending p).heads = c.heads := by
  unfold Chip.applyPending
  dsimp only
  refine ⟨?_, Chip.setAll_heads _ _⟩
  refine (Chip.get_setAll_other _ _ _ fun e he => ?_).trans rfl
  rintro rfl
  have hp := (List.mem_filter.1 he).2
  exact Bool.false_ne_true (hk.symm.trans hp)

/-- The configuration space of a die that is powered, with its streams stopped. -/
def Chip.configured (c : Chip) : Chip :=
  (List.range 8).foldl (fun (c : Chip) (n : Nat) => c.set (K.streamRun n) 0) (c.applyPending pcieP).configSpace

theorem Chip.configured_poweredUp : c.configured.poweredUp c := by
  refine List.foldlRecOn (motive := fun d : Chip => d.poweredUp c) _ _ ?_ fun d hd n hn => ?_
  · obtain ⟨hget, hheads⟩ := c.applyPending_kept pcieP (k := K.throttleLevel) (by decide)
    exact ⟨hheads, hget⟩
  · obtain ⟨hheads, hget⟩ := hd
    refine ⟨hheads, (Chip.get_set_other _ _ _ _ ?_).trans hget⟩
    have hn := List.mem_range.1 hn
    interval_cases n <;> decide

theorem Chip.pixelPower_poweredUp (use : PixelUse) : (c.pixelPower use).poweredUp c := by
  unfold Chip.pixelPower
  dsimp only
  split
  · exact ⟨rfl, rfl⟩
  · change Chip.poweredUp (Chip.setAll (Chip.configured _) _) c
    generalize hd : Chip.configured _ = d
    have hpowered : d.poweredUp c := by
      rw [← hd]
      exact Chip.configured_poweredUp
    obtain ⟨hheads, hget⟩ := hpowered
    refine ⟨(Chip.setAll_heads _ _).trans hheads, (Chip.get_setAll_other _ _ _ ?_).trans hget⟩
    simp only [List.mem_cons, List.not_mem_nil, or_false, forall_eq_or_imp, forall_eq]
    decide

theorem Chip.pixelUp_poweredUp (use : PixelUse) : (c.pixelUp use).poweredUp c := by
  have hcleared : Chip.poweredUp (if c.pixelHeld then c else c.clearEscalation) c := by
    split
    · exact ⟨rfl, rfl⟩
    · exact ⟨rfl, rfl⟩
  obtain ⟨hheads, hlevel⟩ := hcleared
  obtain ⟨hheads', hlevel'⟩ := Chip.pixelPower_poweredUp (c := if c.pixelHeld then c else c.clearEscalation) use
  exact ⟨hheads'.trans hheads, hlevel'.trans hlevel⟩

theorem l4Exit_falls (hlevel : c.nat K.throttleLevel = 4) (hsome : c.frontSensors.isEmpty = false)
    (hcool : ∀ j ∈ c.frontSensors, c.get (K.sensorTemp j) ≤ c.get K.thrL4Exit) (hfloor : c.throttleFloor < 4) :
    (l4Exit c).poweredUp (c.throttleTo 3) ∧ (c.get K.refclkState ≠ 0 → l4Exit c = c.throttleTo 3) := by
  have hany : c.frontSensors.any (fun j => decide (c.get K.thrL4Exit < c.get (K.sensorTemp j))) = false := by
    rw [List.any_eq_false]
    intro j hj
    have := hcool j hj
    simp only [decide_eq_true_eq]
    omega
  have hrefclk : (c.throttleTo 3).get K.refclkState = c.get K.refclkState := by
    obtain ⟨hdict, -, -, -, -, -⟩ := Chip.throttleTo_falls (c := c) (n := 3) (by omega) (by decide)
    rw [Chip.get_of_dict hdict, Chip.get_modThermal, Chip.get_set_other _ _ _ _ (by decide)]
  rw [l4Exit]
  dsimp only
  have hleft : ¬ (c.nat K.throttleLevel ≠ 4 ∨ false = true ∨ false = true ∨ 4 ≤ c.throttleFloor) := by
    rintro (h | h | h | h)
    · exact h hlevel
    · exact Bool.false_ne_true h
    · exact Bool.false_ne_true h
    · omega
  rw [hany, hsome, if_neg hleft, hrefclk]
  generalize c.throttleTo 3 = d
  refine ⟨?_, fun h => if_pos (.inl h)⟩
  split
  · exact ⟨rfl, rfl⟩
  · split
    · exact ⟨rfl, rfl⟩
    · obtain ⟨hheads, hget⟩ := Chip.pixelUp_poweredUp (c := d.unpark) .full
      obtain ⟨hheads', hget'⟩ := Chip.unpark_poweredUp (c := d)
      exact ⟨hheads.trans hheads', hget.trans hget'⟩
    · exact Chip.pixelUp_poweredUp .hostOnly

theorem levelTrip_crossed {die : Nat} {v : Int} (hheld : c.boot.phase ≠ .held) (hpixel : die = 1 → c.pixelOn = true)
    (hawake : c.mode.asleep = false) (hcross : c.levelCrossed die v = true) :
    levelTrip die v c = c.thermalShutdown (12 + die)
      (dieReading v (c.get (K.dieSensorV25 (11 + die))) (c.get (K.dieSensorSlope (11 + die)))) := by
  have hready : ¬ ((!c.levelCrossed die v) = true ∨ c.boot.phase = .held ∨ (die = 1 ∧ (!c.pixelOn) = true)) := by
    rintro (h | h | ⟨h, hoff⟩)
    · simp [hcross] at h
    · exact hheld h
    · simp [hpixel h] at hoff
  have hasleep : ¬ c.mode.asleep = true := by simp [hawake]
  rw [levelTrip, if_neg hready]
  dsimp only
  rw [if_neg hasleep]

theorem levelTrip_below {die : Nat} {v : Int} (hcross : c.levelCrossed die v = false) : levelTrip die v c = c :=
  if_pos (.inl (by simp [hcross]))

end

/-- Settles O19: the level falls by its branch of `throttleTo`, and a comparator acts where its element has crossed. -/
theorem throttleAndTrip : Obligations.ThrottleAndTrip := by
  unfold Obligations.ThrottleAndTrip
  refine ⟨?step, ?floor, ?exit, ?trip⟩
  case step =>
    intro s hpos hlt hbelow hfloor
    refine leaves_of_eq rfl (throttleStepDown_falls (c := s.chip.fresh) hpos hlt hbelow hfloor) ?_
    obtain ⟨hdict, -, hheads, hdram, hthermal, -⟩ := Chip.throttleTo_falls (c := s.chip.fresh) (n := s.chip.fresh.nat K.throttleLevel - 1)
      (show s.chip.nat K.throttleLevel - 1 < s.chip.nat K.throttleLevel by omega) (show s.chip.nat K.throttleLevel - 1 < 4 by omega)
    rw [settle_get _ _ _ (by decide), settle_thermal, settle_heads, settle_dram]
    refine ⟨?_, ?_, ?_, hheads, hdram⟩
    rotate_left
    · rw [hthermal]
      rfl
    · rw [hthermal]
      rfl
    rw [Chip.get_of_dict hdict, Chip.get_modThermal, Chip.get_set_same]
    have hnat : s.chip.nat K.throttleLevel = (s.chip.get K.throttleLevel).toNat := rfl
    have hfresh : s.chip.fresh.nat K.throttleLevel = s.chip.nat K.throttleLevel := rfl
    omega
  case floor =>
    exact fun s j => effect_of_eq rfl rfl ⟨rfl, fun _ _ => rfl⟩
  case exit =>
    intro s hlevel hsome hcool hfloor
    obtain ⟨⟨hheads, hget⟩, hsame⟩ := l4Exit_falls (c := s.chip.fresh) hlevel hsome hcool hfloor
    obtain ⟨hdict, hmode, hheads', -, -, -⟩ := Chip.throttleTo_falls (c := s.chip.fresh) (n := 3)
      (show 3 < s.chip.nat K.throttleLevel by omega) (by decide)
    refine leaves_of_eq rfl rfl ?_
    rw [settle_get _ _ _ (by decide), settle_heads]
    have hlevel' : (s.chip.fresh.throttleTo 3).get K.throttleLevel = 3 := by
      rw [Chip.get_of_dict hdict, Chip.get_modThermal, Chip.get_set_same]
      rfl
    refine ⟨hget.trans hlevel', hheads.trans hheads', fun h => ?_⟩
    rw [settle_mode, hsame h]
    exact hmode
  case trip =>
    intro s die v hheld hpixel hawake
    exact ⟨fun h => effect_eq rfl (levelTrip_crossed (c := s.chip.fresh) hheld hpixel hawake h),
      fun h => effect_none rfl (levelTrip_below (c := s.chip.fresh) h)⟩

end Sys2Proof.Machine
end

section
/-! Calibration runs (R193 to R199). -/

namespace Sys2Proof.Machine

/-- A calibration run of bank 0 that has converter 0 on the calibration node, and after it in its list a number that no converter has. -/
def strayTarget : Chip :=
  ({ cal := { running := true, refbuf := [], conv := [[0, 0x800], [], [], []] } } : Chip).set (K.convState 0 0) 4

theorem strayTarget_overwrites : (converterCalibrated 0 (trimFrom 0 0 0 0x8000) strayTarget).get (K.convOffset 0 0) = 4 := by decide

/-- Refutes O21: where the list of targets holds 0x800, CONV_STATE of that number is CONV_OFFSET of converter 0, which the run then sets. -/
theorem not_calibrationAndLeapLine : ¬ Obligations.CalibrationAndLeapLine := by
  unfold Obligations.CalibrationAndLeapLine
  rintro ⟨⟨-, -, -, calibrated, -⟩, -⟩
  obtain ⟨t, ht, -, -, -, hoffset, -⟩ := calibrated { chip := strayTarget, pending := [] } 0 0 0 0 0x8000 0 [0x800] rfl rfl rfl
    (by decide) rfl (by decide)
  have hexec : exec (.converterCalibrationComplete 0 0 0 0 0x8000) { chip := strayTarget, pending := [] } =
      run { chip := strayTarget, pending := [] } (converterCalibrated 0 (trimFrom 0 0 0 0x8000)) := rfl
  rw [hexec, run] at ht
  cases ht
  rw [settle_get _ _ _ (by decide)] at hoffset
  exact absurd (hoffset.symm.trans strayTarget_overwrites) (by decide)

end Sys2Proof.Machine
end

section
/-! Writes that pass every check (R71 to R77). -/

namespace Sys2Proof.Machine

section
variable {c : Chip} {m : Master} {key : Nat} {r : Row} {x : Int}

/-- A value that every check passes, of an object with no operation of its own. -/
theorem Chip.writeValue_passed (hm : c.masterAbort? m key r = none) (hfit : c.unfitted key r = false)
    (hv : c.valueAbort? key r x = none) (hstop : r.upd = .s → c.blockStopped key = true) (hop : commandOf m key x = none) :
    c.writeValue m key r (some x) = c.storeValue key r x := by
  by_cases hupd : r.upd = .s
  · simp [Chip.writeValue, hm, hfit, hv, hstop hupd, hop]
  · exact Chip.writeValue_plain hm hfit hv hupd hop

theorem Chip.storeValue_counter (hchk : r.chk = .counter) : c.storeValue key r x = (c.clearCount key, none) := if_pos hchk

theorem Chip.takeValue_now (hupd : r.upd = .i ∨ r.upd = .s) : c.takeValue key r x = ((c.onWrite key).set key x).onWritten key := by
  rcases hupd with h | h <;> rw [Chip.takeValue, h]

theorem Chip.takeValue_pending (hupd : r.upd = .p) : c.takeValue key r x =
    { c with pendingP := c.pendingP.filter (fun (e : Nat × Int) => e.1 ≠ key) ++ [(key, x)] } := by
  rw [Chip.takeValue, hupd]

theorem Chip.takeValue_staged {o : Nat} (hupd : r.upd = .f) (ho : ownerOf key = some o)
    (h : c.ownerStopped o = false ∨ c.ownerHeld o = true) :
    c.takeValue key r x = { c with staged := c.staged ++ [{ owner := o, key := key, val := x, at' := c.mono }] } := by
  have hkept : ¬ (c.ownerStopped o && !c.ownerHeld o) = true := by rcases h with h | h <;> simp [h]
  rw [Chip.takeValue, hupd, ho]
  exact if_neg hkept

theorem Chip.takeValue_applied {o : Nat} (hupd : r.upd = .f) (ho : ownerOf key = some o) (hs : c.ownerStopped o = true)
    (hh : c.ownerHeld o = false) : c.takeValue key r x = c.applyF key x := by
  have hstopped : (c.ownerStopped o && !c.ownerHeld o) = true := by simp [hs, hh]
  rw [Chip.takeValue, hupd, ho]
  exact if_pos hstopped

end

/-- Settles O22: a write that passes is left to `storeValue`, whose branch is that of the update class. -/
theorem writesByUpdateClass : Obligations.WritesByUpdateClass := by
  unfold Obligations.WritesByUpdateClass
  intro s m idx sub v r x key hs hf1 hr hacc hv hm hval hstop hop hfit
  have hwrite : objectWrite m key .full v s.chip.fresh = s.chip.fresh.attempt2 m key (s.chip.fresh.storeValue key r x) := by
    rw [objectWrite_full (c := s.chip.fresh) hs hf1 hr hacc, hv,
      Chip.writeValue_passed (c := s.chip.fresh) hm hfit hval hstop hop]
  have taken {c d : Chip} (h : s.chip.fresh.storeValue key r x = (d, none)) (hd : d.agrees c) : Effect (.objectWrite m idx sub .full v) s c :=
    effect_of_eq (exec_objectWrite_alone ..) (hwrite.trans (by rw [h, Chip.attempt2])) hd
  refine ⟨fun hchk => taken (Chip.storeValue_counter hchk) ⟨rfl, fun _ _ => rfl⟩, fun hchk hconf hdem => ?_⟩
  have stored {c d : Chip} (h : s.chip.fresh.takeValue key r x = d) (hd : d.agrees c) : Effect (.objectWrite m idx sub .full v) s c :=
    taken ((Chip.storeValue_taken (c := s.chip.fresh) hchk hconf hdem).trans (by rw [h])) hd
  exact ⟨fun hupd => stored (Chip.takeValue_now hupd) (Chip.agrees_refl _),
    fun hupd => stored (Chip.takeValue_pending hupd) ⟨rfl, fun _ _ => rfl⟩,
    fun o hupd ho => ⟨fun h => stored (Chip.takeValue_staged (c := s.chip.fresh) hupd ho h) ⟨rfl, fun _ _ => rfl⟩,
      fun hstopped hheld => stored (Chip.takeValue_applied (c := s.chip.fresh) hupd ho hstopped hheld) (Chip.agrees_refl _)⟩⟩

end Sys2Proof.Machine
end

section
/-! Halves of slots and runs of slots (R84, R86, R89 to R92). -/

namespace Sys2Proof.Machine

/-! ### Halves written -/

section
variable {c : Chip} {m : Master} {key : Nat} {r : Row}

/-- A write that reaches a served row is left to its part. -/
theorem objectWrite_part {part : Part} {v : Slot} (hs : c.serves m key) (hf1 : m ≠ .f1 ∨ part = .low) (hr : rowFor? m key = some r)
    (hacc : r.acc ≠ .domain) : objectWrite m key part v c = c.writePart m key r part v := by
  obtain ⟨hreach, hserved⟩ := hs
  have hpage : ¬ (m = .f1 ∧ part ≠ .low) := by
    rintro ⟨h, hpart⟩
    exact hf1.elim (fun h' => h' h) hpart
  have hvalue : ¬ (r.acc = .domain ∧ part ≠ .mismatch) := fun h => hacc h.1
  rw [objectWrite, if_neg (by simp [hreach]), if_neg hpage, hr]
  dsimp only
  rw [if_neg (by simp [hserved]), if_neg hvalue]

/-- A low half of an object wider than 32 bits is held. -/
theorem objectWrite_low {v : BitVec 32} (hs : c.serves m key) (hr : rowFor? m key = some r) (hacc : r.acc ≠ .domain) (hw : 32 < r.width) :
    objectWrite m key .low (v.zeroExtend 64) c = c.holdHalf m key v.toNat := by
  have hword : (v.zeroExtend 64).toNat % 2 ^ 32 = v.toNat := by
    have := v.isLt
    rw [BitVec.toNat_setWidth]
    omega
  rw [objectWrite_part hs (.inr rfl) hr hacc, Chip.writePart]
  rw [if_neg (by omega), hword]

theorem halfWriteExpiry_held {h : Half} (hh : c.halves.find? (fun (h : Half) => decide (h.m = m)) = some h) :
    halfWriteExpiry m c = { c with halves := c.halves.erase h } := by
  rw [halfWriteExpiry, hh]

theorem halfWriteExpiry_none (hh : c.halves.find? (fun (h : Half) => decide (h.m = m)) = none) : halfWriteExpiry m c = c := by
  rw [halfWriteExpiry, hh]

/-- The low half that a high half is joined with. -/
def Chip.lowHalf (c : Chip) (m : Master) (key : Nat) : Nat :=
  match c.halves.find? (fun (h : Half) => decide (h.m = m ∧ h.key = key)) with
  | some h => h.word
  | none => (slotOf (c.val key)).toNat % 2 ^ 32

/-- The part without the halves that a master holds for an object. -/
def Chip.halvesJoined (c : Chip) (m : Master) (key : Nat) : Chip :=
  { c with halves := c.halves.filter fun h => !decide (h.m = m ∧ h.key = key) }

/-- A high half is a write of the whole slot. -/
theorem objectWrite_high {v : Slot} (hs : c.serves m key) (hf1 : m ≠ .f1) (hr : rowAt? key = some r) (hacc : r.acc ≠ .domain)
    (hwo : r.acc ≠ .wo) (hw : 32 < r.width) :
    objectWrite m key .high v c =
      objectWrite m key .full (BitVec.ofNat 64 (v.toNat % 2 ^ 32 * 2 ^ 32 + c.lowHalf m key)) (c.halvesJoined m key) := by
  have hs' : (c.halvesJoined m key).serves m key := hs
  rw [objectWrite_full hs' hf1 hr hacc]
  have hr' : rowFor? m key = some r := (if_neg hf1).trans hr
  rw [objectWrite_part hs (.inl hf1) hr' hacc, Chip.writePart]
  dsimp only
  rw [if_neg (by omega), Chip.joinHalf]
  dsimp only
  rw [if_neg hwo]
  rfl

end

/-- What a command tells does not depend on the halves that were held before it. -/
theorem settle_besideHalves (a c : Chip) (l : List Half) : settle { a with halves := l } c = settle a c := rfl

theorem exec_objectWrite_high {s : State} {m : Master} {idx : BitVec 16} {sub : BitVec 8} {v : Slot} {r : Row}
    (hs : s.chip.serves m (keyOf idx sub)) (hf1 : m ≠ .f1) (hr : rowAt? (keyOf idx sub) = some r) (hacc : r.acc ≠ .domain)
    (hwo : r.acc ≠ .wo) (hw : 32 < r.width) :
    exec (.objectWrite m idx sub .high v) s =
      exec (.objectWrite m idx sub .full (BitVec.ofNat 64 (v.toNat % 2 ^ 32 * 2 ^ 32 + s.chip.lowHalf m (keyOf idx sub))))
        { s with chip := s.chip.halvesJoined m (keyOf idx sub) } := by
  have hwrite : objectWrite m (keyOf idx sub) .high v s.chip.fresh =
      objectWrite m (keyOf idx sub) .full (BitVec.ofNat 64 (v.toNat % 2 ^ 32 * 2 ^ 32 + s.chip.lowHalf m (keyOf idx sub)))
        (s.chip.halvesJoined m (keyOf idx sub)).fresh := objectWrite_high (c := s.chip.fresh) hs hf1 hr hacc hwo hw
  rw [exec_objectWrite_alone, exec_objectWrite_alone, run, run, Chip.halvesJoined, settle_besideHalves]
  exact congrArg (fun c : Chip => Host.Outcome.next { s with chip := settle s.chip c }) hwrite

/-! ### The high half of SPM_COPY_SRC -/

/-- The row of SPM_COPY_SRC (Table 15.5). -/
def copySrcRow : Row where
  key := 0x488201
  count := 1
  copies := 1
  step := 1
  copies2 := 1
  width := 64
  signed := false
  acc := .rw
  upd := .i
  sel := .const
  dflt := [0]
  chk := .anyValue
  kept := true

theorem rowAt_copySrc : rowAt? K.spmCopySrc = some copySrcRow := by decide

theorem copySrc_valueOf {n : Nat} (hn : n < 2 ^ 64) : copySrcRow.valueOf? (BitVec.ofNat 64 n) = some (n : Int) := by
  have hnat : (BitVec.ofNat 64 n).toNat = n := Nat.mod_eq_of_lt hn
  have hleast : copySrcRow.least = 0 := by decide
  have hmost : copySrcRow.most = 2 ^ 64 - 1 := by decide
  have hvalue : (if copySrcRow.signed then (BitVec.ofNat 64 n).toInt else ((BitVec.ofNat 64 n).toNat : Int)) = n :=
    (if_neg (by decide)).trans (congrArg Int.ofNat hnat)
  unfold Row.valueOf?
  dsimp only
  rw [hvalue, hleast, hmost, if_pos (by omega), if_neg (by simp [copySrcRow])]

section
variable (c : Chip) (m : Master) (x : Int)

theorem copySrc_masterAbort : c.masterAbort? m K.spmCopySrc copySrcRow = none := by
  have hdma : dmaChannelOf K.spmCopySrc = none := rfl
  have hhost : hostKeyOf K.spmCopySrc = none := rfl
  simp [Chip.masterAbort?, firstAbort, copySrcRow, Chip.dmaForeign, hdma, hhost]

theorem copySrc_valueAbort : c.valueAbort? K.spmCopySrc copySrcRow x = none := by
  have hcustom : customAbort? K.spmCopySrc x = none := rfl
  have hbound : c.beyondBound K.spmCopySrc x = false := rfl
  simp [Chip.valueAbort?, copySrcRow, Check.abort?, hcustom, hbound]

theorem copySrc_conflict : c.conflict? K.spmCopySrc x = none := rfl

theorem copySrc_raisesDemand : c.raisesDemand K.spmCopySrc = false := by
  simp only [Chip.raisesDemand, Bool.or_eq_false_iff, List.any_eq_false, List.mem_range, Bool.and_eq_true, decide_eq_true_eq]
  constructor
  · rintro h hh ⟨hframe, -⟩
    simp only [K.frameLength, K.spmCopySrc] at hframe
    omega
  · rintro n hn ⟨-, hshape⟩
    simp only [K.cropWidth, K.cropHeight, K.outWidth, K.outHeight, K.streamDecimate, K.spmCopySrc] at hshape
    omega

end

/-- Of the objects with 64-bit values that no rule binds, SPM_COPY_SRC takes what a master writes as a whole slot. -/
theorem effect_copySrc {s : State} {m : Master} {n : Nat} (hs : s.chip.serves m K.spmCopySrc) (hf1 : m ≠ .f1) (hn : n < 2 ^ 64) :
    Effect (.objectWrite m 0x4882 1 .full (BitVec.ofNat 64 n)) s (s.chip.set K.spmCopySrc n) := by
  have hkey : keyOf 0x4882 1 = K.spmCopySrc := by decide
  have hwrites := writesByUpdateClass
  unfold Obligations.WritesByUpdateClass at hwrites
  have hwrite := hwrites s m 0x4882 1 (BitVec.ofNat 64 n) copySrcRow n
  rw [hkey] at hwrite
  replace hwrite := hwrite hs hf1 rowAt_copySrc (by decide) (copySrc_valueOf hn) (copySrc_masterAbort _ _) (copySrc_valueAbort _ _)
    (fun h => absurd h (by decide)) rfl rfl
  obtain ⟨-, htaken⟩ := hwrite
  obtain ⟨hnow, -⟩ := htaken (by decide) (copySrc_conflict _ _) (copySrc_raisesDemand _)
  obtain ⟨t, ht, hpending, hagrees⟩ := hnow (.inl rfl)
  exact ⟨t, ht, hpending, Chip.agrees_trans hagrees ⟨rfl, fun _ _ => rfl⟩⟩

/-! ### Halves read -/

section
variable {c : Chip} {m : Master} {key : Nat} {r : Row}

/-- A read of a plain object answers its value and changes nothing. -/
theorem Chip.slotRead_plain (hserved : c.accessFails m key = false) (hr : rowAt? key = some r) (hacc : r.acc ≠ .domain) (hwo : r.acc ≠ .wo)
    (hforce : key ≠ K.lockForce) (hlock : copyOf K.lock 32 key = none) (hdata : c.noDataFor m key r = false) :
    c.slotRead m key = .ok ((slotOf (c.val key)).toNat, c) := by
  have hshown : ¬ (r.acc = .wo ∨ key = K.lockForce) := by simp [hwo, hforce]
  rw [Chip.slotRead, hr]
  dsimp only
  rw [if_neg (by simp [hserved]), if_neg (by simp [hdata]), if_neg hacc, if_neg hshown, hlock]

section
variable (hf1 : m ≠ .f1) (hreach : c.reaches m = true)
include hf1 hreach

theorem halfReadLow_low : halfReadLow m key .low c = c.readLow m key := (if_neg hf1).trans (if_neg (by simp [hreach]))

theorem halfReadLow_high : halfReadLow m key .high c = c.readHigh m key := (if_neg hf1).trans (if_neg (by simp [hreach]))

theorem halfReadLow_slots (n : BitVec 10) : halfReadLow m key (.slots n) c =
    (List.range n.toNat).foldl (fun (c : Chip) (i : Nat) => c.readSlot m (key + i)) c := (if_neg hf1).trans (if_neg (by simp [hreach]))

theorem halfReadLow_mismatch : halfReadLow m key .mismatch c =
    c.readRefused m key (if m = .f0 then Abort.unsupported else Abort.length) (.slot m key 0) :=
  (if_neg hf1).trans (if_neg (by simp [hreach]))

end

theorem Chip.readLow_value {v : Nat} (hread : c.slotRead m key = .ok (v, c)) (hr : rowAt? key = some r) :
    c.readLow m key = if 32 < r.width then (c.emit (.half m key (v % 2 ^ 32))).latchHalf m key v else c.emit (.half m key (v % 2 ^ 32)) := by
  rw [Chip.readLow, hread, hr]

theorem Chip.readHigh_current {v : Nat} (hread : c.slotRead m key = .ok (v, c))
    (hnone : c.latches.find? (fun (h : Half) => decide (h.m = m ∧ h.key = key)) = none) :
    c.readHigh m key = c.emit (.half m key (v / 2 ^ 32)) := by
  rw [Chip.readHigh, hnone, hread]

theorem Chip.readHigh_latched {h : Half} (hsome : c.latches.find? (fun (h : Half) => decide (h.m = m ∧ h.key = key)) = some h) :
    c.readHigh m key = (halfReadLatchExpiry m c).emit (.half m key h.word) := by
  rw [Chip.readHigh, hsome]

theorem Chip.readRefused_f0 {zero : OutMsg} : c.readRefused .f0 key Abort.unsupported zero = (c.refuse .f0 key Abort.unsupported).emit zero := by
  rw [Chip.readRefused, if_pos rfl, if_neg (by simp)]

theorem Chip.readRefused_other {a : Abort} {zero : OutMsg} (hm : m ≠ .f0) : c.readRefused m key a zero = c.refuse m key a := if_neg hm

end

/-- Work that sends one message and does no more. -/
theorem answer_of_emit {i : Instr} {s : State} {f : Chip → Chip} {o : OutMsg} (h : exec i s = run s f) (hf : f s.chip.fresh = s.chip.fresh.emit o) :
    Answer i s [o] s.chip :=
  answer_of_run h (hf ▸ Chip.agrees_trans (Chip.extends_emit _ _).1 (Chip.agrees_out _ _)) (by
    show [o] <+: (f s.chip.fresh).out
    rw [hf]
    exact List.prefix_rfl)

/-- A read of the low half of an object that a 32-bit read may reach. -/
theorem halfReadLow_answers_low {s : State} {m : Master} {idx : BitVec 16} {sub : BitVec 8} {r : Row} {v : Nat} (hf1 : m ≠ .f1)
    (hreach : s.chip.reaches m = true) (hread : s.chip.fresh.slotRead m (keyOf idx sub) = .ok (v, s.chip.fresh))
    (hr : rowAt? (keyOf idx sub) = some r) :
    Answer (.halfReadLow m idx sub) s [.half m (keyOf idx sub) (v % 2 ^ 32)]
      (if 32 < r.width then s.chip.latchHalf m (keyOf idx sub) v else s.chip) := by
  have hlow := (halfReadLow_low (c := s.chip.fresh) hf1 hreach).trans (Chip.readLow_value hread hr)
  by_cases hwide : 32 < r.width
  · rw [if_pos hwide] at hlow ⊢
    exact answer_of_eq rfl hlow ⟨rfl, fun _ _ => rfl⟩ List.prefix_rfl
  · rw [if_neg hwide] at hlow ⊢
    exact answer_of_emit rfl hlow

/-- Settles O24: each part of an access takes its own branch, and a high half is the whole slot written. -/
theorem halvesOfSlots : Obligations.HalvesOfSlots := by
  unfold Obligations.HalvesOfSlots
  refine ⟨?low, ?expiry, ?high, ?copySrc, ?read, ?latched, ?slots, ?page, ?latchExpiry⟩
  case low =>
    intro s m idx sub v r key hs hr hacc hw
    exact effect_of_eq rfl (objectWrite_low (c := s.chip.fresh) hs hr hacc hw) ⟨rfl, fun _ _ => rfl⟩
  case expiry =>
    intro s m
    exact ⟨fun h hh => effect_of_eq rfl (halfWriteExpiry_held (c := s.chip.fresh) hh) ⟨rfl, fun _ _ => rfl⟩,
      fun hh => effect_none rfl (halfWriteExpiry_none (c := s.chip.fresh) hh)⟩
  case high =>
    intro s m idx sub v r key mine hf1 hs hr hacc hwo hw low
    exact exec_objectWrite_high hs hf1 hr hacc hwo hw
  case copySrc =>
    intro s m v hs hwords mine low
    have hf1 : m ≠ .f1 := by
      rintro rfl
      obtain ⟨hreach, -⟩ := hs
      simp [Chip.reachesKey, show f1Page K.spmCopySrc = false from rfl] at hreach
    have hlow : s.chip.lowHalf m K.spmCopySrc < 2 ^ 32 := by
      unfold Chip.lowHalf
      split
      case h_1 h hh => exact hwords h (List.mem_of_find?_eq_some hh)
      case h_2 => exact Nat.mod_lt _ (by decide)
    have hn : v.toNat % 2 ^ 32 * 2 ^ 32 + s.chip.lowHalf m K.spmCopySrc < 2 ^ 64 := by
      have := Nat.mod_lt v.toNat (show 0 < 2 ^ 32 by decide)
      omega
    have hkey : keyOf 0x4882 1 = K.spmCopySrc := by decide
    have hexec := exec_objectWrite_high (s := s) (m := m) (idx := 0x4882) (sub := 1) (v := v) (r := copySrcRow)
    rw [hkey] at hexec
    obtain ⟨t, ht, hpending, hagrees⟩ := effect_copySrc (s := { s with chip := s.chip.halvesJoined m K.spmCopySrc }) hs hf1 hn
    exact ⟨t, (hexec hs hf1 rowAt_copySrc (by decide) (by decide) (by decide)).trans ht, hpending, hagrees⟩
  case read =>
    intro s m idx sub r key v hf1 hs hr hacc hwo hforce hlock hdata
    obtain ⟨hreach, hserved⟩ := hs
    have hreach' : s.chip.fresh.reaches m = true := by
      unfold Chip.reachesKey at hreach
      exact (Bool.and_eq_true_iff.1 hreach).1
    have hread := Chip.slotRead_plain (c := s.chip.fresh) hserved hr hacc hwo hforce hlock hdata
    refine ⟨?_, fun hnone => ?_⟩
    · exact halfReadLow_answers_low hf1 hreach' hread hr
    · exact answer_of_emit rfl ((halfReadLow_high hf1 hreach').trans (Chip.readHigh_current hread hnone))
  case latched =>
    intro s m idx sub h hf1 hreach hsome
    have hreach' : s.chip.fresh.reaches m = true := hreach
    exact answer_of_eq rfl ((halfReadLow_high hf1 hreach').trans (Chip.readHigh_latched (c := s.chip.fresh) hsome))
      (Chip.agrees_trans (Chip.extends_emit _ _).1 ⟨rfl, fun _ _ => rfl⟩) List.prefix_rfl
  case slots =>
    intro s m idx sub hf1 hreach key
    have hreach' : s.chip.fresh.reaches m = true := hreach
    refine ⟨fun n => effect_eq rfl (halfReadLow_slots hf1 hreach' n), fun hf0 => ?_, fun hf0 => ?_⟩
    · subst hf0
      refine answer_of_eq rfl ((halfReadLow_mismatch hf1 hreach').trans Chip.readRefused_f0) ?_ ?_
      · refine Chip.agrees_trans (Chip.extends_emit _ _).1 (Chip.agrees_trans (Chip.refuse_agrees_noteAbort ..) ?_)
        rw [Chip.fresh, Chip.noteAbort_out]
        exact Chip.agrees_out _ _
      · exact List.prefix_rfl
    · have hmis := halfReadLow_mismatch (key := key) hf1 hreach'
      rw [if_neg hf0, Chip.readRefused_other hf0] at hmis
      refine answer_of_eq rfl hmis ?_ ?_
      · refine Chip.agrees_trans (Chip.refuse_agrees_noteAbort ..) ?_
        rw [Chip.fresh, Chip.noteAbort_out]
        exact Chip.agrees_out _ _
      · rw [Chip.refuse_out hf0]
        exact List.prefix_rfl
  case page =>
    intro s ch hch hreach
    have hreach' : s.chip.fresh.reaches .f1 = true := hreach
    have hch' : ch = 6 ∨ ch = 7 := by omega
    have hread {idx : BitVec 16} {sub : BitVec 8} {key n : Nat} (hkey : keyOf idx sub = key)
        (hpage : (!(f1Page key || decide (key = K.mbxTimeout 6 ∨ key = K.mbxTimeout 7))) = false)
        (hlock : copyOf K.lock 32 key = none) (hword : s.chip.fresh.pageWord? key = some n) :
        Answer (.halfReadLow .f1 idx sub) s [.half .f1 key n] s.chip := by
      have hf : halfReadLow .f1 (keyOf idx sub) .low s.chip.fresh = s.chip.fresh.emit (.half .f1 key n) := by
        rw [hkey, halfReadLow, if_pos rfl, if_neg (by simp only [hreach', hpage]; simp), if_pos rfl, Chip.readPage, hlock, hword]
      exact answer_of_emit rfl hf
    rcases hch' with rfl | rfl
    · exact ⟨hread (by decide) rfl rfl rfl, hread (by decide) rfl rfl rfl⟩
    · exact ⟨hread (by decide) rfl rfl rfl, hread (by decide) rfl rfl rfl⟩
  case latchExpiry =>
    intro s m
    exact effect_of_eq rfl rfl ⟨rfl, fun _ _ => rfl⟩

end Sys2Proof.Machine
end

section
/-! STAGE_HOLD, ERRQ_ACK and LOCK_FORCE (R78, R98, R107). -/

namespace Sys2Proof.Machine

/-! ### A write of a slot that is a command -/

theorem Chip.slotCommand_ok {c d : Chip} {m : Master} {key : Nat} {v : Slot} {op : Nat → Chip → Except Abort Chip} {r : Row} {x : Int}
    (hs : c.serves m key) (hr : rowAt? key = some r) (hv : r.valueOf? v = some x) (hop : op x.toNat c = .ok d) :
    c.slotCommand m key v op = d := by
  refine Chip.command_ok hs ?_
  rw [hr, Option.bind_some, hv]
  exact hop

/-- The row of STAGE_HOLD (Table 3.4). -/
def stageHoldRow : Row where
  key := 0x201000
  count := 1
  copies := 1
  step := 1
  copies2 := 1
  width := 16
  signed := false
  acc := .rw
  upd := .i
  sel := .const
  dflt := [0]
  chk := .fields 0xFF3F
  kept := false

theorem rowAt_stageHold : rowAt? K.stageHold = some stageHoldRow := by decide

theorem stageHold_valueOf (v : BitVec 16) : stageHoldRow.valueOf? (v.zeroExtend 64) = some (v.toNat : Int) := by
  have hlt := v.isLt
  have hnat : (v.zeroExtend 64).toNat = v.toNat := by
    rw [BitVec.toNat_setWidth]
    omega
  have hleast : stageHoldRow.least = 0 := by decide
  have hmost : stageHoldRow.most = 2 ^ 16 - 1 := by decide
  have hvalue : (if stageHoldRow.signed then (v.zeroExtend 64).toInt else ((v.zeroExtend 64).toNat : Int)) = v.toNat :=
    (if_neg (by decide)).trans (congrArg Int.ofNat hnat)
  unfold Row.valueOf?
  dsimp only
  rw [hvalue, hleast, hmost, if_pos (by omega), if_neg (by simp [stageHoldRow])]

/-! ### Owners whose hold is lifted -/

theorem foldl_id {α β : Type} {f : α → β → α} {l : List β} {a : α} (h : ∀ y ∈ l, f a y = a) : l.foldl f a = a := by
  induction l with
  | nil => rfl
  | cons y l ih =>
    obtain ⟨hy, hrest⟩ := List.forall_mem_cons.1 h
    rw [List.foldl_cons, hy, ih hrest]

/-- A fold whose step acts at one element only. -/
theorem foldl_only {α β : Type} {f : α → β → α} {x : β} {l : List β} (hnodup : l.Nodup) (hmem : x ∈ l)
    (hother : ∀ a, ∀ y ∈ l, y ≠ x → f a y = a) (a : α) : l.foldl f a = f a x := by
  induction l generalizing a with
  | nil => simp at hmem
  | cons y l ih =>
    obtain ⟨hy, hl⟩ := List.nodup_cons.1 hnodup
    rw [List.foldl_cons]
    by_cases hyx : y = x
    · rw [hyx]
      refine foldl_id fun z hz => hother _ z (List.mem_cons_of_mem _ hz) ?_
      rintro rfl
      exact hy (hyx ▸ hz)
    · rw [hother a y List.mem_cons_self hyx]
      exact ih hl ((List.mem_cons.1 hmem).resolve_left (Ne.symm hyx)) (fun a z hz => hother a z (List.mem_cons_of_mem _ hz)) a

section
variable {c : Chip} {v : Nat}

theorem stageHold_kept (hv : clearBits v 0xFF3F = 0)
    (hbits : ∀ o < 16, bitOf (c.nat K.stageHold) o = true → bitOf v o = true) : stageHold v c = .ok (c.set K.stageHold v) := by
  rw [stageHold, guardNot_pass (by simp [hv])]
  refine congrArg Except.ok (foldl_id fun o ho => if_neg ?_)
  intro h
  obtain ⟨hwas, hnow⟩ := Bool.and_eq_true_iff.1 h
  simp [hbits o (List.mem_range.1 ho) hwas] at hnow

theorem stageHold_lifted {o : Nat} (ho : o < 16) (hv : clearBits v 0xFF3F = 0) (hwas : bitOf (c.nat K.stageHold) o = true)
    (hnow : bitOf v o = false) (hbits : ∀ p < 16, p ≠ o → bitOf (c.nat K.stageHold) p = true → bitOf v p = true) :
    stageHold v c = .ok ((c.set K.stageHold v).releaseHold o) := by
  rw [stageHold, guardNot_pass (by simp [hv])]
  refine congrArg Except.ok ?_
  rw [foldl_only List.nodup_range (List.mem_range.2 ho) (fun d p hp hpo => if_neg ?_), if_pos (by rw [hwas, hnow]; rfl)]
  intro h
  obtain ⟨hwas', hnow'⟩ := Bool.and_eq_true_iff.1 h
  simp [hbits p (List.mem_range.1 hp) hpo hwas'] at hnow'

/-! ### Locks released by force -/

theorem bitOf_eq_testBit (v b : Nat) : bitOf v b = v.testBit b := (Nat.testBit_eq_decide_div_mod_eq).symm

/-- The step of LOCK_FORCE at one lock. -/
def Chip.forceLock (v : Nat) (c : Chip) (j : Nat) : Chip :=
  if bitOf v j ∧ c.get (K.lock j) ≠ 0 then (c.set (K.lock j) 0).bump K.lockForced else c

theorem Chip.forceLock_body (j : Nat) : (c.forceLock v j).body = c.body := by
  unfold Chip.forceLock
  split <;> rfl

theorem Chip.get_forceLock {j k : Nat} (hj : j < 32) (hk : k < 32) :
    (c.forceLock v j).get (K.lock k) = if k = j ∧ bitOf v j then 0 else c.get (K.lock k) := by
  have hcount : K.lock k ≠ K.lockForced := by interval_cases k <;> decide
  have hlock : K.lock k = K.lock j ↔ k = j := by simp only [K.lock]; omega
  unfold Chip.forceLock
  split
  case isTrue h =>
    obtain ⟨hbit, -⟩ := h
    rw [Chip.get_bump, if_neg hcount, Chip.get_set]
    simp only [hlock, hbit, and_true]
  case isFalse h =>
    split
    case isTrue hkj =>
      obtain ⟨rfl, hbit⟩ := hkj
      exact Decidable.not_not.1 fun hne => h ⟨hbit, hne⟩
    case isFalse => rfl

theorem Chip.get_forceLocks (n : Nat) (hn : n ≤ 32) {k : Nat} (hk : k < 32) :
    ((List.range n).foldl (Chip.forceLock v) c).get (K.lock k) = if k < n ∧ bitOf v k then 0 else c.get (K.lock k) := by
  induction n with
  | zero => simp
  | succ n ih =>
    rw [List.range_succ, List.foldl_append, List.foldl_cons, List.foldl_nil, Chip.get_forceLock (by omega) hk, ih (by omega)]
    by_cases hkn : k = n
    · subst hkn
      simp
    · have hlt : k < n + 1 ↔ k < n := by omega
      simp only [hkn, false_and, if_false, hlt]

theorem Chip.forceLocks_body (l : List Nat) : (l.foldl (Chip.forceLock v) c).body = c.body :=
  List.foldlRecOn (motive := fun d : Chip => d.body = c.body) l _ rfl fun _ hd j _ => (Chip.forceLock_body j).trans hd

theorem lockForce_secure {m : Master} (hm : m = .mc ∨ m = .f1) : lockForce m v c = .ok ((List.range 32).foldl (Chip.forceLock v) c) := by
  rw [lockForce, guardNot_pass (by rcases hm with rfl | rfl <;> rfl)]
  rfl

end

/-- Settles O26: the folds of STAGE_HOLD and LOCK_FORCE by their bits. -/
theorem holdAndAcknowledge : Obligations.HoldAndAcknowledge := by
  unfold Obligations.HoldAndAcknowledge
  refine ⟨fun s m v hs hv => ⟨?kept, ?lifted⟩, ?acked, ?forced⟩
  case kept =>
    intro hbits
    exact effect_of_eq rfl (Chip.slotCommand_ok (c := s.chip.fresh) hs rowAt_stageHold (stageHold_valueOf v)
      (stageHold_kept (c := s.chip.fresh) hv hbits)) ⟨rfl, fun _ _ => rfl⟩
  case lifted =>
    intro o ho hwas hnow hbits
    exact effect_of_eq rfl (Chip.slotCommand_ok (c := s.chip.fresh) hs rowAt_stageHold (stageHold_valueOf v)
      (stageHold_lifted (c := s.chip.fresh) ho hv hwas hnow hbits)) (Chip.agrees_refl _)
  case acked =>
    intro s m r v hs
    exact effect_of_command rfl hs rfl ⟨rfl, fun _ _ => rfl⟩
  case forced =>
    intro s m v hs hm
    refine leaves_of_command rfl hs (lockForce_secure (c := s.chip.fresh) hm) ⟨?_, fun j => ?_⟩
    · exact (settle_body _ _).trans (Chip.forceLocks_body _)
    · have hkey : K.lock j.val ∉ statusKeys := by
        have hj := j.isLt
        generalize j.val = k at hj
        interval_cases k <;> decide
      rw [settle_get _ _ _ hkey, Chip.get_forceLocks 32 (by omega) j.isLt]
      simp only [j.isLt, true_and, bitOf_eq_testBit, ← BitVec.getElem_eq_testBit_toNat v j.val j.isLt]
      rfl

end Sys2Proof.Machine
end

section
/-! Parameter images (R100, R101, R445, R451). -/

namespace Sys2Proof.Machine

/-- A command that is refused leaves its record only. -/
theorem effect_of_refused {i : Instr} {s : State} {m : Master} {key : Nat} {op : Chip → Except Abort Chip} {code : Abort}
    (h : exec i s = run s (fun c => c.command m key op)) (hs : s.chip.serves m key) (hop : op s.chip.fresh = .error code) :
    Effect i s (s.chip.noteAbort m key code) := by
  refine effect_of_eq h (Chip.command_refused (c := s.chip.fresh) hs hop) ?_
  refine Chip.agrees_trans (Chip.refuse_agrees_noteAbort ..) ?_
  rw [Chip.fresh, Chip.noteAbort_out]
  exact Chip.agrees_out _ _

section
variable {c : Chip}

theorem Chip.storeRefused_free {v sig : Nat} (hjob : c.nvm.job = none) (hholds : c.nvmHolds = false) (hv : v = sig) :
    c.storeRefused v sig = false := by
  simp [Chip.storeRefused, hjob, hholds, hv]

theorem storeOp_starts {g : Nat} (hjob : c.nvm.job = none) (hholds : c.nvmHolds = false) :
    storeOp g 0x65766173 c = .ok (c.startImage (c.storeImage (groupMask g))) := by
  rw [storeOp, guardNot_pass (Chip.storeRefused_free hjob hholds rfl)]

theorem restoreOp_starts {g : Nat} (hjob : c.nvm.job = none) (hholds : c.nvmHolds = false) :
    restoreOp g 0x64616F6C c = .ok (c.startImage (c.restoreImage (groupMask g))) := by
  rw [restoreOp, guardNot_pass (Chip.storeRefused_free hjob hholds rfl)]

theorem storeOp_refused {g v : Nat} (h : v ≠ 0x65766173 ∨ c.nvm.job.isSome = true ∨ c.nvmHolds = true) :
    storeOp g v c = .error Abort.notStored := by
  have hrefused : c.storeRefused v 0x65766173 = true := by
    rcases h with h | h | h <;> simp [Chip.storeRefused, h]
  rw [storeOp, hrefused]
  rfl

/-! ### The end of a write -/

/-- A part whose image has been written, with the image reported and the store at rest. -/
def Chip.imagePlaced (c : Chip) (j : StoreJob) : Chip :=
  let c := { c with nvm := { c.nvm with job := none } }
  let c := if j.intoB then { c with nvm := { c.nvm with imageB := some j.image } } else { c with nvm := { c.nvm with imageA := some j.image } }
  ((c.freeNat 3).2.total K.nvmGroupWrites (j.image.groups ((c.freeNat 3).1 + 1))).reportImages.set K.storeState 0

theorem storeComplete_begun {j : StoreJob} (hj : c.nvm.job = some j) (hbegun : j.begun = true) (hvana : c.vanaLow = false) :
    storeComplete c = (c.imagePlaced j).nvmRest.nvmWrite (.count 1 1) := by
  rw [storeComplete, hj]
  dsimp only
  rw [if_neg (by simp [hbegun, hvana])]
  rfl

theorem storeComplete_waits {j : StoreJob} (hj : c.nvm.job = some j) (h : j.begun = false ∨ c.vanaLow = true) : storeComplete c = c := by
  rw [storeComplete, hj]
  dsimp only
  rw [if_pos]
  rcases h with h | h <;> simp [h]

theorem Chip.get_imagePlaced {j : StoreJob} {k : Nat}
    (hk : k ∉ [K.storeState, K.nvmGroupWrites, K.nvmImageSequence 0, K.nvmImageSequence 1, K.nvmImageInForce]) :
    (c.imagePlaced j).get k = c.get k := by
  simp only [List.mem_cons, List.not_mem_nil, or_false, not_or] at hk
  obtain ⟨hstate, hwrites, hzero, hone, hforce⟩ := hk
  unfold Chip.imagePlaced
  dsimp only
  rw [Chip.get_set_other _ _ _ _ hstate, Chip.reportImages, Chip.get_setAll_other _ _ _ (by simp [hzero, hone, hforce]), Chip.total,
    Chip.get_set_other _ _ _ _ hwrites]
  split <;> rfl

/-- What the image's end leaves of the NVM and of the rest of the part. -/
theorem Chip.imagePlaced_parts (j : StoreJob) : (c.imagePlaced j).nvm.job = none ∧ (c.imagePlaced j).nvm.holding = c.nvm.holding ∧
    (if j.intoB then (c.imagePlaced j).nvm.imageB = some j.image else (c.imagePlaced j).nvm.imageA = some j.image) ∧
    (c.imagePlaced j).regions = c.regions ∧ (c.imagePlaced j).rails = c.rails := by
  have hplaced (d : Chip) : ((d.reportImages.set K.storeState 0).nvm = d.nvm ∧ (d.reportImages.set K.storeState 0).regions = d.regions ∧
      (d.reportImages.set K.storeState 0).rails = d.rails) := by
    simp only [Chip.reportImages, Chip.set_nvm, Chip.set_regions, Chip.set_rails, Chip.setAll_nvm, Chip.setAll_regions, Chip.setAll_rails, and_self]
  unfold Chip.imagePlaced
  dsimp only
  simp only [hplaced, Chip.total, Chip.set_nvm, Chip.set_regions, Chip.set_rails]
  cases j.intoB
  · exact ⟨rfl, rfl, rfl, rfl, rfl⟩
  · exact ⟨rfl, rfl, rfl, rfl, rfl⟩

/-- The NVM is hot by its region's restart and by the front sensors. -/
theorem Chip.nvmHot_congr {d : Chip} (hregions : d.regions = c.regions)
    (hget : ∀ j < 3, d.get (K.sensorState j) = c.get (K.sensorState j) ∧ d.get (K.sensorTemp j) = c.get (K.sensorTemp j)) :
    d.nvmHot = c.nvmHot := by
  have hrange : List.range 3 = [0, 1, 2] := rfl
  obtain ⟨hs0, ht0⟩ := hget 0 (by decide)
  obtain ⟨hs1, ht1⟩ := hget 1 (by decide)
  obtain ⟨hs2, ht2⟩ := hget 2 (by decide)
  have hfront : (List.range 3).filter (fun j => d.sensorValid j) = (List.range 3).filter (fun j => c.sensorValid j) := by
    rw [hrange]
    simp only [List.filter_cons, List.filter_nil, Chip.sensorValid, hs0, hs1, hs2]
  unfold Chip.nvmHot
  dsimp only
  rw [hregions, hfront]
  congr 1
  rw [Bool.eq_iff_iff, List.any_eq_true, List.any_eq_true]
  refine exists_congr fun j => and_congr_right fun hj => ?_
  obtain ⟨-, ht⟩ := hget j (List.mem_range.1 (List.mem_of_mem_filter hj))
  rw [ht]

theorem nvmHoldRelease_rests (hholding : c.nvm.holding = true) (hhot : c.nvmHot = false) (hjob : c.nvm.job = none) :
    nvmHoldRelease c = (({ c with nvm := { c.nvm with holding := false } } : Chip).set K.nvmState 0).writeHeld := by
  rw [nvmHoldRelease, if_pos ⟨hholding, by simp [hhot]⟩]
  dsimp only
  rw [if_neg (by simp [hjob])]

/-- A count that the NVM writes at once. -/
theorem Chip.nvmWrite_count {n k : Nat} (hholds : c.nvmHolds = false) (hvana : c.vanaLow = false) :
    (c.nvmWrite (.count n k)).nvm.job = c.nvm.job ∧ (c.nvmWrite (.count n k)).nvm.imageA = c.nvm.imageA ∧
    (c.nvmWrite (.count n k)).nvm.imageB = c.nvm.imageB ∧
    ∀ key, key ≠ K.nvmGroupWrites → (c.nvmWrite (.count n k)).get key = c.get key := by
  have happly : c.nvmWrite (.count n k) = c.nvmApply (.count n k) := by
    rw [Chip.nvmWrite, if_neg (by simp [hholds]), if_neg (by simp [hvana])]
  rw [happly]
  exact ⟨rfl, rfl, rfl, fun key hkey => Chip.get_set_other _ _ _ _ hkey⟩

end

/-- Settles O27: the signatures and the job by their branches, and the end of an image by what its writes leave. -/
theorem storeAndRestore : Obligations.StoreAndRestore := by
  unfold Obligations.StoreAndRestore
  refine ⟨fun s m g hjob hholds => ⟨?store, ?restore⟩, ?refused, fun s j hj => ⟨?complete, ?waits⟩, fun s => ⟨?again, ?held⟩, ?release⟩
  case store => exact fun hs => effect_of_command rfl hs (storeOp_starts (c := s.chip.fresh) hjob hholds) (Chip.agrees_refl _)
  case restore => exact fun hs => effect_of_command rfl hs (restoreOp_starts (c := s.chip.fresh) hjob hholds) (Chip.agrees_refl _)
  case refused =>
    intro s m g v hs h
    exact effect_of_refused rfl hs (storeOp_refused (c := s.chip.fresh) h)
  case complete =>
    intro hholds hbegun hvana
    refine leaves_of_eq rfl (storeComplete_begun (c := s.chip.fresh) hj hbegun hvana) ?_
    obtain ⟨hholding, hhot⟩ := Bool.or_eq_false_iff.1 hholds
    obtain ⟨hjob, hhold, himage, hregions, hrails⟩ := Chip.imagePlaced_parts (c := s.chip.fresh) j
    have hget {k : Nat} := Chip.get_imagePlaced (c := s.chip.fresh) (j := j) (k := k)
    have hstore : (s.chip.fresh.imagePlaced j).get K.storeState = 0 := Chip.get_set_same _ _ _
    generalize s.chip.fresh.imagePlaced j = d at hjob hhold himage hregions hrails hget hstore ⊢
    have hrest : d.nvmRest = d.set K.nvmState 0 := by
      have hhold' : d.nvm.holding = false := hhold.trans hholding
      rw [Chip.nvmRest, hhold']
      rfl
    have hholds' : (d.set K.nvmState 0).nvmHolds = false := by
      have hhot' : (d.set K.nvmState 0).nvmHot = s.chip.nvmHot := by
        refine Chip.nvmHot_congr hregions fun k hk => ⟨?_, ?_⟩
        · rw [Chip.get_set_other _ _ _ _ (by interval_cases k <;> decide)]
          exact hget (by interval_cases k <;> decide)
        · rw [Chip.get_set_other _ _ _ _ (by interval_cases k <;> decide)]
          exact hget (by interval_cases k <;> decide)
      rw [Chip.nvmHolds, hhot', hhot, Bool.or_false]
      exact hhold.trans hholding
    have hvana' : (d.set K.nvmState 0).vanaLow = false := by
      rw [Chip.vanaLow, Chip.set_rails, hrails]
      exact hvana
    obtain ⟨hjob', hA, hB, hget'⟩ := Chip.nvmWrite_count (n := 1) (k := 1) hholds' hvana'
    rw [hrest, settle_nvm, hjob', hA, hB, settle_get _ _ _ (by decide), settle_get _ _ _ (by decide), hget' _ (by decide), hget' _ (by decide)]
    refine ⟨hjob, himage, ?_, Chip.get_set_same _ _ _⟩
    rw [Chip.get_set_other _ _ _ _ (by decide), hstore]
  case waits => exact fun h => effect_none rfl (storeComplete_waits (c := s.chip.fresh) hj h)
  case again =>
    intro h
    have hfree : ¬ s.chip.fresh.cellHeld 3 2 = true := by
      rw [Bool.not_eq_true]
      exact h
    exact effect_eq rfl (if_neg hfree)
  case held => exact fun h => effect_none (f := nvmWriteWatchdog) rfl (if_pos h)
  case release =>
    intro s hholding hhot hjob
    exact effect_eq rfl (nvmHoldRelease_rests (c := s.chip.fresh) hholding hhot hjob)

end Sys2Proof.Machine
end

section
/-! Heads: the start and the stop sequence, and the faults (R118, R121, R127, R133, R135 to R143). -/

namespace Sys2Proof.Machine

/-- A command with an answer of its own, which its operation carries out without a refusal. -/
theorem Chip.command2_ok {c d : Chip} {m : Master} {key : Nat} {op : Chip → Chip × Option Abort} (hs : c.serves m key)
    (hop : op c = (d, none)) : c.command2 m key op = d := by
  obtain ⟨hreaches, haccess⟩ := hs
  rw [Chip.reachesKey, Bool.and_eq_true] at hreaches
  rw [Chip.command2, if_pos hreaches.1, haccess, if_neg Bool.false_ne_true, hop]
  rfl

theorem effect_of_command2 {i : Instr} {s : State} {m : Master} {key : Nat} {op : Chip → Chip × Option Abort} {d : Chip}
    (h : exec i s = run s (fun c => c.command2 m key op)) (hs : s.chip.serves m key) (hop : op s.chip.fresh = (d, none)) : Effect i s d :=
  effect_eq h (Chip.command2_ok (Chip.serves_out hs []) hop)

/-! ### What the admission test leaves (R315 to R317) -/

/-- Two parts that agree but for the admission's objects and sequence, the operands used and the counts noted. -/
structure Chip.BesideAdmission (d c : Chip) : Prop where
  parts : ∃ f o e n, d = { c with free := f, dict := o, happened := e, pix := { c.pix with admitSeq := n } }
  get : ∀ k < K.admitResult, d.get k = c.get k

section
variable {c d : Chip}

theorem Chip.BesideAdmission.refl (c : Chip) : c.BesideAdmission c := ⟨⟨_, _, _, _, rfl⟩, fun _ _ => rfl⟩

theorem Chip.BesideAdmission.set (h : d.BesideAdmission c) {k : Nat} (hk : K.admitResult ≤ k) (v : Int) :
    (d.set k v).BesideAdmission c := by
  obtain ⟨⟨f, o, e, n, rfl⟩, hget⟩ := h
  refine ⟨⟨_, _, _, _, rfl⟩, fun j hj => ?_⟩
  rw [Chip.get_set_other _ _ _ _ (Nat.ne_of_lt (Nat.lt_of_lt_of_le hj hk))]
  exact hget j hj

theorem Chip.BesideAdmission.reportFrac (h : d.BesideAdmission c) (x : Frac) : (d.reportFrac x).2.BesideAdmission c := by
  obtain ⟨⟨f, o, e, n, rfl⟩, hget⟩ := h
  unfold Chip.reportFrac
  split
  · exact ⟨⟨_, _, _, _, rfl⟩, hget⟩
  · exact ⟨⟨_, _, _, _, rfl⟩, hget⟩

theorem Chip.BesideAdmission.reportFracs (h : d.BesideAdmission c) {key : Nat → Nat} (hkey : ∀ j, K.admitResult ≤ key j)
    (l : List Frac) : (d.reportFracs key l).BesideAdmission c :=
  List.foldlRecOn (motive := fun e : Chip => e.BesideAdmission c) _ _ h fun _ he x _ => (he.reportFrac x.1).set (hkey x.2) _

theorem Chip.BesideAdmission.sequence (h : d.BesideAdmission c) (n : Nat) :
    ({ d with pix := { d.pix with admitSeq := n } } : Chip).BesideAdmission c := by
  obtain ⟨⟨f, o, e, m, rfl⟩, hget⟩ := h
  exact ⟨⟨_, _, _, _, rfl⟩, hget⟩

theorem Chip.BesideAdmission.publishAdmission (h : d.BesideAdmission c) (x l : List Frac) (b : Bool) :
    (d.publishAdmission x l b).BesideAdmission c := by
  have hlastKey (j : Nat) : K.admitResult ≤ K.admitLastDemand j := by
    simp only [K.admitResult, K.admitLastDemand]
    omega
  have hdemandKey (j : Nat) : K.admitResult ≤ K.admitDemand j := by
    simp only [K.admitResult, K.admitDemand]
    omega
  have hceilingKey (j : Nat) : K.admitResult ≤ K.admitCeiling j := by
    simp only [K.admitResult, K.admitCeiling]
    omega
  unfold Chip.publishAdmission
  dsimp only
  split
  · exact ((((h.sequence _).set (Nat.le_refl _) _).reportFracs hlastKey x).reportFracs hdemandKey x).reportFracs hceilingKey l
  · exact ((h.sequence _).set (Nat.le_refl _) _).reportFracs hlastKey x

theorem Chip.BesideAdmission.bump (h : d.BesideAdmission c) {k : Nat} (hk : K.admitResult ≤ k) : (d.bump k).BesideAdmission c := by
  obtain ⟨⟨f, o, e, n, rfl⟩, hget⟩ := h
  refine ⟨⟨_, _, _, _, rfl⟩, fun j hj => ?_⟩
  rw [Chip.get_bump, if_neg (Nat.ne_of_lt (Nat.lt_of_lt_of_le hj hk))]
  exact hget j hj

theorem Chip.admitted_beside (c : Chip) (key : Nat) (v : Int) : (c.admitted key v).1.BesideAdmission c := by
  have hpublished := fun x l b => ((Chip.BesideAdmission.refl c).set (k := K.admitRequest) (by decide)
    (key / 256 * 65536 + key % 256 * 256 : Nat)).publishAdmission x l b
  unfold Chip.admitted
  dsimp only
  split
  · exact (hpublished _ _ _).bump (by decide)
  · exact hpublished _ _ _

/-- Whether heads may run does not turn on the admission's objects. -/
theorem Chip.headsMayRun_beside (h : d.BesideAdmission c) : d.headsMayRun = c.headsMayRun := by
  obtain ⟨⟨f, o, e, n, rfl⟩, hget⟩ := h
  unfold Chip.headsMayRun
  rw [hget _ (by decide), hget _ (by decide), hget _ (by decide)]

theorem Chip.headsMayRun_set {k : Nat} {v : Int} (hk : k ∉ [K.chipMode, K.refclkState, K.pixelDieState]) :
    (c.set k v).headsMayRun = c.headsMayRun := by
  simp only [List.mem_cons, List.not_mem_nil, or_false, not_or] at hk
  obtain ⟨hmode, hclock, hdie⟩ := hk
  unfold Chip.headsMayRun
  rw [Chip.get_set_other _ _ _ _ (Ne.symm hmode), Chip.get_set_other _ _ _ _ (Ne.symm hclock), Chip.get_set_other _ _ _ _ (Ne.symm hdie)]
  rfl

end

/-! ### The steps of a head -/

section
variable {c : Chip} {h : Nat}

theorem headRunRequest_starts (hh : h < 4) (hstate : c.get (K.runState h) = 0) (htiming : c.timingOk h = true)
    (hkeeps : c.geometryKeeps h = true) (hmay : c.headsMayRun = true) (hadmit : (c.admitted (K.runRequest h) 1).2 = false) :
    headRunRequest h c = (((c.admitted (K.runRequest h) 1).1.set (K.runRequest h) 1).headStart h, none) := by
  have hmay' : ((c.admitted (K.runRequest h) 1).1.set (K.runRequest h) 1).headsMayRun = true := by
    rw [Chip.headsMayRun_set (by interval_cases h <;> decide), Chip.headsMayRun_beside (Chip.admitted_beside ..), hmay]
  rw [headRunRequest, hstate]
  dsimp only
  rw [if_neg (by omega), if_neg (by simp [htiming, hkeeps]), hadmit, if_neg Bool.false_ne_true, if_neg (by decide), if_pos hmay']

theorem headSupplySettled_runs (hphase : (c.head h).phase = .supply) (hrail : c.rails.fault.getD 9 false = false)
    (hcurrent : c.get (K.supMinCurrent h) ≤ c.get (K.supCurrent h)) :
    headSupplySettled h c = ((if c.get (K.supState h) = 3 then c else c.set (K.supState h) 2).modHead h (fun (p : HeadPort) => { p with
      mclk := true, phase := .script, script := c.domainImage (K.cfgInit h) })).scriptNext h := by
  have himage : (if c.get (K.supState h) = 3 then c else c.set (K.supState h) 2).domainImage (K.cfgInit h) = c.domainImage (K.cfgInit h) := by
    split <;> rfl
  rw [headSupplySettled, if_neg (not_not.2 hphase), hrail, if_neg Bool.false_ne_true, if_neg (by omega)]
  dsimp only
  rw [himage]

theorem headSupplySettled_low (hphase : (c.head h).phase = .supply) (hrail : c.rails.fault.getD 9 false = false)
    (hcurrent : c.get (K.supCurrent h) < c.get (K.supMinCurrent h)) : headSupplySettled h c = c.loseHead h 2 := by
  rw [headSupplySettled, if_neg (not_not.2 hphase), hrail, if_neg Bool.false_ne_true, if_pos hcurrent]

/-- The taps' states and the converters behind them are not a frame's sums. -/
theorem Chip.tapsLost_endSwing : (c.endSwing h).tapsLost h = c.tapsLost h := rfl

theorem headVerificationEnd_verified (hstate : c.get (K.runState h) = 2) (hframes : c.verifyFrames h ≤ (c.head h).verified)
    (hruns : ∀ t < 16, (c.endSwing h |>.head h).vRun.getD t 0 < 4) (htaps : c.nat (K.tapCount h) ≤ 16) (hlost : c.tapsLost h = false) :
    headVerificationEnd h c = ((c.endSwing h).set (K.runState h) 3).modHead h (fun (p : HeadPort) =>
      { p with firstGood := true, lost := false, failed := 0, retrying := false }) := by
  rw [headVerificationEnd, if_pos ⟨hstate, hframes⟩]
  dsimp only
  rw [foldl_id, if_neg (by rw [Chip.tapsLost_endSwing, hlost]; exact Bool.false_ne_true)]
  intro t ht
  have ht' : t < c.nat (K.tapCount h) := List.mem_range.1 ht
  rw [if_neg (fun hfour => absurd (hruns t (by omega)) (by omega))]

theorem headStopRequest_starting (hstate : c.get (K.runState h) = 1) (hlost : (c.head h).lost = false) :
    headStopRequest h c = (((c.set (K.runRequest h) 0).modHead h (fun (p : HeadPort) => { p with restart := false })).set
      (K.runState h) 5).headRampDown h := by
  rw [headStopRequest, hstate, hlost]
  rfl

theorem headStopRequest_running (hstate : c.get (K.runState h) = 2 ∨ c.get (K.runState h) = 3) (hlost : (c.head h).lost = false) :
    headStopRequest h c = ((((((c.set (K.runRequest h) 0).modHead h (fun (p : HeadPort) => { p with restart := false })).set
      (K.runState h) 5).modHead h (fun (p : HeadPort) => { p with lastFrame := true })).solsticeHeadGone h true).headStopsStandin h
      false).calHeadGone h := by
  have hfour : ¬ (c.get (K.runState h) = 4 ∨ (c.get (K.runState h) ≠ 0 ∧ c.get (K.runState h) ≠ 5 ∧ (c.head h).lost = true)) := by
    simp only [hlost, Bool.false_eq_true, and_false, or_false]
    omega
  rw [headStopRequest]
  dsimp only
  rw [if_neg hfour, if_neg (by omega), if_pos hstate]

theorem headStopRequest_lost (hstate : c.get (K.runState h) = 4) :
    headStopRequest h c = ((((c.set (K.runRequest h) 0).modHead h (fun (p : HeadPort) => { p with restart := false })).biasOff
      h).solsticeHeadGone h true).headRest h := by
  rw [headStopRequest]
  dsimp only
  rw [if_pos (Or.inl hstate)]

theorem headStopRequest_off (hstate : c.get (K.runState h) = 0) :
    headStopRequest h c = (c.set (K.runRequest h) 0).modHead h (fun (p : HeadPort) => { p with restart := false }) := by
  rw [headStopRequest, hstate]
  dsimp only
  rw [if_neg (by simp), if_neg (by decide), if_neg (by decide)]

theorem headStopComplete_rests (hstate : c.get (K.runState h) = 5) (hlast : (c.head h).lastFrame = false)
    (hramp : c.ramping h = false) (hbias : (c.head h).bias = List.replicate 8 0) (hrestart : (c.head h).restart = false) :
    headStopComplete h c = c.headRest h := by
  rw [headStopComplete]
  dsimp only
  rw [if_pos ⟨hstate, by simp [hlast], by simp [hramp], hbias⟩, if_neg (by simp [hrestart])]

theorem headStopComplete_restarts (hstate : c.get (K.runState h) = 5) (hlast : (c.head h).lastFrame = false)
    (hramp : c.ramping h = false) (hbias : (c.head h).bias = List.replicate 8 0) (hrestart : (c.head h).restart = true)
    (hrequest : (c.headRest h).get (K.runRequest h) = 1) (hmay : (c.headRest h).headsMayRun = true) :
    headStopComplete h c = (c.headRest h).headStart h := by
  rw [headStopComplete]
  dsimp only
  rw [if_pos ⟨hstate, by simp [hlast], by simp [hramp], hbias⟩, if_pos ⟨hrestart, hrequest, hmay⟩]

end

/-- Settles O28: the start and the stop sequence step by step, with an admission test that no step of the start reads. -/
theorem headSequences : Obligations.HeadSequences := by
  unfold Obligations.HeadSequences
  refine ⟨⟨?request, fun s h hphase hrail => ⟨?settled, ?low⟩, ?ramped, ?verified⟩,
    fun s m h hs => ⟨?starting, ?running, ?lost, ?off⟩, ?lastFrame, fun s h hstate hlast hramp hbias => ⟨?rests, ?restarts⟩⟩
  case request =>
    intro s m h hs hstate htiming hkeeps hmay _ hadmit
    exact effect_of_command2 rfl hs (headRunRequest_starts (c := s.chip.fresh) h.isLt hstate htiming hkeeps hmay hadmit)
  case settled => exact fun hcurrent => effect_eq rfl (headSupplySettled_runs (c := s.chip.fresh) hphase hrail hcurrent)
  case low => exact fun hcurrent => effect_eq rfl (headSupplySettled_low (c := s.chip.fresh) hphase hrail hcurrent)
  case ramped =>
    intro s h hphase hramp
    have hdone : (s.chip.fresh.head h.val).phase = .ramp ∧ (!s.chip.fresh.ramping h.val) = true := ⟨hphase, congrArg not hramp⟩
    exact effect_of_eq (f := headBiasSettled h.val) rfl (if_pos hdone) ⟨rfl, fun _ _ => rfl⟩
  case verified =>
    intro s h hstate hframes hruns htaps hlost
    exact effect_of_eq rfl (headVerificationEnd_verified (c := s.chip.fresh) hstate hframes hruns htaps hlost) ⟨rfl, fun _ _ => rfl⟩
  case starting =>
    exact fun hstate hlost => effect_of_command rfl hs
      (congrArg Except.ok (headStopRequest_starting (c := s.chip.fresh) hstate hlost)) (Chip.agrees_refl _)
  case running =>
    exact fun hstate hlost => effect_of_command rfl hs
      (congrArg Except.ok (headStopRequest_running (c := s.chip.fresh) hstate hlost)) (Chip.agrees_refl _)
  case lost =>
    exact fun hstate => effect_of_command rfl hs (congrArg Except.ok (headStopRequest_lost (c := s.chip.fresh) hstate)) (Chip.agrees_refl _)
  case off =>
    exact fun hstate => effect_of_command rfl hs (congrArg Except.ok (headStopRequest_off (c := s.chip.fresh) hstate)) (Chip.agrees_refl _)
  case lastFrame =>
    intro s h hstate hlast
    have hends : s.chip.fresh.get (K.runState h) = 5 ∧ (s.chip.fresh.head h.val).lastFrame = true := ⟨hstate, hlast⟩
    exact effect_eq (f := headLastFrameEnd h.val) rfl (if_pos hends)
  case rests =>
    exact fun hrestart => effect_eq rfl (headStopComplete_rests (c := s.chip.fresh) hstate hlast hramp hbias hrestart)
  case restarts =>
    exact fun hrestart hrequest hmay =>
      effect_eq rfl (headStopComplete_restarts (c := s.chip.fresh) hstate hlast hramp hbias hrestart hrequest hmay)

/-- Settles O29: each fault by the one test of its command. -/
theorem headFaults : Obligations.HeadFaults := by
  unfold Obligations.HeadFaults
  refine fun s h => ⟨fun hzero hfour => ?lasts, fun hlow => ?under, fun b hbit hclk => ?bias, fun b hlow => ?opened, fun hrun => ?check,
    fun t hserves => ?short, fun hstate hrequest hfailed hmay => ?retry⟩
  case lasts =>
    have hon : ¬ (s.chip.fresh.get (K.supState h.val) = 0 ∨ s.chip.fresh.get (K.supState h.val) = 4) := not_or.2 ⟨hzero, hfour⟩
    exact effect_eq (f := headSupplyOvercurrent h.val .lasted) rfl (if_neg hon)
  case under =>
    have hlow' : 10 ≤ (s.chip.fresh.head h.val).supLow := hlow
    exact effect_eq (f := headSupplyUndercurrent h.val) rfl (if_pos hlow')
  case bias =>
    have hon : bitOf (s.chip.fresh.nat (K.biasEnable h.val)) b.val = true ∧ (s.chip.fresh.head h.val).mclk = true := ⟨hbit, hclk⟩
    exact effect_eq (f := biasOvercurrent h.val b.val .lasted) rfl (if_pos hon)
  case opened =>
    have hlow' : 10 ≤ (s.chip.fresh.head h.val).biasLow.getD b.val 0 := hlow
    exact effect_eq (f := biasOpen h.val b.val) rfl (if_pos hlow')
  case check =>
    have hrun' : 3 ≤ (s.chip.fresh.head h.val).checkRun := hrun
    exact effect_eq (f := cfgCheckFailure h.val) rfl (if_pos hrun')
  case short =>
    have hserves' : s.chip.fresh.tapServes h.val t.val = true := hserves
    exact effect_eq (f := tapRailShort h.val t.val) rfl (if_pos hserves')
  case retry =>
    have hdue : s.chip.fresh.get (K.runState h.val) = 4 ∧ s.chip.fresh.get (K.runRequest h.val) = 1 ∧
        (s.chip.fresh.get (K.retryMax h.val) = 0 ∨ (s.chip.fresh.head h.val).failed < s.chip.fresh.nat (K.retryMax h.val)) ∧
        s.chip.fresh.headsMayRun = true := ⟨hstate, hrequest, hfailed, hmay⟩
    exact effect_eq (f := headRetry h.val) rfl (if_pos hdue)

end Sys2Proof.Machine
end

section
/-! The configuration link, frame starts and converters (R121 to R131, R144, R158 to R161, R474). -/

namespace Sys2Proof.Machine

/-- What two functions do at one place of a list is the same where they agree on what stands there. -/
theorem modAt_congr {α : Type} [Inhabited α] {l : List α} {i : Nat} {f g : α → α} (h : f (at' l i) = g (at' l i)) :
    modAt l i f = modAt l i g := by
  refine List.ext_getElem? fun j => ?_
  rw [modAt, modAt, List.getElem?_modify, List.getElem?_modify]
  by_cases hij : i = j
  · subst hij
    rw [at', List.getD_eq_getElem?_getD] at h
    cases hl : l[i]? with
    | none => rfl
    | some x =>
      rw [hl] at h
      simpa using h
  · simp [hij]

theorem modAt_modAt {α : Type} (l : List α) (i : Nat) (f g : α → α) : modAt (modAt l i f) i g = modAt l i (fun x => g (f x)) :=
  List.modify_modify_eq f g i l

theorem modAt_same {α : Type} [Inhabited α] {l : List α} {i : Nat} {f : α → α} (h : f (at' l i) = at' l i) : modAt l i f = l :=
  (modAt_congr (g := id) h).trans (List.modify_id i l)

section
variable {c : Chip} {b : Nat}

theorem Chip.modBank_congr {f g : ConvBank → ConvBank} (h : f (c.bank b) = g (c.bank b)) : c.modBank b f = c.modBank b g := by
  rw [Chip.modBank, Chip.modBank, modAt_congr h]

theorem Chip.modBank_modBank (f g : ConvBank → ConvBank) : (c.modBank b f).modBank b g = c.modBank b (fun k => g (f k)) := by
  rw [Chip.modBank, Chip.modBank, Chip.modBank, modAt_modAt]

theorem Chip.modBank_same {f : ConvBank → ConvBank} (h : f (c.bank b) = c.bank b) : c.modBank b f = c := by
  rw [Chip.modBank, modAt_same h]

end

/-! ### The configuration link -/

section
variable {c : Chip} {h : Nat}

theorem cfgRequest_queued (v : BitVec 64) (hroom : ((c.head h).queue.filter (fun t => decide (t.user = .request))).length < 16) :
    cfgRequest h v.toNat c = .ok ((c.modHead h (fun (p : HeadPort) => { p with queue := p.queue ++ [{
      user := .request, read := v[63], addr := v.toNat / 2 ^ 32 % 2 ^ 16 % 2 ^ c.nat (K.cfgAddrBits h)
      data := v.toNat % 2 ^ 32 % 2 ^ c.nat (K.cfgDataBits h) }] })).cfgStatus h (c.cfgBad h)) := by
  have hread : bitOf v.toNat 63 = v[63] := bitOf_eq_testBit v.toNat 63
  have hdata : bits v.toNat 31 0 = v.toNat % 2 ^ 32 := by
    rw [bits, Nat.pow_zero, Nat.div_one]
  rw [cfgRequest, guardNot_pass (decide_eq_false (Nat.not_le.2 hroom)), hread, hdata]
  rfl

theorem cfgRequest_refused {v : Nat} (hfull : 16 ≤ ((c.head h).queue.filter (fun t => decide (t.user = .request))).length) :
    cfgRequest h v c = .error Abort.localControl := by
  rw [cfgRequest, guardNot, decide_eq_true hfull]
  rfl

theorem cfgTransactionStart_sends {t : CfgTx} {rest : List CfgTx} (hactive : (c.head h).active = none)
    (hqueue : (c.head h).queue = t :: rest) (hstate : c.get (K.runState h) ≠ 4)
    (hfree : c.get (K.runState h) ≤ 1 ∨ ((c.head h).timing = true → (c.head h).gap = true)) :
    cfgTransactionStart h c = ((c.modHead h (fun (p : HeadPort) => { p with queue := rest, active := some t })).cfgStatus h
      (c.cfgBad h)).emit (.config h t.read t.addr (if t.read then 0 else t.data)) := by
  rw [cfgTransactionStart]
  dsimp only
  rw [if_neg, hqueue]
  · rfl
  · simp only [hactive, Option.isSome_none, Bool.false_eq_true, false_or, hstate, Bool.not_eq_true']
    rintro ⟨hruns, htiming, hgap⟩
    rcases hfree with hlow | hopen
    · omega
    · rw [hopen htiming] at hgap
      exact Bool.noConfusion hgap

/-- The part with a transaction of the link at its end, and its data read. -/
def Chip.cfgDone (c : Chip) (h data : Nat) (t : CfgTx) : Chip :=
  let c' := c.modHead h (fun (p : HeadPort) => { p with active := none, cfgSeq := nextSeq p.cfgSeq 0xFFFF })
  if t.read then c'.set (K.cfgReadData h) (data % 2 ^ c.nat (K.cfgDataBits h) : Nat) else c'

theorem Chip.get_cfgDone {data k : Nat} {t : CfgTx} (hk : k ≠ K.cfgReadData h) : (c.cfgDone h data t).get k = c.get k := by
  unfold Chip.cfgDone
  dsimp only
  split
  · exact Chip.get_set_other _ _ _ _ hk
  · rfl

theorem Chip.nat_cfgDone {data k : Nat} {t : CfgTx} (hk : k ≠ K.cfgReadData h) : (c.cfgDone h data t).nat k = c.nat k := by
  rw [Chip.nat, Chip.nat, Chip.get_cfgDone hk]

theorem Chip.cfgBad_cfgDone {data : Nat} {t : CfgTx} (hh : h < 4) : (c.cfgDone h data t).cfgBad h = c.cfgBad h := by
  rw [Chip.cfgBad, Chip.cfgBad, Chip.nat_cfgDone (by interval_cases h <;> decide)]

variable {data : Nat} {t : CfgTx}

theorem cfgTransactionComplete_request (hh : h < 4) (hactive : (c.head h).active = some t) (huser : t.user = .request) :
    cfgTransactionComplete h data c = (c.cfgDone h data t).cfgStatus h (c.cfgBad h) := by
  rw [← Chip.cfgBad_cfgDone (data := data) (t := t) hh, cfgTransactionComplete, hactive]
  dsimp only
  rw [huser]
  rfl

theorem cfgTransactionComplete_script (hh : h < 4) (hactive : (c.head h).active = some t) (huser : t.user = .script) :
    cfgTransactionComplete h data c = ((c.cfgDone h data t).cfgStatus h (c.cfgBad h)).scriptNext h := by
  rw [← Chip.cfgBad_cfgDone (data := data) (t := t) hh, cfgTransactionComplete, hactive]
  dsimp only
  rw [huser]
  rfl

theorem cfgTransactionComplete_tfpa (hh : h < 4) (hactive : (c.head h).active = some t) (huser : t.user = .tfpa) :
    cfgTransactionComplete h data c = ((c.cfgDone h data t).cfgStatus h (c.cfgBad h)).modHead h (fun (p : HeadPort) =>
      { p with tfpaReg := some (sx (data % 2 ^ c.nat (K.cfgDataBits h) : Nat) (c.nat (K.cfgDataBits h))) }) := by
  rw [← Chip.cfgBad_cfgDone (data := data) (t := t) hh, cfgTransactionComplete, hactive]
  dsimp only
  rw [huser]
  rfl

theorem cfgTransactionComplete_same (hactive : (c.head h).active = some t) (huser : t.user = .compare)
    (hsame : data % 2 ^ c.nat (K.cfgDataBits h) = t.data) :
    cfgTransactionComplete h data c = ((c.cfgDone h data t).cfgStatus h false).scriptNext h := by
  rw [cfgTransactionComplete, hactive]
  dsimp only
  rw [huser]
  dsimp only
  rw [decide_eq_false (not_not.2 hsame), if_neg Bool.false_ne_true]
  rfl

theorem cfgTransactionComplete_differs (hactive : (c.head h).active = some t) (huser : t.user = .compare)
    (hother : data % 2 ^ c.nat (K.cfgDataBits h) ≠ t.data) :
    cfgTransactionComplete h data c = ((c.cfgDone h data t).cfgStatus h true).loseHead h 9 := by
  rw [cfgTransactionComplete, hactive]
  dsimp only
  rw [huser]
  dsimp only
  rw [decide_eq_true hother, if_pos rfl]
  rfl

theorem cfgTransactionComplete_passes (hh : h < 4) (hactive : (c.head h).active = some t) (huser : t.user = .check)
    (hsame : data % 2 ^ c.nat (K.cfgDataBits h) = c.nat (K.cfgCheckValue h)) :
    cfgTransactionComplete h data c = ((c.cfgDone h data t).cfgStatus h false).modHead h (fun (p : HeadPort) => { p with checkRun := 0 }) := by
  have hvalue : data % 2 ^ c.nat (K.cfgDataBits h) = (c.cfgDone h data t).nat (K.cfgCheckValue h) := by
    rw [Chip.nat_cfgDone (by interval_cases h <;> decide), hsame]
  rw [Chip.cfgDone] at hvalue
  rw [cfgTransactionComplete, hactive]
  dsimp only at hvalue ⊢
  rw [huser, decide_eq_false (not_not.2 hvalue), if_neg Bool.false_ne_true]
  rfl

theorem cfgTransactionComplete_fails (hh : h < 4) (hactive : (c.head h).active = some t) (huser : t.user = .check)
    (hother : data % 2 ^ c.nat (K.cfgDataBits h) ≠ c.nat (K.cfgCheckValue h)) :
    cfgTransactionComplete h data c = (((c.cfgDone h data t).cfgStatus h true).modHead h (fun (p : HeadPort) =>
      { p with checkRun := p.checkRun + 1 })).bump (K.cfgCheckFails h) := by
  have hvalue : data % 2 ^ c.nat (K.cfgDataBits h) ≠ (c.cfgDone h data t).nat (K.cfgCheckValue h) := by
    rw [Chip.nat_cfgDone (by interval_cases h <;> decide)]
    exact hother
  rw [Chip.cfgDone] at hvalue
  rw [cfgTransactionComplete, hactive]
  dsimp only at hvalue ⊢
  rw [huser, decide_eq_true hvalue, if_pos rfl]
  rfl

end

/-- Settles O31: a request by the room of its queue, a transaction's end by its user. -/
theorem configurationLink : Obligations.ConfigurationLink := by
  unfold Obligations.ConfigurationLink
  refine ⟨fun s m h v hs => ⟨?queued, ?refused⟩, ?start, fun s h data t hactive => ?complete, ?wait⟩
  case queued =>
    exact fun hroom => effect_of_command rfl hs (cfgRequest_queued (c := s.chip.fresh) v hroom) (Chip.agrees_refl _)
  case refused =>
    exact fun hfull => effect_of_refused rfl hs (cfgRequest_refused (c := s.chip.fresh) hfull)
  case start =>
    intro s h t rest hactive hqueue hstate hfree
    exact answer_of_eq rfl (cfgTransactionStart_sends (c := s.chip.fresh) hactive hqueue hstate hfree) (Chip.extends_emit _ _).1
      List.prefix_rfl
  case complete =>
    refine ⟨fun huser => ?_, fun huser => ?_, fun huser => ⟨fun hsame => ?_, fun hother => ?_⟩,
      fun huser => ⟨fun hsame => ?_, fun hother => ?_⟩, fun huser => ?_⟩
    · exact effect_eq rfl (cfgTransactionComplete_request (c := s.chip.fresh) h.isLt hactive huser)
    · exact effect_eq rfl (cfgTransactionComplete_script (c := s.chip.fresh) h.isLt hactive huser)
    · exact effect_eq rfl (cfgTransactionComplete_same (c := s.chip.fresh) hactive huser hsame)
    · exact effect_eq rfl (cfgTransactionComplete_differs (c := s.chip.fresh) hactive huser hother)
    · exact effect_eq rfl (cfgTransactionComplete_passes (c := s.chip.fresh) h.isLt hactive huser hsame)
    · exact effect_eq rfl (cfgTransactionComplete_fails (c := s.chip.fresh) h.isLt hactive huser hother)
    · exact effect_eq rfl (cfgTransactionComplete_tfpa (c := s.chip.fresh) h.isLt hactive huser)
  case wait =>
    intro s h hwait
    have hwait' : (s.chip.fresh.head h.val).scriptWait = true := hwait
    exact effect_eq (f := cfgScriptWaitEnd h.val) rfl (if_pos hwait')

/-! ### Frame starts, triggers and converters -/

section
variable {c : Chip} {h b j : Nat}

theorem headFrameStart_starts (htiming : (c.head h).timing = true) (hlast : (c.head h).lastFrame = false)
    (hdue : c.get (K.triggerMode h) ≠ 1 ∨ (c.head h).trigAt.isSome = true) : headFrameStart h c = c.headFrame h := by
  rw [headFrameStart]
  rw [if_neg]
  simp only [htiming, hlast, Bool.not_true, Bool.false_eq_true, false_or]
  rintro ⟨hmode, -, hnone⟩
  rcases hdue with hother | hsome
  · exact hother hmode
  · rw [Option.isNone_iff_eq_none] at hnone
    rw [hnone] at hsome
    exact Bool.noConfusion hsome

theorem triggerTimeout_starts (htiming : (c.head h).timing = true) (hlast : (c.head h).lastFrame = false)
    (hmode : c.get (K.triggerMode h) = 1) (hrun : (c.head h).freeRun = false) (hat : (c.head h).trigAt = none) :
    triggerTimeout h c = ((c.modHead h (fun (p : HeadPort) => { p with freeRun := true })).bump (K.missedTriggers h)).headFrame h := by
  rw [triggerTimeout]
  rw [if_pos ⟨htiming, by simp [hlast], hmode, by simp [hrun], by simp [hat]⟩]

theorem triggerDelivery_delivers {t : Trigger} (hwaiting : c.psi.waiting = [t]) (hheads : t.heads = 2 ^ h) (htarget : t.target ≤ c.now) :
    triggerDelivery h c = ({ c with psi := { c.psi with waiting := [] } } : Chip).triggerHead h := by
  have hbit : bitOf t.heads h = true := by
    rw [hheads, bitOf_eq_testBit, Nat.testBit_two_pow_self]
  have hrest : putBit t.heads h false = 0 := by
    rw [putBit, hbit, hheads]
    exact Nat.sub_self _
  have hfind : [t].find? (fun t => bitOf t.heads h && decide (t.target ≤ c.now)) = some t := by
    simp [hbit, htarget]
  rw [triggerDelivery, hwaiting, hfind]
  dsimp only
  rw [hrest]
  simp

theorem Chip.triggerHead_silent (h : Nat) : Silent fun c => c.triggerHead h :=
  .ite (fun _ _ => rfl) .id (.ite (fun _ _ => rfl) (fun _ _ => rfl) (fun _ _ => rfl))

theorem converterWatchdog_held (hstate : c.get (K.convState b j) ≠ 5) (hout : j ∉ (c.bank b).inReset)
    (hheld : c.cellHeld 1 (4 + b) = true) :
    converterWatchdog b j c = c.raise 0 1 (4 + b) j 0x1020 (c.nat (K.convSlot b j)) (c.nat (K.convResets b j)) := by
  rw [Chip.cellHeld] at hheld
  rw [converterWatchdog, if_neg (not_or.2 ⟨hstate, hout⟩), hheld]
  rfl

/-- A part whose converter is reset, with the record of it. -/
def Chip.converterHangs (c : Chip) (b j : Nat) : Chip :=
  let d := c.bump (K.convResets b j)
  d.raise 0 1 (4 + b) j 0x1020 (c.nat (K.convSlot b j)) (d.nat (K.convResets b j))

/-- The resets of a bank's converters in the last second. -/
def Chip.recentResets (c : Chip) (b : Nat) : List (Nat × Nat) :=
  (c.bank b).resets.filter (fun (e : Nat × Nat) => decide (c.mono < e.1 + 1000000000))

theorem Chip.converterHangs_bank : (c.converterHangs b j).mono = c.mono ∧ (c.converterHangs b j).bank b = c.bank b := by
  have hrecorded : (c.converterHangs b j).recorded (c.bump (K.convResets b j)) := Chip.raise_recorded _ _ _ _ _ _ _ _ (by decide)
  have hclk := Chip.recorded_clk hrecorded
  have hbanks := Chip.recorded_banks hrecorded
  refine ⟨?_, ?_⟩
  · rw [Chip.mono, hclk]
    rfl
  · rw [Chip.bank, hbanks]
    rfl

/-- A reset that is not held by its bank: the part as it stands before it is told whether it retires. -/
theorem converterWatchdog_resets (hstate : c.get (K.convState b j) ≠ 5) (hout : j ∉ (c.bank b).inReset)
    (hheld : c.cellHeld 1 (4 + b) = false) :
    converterWatchdog b j c =
      let d := (c.converterHangs b j).modBank b (fun (k : ConvBank) => { k with
        resets := (c.mono, j) :: c.recentResets b, inReset := k.inReset ++ [j], gaps := k.gaps ++ [{ conv := j, since := c.mono * 6 - 600 }] })
      if 3 ≤ (((c.mono, j) :: c.recentResets b).filter (fun (e : Nat × Nat) => decide (e.2 = j))).length then
        (d.modBank b (fun (k : ConvBank) => { k with
          inReset := k.inReset.erase j, resets := k.resets.filter (fun (e : Nat × Nat) => decide (e.2 ≠ j)) })).retire b j
      else d.countCell 1 (4 + b) j 0x1020 := by
  obtain ⟨hmono, hbank⟩ := c.converterHangs_bank (b := b) (j := j)
  rw [Chip.converterHangs] at hmono hbank
  rw [Chip.cellHeld] at hheld
  rw [converterWatchdog, if_neg (not_or.2 ⟨hstate, hout⟩), hheld]
  dsimp only at hmono hbank ⊢
  rw [if_neg Bool.false_ne_true, hmono, hbank]
  rfl

theorem length_own_resets (l : List (Nat × Nat)) (n : Nat) :
    (((n, j) :: l).filter (fun (e : Nat × Nat) => decide (e.2 = j))).length = (l.filter (fun (e : Nat × Nat) => decide (e.2 = j))).length + 1 := by
  simp

theorem converterWatchdog_counts (hstate : c.get (K.convState b j) ≠ 5) (hout : j ∉ (c.bank b).inReset)
    (hheld : c.cellHeld 1 (4 + b) = false) (hfew : ((c.recentResets b).filter (fun (e : Nat × Nat) => decide (e.2 = j))).length < 2) :
    converterWatchdog b j c = ((c.converterHangs b j).modBank b (fun (k : ConvBank) => { k with
      resets := (c.mono, j) :: c.recentResets b, inReset := k.inReset ++ [j]
      gaps := k.gaps ++ [{ conv := j, since := c.mono * 6 - 600 }] })).countCell 1 (4 + b) j 0x1020 := by
  rw [converterWatchdog_resets hstate hout hheld, length_own_resets]
  dsimp only
  rw [if_neg (by omega)]

theorem converterWatchdog_retires (hstate : c.get (K.convState b j) ≠ 5) (hout : j ∉ (c.bank b).inReset)
    (hheld : c.cellHeld 1 (4 + b) = false) (hmany : 2 ≤ ((c.recentResets b).filter (fun (e : Nat × Nat) => decide (e.2 = j))).length) :
    converterWatchdog b j c = ((c.converterHangs b j).modBank b (fun (k : ConvBank) => { k with
      resets := (c.recentResets b).filter (fun (e : Nat × Nat) => decide (e.2 ≠ j))
      gaps := k.gaps ++ [{ conv := j, since := c.mono * 6 - 600 }] })).retire b j := by
  obtain ⟨-, hbank⟩ := c.converterHangs_bank (b := b) (j := j)
  rw [converterWatchdog_resets hstate hout hheld, length_own_resets]
  dsimp only
  rw [if_pos (by omega), Chip.modBank_modBank]
  congr 1
  refine Chip.modBank_congr ?_
  rw [hbank]
  have herase : ((c.bank b).inReset ++ [j]).erase j = (c.bank b).inReset := by
    rw [List.erase_append_right _ hout]
    simp
  simp [herase]

theorem converterResetEnd_ends (hin : j ∈ (c.bank b).inReset) :
    converterResetEnd b j c = c.modBank b (fun (k : ConvBank) => { k.closeGap j (c.mono * 6) with inReset := k.inReset.erase j }) :=
  Chip.modBank_congr (if_pos hin)

theorem converterResetEnd_none (hout : j ∉ (c.bank b).inReset) : converterResetEnd b j c = c := Chip.modBank_same (if_neg hout)

end

/-- Settles O32: frame starts and triggers by their tests, and a converter's reset by what its bank counts. -/
theorem framesAndConverters : Obligations.FramesAndConverters := by
  unfold Obligations.FramesAndConverters
  refine ⟨⟨fun s h htiming hlast => ⟨?frame, ?timeout⟩, ?blanking, ?trigger⟩,
    fun s b j hstate hout => ⟨?held, fun hheld => ⟨?counts, ?retires⟩⟩, fun s b j => ⟨?ends, ?none⟩⟩
  case frame => exact fun hdue => effect_eq rfl (headFrameStart_starts (c := s.chip.fresh) htiming hlast hdue)
  case timeout => exact fun hmode hrun hat => effect_eq rfl (triggerTimeout_starts (c := s.chip.fresh) htiming hlast hmode hrun hat)
  case blanking =>
    intro s h htiming
    have htiming' : (s.chip.fresh.head h.val).timing = true := htiming
    exact effect_eq (f := blankingStart h.val) rfl (if_pos htiming')
  case trigger =>
    intro s h t hwaiting hheads htarget
    have hsilent := Chip.triggerHead_silent h.val { s.chip with psi := { s.chip.psi with waiting := [] } } []
    exact effect_of_eq rfl ((triggerDelivery_delivers (c := s.chip.fresh) hwaiting hheads htarget).trans hsilent) (Chip.agrees_sending _ _)
  case held =>
    exact fun hheld => effect_eq rfl (converterWatchdog_held (c := s.chip.fresh) hstate hout hheld)
  case counts => exact fun hfew => effect_eq rfl (converterWatchdog_counts (c := s.chip.fresh) hstate hout hheld hfew)
  case retires => exact fun hmany => effect_eq rfl (converterWatchdog_retires (c := s.chip.fresh) hstate hout hheld hmany)
  case ends => exact fun hin => effect_of_eq rfl (converterResetEnd_ends (c := s.chip.fresh) hin) ⟨rfl, fun _ _ => rfl⟩
  case none => exact fun hout => effect_none rfl (converterResetEnd_none (c := s.chip.fresh) hout)

end Sys2Proof.Machine
end

section
/-! SOLSTICE_COMMAND and the reseed of the temporal filter (R235, R247 to R249, R291). -/

namespace Sys2Proof.Machine

section
variable {c : Chip} {h : Nat}

theorem guardNot_refuses {b : Bool} {code : Abort} {k : Except Abort Chip} (hb : b = true) : guardNot b code k = .error code := by
  rw [guardNot, hb]
  rfl

/-- A shutter of its own has no bank of the driver. -/
theorem Chip.shutterBank_own (h3 : c.get (K.solsticeShutter h) = 3) : c.shutterBank h = none := by
  rw [Chip.shutterBank, h3]
  rfl

theorem solsticeCommand_due (h3 : c.get (K.solsticeShutter h) = 3) (hrest : c.solsticeRuns h = false) :
    solsticeCommand h c = .ok ((c.set (K.solsticeDue h) (putBit (c.nat (K.solsticeDue h)) 2 true)).solsticeIdle h) := by
  have hfits : (decide (c.get (K.solsticeShutter h) = 0) || ((c.shutterBank h).isSome && !c.on K.actuatorFitted)) = false := by
    rw [Chip.shutterBank_own h3, h3]
    rfl
  have hrest' : (c.solstice h).ev.isSome = false := hrest
  rw [solsticeCommand, guardNot_pass hfits, guardNot_pass hrest']

theorem solsticeCommand_incompatible (h0 : c.get (K.solsticeShutter h) = 0) : solsticeCommand h c = .error Abort.incompatible := by
  rw [solsticeCommand, h0]
  exact guardNot_refuses rfl

theorem solsticeWithdraw_clears (hstate : c.get (K.solsticeState h) < 5) (hrest : c.solsticeRuns h = false) :
    solsticeWithdraw h c = .ok ((c.set (K.solsticeDue h) (putBit (c.nat (K.solsticeDue h)) 2 false)).solsticeIdle h) := by
  have hrest' : (c.solstice h).ev.isSome = false := hrest
  rw [solsticeWithdraw, guardNot_pass (decide_eq_false (by omega)), if_neg (by simp [hrest'])]

theorem solsticeWithdraw_abandons (hstate : c.get (K.solsticeState h) < 5) (hruns : c.solsticeRuns h = true) :
    solsticeWithdraw h c = .ok (c.solsticeAbandon h 1 false) := by
  have hruns' : (c.solstice h).ev.isSome = true := hruns
  rw [solsticeWithdraw, guardNot_pass (decide_eq_false (by omega)), if_pos hruns']

theorem solsticeWithdraw_refused (hstate : 5 ≤ c.get (K.solsticeState h)) : solsticeWithdraw h c = .error Abort.localControl := by
  rw [solsticeWithdraw]
  exact guardNot_refuses (decide_eq_true hstate)

theorem Chip.solsticeIdle_silent (h : Nat) : Silent fun c => c.solsticeIdle h := .ite (fun _ _ => rfl) .id (fun _ _ => rfl)

/-- SOLSTICE_DUE bit 2 as a request or a withdrawal leaves it. -/
def Chip.solsticeAsked (c : Chip) (h : Nat) (due : Bool) : Chip :=
  (c.set (K.solsticeDue h) (putBit (c.nat (K.solsticeDue h)) 2 due)).solsticeIdle h

theorem Chip.solsticeAsked_silent (h : Nat) (due : Bool) : Silent fun c => c.solsticeAsked h due :=
  fun c l => Chip.solsticeIdle_silent h (c.set (K.solsticeDue h) (putBit (c.nat (K.solsticeDue h)) 2 due)) l

/-- Work that reads no messages does the same without those of the command before. -/
theorem Silent.agrees_fresh {f : Chip → Chip} (hf : Silent f) (c : Chip) : (f c.fresh).agrees (f c) := by
  have hfresh : f c.fresh = (f c).sending [] := hf c []
  rw [hfresh]
  exact Chip.agrees_sending _ _

end

/-- Settles O33: each request by the shutter, the event and its state. -/
theorem solsticeCommands : Obligations.SolsticeCommands := by
  unfold Obligations.SolsticeCommands
  refine ⟨fun s m h hs => ⟨?due, ?noShutter, fun hstate => ⟨?clears, ?abandons⟩, ?late⟩, ?reseed⟩
  case due =>
    intro h3 hrest
    exact effect_of_command rfl hs (solsticeCommand_due (c := s.chip.fresh) h3 hrest) ((Chip.solsticeAsked_silent _ true).agrees_fresh _)
  case noShutter => exact fun h0 => effect_of_refused rfl hs (solsticeCommand_incompatible (c := s.chip.fresh) h0)
  case clears =>
    intro hrest
    exact effect_of_command rfl hs (solsticeWithdraw_clears (c := s.chip.fresh) hstate hrest) ((Chip.solsticeAsked_silent _ false).agrees_fresh _)
  case abandons => exact fun hruns => effect_of_command rfl hs (solsticeWithdraw_abandons (c := s.chip.fresh) hstate hruns) (Chip.agrees_refl _)
  case late => exact fun hstate => effect_of_refused rfl hs (solsticeWithdraw_refused (c := s.chip.fresh) hstate)
  case reseed =>
    intro s m src hs hruns
    have hruns' : s.chip.fresh.pixelRuns = true := hruns
    exact effect_of_command (op := tnrReseed src.val) rfl hs (if_pos hruns') ⟨rfl, fun _ _ => rfl⟩

end Sys2Proof.Machine
end

section
/-! The actuator driver's commands (R262 to R266, R271, R272, R275). -/

namespace Sys2Proof.Machine

/-! ### Channels, banks and what their operations leave -/

/-- What stands in a place that exists, once it was worked on. -/
theorem at'_modAt_same {α : Type} [Inhabited α] {l : List α} {i : Nat} (hi : i < l.length) (f : α → α) : at' (modAt l i f) i = f (at' l i) := by
  rw [at', at', modAt, List.getD_eq_getElem?_getD, List.getD_eq_getElem?_getD, List.getElem?_modify]
  simp [hi]

theorem at'_modAt_other {α : Type} [Inhabited α] (l : List α) {i j : Nat} (hij : i ≠ j) (f : α → α) : at' (modAt l i f) j = at' l j := by
  rw [at', at', modAt, List.getD_eq_getElem?_getD, List.getD_eq_getElem?_getD, List.getElem?_modify]
  simp [hij]

/-- What stands in a place that was worked on, or nothing did. -/
theorem at'_modAt_of_default {α : Type} [Inhabited α] {P : α → Prop} {l : List α} {i : Nat} {f : α → α} (hf : P (f (at' l i)))
    (hd : P default) : P (at' (modAt l i f) i) := by
  by_cases hi : i < l.length
  · rw [at'_modAt_same hi]
    exact hf
  · have hnone : l[i]? = none := List.getElem?_eq_none (Nat.le_of_not_lt hi)
    rw [at', modAt, List.getD_eq_getElem?_getD, List.getElem?_modify, hnone]
    exact hd

section
variable {c : Chip} {ch b : Nat}

theorem Chip.modActCh_congr {f g : ActCh → ActCh} (h : f (c.actCh ch) = g (c.actCh ch)) : c.modActCh ch f = c.modActCh ch g := by
  rw [Chip.modActCh, Chip.modActCh, modAt_congr h]

theorem Chip.actCh_modActCh (hch : ch < c.act.chans.length) (f : ActCh → ActCh) : (c.modActCh ch f).actCh ch = f (c.actCh ch) :=
  at'_modAt_same hch f

theorem Chip.actBank_modActBank (hb : b < c.act.banks.length) (f : ActBank → ActBank) : (c.modActBank b f).actBank b = f (c.actBank b) :=
  at'_modAt_same hb f

/-- A place of the banks that was emptied, or is not there, holds no request. -/
theorem Chip.queue_modActBank {f : ActBank → ActBank} (hf : (f (c.actBank b)).queue = []) : ((c.modActBank b f).actBank b).queue = [] :=
  at'_modAt_of_default (P := fun k : ActBank => k.queue = []) hf rfl

theorem Chip.get_refreshBanks {k : Nat} (h0 : k ≠ K.bankState 0) (h1 : k ≠ K.bankState 1) : c.refreshBanks.get k = c.get k := by
  rw [Chip.refreshBanks, Chip.get_set_other _ _ _ _ h1, Chip.get_set_other _ _ _ _ h0]

theorem Chip.bankRun_refreshBanks (hb : b < 2) : c.refreshBanks.get (K.bankRun b) = c.get (K.bankRun b) :=
  Chip.get_refreshBanks (by interval_cases b <;> decide) (by interval_cases b <;> decide)

theorem Chip.chState_refreshBanks (hch : ch < 4) : c.refreshBanks.get (K.chState ch) = c.get (K.chState ch) :=
  Chip.get_refreshBanks (by interval_cases ch <;> decide) (by interval_cases ch <;> decide)

theorem K.chState_inj {i j : Nat} (h : K.chState i = K.chState j) : i = j := by
  simp only [K.chState] at h
  omega

/-- What discarding a request does to the channel's state. -/
def Chip.unqueue (c : Chip) (q : Nat × ActUser) : Chip := if c.get (K.chState q.1) = 1 then c.set (K.chState q.1) 0 else c

/-- Requests discarded take the states that wait to 0, and leave any other value and the actuators as they are. -/
theorem Chip.unqueue_keeps (l : List (Nat × ActUser)) (k : Nat) :
    ((l.foldl Chip.unqueue c).get k = c.get k ∨ c.get k = 1 ∧ (l.foldl Chip.unqueue c).get k = 0) ∧ (l.foldl Chip.unqueue c).act = c.act := by
  refine List.foldlRecOn (motive := fun d : Chip => (d.get k = c.get k ∨ c.get k = 1 ∧ d.get k = 0) ∧ d.act = c.act) _ _
    ⟨Or.inl rfl, rfl⟩ fun d hd q _ => ?_
  obtain ⟨hget, hact⟩ := hd
  unfold Chip.unqueue
  split
  next hone =>
    refine ⟨?_, hact⟩
    by_cases hk : k = K.chState q.1
    · subst hk
      rw [Chip.get_set_same]
      rcases hget with hsame | ⟨-, hzero⟩
      · exact Or.inr ⟨hsame ▸ hone, rfl⟩
      · rw [hone] at hzero
        exact absurd hzero (by decide)
    · rw [Chip.get_set_other _ _ _ _ hk]
      exact hget
  next => exact ⟨hget, hact⟩

theorem Chip.discardQueue_eq : c.discardQueue b =
    ((c.actBank b).queue.foldl Chip.unqueue c).modActBank b (fun k => { k with queue := [], clampHeld := false }) := rfl

theorem Chip.get_discardQueue (k : Nat) :
    (c.discardQueue b).get k = c.get k ∨ c.get k = 1 ∧ (c.discardQueue b).get k = 0 := by
  obtain ⟨hget, -⟩ := c.unqueue_keeps (c.actBank b).queue k
  rw [Chip.discardQueue_eq, Chip.get_modActBank]
  exact hget

/-- Discarding requests leaves the state of a channel that does not wait. -/
theorem Chip.get_discardQueue_busy {k : Nat} (hk : c.get k ≠ 1) : (c.discardQueue b).get k = c.get k := by
  rcases c.get_discardQueue (b := b) k with hsame | ⟨hone, -⟩
  · exact hsame
  · exact absurd hone hk

theorem Chip.chans_discardQueue : (c.discardQueue b).act.chans = c.act.chans := by
  obtain ⟨-, hact⟩ := c.unqueue_keeps (c.actBank b).queue 0
  rw [Chip.discardQueue_eq]
  exact congrArg (·.chans) hact

theorem Chip.banks_discardQueue :
    (c.discardQueue b).act.banks = modAt c.act.banks b (fun k => { k with queue := [], clampHeld := false }) := by
  obtain ⟨-, hact⟩ := c.unqueue_keeps (c.actBank b).queue 0
  rw [Chip.discardQueue_eq]
  exact congrArg (fun a : Act => modAt a.banks b (fun k => { k with queue := [], clampHeld := false })) hact

/-- A channel with no operation stays without one when requests are discarded. -/
theorem Chip.chActive_discardQueue (h : c.chActive ch = false) : (c.discardQueue b).chActive ch = false := by
  unfold Chip.chActive at h ⊢
  rcases c.get_discardQueue (b := b) (K.chState ch) with hsame | ⟨-, hzero⟩
  · rw [hsame]
    exact h
  · rw [hzero]
    rfl

theorem Chip.bankActive_discardQueue (h : c.bankActive b = false) : (c.discardQueue b).bankActive b = false := by
  obtain ⟨h0, h1⟩ := Bool.or_eq_false_iff.1 h
  exact Bool.or_eq_false_iff.2 ⟨Chip.chActive_discardQueue h0, Chip.chActive_discardQueue h1⟩

/-! ### Cutting an operation off -/

theorem Chip.cutOff_idle {r : Nat} (h : c.chActive ch = false) : c.cutOff r ch = c := by
  have hout : ¬ (2 ≤ c.get (K.chState ch) ∧ c.get (K.chState ch) ≤ 5) := of_decide_eq_false h
  rw [Chip.cutOff]
  rw [if_neg (by omega), if_neg (fun hdwell => by omega)]

theorem Chip.cutOff_boosts {r : Nat} (h : c.get (K.chState ch) = 2 ∨ c.get (K.chState ch) = 3) : c.cutOff r ch = c.toDecay ch r := by
  rw [Chip.cutOff]
  rw [if_pos h]

theorem Chip.cutOff_decays {r : Nat} (h : c.get (K.chState ch) = 4 ∨ c.get (K.chState ch) = 5) (hresult : (c.actCh ch).result ≠ 4) :
    c.cutOff r ch = c.modActCh ch (fun a => { a with result := r }) := by
  rw [Chip.cutOff]
  rw [if_neg (by omega), if_pos ⟨h, hresult⟩]

/-- Cutting one channel off leaves the others and the banks. -/
theorem Chip.cutOff_other {r ch' : Nat} (hne : ch' ≠ ch) :
    (c.cutOff r ch).get (K.chState ch') = c.get (K.chState ch') ∧ (c.cutOff r ch).actCh ch' = c.actCh ch' ∧
    (c.cutOff r ch).act.chans.length = c.act.chans.length := by
  have hlen (f : ActCh → ActCh) : (modAt c.act.chans ch f).length = c.act.chans.length := List.length_modify ..
  rw [Chip.cutOff]
  split
  · refine ⟨?_, at'_modAt_other _ (Ne.symm hne) _, hlen _⟩
    rw [Chip.toDecay, Chip.get_set_other _ _ _ _ (fun h => hne (K.chState_inj h)), Chip.get_modActCh]
  · split
    · exact ⟨rfl, at'_modAt_other _ (Ne.symm hne) _, hlen _⟩
    · exact ⟨rfl, rfl, rfl⟩

/-- The result of a channel that is cut off. -/
theorem Chip.cutOff_result {r : Nat} (hch : ch < c.act.chans.length)
    (h : c.get (K.chState ch) = 2 ∨ c.get (K.chState ch) = 3 ∨
      (c.get (K.chState ch) = 4 ∨ c.get (K.chState ch) = 5) ∧ (c.actCh ch).result ≠ 4) :
    ((c.cutOff r ch).actCh ch).result = r ∧
    (c.cutOff r ch).get (K.chState ch) = if c.get (K.chState ch) = 2 ∨ c.get (K.chState ch) = 3 then 4 else c.get (K.chState ch) := by
  by_cases hboost : c.get (K.chState ch) = 2 ∨ c.get (K.chState ch) = 3
  · rw [Chip.cutOff_boosts hboost, if_pos hboost]
    exact ⟨congrArg (·.result) (Chip.actCh_modActCh hch _), Chip.get_set_same _ _ _⟩
  · rw [if_neg hboost]
    rcases h with h | h | ⟨hdecay, hresult⟩
    · exact absurd (Or.inl h) hboost
    · exact absurd (Or.inr h) hboost
    · rw [Chip.cutOff_decays hdecay hresult]
      exact ⟨congrArg (·.result) (Chip.actCh_modActCh hch _), rfl⟩

/-! ### The commands -/

theorem chEnergise_queues (habort : c.chAbort? ch = none) (hstate : c.get (K.chState ch) = 0) :
    chEnergise ch c = .ok (c.enqueuePanel ch).clampUpdate.refreshBanks := by
  rw [chEnergise, habort]
  exact guardNot_pass (decide_eq_false (not_not.2 hstate))

theorem chRelease_decays (habort : c.chAbort? ch = none) (hstate : c.get (K.chState ch) = 3) : chRelease ch c = .ok (c.toDecay ch 2) := by
  rw [chRelease, habort]
  dsimp only
  rw [if_pos (Or.inr hstate)]

theorem chRelease_none (habort : c.chAbort? ch = none) (hstate : c.get (K.chState ch) = 0) : chRelease ch c = .ok c := by
  rw [chRelease, habort, hstate]
  rfl

theorem shutterCommand_takes {pos : Int} (habort : c.actAbort? b = none) (hmode : c.get (K.bankMode b) = 3) (hrest : c.bankActive b = false)
    (hqueue : (c.actBank b).queue = []) (hholds : c.solsticeHolds b = false)
    (hbit : bitOf (c.nat (K.channelMask b)) (shutterChannel b pos % 2) = true) :
    shutterCommand b pos c = .ok (c.takeSlot (shutterChannel b pos) .panel).clampUpdate.refreshBanks := by
  rw [shutterCommand, habort]
  dsimp only
  rw [guardNot_pass (by rw [hmode, hbit]; rfl), guardNot_pass (by simp [hrest, hqueue, hholds])]

theorem shutterCommand_unfitted {pos : Int} (habort : c.actAbort? b = none)
    (hbit : bitOf (c.nat (K.channelMask b)) (shutterChannel b pos % 2) = false) : shutterCommand b pos c = .error Abort.incompatible := by
  rw [shutterCommand, habort]
  exact guardNot_refuses (by rw [hbit]; exact Bool.or_true _)

theorem Chip.fitted_on (hfitted : c.get K.actuatorFitted = 1) : (!c.on K.actuatorFitted) = false := by
  rw [Chip.on, hfitted]
  rfl

theorem Chip.unfitted_on (hfitted : c.get K.actuatorFitted = 0) : (!c.on K.actuatorFitted) = true := by
  rw [Chip.on, hfitted]
  rfl

theorem bankRunStart_runs (hfitted : c.get K.actuatorFitted = 1) (hlatched : (c.actBank b).latched = false) :
    bankRunStart b c = .ok (c.set (K.bankRun b) 1).refreshBanks := by
  rw [bankRunStart, guardNot_pass (Chip.fitted_on hfitted), guardNot_pass hlatched]

/-- The bank with its queue discarded and its operations cut off with result 13. -/
def Chip.bankCut (c : Chip) (b : Nat) : Chip := ((c.discardQueue b).cutOff 13 (2 * b)).cutOff 13 (2 * b + 1)

/-- A park that no operation waits for is done. -/
def Chip.parkDone (c : Chip) (b : Nat) : Chip :=
  if (c.actBank b).park = 2 ∧ !c.bankActive b then c.modActBank b (fun k => { k with park := 3 }) else c

theorem bankStop_stops (hfitted : c.get K.actuatorFitted = 1) (hlatched : (c.actBank b).latched = false) (hholds : c.solsticeHolds b = false) :
    bankStop b c = .ok (((c.bankCut b).parkDone b).set (K.bankRun b) 0).refreshBanks := by
  rw [bankStop, guardNot_pass (Chip.fitted_on hfitted), guardNot_pass hlatched, guardNot_pass hholds]
  rfl

theorem Chip.get_parkDone (k : Nat) : (c.parkDone b).get k = c.get k := by
  unfold Chip.parkDone
  split
  · rfl
  · rfl

theorem Chip.chans_parkDone : (c.parkDone b).act.chans = c.act.chans := by
  unfold Chip.parkDone
  split
  · rfl
  · rfl

theorem Chip.queue_parkDone (h : (c.actBank b).queue = []) : ((c.parkDone b).actBank b).queue = [] := by
  unfold Chip.parkDone
  split
  · exact Chip.queue_modActBank h
  · exact h

theorem Chip.bankCut_idle (h : c.bankActive b = false) : c.bankCut b = c.discardQueue b := by
  obtain ⟨h0, h1⟩ := Bool.or_eq_false_iff.1 (Chip.bankActive_discardQueue h)
  rw [Chip.bankCut, Chip.cutOff_idle h0, Chip.cutOff_idle h1]

/-- What the bank's stop does to one of its channels whose operation it cuts off. -/
theorem Chip.bankCut_channel (hch : ch / 2 = b) (hlen : ch < c.act.chans.length)
    (h : c.get (K.chState ch) = 2 ∨ c.get (K.chState ch) = 3 ∨
      (c.get (K.chState ch) = 4 ∨ c.get (K.chState ch) = 5) ∧ (c.actCh ch).result ≠ 4) :
    ((c.bankCut b).actCh ch).result = 13 ∧
    (c.bankCut b).get (K.chState ch) = if c.get (K.chState ch) = 2 ∨ c.get (K.chState ch) = 3 then 4 else c.get (K.chState ch) := by
  have hstate : (c.discardQueue b).get (K.chState ch) = c.get (K.chState ch) := Chip.get_discardQueue_busy (by omega)
  have hchan : (c.discardQueue b).actCh ch = c.actCh ch := congrArg (at' · ch) Chip.chans_discardQueue
  have hlen' : ch < (c.discardQueue b).act.chans.length := by
    rw [Chip.chans_discardQueue]
    exact hlen
  unfold Chip.bankCut
  generalize c.discardQueue b = d at hstate hchan hlen' ⊢
  rw [← hstate, ← hchan] at h
  rw [← hstate]
  rcases Nat.mod_two_eq_zero_or_one ch with heven | hodd
  · obtain rfl : ch = 2 * b := by omega
    obtain ⟨hget, hother, -⟩ := (d.cutOff 13 (2 * b)).cutOff_other (ch := 2 * b + 1) (r := 13) (ch' := 2 * b) (by omega)
    rw [hget, hother]
    exact Chip.cutOff_result hlen' h
  · obtain rfl : ch = 2 * b + 1 := by omega
    obtain ⟨hget, hother, hlength⟩ := d.cutOff_other (ch := 2 * b) (r := 13) (ch' := 2 * b + 1) (by omega)
    rw [← hget, ← hother] at h
    rw [← hget]
    exact Chip.cutOff_result (hlength ▸ hlen') h

theorem bankFaultClear_clears (hfitted : c.get K.actuatorFitted = 1) (hlatched : (c.actBank b).latched = true) :
    bankFaultClear b c =
      .ok ((((c.modActBank b (fun (k : ActBank) => { k with latched := false, overcurrent := false, found := 0 })).set (K.offstateResult b)
        (c.nat (K.offstateResult b) % 4 : Nat)).setAll [(K.chState (2 * b), 0), (K.chState (2 * b + 1), 0)]).refreshBanks) := by
  rw [bankFaultClear, guardNot_pass (Chip.fitted_on hfitted), if_pos hlatched]
  rfl

end

/-- A stop that its bank takes, by what then holds of the part. -/
theorem leaves_bankStop {s : State} {m : Master} {b : Fin 2} {P : Chip → Prop} (hs : s.chip.serves m (K.bankRun b))
    (hfitted : s.chip.get K.actuatorFitted = 1) (hlatched : (s.chip.actBank b.val).latched = false)
    (hholds : s.chip.solsticeHolds b.val = false)
    (hP : P (settle s.chip ((((s.chip.fresh.bankCut b.val).parkDone b.val).set (K.bankRun b) 0).refreshBanks))) :
    Leaves (.bankStop m b) s P :=
  leaves_of_command rfl hs (bankStop_stops (c := s.chip.fresh) hfitted hlatched hholds) hP

/-- What a stopped bank's part shows once it has settled. -/
theorem get_bankStopped (c d : Chip) {b : Nat} (hb : b < 2) :
    (settle c ((d.parkDone b).set (K.bankRun b) 0).refreshBanks).get (K.bankRun b) = 0 ∧
    ∀ ch < 4, (settle c ((d.parkDone b).set (K.bankRun b) 0).refreshBanks).get (K.chState ch) = d.get (K.chState ch) := by
  refine ⟨?_, fun ch hch => ?_⟩
  · rw [settle_get _ _ _ (by interval_cases b <;> decide), Chip.bankRun_refreshBanks hb, Chip.get_set_same]
  · rw [settle_get _ _ _ (by interval_cases ch <;> decide), Chip.chState_refreshBanks hch,
      Chip.get_set_other _ _ _ _ (by interval_cases b <;> interval_cases ch <;> decide), Chip.get_parkDone]

theorem act_bankStopped (c d : Chip) (b : Nat) :
    (settle c ((d.parkDone b).set (K.bankRun b) 0).refreshBanks).act = (d.parkDone b).act := by
  rw [settle_act]
  rfl

/-- Settles O35: each command by its tests; a stop by what discarding a queue and cutting operations off leave of one channel. -/
theorem actuatorCommands : Obligations.ActuatorCommands := by
  unfold Obligations.ActuatorCommands
  refine fun s m => ⟨fun ch hs habort => ⟨?energise, ?release, ?released⟩,
    fun b hs habort hmode hrest hqueue hholds => ⟨?close, ?opened, ?unfitted⟩,
    fun b hs hfitted hlatched => ⟨?start, ?idle, fun hholds hlen ch hch => ⟨?boosts, ?decays⟩, ?parks⟩, ?clear, ?noDriver, ?latched⟩
  case energise =>
    exact fun hstate => effect_of_command rfl hs (chEnergise_queues (c := s.chip.fresh) habort hstate) (Chip.agrees_refl _)
  case release =>
    exact fun hstate => effect_of_command rfl hs (chRelease_decays (c := s.chip.fresh) habort hstate) ⟨rfl, fun _ _ => rfl⟩
  case released =>
    exact fun hstate => effect_of_command rfl hs (chRelease_none (c := s.chip.fresh) habort hstate) (Chip.agrees_out _ _)
  case close =>
    exact fun hbit => effect_of_command rfl hs (shutterCommand_takes (c := s.chip.fresh) (pos := 1) habort hmode hrest hqueue hholds (by
      rw [shutterChannel, if_pos rfl, Nat.mul_mod_right]
      exact hbit)) (Chip.agrees_refl _)
  case opened =>
    exact fun hbit => effect_of_command rfl hs (shutterCommand_takes (c := s.chip.fresh) (pos := 2) habort hmode hrest hqueue hholds (by
      rw [shutterChannel, if_neg (by decide), Nat.mul_add_mod]
      exact hbit)) (Chip.agrees_refl _)
  case unfitted =>
    exact fun hbit => effect_of_refused rfl hs (shutterCommand_unfitted (c := s.chip.fresh) (pos := 1) habort (by
      rw [shutterChannel, if_pos rfl, Nat.mul_mod_right]
      exact hbit))
  case start => exact effect_of_command rfl hs (bankRunStart_runs (c := s.chip.fresh) hfitted hlatched) ⟨rfl, fun _ _ => rfl⟩
  case idle =>
    intro hholds hqueue hrest
    refine leaves_bankStop hs hfitted hlatched hholds ?_
    rw [Chip.bankCut_idle (c := s.chip.fresh) hrest]
    obtain ⟨hrun, -⟩ := get_bankStopped s.chip (s.chip.fresh.discardQueue b.val) b.isLt
    have hact := act_bankStopped s.chip (s.chip.fresh.discardQueue b.val) b.val
    refine ⟨hrun, ?_, ?_⟩
    · rw [Chip.actBank, hact]
      exact Chip.queue_parkDone (Chip.queue_modActBank rfl)
    · rw [hact, Chip.chans_parkDone, Chip.chans_discardQueue]
      rfl
  case boosts =>
    intro hstate
    refine leaves_bankStop hs hfitted hlatched hholds ?_
    obtain ⟨hresult, hcut⟩ := Chip.bankCut_channel (c := s.chip.fresh) hch (hlen.symm ▸ ch.isLt) (hstate.imp_right Or.inl)
    have hstate' : s.chip.fresh.get (K.chState ch) = 2 ∨ s.chip.fresh.get (K.chState ch) = 3 := hstate
    rw [if_pos hstate'] at hcut
    obtain ⟨hrun, hget⟩ := get_bankStopped s.chip (s.chip.fresh.bankCut b.val) b.isLt
    refine ⟨hrun, (hget _ ch.isLt).trans hcut, ?_⟩
    rw [Chip.actCh, act_bankStopped, Chip.chans_parkDone]
    exact hresult
  case decays =>
    intro hstate hresult'
    refine leaves_bankStop hs hfitted hlatched hholds ?_
    obtain ⟨hresult, hcut⟩ := Chip.bankCut_channel (c := s.chip.fresh) hch (hlen.symm ▸ ch.isLt) (Or.inr (Or.inr ⟨hstate, hresult'⟩))
    have hstate' : ¬ (s.chip.fresh.get (K.chState ch) = 2 ∨ s.chip.fresh.get (K.chState ch) = 3) := by
      have hsame : s.chip.fresh.get (K.chState ch) = s.chip.get (K.chState ch) := rfl
      omega
    rw [if_neg hstate'] at hcut
    obtain ⟨hrun, hget⟩ := get_bankStopped s.chip (s.chip.fresh.bankCut b.val) b.isLt
    refine ⟨hrun, (hget _ ch.isLt).trans hcut, ?_⟩
    rw [Chip.actCh, act_bankStopped, Chip.chans_parkDone]
    exact hresult
  case parks =>
    intro hholds hrest hpark hlen
    refine leaves_bankStop hs hfitted hlatched hholds ?_
    rw [Chip.bankCut_idle (c := s.chip.fresh) hrest]
    obtain ⟨hrun, -⟩ := get_bankStopped s.chip (s.chip.fresh.discardQueue b.val) b.isLt
    refine ⟨hrun, ?_⟩
    have hb : b.val < s.chip.fresh.act.banks.length := hlen.symm ▸ b.isLt
    have hpark' : ((s.chip.fresh.discardQueue b.val).actBank b.val).park = 2 := by
      rw [Chip.actBank, Chip.banks_discardQueue, at'_modAt_same hb]
      exact hpark
    have hrest' : (!(s.chip.fresh.discardQueue b.val).bankActive b.val) = true :=
      congrArg not (Chip.bankActive_discardQueue (c := s.chip.fresh) hrest)
    rw [Chip.actBank, act_bankStopped, Chip.parkDone, if_pos ⟨hpark', hrest'⟩]
    refine congrArg ActBank.park (Chip.actBank_modActBank ?_ _)
    rw [Chip.banks_discardQueue, modAt, List.length_modify]
    exact hb
  case clear =>
    intro b hs hfitted hlatched
    exact effect_of_command rfl hs (bankFaultClear_clears (c := s.chip.fresh) hfitted hlatched) ⟨rfl, fun _ _ => rfl⟩
  case noDriver =>
    intro b hs hfitted
    exact effect_of_refused rfl hs (guardNot_refuses (Chip.unfitted_on (c := s.chip.fresh) hfitted))
  case latched =>
    intro b hs hfitted hlatched
    exact effect_of_refused rfl hs ((guardNot_pass (Chip.fitted_on (c := s.chip.fresh) hfitted)).trans (guardNot_refuses hlatched))

end Sys2Proof.Machine
end

section
/-! The phases, the faults and the tests of the actuator driver (R266 to R278). -/

namespace Sys2Proof.Machine

section
variable {c : Chip} {ch : Nat}

/-! ### Phases -/

/-- A channel may boost only by a request of its bank. -/
theorem Chip.mayBoost_bank (h : c.mayBoost ch = true) : ch / 2 < c.act.banks.length := by
  by_contra hout
  have hbank : c.actBank (ch / 2) = default := by
    rw [Chip.actBank, at', List.getD_eq_default _ _ (Nat.le_of_not_lt hout)]
  rw [Chip.mayBoost, hbank] at h
  exact Bool.noConfusion h

/-- The part with the boost of a channel begun. -/
def Chip.boosts (c : Chip) (ch : Nat) (u : ActUser) : Chip :=
  let c := c.modActBank (ch / 2) (fun k => { k with queue := k.queue.filter (fun q => q.1 ≠ ch), clampHeld := false })
  (c.modActCh ch (fun _ => { user := u, profile := c.profileOf ch, boostAt := c.mono, shutter := false })).set (K.chState ch) 2

theorem boostStart_boosts (hmay : c.mayBoost ch = true) (hmode : c.get (K.bankMode (ch / 2)) ≠ 3) :
    boostStart ch c = (c.boosts ch ((((c.actBank (ch / 2)).queue.find? (fun q => decide (q.1 = ch))).map (·.2)).getD .panel)).refreshBanks := by
  have hshutter : decide (c.get (K.bankMode (ch / 2)) = 3) = false := decide_eq_false hmode
  rw [boostStart, if_pos hmay]
  dsimp only
  rw [Chip.get_modActBank, hshutter, if_neg Bool.false_ne_true]
  rfl

theorem Chip.boosts_shows (hbank : ch / 2 < c.act.banks.length) (hch : ch < c.act.chans.length) (u : ActUser) :
    (c.boosts ch u).get (K.chState ch) = 2 ∧ ((c.boosts ch u).actCh ch).profile = c.profileOf ch ∧
    ((c.boosts ch u).actCh ch).boostAt = c.mono ∧ ∀ q ∈ ((c.boosts ch u).actBank (ch / 2)).queue, q.1 ≠ ch := by
  let f : ActBank → ActBank := fun k => { k with queue := k.queue.filter (fun q => q.1 ≠ ch), clampHeld := false }
  have hchan : (c.boosts ch u).actCh ch = { user := u, profile := c.profileOf ch, boostAt := c.mono, shutter := false } :=
    Chip.actCh_modActCh (c := c.modActBank (ch / 2) f) hch _
  have hqueue : (c.boosts ch u).actBank (ch / 2) = f (c.actBank (ch / 2)) := Chip.actBank_modActBank hbank f
  rw [hchan, hqueue]
  exact ⟨Chip.get_set_same _ _ _, rfl, rfl, fun q hq => of_decide_eq_true (List.mem_filter.1 hq).2⟩

/-- The part with its peak judged. -/
def Chip.peakJudged (c : Chip) (ch i : Nat) : Chip :=
  (c.sensed ch [c.sample ch i]).modActCh ch (fun (a : ActCh) =>
    { a with tPeak := c.phaseTime ch, tNorm := (rneDiv (c.phaseTime ch * c.get (K.hkRail 10)) 24000000).toNat })

theorem peakReached_early {i : Nat} (hstate : c.get (K.chState ch) = 2)
    (hearly : (rneDiv (c.phaseTime ch * c.get (K.hkRail 10)) 24000000).toNat < (c.actCh ch).profile.tMin) :
    peakReached ch i c = (c.peakJudged ch i).toDecay ch 4 := by
  rw [peakReached, if_pos hstate]
  dsimp only
  rw [if_pos hearly]
  rfl

theorem peakReached_normal {i : Nat} (hstate : c.get (K.chState ch) = 2) (hmotion : (c.actCh ch).profile.motionCheck = false)
    (hmin : (c.actCh ch).profile.tMin ≤ (rneDiv (c.phaseTime ch * c.get (K.hkRail 10)) 24000000).toNat)
    (hmax : (rneDiv (c.phaseTime ch * c.get (K.hkRail 10)) 24000000).toNat ≤ (c.actCh ch).profile.tMax) :
    peakReached ch i c = ((c.peakJudged ch i).modActCh ch (fun (a : ActCh) => { a with result := 1 })).set (K.chState ch)
      (if (c.actCh ch).profile.hold = 0 then 4 else 3) := by
  rw [peakReached, if_pos hstate]
  dsimp only
  rw [if_neg (Nat.not_lt.2 hmin), decide_eq_false (Nat.not_lt.2 hmax), hmotion]
  rfl

theorem motionDetected_counts {i : Nat} (hstate : c.get (K.chState ch) = 2) (hcheck : (c.actCh ch).profile.motionCheck = true)
    (hnone : (c.actCh ch).motion = 0) :
    motionDetected ch i c = (c.sensed ch [c.sample ch i]).modActCh ch (fun (a : ActCh) => { a with motion := c.phaseTime ch }) := by
  rw [motionDetected, if_pos ⟨hstate, hcheck, hnone⟩]

theorem K.chState_not_status (hch : ch < 4) : K.chState ch ∉ statusKeys := by
  interval_cases ch <;> decide

/-! ### Decay -/

/-- The part with the samples of a decay taken, its energy e and its result r. -/
def Chip.decayed (c : Chip) (ch : Nat) (l : List Nat) (r : Nat) : Chip :=
  ((c.sensed ch l).modActCh ch (fun (a : ActCh) => { a with energy := clampEnergy l, result := r })).clampAdd (clampEnergy l)

theorem Chip.actCh_sensed {l : List Nat} (hch : ch < c.act.chans.length) :
    (c.sensed ch l).actCh ch = { c.actCh ch with highest := l.foldl max (c.actCh ch).highest } := by
  have hchan := Chip.actCh_modActCh (c := c) hch (fun a => { a with highest := l.foldl max a.highest })
  unfold Chip.sensed
  dsimp only
  split
  · exact hchan
  · exact hchan

theorem Chip.chans_sensed {l : List Nat} :
    (c.sensed ch l).act.chans = modAt c.act.chans ch (fun a => { a with highest := l.foldl max a.highest }) := by
  unfold Chip.sensed
  dsimp only
  split
  · rfl
  · rfl

theorem Chip.chans_clampHold {b : Nat} : (c.clampHold b).act.chans = c.act.chans := by
  unfold Chip.clampHold
  dsimp only
  split
  · rfl
  · rfl

/-- The clamp energies of the last second and the hold-off put in place. -/
def Chip.clamped (c : Chip) (l : List (Nat × Nat)) (holdoff : Bool) : Chip := { c with act := { c.act with clamp := l, holdoff := holdoff } }

theorem Chip.clampUpdate_eq : c.clampUpdate =
    ((c.clamped c.clampRecent (c.act.holdoff || decide (600000 ≤ sumN (c.clampRecent.map (·.2))))).clampHold 0).clampHold 1 := rfl

theorem Chip.chans_clamped {l : List (Nat × Nat)} {holdoff : Bool} : (c.clamped l holdoff).act.chans = c.act.chans := rfl

theorem Chip.chans_clampUpdate : c.clampUpdate.act.chans = c.act.chans := by
  rw [Chip.clampUpdate_eq, Chip.chans_clampHold, Chip.chans_clampHold, Chip.chans_clamped]

theorem Chip.chans_clampAdd {e : Nat} : (c.clampAdd e).act.chans = c.act.chans := by
  rw [Chip.clampAdd, Chip.chans_clampUpdate]

theorem Chip.result_decayed {l : List Nat} {r : Nat} (hch : ch < c.act.chans.length) : ((c.decayed ch l r).actCh ch).result = r := by
  have hlen : ch < (c.sensed ch l).act.chans.length := by
    rw [Chip.chans_sensed, modAt, List.length_modify]
    exact hch
  rw [Chip.decayed, Chip.actCh, Chip.chans_clampAdd]
  exact congrArg ActCh.result (Chip.actCh_modActCh hlen _)

/-- A decay that keeps the result its operation has, or makes a good one of what timed out. -/
theorem Chip.decayed_eq {l : List Nat} {g : ActCh → ActCh} {r : Nat}
    (hg : g ((c.sensed ch l).actCh ch) = (fun a : ActCh => { a with energy := clampEnergy l, result := r }) ((c.sensed ch l).actCh ch)) :
    ((c.sensed ch l).modActCh ch g).clampAdd (clampEnergy l) = c.decayed ch l r := by
  rw [Chip.decayed, Chip.modActCh_congr (g := fun a : ActCh => { a with energy := clampEnergy l, result := r }) hg]

theorem Chip.result_sensed {l : List Nat} (hch : ch < c.act.chans.length) : ((c.sensed ch l).actCh ch).result = (c.actCh ch).result := by
  rw [Chip.actCh_sensed hch]

theorem decayEnd_decayed {samples : List (BitVec 32)} {timedOut : Bool} {r : Nat} (hstate : c.get (K.chState ch) = 4)
    (hch : ch < c.act.chans.length) (henergy : clampEnergy (c.samples ch samples) ≤ 30000)
    (hr : (if timedOut then decayResult (c.actCh ch).result else (c.actCh ch).result) = r) :
    decayEnd ch samples timedOut c = if r = 4 then (c.decayed ch (c.samples ch samples) r).endLatching ch 4
      else ((c.decayed ch (c.samples ch samples) r).set (K.chState ch) 5).refreshBanks := by
  have hdecayed := Chip.decayed_eq (c := c) (l := c.samples ch samples) (r := r)
    (g := fun a => { a with energy := clampEnergy (c.samples ch samples), result := if timedOut then decayResult a.result else a.result })
    (by dsimp only; rw [Chip.result_sensed hch, hr])
  rw [decayEnd, if_pos hstate]
  dsimp only
  rw [hdecayed, if_neg (Nat.not_lt.2 henergy), Chip.result_decayed hch]

theorem decayEnd_rests {samples : List (BitVec 32)} (hstate : c.get (K.chState ch) = 4) (hch : ch < c.act.chans.length)
    (henergy : clampEnergy (c.samples ch samples) ≤ 30000) (hresult : (c.actCh ch).result ≠ 4) :
    decayEnd ch samples false c =
      ((c.decayed ch (c.samples ch samples) (c.actCh ch).result).set (K.chState ch) 5).refreshBanks := by
  rw [decayEnd_decayed hstate hch henergy (if_neg Bool.false_ne_true), if_neg hresult]

theorem decayEnd_latches {samples : List (BitVec 32)} (hstate : c.get (K.chState ch) = 4) (hch : ch < c.act.chans.length)
    (henergy : clampEnergy (c.samples ch samples) ≤ 30000) (hresult : (c.actCh ch).result = 4) :
    decayEnd ch samples false c = (c.decayed ch (c.samples ch samples) 4).endLatching ch 4 := by
  rw [decayEnd_decayed hstate hch henergy ((if_neg Bool.false_ne_true).trans hresult), if_pos rfl]

theorem decayEnd_timesOut {samples : List (BitVec 32)} (hstate : c.get (K.chState ch) = 4) (hch : ch < c.act.chans.length)
    (henergy : clampEnergy (c.samples ch samples) ≤ 30000) (hresult : decayResult (c.actCh ch).result ≠ 4) :
    decayEnd ch samples true c =
      ((c.decayed ch (c.samples ch samples) (decayResult (c.actCh ch).result)).set (K.chState ch) 5).refreshBanks := by
  rw [decayEnd_decayed hstate hch henergy (if_pos rfl), if_neg hresult]

theorem clampExceeded_latches {samples : List (BitVec 32)} (hstate : c.get (K.chState ch) = 4) (hch : ch < c.act.chans.length) :
    clampExceeded ch samples c = (c.decayed ch (c.samples ch samples) (c.actCh ch).result).endLatching ch 10 := by
  have hdecayed := Chip.decayed_eq (c := c) (l := c.samples ch samples) (g := fun a => { a with energy := clampEnergy (c.samples ch samples) })
    (r := (c.actCh ch).result) (by dsimp only; rw [Chip.result_sensed hch])
  rw [clampExceeded, if_pos hstate]
  dsimp only
  rw [hdecayed]

end

/-- Settles O36: each phase's end by its state, its peak and its energy. -/
theorem actuatorPhases : Obligations.ActuatorPhases := by
  unfold Obligations.ActuatorPhases
  refine fun s ch => ⟨?boost, fun i hstate => ⟨?early, ?normal⟩, ?timeout, ?motion, ?hold, fun l hstate hlen => ?decay, ?complete⟩
  case boost =>
    intro hmay hmode hlen
    refine leaves_of_eq rfl (boostStart_boosts (c := s.chip.fresh) hmay hmode) ?_
    obtain ⟨hstate, hprofile, hat, hqueue⟩ := Chip.boosts_shows (c := s.chip.fresh) (Chip.mayBoost_bank hmay) (hlen.symm ▸ ch.isLt)
      ((((s.chip.fresh.actBank (ch.val / 2)).queue.find? (fun q => decide (q.1 = ch.val))).map (·.2)).getD .panel)
    refine ⟨?_, ?_, ?_, ?_⟩
    · rw [settle_get _ _ _ (K.chState_not_status ch.isLt), Chip.chState_refreshBanks ch.isLt, hstate]
    · rw [Chip.actCh, settle_act]
      exact hprofile
    · rw [Chip.actCh, settle_act]
      exact hat
    · rw [Chip.actBank, settle_act]
      exact hqueue
  case early =>
    exact fun hearly => effect_eq (exec_peakReached s ch i) (congrArg Chip.refreshBanks (peakReached_early (c := s.chip.fresh) hstate hearly))
  case normal =>
    exact fun hmotion hmin hmax => effect_eq (exec_peakReached s ch i)
      (congrArg Chip.refreshBanks (peakReached_normal (c := s.chip.fresh) hstate hmotion hmin hmax))
  case timeout =>
    intro hstate
    have hstate' : s.chip.fresh.get (K.chState ch.val) = 2 := hstate
    exact effect_of_eq (f := boostTimeout ch.val) rfl (if_pos hstate') ⟨rfl, fun _ _ => rfl⟩
  case motion => exact fun i hstate hcheck hnone => effect_eq rfl (motionDetected_counts (c := s.chip.fresh) hstate hcheck hnone)
  case hold =>
    intro hstate htime
    have hends : s.chip.fresh.get (K.chState ch.val) = 3 ∧ (s.chip.fresh.actCh ch.val).profile.holdTime ≠ 0 := ⟨hstate, htime⟩
    exact effect_eq (f := holdEnd ch.val) rfl (if_pos hends)
  case decay =>
    have hch : ch.val < s.chip.fresh.act.chans.length := hlen.symm ▸ ch.isLt
    refine ⟨fun henergy hresult => ?_, fun henergy hresult => ?_, fun henergy hresult => ?_, ?_⟩
    · exact effect_eq rfl (decayEnd_rests (c := s.chip.fresh) hstate hch henergy hresult)
    · exact effect_eq rfl (decayEnd_timesOut (c := s.chip.fresh) hstate hch henergy hresult)
    · exact effect_eq rfl (decayEnd_latches (c := s.chip.fresh) hstate hch henergy hresult)
    · exact effect_eq rfl (clampExceeded_latches (c := s.chip.fresh) hstate hch)
  case complete =>
    intro i hstate
    have hstate' : s.chip.fresh.get (K.chState ch.val) = 5 := hstate
    exact effect_eq (f := operationComplete ch.val i.toNat) rfl (if_pos hstate')

/-! ### Faults and tests -/

section
variable {c : Chip} {ch b : Nat}

theorem Chip.chActive_holds (h : c.get (K.chState ch) = 3) : c.chActive ch = true := by
  rw [Chip.chActive, h]
  rfl

theorem crossCurrent_latches (hmode : c.get (K.bankMode (ch / 2)) ≠ 1) (hrest : c.chActive (c.actOf ch) = false)
    (hlatched : (c.actBank (ch / 2)).latched = false) :
    crossCurrent ch c = if c.chActive (2 * (ch / 2) + (1 - ch % 2)) then c.endLatching (2 * (ch / 2) + (1 - ch % 2)) 11
      else c.latchBank (ch / 2) 11 := by
  rw [crossCurrent]
  exact if_pos ⟨hmode, by rw [hrest]; rfl, by rw [hlatched]; rfl⟩

theorem offstateTest_runs (hvsol : c.get K.vsolState = 0) (hrest0 : c.bankActive 0 = false) (hrest1 : c.bankActive 1 = false)
    (hqueue0 : (c.actBank 0).queue = []) (hqueue1 : (c.actBank 1).queue = []) :
    offstateTest c = (c.modActBank 0 (fun (k : ActBank) => { k with testing := true })).modActBank 1
      (fun (k : ActBank) => { k with testing := true }) := by
  have hfirst : c.get K.vsolState = 0 ∧ (!c.bankActive 0) = true ∧ (c.actBank 0).queue.isEmpty = true :=
    ⟨hvsol, by rw [hrest0]; rfl, by rw [hqueue0]; rfl⟩
  have hqueue : ((c.modActBank 0 (fun (k : ActBank) => { k with testing := true })).actBank 1).queue.isEmpty = true := by
    rw [Chip.actBank, Chip.modActBank, at'_modAt_other _ (by decide)]
    exact congrArg List.isEmpty hqueue1
  have hsecond : (c.modActBank 0 (fun (k : ActBank) => { k with testing := true })).get K.vsolState = 0 ∧
      (!(c.modActBank 0 (fun (k : ActBank) => { k with testing := true })).bankActive 1) = true ∧
      ((c.modActBank 0 (fun (k : ActBank) => { k with testing := true })).actBank 1).queue.isEmpty = true :=
    ⟨hvsol, congrArg not hrest1, hqueue⟩
  rw [offstateTest]
  dsimp only
  rw [if_pos hfirst, if_pos hsecond]

/-- What one test alone found is not reported. -/
theorem offstateTestEnd_unreported {found : Nat} (htesting : (c.actBank b).testing = true) (hfound : (c.actBank b).found = 0)
    (hresult : c.nat (K.offstateResult b) = 0) :
    offstateTestEnd b found c = ((c.modActBank b (fun k => { k with
      testing := false, found := Nat.land found (Nat.lor 0xC (c.nat (K.channelMask b) % 4)) })).set (K.offstateResult b) 0).bumpBy (K.bankFaults b) 0 := by
  have hnone (x : Nat) : Nat.land x 0 = 0 := Nat.and_zero x
  have hzero (x : Nat) : Nat.land 0 x = 0 := Nat.zero_and x
  rw [offstateTestEnd, if_pos htesting]
  dsimp only
  rw [hfound, hresult]
  simp only [hnone, hzero, show Nat.lor 0 0 = 0 from rfl, Nat.zero_div, Nat.zero_mod, Nat.zero_mul, ne_eq, not_true_eq_false, false_and,
    if_false]
  rfl

end

/-- Settles O37: the faults by their tests, and a first finding of the off-state test, of which nothing is reported. -/
theorem actuatorFaults : Obligations.ActuatorFaults := by
  unfold Obligations.ActuatorFaults
  refine fun s => ⟨fun ch hstate hof => ⟨?switch, ?hold⟩, ?cross, ?test, ?testEnd, ?holdoff, ?reversed, ?inRange, ?recovered, ?park⟩
  case switch =>
    have hactive : s.chip.fresh.chActive (s.chip.fresh.actOf ch.val) = true := Chip.chActive_holds (c := s.chip.fresh) hof
    exact effect_eq (f := switchOvercurrent ch.val) rfl (if_pos hactive)
  case hold =>
    intro hmode
    have hholds : s.chip.fresh.get (K.chState ch.val) = 3 ∧ s.chip.fresh.get (K.bankMode (ch.val / 2)) = 1 := ⟨hstate, hmode⟩
    exact effect_eq (f := holdOvercurrent ch.val) rfl (if_pos hholds)
  case cross => exact fun ch hmode hrest hlatched => effect_eq rfl (crossCurrent_latches (c := s.chip.fresh) hmode hrest hlatched)
  case test =>
    intro hvsol hrest0 hrest1 hqueue0 hqueue1
    exact effect_of_eq rfl (offstateTest_runs (c := s.chip.fresh) hvsol hrest0 hrest1 hqueue0 hqueue1) ⟨rfl, fun _ _ => rfl⟩
  case testEnd =>
    intro b found htesting hfound hresult
    refine leaves_of_eq rfl (offstateTestEnd_unreported (c := s.chip.fresh) htesting hfound hresult) ⟨?_, ?_, ?_⟩
    · have hb := b.isLt
      rw [settle_get _ _ _ (by interval_cases b.val <;> decide), Chip.get_bumpBy, if_neg (by interval_cases b.val <;> decide),
        Chip.get_set_same]
    · rw [settle_heads]
      rfl
    · rw [settle_act]
      rfl
  case holdoff =>
    intro hsum
    have hsum' : sumN (s.chip.fresh.clampRecent.map (·.2)) ≤ 500000 := hsum
    exact effect_eq (f := clampHoldoffEnd) rfl (if_pos hsum')
  case reversed => exact effect_eq (exec_vsolReversed s) rfl
  case inRange => exact effect_eq (f := vsolRecovered true) rfl rfl
  case recovered => exact effect_eq (f := vsolRecovered false) rfl rfl
  case park =>
    intro hparking hall
    have hdone : s.chip.fresh.act.parking = true ∧ s.chip.fresh.act.banks.all (fun k => decide (k.park = 3)) = true := ⟨hparking, hall⟩
    exact effect_of_eq rfl (if_pos hdone) ⟨rfl, fun _ _ => rfl⟩

end Sys2Proof.Machine
end

section
/-! Lines are granted by earliest deadline (R144, R311 to R314, R474). -/

namespace Sys2Proof.Machine

section
variable {c : Chip} {r : Nat}

/-! ### The earliest deadline -/

/-- One step of the arbitration: the source's first line, where it is earlier than the best one so far. -/
def Chip.earlier (c : Chip) (r : Nat) (best : Option (Nat × Line)) (s : Nat) : Option (Nat × Line) :=
  if (r = 0) = c.isThermal s then
    match (c.source s).fifo.head?, best with
    | some l, none => some (s, l)
    | some l, some b => if l.deadline < b.2.deadline then some (s, l) else best
    | none, _ => best
  else best

theorem Chip.arbitrate_eq : c.arbitrate r = (List.range 6).foldl (c.earlier r) none := rfl

/-- A line that is no later than a deadline. -/
def Chip.within (best : Option (Nat × Line)) (deadline : Nat) : Prop := ∃ b, best = some b ∧ b.2.deadline ≤ deadline

/-- A step keeps a line no later than the best one before. -/
theorem Chip.earlier_keeps {best : Option (Nat × Line)} {s n : Nat} (h : Chip.within best n) : Chip.within (c.earlier r best s) n := by
  obtain ⟨b, rfl, hb⟩ := h
  unfold Chip.earlier
  split
  · cases (c.source s).fifo.head? with
    | none => exact ⟨b, rfl, hb⟩
    | some l =>
      dsimp only
      split
      next hlt => exact ⟨_, rfl, Nat.le_trans (Nat.le_of_lt hlt) hb⟩
      next => exact ⟨b, rfl, hb⟩
  · exact ⟨b, rfl, hb⟩

/-- A step takes a line no later than the source's own. -/
theorem Chip.earlier_takes {best : Option (Nat × Line)} {s : Nat} {k : Line} (hs : (r = 0) = c.isThermal s)
    (hk : (c.source s).fifo.head? = some k) : Chip.within (c.earlier r best s) k.deadline := by
  unfold Chip.earlier
  rw [if_pos hs, hk]
  cases best with
  | none => exact ⟨_, rfl, Nat.le_refl _⟩
  | some b =>
    dsimp only
    split
    next => exact ⟨_, rfl, Nat.le_refl _⟩
    next hge => exact ⟨b, rfl, Nat.le_of_not_lt hge⟩

theorem Chip.foldl_earlier {l : List Nat} {best : Option (Nat × Line)} :
    (∀ n, Chip.within best n → Chip.within (l.foldl (c.earlier r) best) n) ∧
    ∀ s ∈ l, (r = 0) = c.isThermal s → ∀ k, (c.source s).fifo.head? = some k → Chip.within (l.foldl (c.earlier r) best) k.deadline := by
  induction l generalizing best with
  | nil => exact ⟨fun _ h => h, fun _ h => absurd h List.not_mem_nil⟩
  | cons x l ih =>
    obtain ⟨hkeeps, htakes⟩ := ih (best := c.earlier r best x)
    refine ⟨fun n h => hkeeps n (Chip.earlier_keeps h), fun s hs hkind k hk => ?_⟩
    rcases List.mem_cons.1 hs with rfl | hs
    · exact hkeeps _ (Chip.earlier_takes hkind hk)
    · exact htakes s hs hkind k hk

theorem Chip.arbitrate_earliest {src g : Nat} {l k : Line} (h : c.arbitrate r = some (src, l)) (hg : g < 6)
    (hkind : (r = 0) = c.isThermal g) (hk : (c.source g).fifo.head? = some k) : l.deadline ≤ k.deadline := by
  obtain ⟨-, htakes⟩ := c.foldl_earlier (r := r) (l := List.range 6) (best := none)
  obtain ⟨b, hb, hle⟩ := htakes g (List.mem_range.2 hg) hkind k hk
  rw [← Chip.arbitrate_eq, h] at hb
  cases hb
  exact hle

/-! ### Grants and lanes -/

theorem Chip.mono_total (k n : Nat) : (c.total k n).mono = c.mono := rfl

theorem lineGrant_grants {b1 b2 b3 : List (BitVec 16)} {src : Nat} {l : Line} (hfree : at' c.pix.grants r = none)
    (hwork : c.lanesWork r = true) (hnext : c.arbitrate r = some (src, l)) (hnew : l.done = false) (hintime : c.mono * 6 ≤ l.deadline) :
    lineGrant r b1 b2 b3 c =
      ((({ c with pix := { c.pix with grants := modAt c.pix.grants r (fun _ => some src) } } : Chip).total (K.linesGranted src) 1).processLine
        src l b1 b2 b3).modSource src (fun (x : Source) => { x with fifo := modAt x.fifo 0 (fun l => { l with done := true }) }) := by
  have hlate (d : Chip) (hd : d.mono = c.mono) : (!l.done && decide (l.deadline < d.mono * 6)) = false := by
    rw [hd, decide_eq_false (Nat.not_lt.2 hintime), Bool.and_false]
  rw [lineGrant, if_neg (by simp [hfree, hwork]), hnext]
  dsimp only
  rw [hlate _ (by rw [hnew, if_neg Bool.false_ne_true, Chip.mono_total]; rfl), if_neg Bool.false_ne_true, hnew, if_neg Bool.false_ne_true]

theorem lineComplete_completes {src : Nat} {l : Line} {rest : List Line} (hgrant : at' c.pix.grants r = some src)
    (hfifo : (c.source src).fifo = l :: rest) :
    lineComplete r c = (((c.release r).modSource src (fun (x : Source) => { x with fifo := x.fifo.drop 1 })).modWork src l.frame
      (fun (w : Work) => { w with left := w.left - 1 })).finishAll src := by
  have hfifo' : ((c.release r).source src).fifo = l :: rest := hfifo
  rw [lineComplete, hgrant]
  simp only [hfifo']

theorem Chip.cellExpired_held {region b cell code ctx0 ctx1 : Nat} (hcode : code ≠ 0) (hh : c.cellHeld region b = true) :
    c.cellExpired region b cell code ctx0 ctx1 = c.raise 0 region b cell code ctx0 ctx1 := by
  rw [Chip.cellExpired, hh, if_neg hcode, if_pos rfl]

theorem nucLaneWatchdog_granted {lane src : Nat} (hgrant : at' c.pix.grants 0 = some src) :
    nucLaneWatchdog lane c = c.watchdog 2 1 lane 0x2010 lane src (fun c =>
      let c := c.bump K.nucLaneResets
      (if c.cellHeld 2 1 then c else { c with pix := { c.pix with laneReset := true } }).release 0) := by
  rw [nucLaneWatchdog, hgrant]

theorem nucLaneWatchdog_held {lane src : Nat} (hgrant : at' c.pix.grants 0 = some src) (hs : c.suspended 2 1 = false)
    (hh : c.cellHeld 2 1 = true) : nucLaneWatchdog lane c = c.raise 0 2 1 lane 0x2010 lane src := by
  rw [nucLaneWatchdog_granted hgrant, Chip.watchdog_held hs hh, Chip.cellExpired_held (by decide) hh]

end

/-- Settles O39: the grant and the end of a line by the resource, the earliest deadline by the fold over the sources. -/
theorem linesAreGranted : Obligations.LinesAreGranted := by
  unfold Obligations.LinesAreGranted
  refine ⟨?grant, ?earliest, ?complete, fun s lane src hgrant => ⟨?suspended, ?held, ?resets⟩⟩
  case grant =>
    intro s r b1 b2 b3 src l hfree hwork hnext hnew hintime
    exact effect_eq (exec_lineGrant s r b1 b2 b3 []) (lineGrant_grants (c := s.chip.fresh) hfree hwork hnext hnew hintime)
  case earliest =>
    intro s src l hnext g hkind k hk
    exact Chip.arbitrate_earliest hnext g.isLt (by rw [hkind]; exact propext ⟨fun _ => rfl, fun _ => rfl⟩) hk
  case complete =>
    intro s r src l rest hgrant hfifo
    exact effect_eq rfl (lineComplete_completes (c := s.chip.fresh) hgrant hfifo)
  case suspended =>
    intro hs
    exact effect_none rfl ((nucLaneWatchdog_granted (c := s.chip.fresh) hgrant).trans (Chip.watchdog_suspended hs))
  case held =>
    intro hs hh
    exact effect_eq rfl (nucLaneWatchdog_held (c := s.chip.fresh) hgrant hs hh)
  case resets =>
    intro hs hh
    exact effect_eq rfl ((nucLaneWatchdog_granted (c := s.chip.fresh) hgrant).trans (Chip.watchdog_free hs hh))

end Sys2Proof.Machine
end

section
/-! Coefficient sets: loads, saves and evictions (R234 to R243, R421, R436, R438). -/

namespace Sys2Proof.Machine

/-! ### What a DMA transfer's end leaves of a load -/

/-- The load in progress, its sequence, the sets that wait for the start and the pixel path are the same, and so are all objects but these. -/
structure Chip.LoadKept (ks : List Nat) (d c : Chip) : Prop where
  load : d.onion.load = c.onion.load
  loadSeq : d.onion.loadSeq = c.onion.loadSeq
  boot : d.onion.boot = c.onion.boot
  pix : d.pix = c.pix
  get : ∀ k ∉ ks, d.get k = c.get k

section
variable {ks : List Nat} {c d e : Chip} {ch : Nat}

theorem Chip.LoadKept.refl (ks : List Nat) (c : Chip) : c.LoadKept ks c := ⟨rfl, rfl, rfl, rfl, fun _ _ => rfl⟩

theorem Chip.LoadKept.trans (h : e.LoadKept ks d) (h' : d.LoadKept ks c) : e.LoadKept ks c :=
  ⟨h.load.trans h'.load, h.loadSeq.trans h'.loadSeq, h.boot.trans h'.boot, h.pix.trans h'.pix,
    fun k hk => (h.get k hk).trans (h'.get k hk)⟩

theorem Chip.LoadKept.set (h : d.LoadKept ks c) {k : Nat} (hk : k ∈ ks) (v : Int) : (d.set k v).LoadKept ks c :=
  ⟨h.load, h.loadSeq, h.boot, h.pix, fun j hj => (Chip.get_set_other _ _ _ _ (fun he : j = k => hj (he ▸ hk))).trans (h.get j hj)⟩

theorem Chip.LoadKept.bump (h : d.LoadKept ks c) {k : Nat} (hk : k ∈ ks) : (d.bump k).LoadKept ks c :=
  ⟨h.load, h.loadSeq, h.boot, h.pix, fun j hj => by
    rw [Chip.get_bump, if_neg (fun he : j = k => hj (he ▸ hk))]
    exact h.get j hj⟩

theorem Chip.LoadKept.modDma (h : d.LoadKept ks c) (f : DmaCh → DmaCh) : (d.modDma ch f).LoadKept ks c :=
  ⟨h.load, h.loadSeq, h.boot, h.pix, h.get⟩

theorem Chip.LoadKept.msix0 (h : d.LoadKept ks c) (v : Nat) : (d.msix0 v).LoadKept ks c := by
  unfold Chip.msix0
  split
  · exact ⟨h.load, h.loadSeq, h.boot, h.pix, h.get⟩
  · exact ⟨h.load, h.loadSeq, h.boot, h.pix, h.get⟩

theorem Chip.LoadKept.dmaRelease (h : d.LoadKept ks c) (hk : K.dmaActiveChannel ∈ ks) : (d.dmaRelease ch).LoadKept ks c := by
  unfold Chip.dmaRelease
  split
  · split
    · exact (Chip.LoadKept.mk (d := { d with dma := { d.dma with grant := none } }) h.load h.loadSeq h.boot h.pix h.get).set hk _
    · exact h
  · exact h

theorem Chip.LoadKept.putSet (h : d.LoadKept ks c) (s : Nat) (x : Option SetData) : (d.putSet s x).LoadKept ks c :=
  ⟨h.load, h.loadSeq, h.boot, h.pix, h.get⟩

theorem Chip.LoadKept.putImage (h : d.LoadKept ks c) (key : Nat) (l : List Byte) : (d.putImage key l).LoadKept ks c := by
  unfold Chip.putImage
  dsimp only
  split
  · exact ⟨h.load, h.loadSeq, h.boot, h.pix, h.get⟩
  · split
    · split
      · exact h
      · exact h.putSet _ _
    · exact h

theorem Chip.LoadKept.dramWrite (h : d.LoadKept ks c) (a : Nat) (l : List Byte) : (d.dramWrite a l).LoadKept ks c := by
  unfold Chip.dramWrite
  dsimp only
  refine List.foldlRecOn (motive := fun e : Chip => e.LoadKept ks c) _ _ ?_ fun e he x _ => ?_
  · refine List.foldlRecOn (motive := fun e : Chip => e.LoadKept ks c) _ _ h fun e he x _ => ?_
    split
    · exact he
    · exact he.putImage _ _
  · split
    · exact he
    · exact ⟨he.load, he.loadSeq, he.boot, he.pix, he.get⟩

theorem Chip.LoadKept.dmaPut (h : d.LoadKept ks c) (hk : K.onionWriteBlocked ∈ ks) (space a : Nat) (l : List Byte) :
    (d.dmaPut space a l).LoadKept ks c := by
  unfold Chip.dmaPut
  split
  · refine Chip.LoadKept.dramWrite ?_ _ _
    split
    · exact h.bump hk
    · exact h
  · exact ⟨h.load, h.loadSeq, h.boot, h.pix, h.get⟩

theorem Chip.LoadKept.ite {p : Prop} [Decidable p] (h : d.LoadKept ks c) (h' : e.LoadKept ks c) : (if p then d else e).LoadKept ks c := by
  split
  · exact h
  · exact h'

end

section
variable {c : Chip} {ch st n addr : Nat}

/-- A channel's engine taken back at the end of its transfer. -/
def Chip.dmaFreed (c : Chip) (ch : Nat) : Chip :=
  (if c.get (K.dmaState ch) = 3 then c else c.modDma ch (fun x => { x with frame := x.asserted.getD x.frame })).dmaRelease ch

/-- The end of a transfer that failed, with what it reports put in place: the counts, the record, the interrupt and the channel at rest. -/
def Chip.dmaTold (c : Chip) (ch st : Nat) (g : DmaCh → DmaCh) : Chip :=
  let c := c.bump (K.dmaErrors ch)
  let c := if st = 7 then c.bump (K.dmaTimeouts ch) else c
  let ra := c.nat (K.dmaRecordAddr ch)
  let rs := c.nat (K.dmaRecordSpace ch)
  let c := if ra = 0 ∨ c.dmaReach rs ≠ 1 then c else c.dmaPut rs ra (c.dmaRecord ch)
  let c := if c.on (K.dmaIrqEnable ch) ∧ (c.dmaCopy? ch).isNone then c.msix0 (c.nat (K.dmaVector ch)) else c
  c.modDma ch g

/-- The objects that the end of a transfer counts in. -/
def dmaCounts (ch : Nat) : List Nat := [K.dmaErrors ch, K.dmaTimeouts ch, K.onionWriteBlocked]

theorem Chip.dmaTold_kept (g : DmaCh → DmaCh) : (c.dmaTold ch st g).LoadKept (dmaCounts ch) c := by
  have hcount : (c.bump (K.dmaErrors ch)).LoadKept (dmaCounts ch) c := .bump (.refl _ _) (by simp [dmaCounts])
  unfold Chip.dmaTold
  generalize c.bump (K.dmaErrors ch) = d at hcount
  have htimeout : (if st = 7 then d.bump (K.dmaTimeouts ch) else d).LoadKept (dmaCounts ch) c :=
    .ite (hcount.bump (by simp [dmaCounts])) hcount
  dsimp only
  generalize (if st = 7 then d.bump (K.dmaTimeouts ch) else d) = e at htimeout
  have hrecord := htimeout.dmaPut (by simp [dmaCounts]) (e.nat (K.dmaRecordSpace ch)) (e.nat (K.dmaRecordAddr ch)) (e.dmaRecord ch)
  exact (Chip.LoadKept.ite ((Chip.LoadKept.ite htimeout hrecord).msix0 _) (.ite htimeout hrecord)).modDma _

/-- A transfer that fails: DMA_STATE reads 5, and the rest of the report is told. -/
theorem Chip.dmaEnd_fails (hst : 2 < st) : ∃ (seq moved place now' : Int) (g : DmaCh → DmaCh),
    c.dmaEnd ch st n addr = (((c.dmaFreed ch).setAll [(K.dmaState ch, 5), (K.dmaLastStatus ch, st), (K.dmaSequence ch, seq),
      (K.dmaBytesMoved ch, moved), (K.dmaPosition ch, place), (K.dmaFailAddr ch, addr), (K.dmaEndTime ch, now')]).dmaTold ch st
        g).sequenceSees ch st := by
  have hgood : ¬ st = 1 := by omega
  have habort : ¬ st = 2 := by omega
  rw [Chip.dmaEnd, decide_eq_false hgood]
  simp only [Bool.false_and, Bool.false_eq_true, if_neg hgood, if_neg habort, if_false, if_pos hst]
  exact ⟨_, _, _, _, _, rfl⟩

theorem Chip.dmaFreed_kept : (c.dmaFreed ch).LoadKept [K.dmaActiveChannel] c := by
  unfold Chip.dmaFreed
  exact (Chip.LoadKept.ite (.refl _ _) ((Chip.LoadKept.refl _ _).modDma _)).dmaRelease List.mem_cons_self

/-- The copy that a channel carries out turns on the copies and on the channels that the sources name. -/
theorem Chip.dmaCopy_congr {d : Chip} (hpix : d.pix = c.pix) (hget : ∀ i, d.get (K.statDmaChannel i) = c.get (K.statDmaChannel i)) :
    d.dmaCopy? ch = c.dmaCopy? ch := by
  have hnat (i : Nat) : d.nat (K.statDmaChannel i) = c.nat (K.statDmaChannel i) := by
    rw [Chip.nat, Chip.nat, hget]
  unfold Chip.dmaCopy? Chip.firstCopy
  rw [hpix]
  simp only [hnat]

theorem Chip.get_setAll_head {k : Nat} {v : Int} {l : List (Nat × Int)} (h : ∀ e ∈ l, k ≠ e.1) : (c.setAll ((k, v) :: l)).get k = v := by
  rw [Chip.setAll, List.foldl_cons]
  exact (Chip.get_setAll_other _ l k h).trans (Chip.get_set_same _ _ _)

/-- The part at the end of a transfer that failed: the channel reads it, and no object outside the engine's moves. -/
theorem Chip.dmaEnd_shows (hst : 2 < st) (hch : ch < 16) : ∃ d : Chip, c.dmaEnd ch st n addr = d.sequenceSees ch st ∧
    d.onion.load = c.onion.load ∧ d.onion.loadSeq = c.onion.loadSeq ∧ d.onion.boot = c.onion.boot ∧ d.dmaCopy? ch = c.dmaCopy? ch ∧
    d.get (K.dmaState ch) = 5 ∧ d.get (K.dmaLastStatus ch) = st := by
  obtain ⟨seq, moved, place, now', g, heq⟩ := c.dmaEnd_fails (ch := ch) (n := n) (addr := addr) hst
  have hfreed := c.dmaFreed_kept (ch := ch)
  generalize hd : (c.dmaFreed ch).setAll [(K.dmaState ch, 5), (K.dmaLastStatus ch, st), (K.dmaSequence ch, seq),
    (K.dmaBytesMoved ch, moved), (K.dmaPosition ch, place), (K.dmaFailAddr ch, addr), (K.dmaEndTime ch, now')] = d at heq
  have htold := d.dmaTold_kept (ch := ch) (st := st) g
  have honion : d.onion = (c.dmaFreed ch).onion := by
    rw [← hd, Chip.setAll_onion]
  have hpix : d.pix = (c.dmaFreed ch).pix := by
    rw [← hd, Chip.setAll_pix]
  have hstate : d.get (K.dmaState ch) = 5 := by
    rw [← hd, Chip.get_setAll_head]
    simp only [List.mem_cons, List.not_mem_nil, or_false, forall_eq_or_imp, forall_eq, K.dmaState, K.dmaLastStatus,
      K.dmaSequence, K.dmaBytesMoved, K.dmaPosition, K.dmaFailAddr, K.dmaEndTime]
    omega
  have hstatus : d.get (K.dmaLastStatus ch) = st := by
    rw [← hd]
    refine Chip.get_setAll_head (c := (c.dmaFreed ch).set (K.dmaState ch) 5) ?_
    simp only [List.mem_cons, List.not_mem_nil, or_false, forall_eq_or_imp, forall_eq, K.dmaLastStatus,
      K.dmaSequence, K.dmaBytesMoved, K.dmaPosition, K.dmaFailAddr, K.dmaEndTime]
    omega
  refine ⟨_, heq, htold.load.trans ((congrArg (·.load) honion).trans hfreed.load),
    htold.loadSeq.trans ((congrArg (·.loadSeq) honion).trans hfreed.loadSeq),
    htold.boot.trans ((congrArg (·.boot) honion).trans hfreed.boot),
    Chip.dmaCopy_congr (htold.pix.trans (hpix.trans hfreed.pix)) fun i => ?_, ?_, ?_⟩
  · rw [htold.get _ (by simp only [dmaCounts, List.mem_cons, List.not_mem_nil, or_false, K.statDmaChannel, K.dmaErrors, K.dmaTimeouts,
      K.onionWriteBlocked]; omega), ← hd, Chip.get_setAll_other, hfreed.get _ (by
        simp only [List.mem_singleton, K.statDmaChannel, K.dmaActiveChannel]; omega)]
    simp only [List.mem_cons, List.not_mem_nil, or_false, forall_eq_or_imp, forall_eq, K.statDmaChannel, K.dmaState, K.dmaLastStatus,
      K.dmaSequence, K.dmaBytesMoved, K.dmaPosition, K.dmaFailAddr, K.dmaEndTime]
    omega
  · rw [htold.get _ (by interval_cases ch <;> decide), hstate]
  · rw [htold.get _ (by interval_cases ch <;> decide), hstatus]

/-! ### A load that failed -/

theorem Chip.dropSet_kept (s : Nat) : (c.dropSet s).LoadKept [] c := by
  unfold Chip.dropSet
  split
  · exact .refl _ _
  · exact ⟨rfl, rfl, rfl, rfl, fun _ _ => rfl⟩

theorem K.setState_inj {i j : Nat} (h : K.setState i = K.setState j) : i = j := by
  simp only [K.setState] at h
  omega

/-- The states of the sets and ONION_RESIDENT. -/
def setStates : List Nat := K.onionResident :: (List.range 32).map K.setState

/-- Derived states of the sets leave a set that is not in DRAM, and every other object. -/
theorem Chip.refreshSets_kept {s : Nat} (hs : c.get (K.setState s) = 5) :
    c.refreshSets.LoadKept setStates c ∧ c.refreshSets.get (K.setState s) = 5 := by
  have hres : K.setState s ≠ K.onionResident := by
    simp only [K.setState, K.onionResident, ne_eq]
    omega
  unfold Chip.refreshSets
  dsimp only
  have hfold : ∀ l : List Nat, (∀ x ∈ l, x < 32) → ∀ d : Chip, d.LoadKept setStates c → d.get (K.setState s) = 5 →
      (l.foldl (fun c s => if c.inDram s then c.set (K.setState s) (if c.passOn s then 4 else if (c.setUsers s).isEmpty then 2 else 3)
        else c) d).LoadKept setStates c ∧
      (l.foldl (fun c s => if c.inDram s then c.set (K.setState s) (if c.passOn s then 4 else if (c.setUsers s).isEmpty then 2 else 3)
        else c) d).get (K.setState s) = 5 := by
    intro l
    induction l with
    | nil => exact fun _ d hd h5 => ⟨hd, h5⟩
    | cons x l ih =>
      intro hl d hd h5
      obtain ⟨hx, hl⟩ := List.forall_mem_cons.1 hl
      rw [List.foldl_cons]
      by_cases hin : d.inDram x
      · rw [if_pos hin]
        refine ih hl _ (hd.set (List.mem_cons_of_mem _ (List.mem_map_of_mem (List.mem_range.2 hx))) _) ?_
        rw [Chip.get_set_other _ _ _ _ (fun he => ?_), h5]
        obtain rfl := K.setState_inj he
        rw [Chip.inDram, h5] at hin
        exact absurd hin (by decide)
      · rw [if_neg hin]
        exact ih hl d hd h5
  obtain ⟨hkept, h5⟩ := hfold (List.range 32) (fun x hx => List.mem_range.1 hx) c.freePasses ⟨rfl, rfl, rfl, rfl, fun _ _ => rfl⟩ hs
  refine ⟨hkept.set List.mem_cons_self _, ?_⟩
  rw [Chip.get_set_other _ _ _ _ hres, h5]

theorem K.set_keys (s : Nat) (hs : s < 32) : K.setState s ∉ statusKeys ∧ K.setState s ∉ recordKeys ∧ K.setState s ≠ K.onionLoadStatus := by
  interval_cases s <;> decide

theorem K.dma_keys (ch : Nat) (hch : ch < 16) : K.dmaState ch ∉ statusKeys ∧ K.dmaState ch ∉ recordKeys ∧
    K.dmaLastStatus ch ∉ statusKeys ∧ K.dmaLastStatus ch ∉ recordKeys := by
  interval_cases ch <;> decide

theorem mem_setStates {k : Nat} : k ∈ setStates ↔ k = K.onionResident ∨ ∃ s < 32, K.setState s = k := by
  simp [setStates]

/-- What a load that failed shows, of its set, of ONION_LOAD_STATUS and of a DMA channel. -/
theorem Chip.loadFailed_shows {s : Nat} (hs : s < 32) (st : Nat) :
    (c.loadFailed s st).onion.load = c.onion.load ∧ (c.loadFailed s st).onion.boot = c.onion.boot ∧
    (c.loadFailed s st).get (K.setState s) = 5 ∧
    (c.loadFailed s st).get K.onionLoadStatus = (c.onion.loadSeq * 2 ^ 16 + s * 2 ^ 8 + st : Nat) ∧
    ∀ ch < 16, (c.loadFailed s st).get (K.dmaState ch) = c.get (K.dmaState ch) ∧
      (c.loadFailed s st).get (K.dmaLastStatus ch) = c.get (K.dmaLastStatus ch) := by
  obtain ⟨hstatus, hrecord, hload⟩ := K.set_keys s hs
  have hdrop := c.dropSet_kept s
  unfold Chip.loadFailed
  dsimp only
  generalize hd : c.dropSet s = d at hdrop
  have h5 : ((d.set (K.setState s) 5).loadStatus s st).get (K.setState s) = 5 := by
    rw [Chip.loadStatus, Chip.get_set_other _ _ _ _ hload, Chip.get_set_same]
  obtain ⟨hkept, hstate⟩ := Chip.refreshSets_kept h5
  have hget (k : Nat) (hk : k ≠ K.onionResident) (hset : ∀ s < 32, K.setState s ≠ k) :
      ((d.set (K.setState s) 5).loadStatus s st).refreshSets.get k = ((d.set (K.setState s) 5).loadStatus s st).get k :=
    hkept.get k fun hmem => by
      rcases mem_setStates.1 hmem with hres | ⟨x, hx, he⟩
      · exact hk hres
      · exact hset x hx he
  have hdma (k : Nat) (hk : 0x400000 ≤ k) : ((d.set (K.setState s) 5).loadStatus s st).refreshSets.get k = c.get k := by
    rw [hget k (by simp only [K.onionResident]; omega) (fun x hx => by simp only [K.setState]; omega), Chip.loadStatus,
      Chip.get_set_other _ _ _ _ (by simp only [K.onionLoadStatus]; omega), Chip.get_set_other _ _ _ _ (by simp only [K.setState]; omega),
      hdrop.get k List.not_mem_nil]
  have honion := Chip.recorded_onion (Chip.raise_recorded ((d.set (K.setState s) 5).loadStatus s st).refreshSets 0 2 1 0xFF 0x2004 s
    (((d.set (K.setState s) 5).loadStatus s st).refreshSets.nat K.onionLoadStatus) (by decide))
  refine ⟨?_, ?_, ?_, ?_, fun ch hch => ?_⟩
  · rw [honion, hkept.load]
    exact hdrop.load
  · rw [honion, hkept.boot]
    exact hdrop.boot
  · rw [Chip.get_raise _ _ _ _ _ _ _ _ (by decide) _ hstatus hrecord, hstate]
  · rw [Chip.get_raise _ _ _ _ _ _ _ _ (by decide) _ (by decide) (by decide), hget _ (by decide) (fun x hx => by
      interval_cases x <;> decide), Chip.loadStatus, Chip.get_set_same]
    exact congrArg (fun n : Nat => ((n * 2 ^ 16 + s * 2 ^ 8 + st : Nat) : Int)) hdrop.loadSeq
  · obtain ⟨hstate0, hstate1, hlast0, hlast1⟩ := K.dma_keys ch hch
    exact ⟨by rw [Chip.get_raise _ _ _ _ _ _ _ _ (by decide) _ hstate0 hstate1, hdma _ (by simp only [K.dmaState]; omega)],
      by rw [Chip.get_raise _ _ _ _ _ _ _ _ (by decide) _ hlast0 hlast1, hdma _ (by simp only [K.dmaLastStatus]; omega)]⟩

theorem Chip.bootLoads_none (h : c.onion.boot = []) : c.bootLoads = c := by
  rw [Chip.bootLoads, h]
  cases c.onion.load with
  | none => rfl
  | some l => rfl

/-- The part with its load at an end. -/
def Chip.loadOver (c : Chip) : Chip := { c with onion := { c.onion with load := none } }

theorem Chip.loadOver_boot : c.loadOver.onion.boot = c.onion.boot := rfl

theorem Chip.loadOver_loadSeq : c.loadOver.onion.loadSeq = c.onion.loadSeq := rfl

theorem Chip.sequenceSees_load {l : SetLoad} (hcopy : c.dmaCopy? l.ch = none) (hload : c.onion.load = some l) (hst : st ≠ 1) :
    c.sequenceSees l.ch st = (c.loadOver.loadFailed l.set 6).bootLoads := by
  rw [Chip.sequenceSees, hcopy, hload]
  exact if_pos ⟨rfl, hst⟩

theorem Chip.loadError_fails {l : SetLoad} : 2 < c.loadError l ∧ c.loadError l ≠ 1 := by
  unfold Chip.loadError
  split
  · decide
  · split
    · decide
    · decide

/-- A load whose transfer fails, as the part then shows it. -/
theorem Chip.loadEnd_shows {l : SetLoad} (hload : c.onion.load = some l) (hboot : c.onion.boot = []) (hset : l.set < 32) (hch : l.ch < 16)
    (hcopy : c.dmaCopy? l.ch = none) : ∃ d : Chip, c.dmaEnd l.ch (c.loadError l) 0 0 = d ∧ d.onion.load = none ∧
      d.get (K.setState l.set) = 5 ∧ d.get K.onionLoadStatus = (c.onion.loadSeq * 2 ^ 16 + l.set * 2 ^ 8 + 6 : Nat) ∧
      d.get (K.dmaLastStatus l.ch) = (c.loadError l : Nat) ∧ d.get (K.dmaState l.ch) = 5 := by
  obtain ⟨hst, hone⟩ := c.loadError_fails (l := l)
  obtain ⟨d, hend, hdload, hdseq, hdboot, hdcopy, hdstate, hdlast⟩ := c.dmaEnd_shows (n := 0) (addr := 0) hst hch
  obtain ⟨heload, heboot, heset, hestatus, hechan⟩ := d.loadOver.loadFailed_shows hset 6
  obtain ⟨hestate, helast⟩ := hechan l.ch hch
  have hnone : (d.loadOver.loadFailed l.set 6).onion.boot = [] := by
    rw [heboot, Chip.loadOver_boot, hdboot, hboot]
  refine ⟨d.loadOver.loadFailed l.set 6, ?_, heload, heset, ?_, helast.trans hdlast, hestate.trans hdstate⟩
  · rw [hend, Chip.sequenceSees_load (hdcopy.trans hcopy) (hdload.trans hload) hone, Chip.bootLoads_none hnone]
  · rw [hestatus, Chip.loadOver_loadSeq, hdseq]

/-! ### The commands of the sets -/

theorem onionLoad_starts (v : BitVec 64) (hrange : v.toNat < 1024) (hset : v.toNat % 256 ≤ 31)
    (hflash : v[8] = true ∨ c.get (K.setFlashOffset (v.toNat % 256)) ≠ 0xFFFFFFFF) (hruns : c.pixelRuns = true)
    (hload : c.onion.load = none) (hstate : c.get (K.setState (v.toNat % 256)) ≠ 1) (hpass : c.passDue (v.toNat % 256) = false)
    (husers : c.setUsers (v.toNat % 256) = []) (howns : c.solsticeOwns (v.toNat % 256) = false)
    (hcopies : c.dmaCopies (c.nat K.onionDmaChannel) = false) :
    onionLoad v.toNat c = .ok (c.startLoad { set := v.toNat % 256, host := v[8], zero := v[9] }) := by
  have hhost : bitOf v.toNat 8 = v[8] := bitOf_eq_testBit v.toNat 8
  have hzero : bitOf v.toNat 9 = v[9] := bitOf_eq_testBit v.toNat 9
  have hsource : (!v[8] && decide (c.get (K.setFlashOffset (v.toNat % 256)) = 0xFFFFFFFF)) = false := by
    rcases hflash with hhost | hoffset
    · rw [hhost]
      rfl
    · rw [decide_eq_false hoffset, Bool.and_false]
  rw [onionLoad, hhost, hzero, guardNot_pass (decide_eq_false (by omega)), guardNot_pass hsource, guardNot_pass (by rw [hruns]; rfl),
    guardNot_pass (by rw [hload, decide_eq_false hstate, hpass, husers, howns, hcopies]; rfl)]

theorem onionLoadComplete_error {l : SetLoad} (hload : c.onion.load = some l) :
    onionLoadComplete .dmaError c = c.dmaEnd l.ch (c.loadError l) 0 0 := by
  rw [onionLoadComplete, hload]

/-- An image whose header passes its checks, with all its records and a place for them. -/
theorem onionLoadComplete_moved {l : SetLoad} {h recs a b : List Byte} {base : Nat} (hload : c.onion.load = some l)
    (hreaches : c.loadReaches l = true) (hheader : headerOk h = true)
    (hplace : c.setPlace (setBytes (fieldAt h 6 2) (fieldAt h 8 2)) = some base)
    (hlen : recs.length = 16 * (fieldAt h 6 2 * fieldAt h 8 2)) :
    onionLoadComplete (.parts h recs a b) c =
      Chip.bootLoads (if crc32 recs ≠ fieldAt h 16 4 then
        (({ c with onion := { c.onion with load := none } } : Chip).loadMoved l (fieldAt h 6 2) (fieldAt h 8 2) base).loadFailed l.set 4
      else (({ c with onion := { c.onion with load := none } } : Chip).loadMoved l (fieldAt h 6 2) (fieldAt h 8 2) base).loadDone l h recs
        (if l.zero then none else chooseSlot h a b (fieldAt h 6 2 * fieldAt h 8 2)) base) := by
  rw [onionLoadComplete, hload]
  dsimp only
  rw [hreaches, if_neg (by simp), Chip.loadImage]
  dsimp only
  rw [hheader, if_neg (by simp), hplace]
  dsimp only
  rw [if_neg (by omega), ← hlen, List.take_length]

theorem onionSave_wants {v : Nat} (hv : v ≤ 31) (hruns : c.pixelRuns = true) (hin : c.inDram v = true) : onionSave v c = .ok (c.wantSave v) := by
  rw [onionSave, setRange, guardNot_pass (decide_eq_false (by omega)), guardNot_pass (by rw [hruns, hin]; rfl)]

theorem onionEvict_frees {v : Nat} (hv : v ≤ 31) (hruns : c.pixelRuns = true) (hstate : c.get (K.setState v) ≠ 1)
    (hpass : c.passDue v = false) (husers : c.setUsers v = []) :
    onionEvict v c = .ok (((c.dropSet v).set (K.setState v) 0).set (K.setShadowValid v) 0).refreshSets := by
  rw [onionEvict, setRange, guardNot_pass (decide_eq_false (by omega)), guardNot_pass (by rw [hruns]; rfl),
    guardNot_pass (by rw [decide_eq_false hstate, hpass, husers]; rfl)]

/-! ### The end of a save -/

/-- Nothing waits at the flash port: no page, no copy, no save and no read. -/
def Chip.flashIdle (c : Chip) : Prop :=
  c.spm.waitPages = [] ∧ c.spm.copy = none ∧ c.onion.save = none ∧ c.onion.saves = [] ∧ c.spm.seq = none ∧ c.spm.waitReads = []

theorem Chip.withoutReads (h : c.spm.waitReads = []) : ({ c with spm := { c.spm with waitReads := [] } } : Chip) = c := by
  rw [← h]

theorem Chip.withoutSequence (h : c.spm.seq = none) : ({ c with spm := { c.spm with seq := none } } : Chip) = c := by
  rw [← h]

theorem Chip.flashNext_idle (h : c.flashIdle) : c.flashNext = c := by
  obtain ⟨hpages, hcopy, hsave, hsaves, hseq, hreads⟩ := h
  have hnext : c.copyNext.nextSave = c := by
    rw [Chip.copyNext, hcopy, Chip.nextSave, hsave, hsaves]
    dsimp only
    rw [Chip.saveRuns, hsave]
  rw [Chip.flashNext, hpages]
  dsimp only
  rw [hnext, Chip.withoutReads hreads, hreads, List.foldl_nil, ite_self]

/-- The part with its save at an end. -/
def Chip.saveOver (c : Chip) : Chip := { c with onion := { c.onion with save := none }, spm := { c.spm with seq := none } }

theorem Chip.saveOver_idle (hpages : c.spm.waitPages = []) (hcopy : c.spm.copy = none) (hsaves : c.onion.saves = [])
    (hreads : c.spm.waitReads = []) : c.saveOver.flashIdle := ⟨hpages, hcopy, rfl, hsaves, rfl, hreads⟩

theorem Chip.flashIdle_set (h : c.flashIdle) (k : Nat) (v : Int) : (c.set k v).flashIdle := h

theorem Chip.saveEnds_idle {s st : Nat} (hidle : c.saveOver.flashIdle) (hport : c.get K.spRole = 0) :
    c.saveEnds s st = (c.saveOver.set K.onionSaveStatus (s * 256 + st : Nat)).set K.spmState 1 := by
  have hmaster : (c.saveOver.saveStatus s st).portMaster = true := by
    rw [Chip.portMaster, Chip.saveStatus, Chip.get_set_other _ _ _ _ (by decide)]
    exact decide_eq_true hport
  have hover : c.saveEnds s st =
      (if (c.saveOver.saveStatus s st).portMaster then (c.saveOver.saveStatus s st).set K.spmState 1 else c.saveOver.saveStatus s st).flashNext := rfl
  rw [hover, hmaster, if_pos rfl]
  exact Chip.flashNext_idle (Chip.flashIdle_set (Chip.flashIdle_set hidle _ _) _ _)

theorem Chip.saveFails_idle {s : Nat} (hidle : c.saveOver.flashIdle) (hseq : c.spm.seq = none) :
    c.saveFails s = c.saveOver.set K.onionSaveStatus (s * 256 + 5 : Nat) := by
  have hover : c.saveOver = ({ c with onion := { c.onion with save := none } } : Chip) :=
    Chip.withoutSequence (c := { c with onion := { c.onion with save := none } }) hseq
  rw [Chip.saveFails, hseq]
  dsimp only
  rw [← hover]
  exact Chip.flashNext_idle (Chip.flashIdle_set hidle _ _)

/-- A slot's place and header turn on the objects of its set. -/
theorem Chip.slot_congr {d : Chip} {n : Nat} (hget : ∀ k, k % 256 ≠ 1 → k % 256 ≠ 2 → d.get k = c.get k) :
    (∀ second, d.slotOffset n second = c.slotOffset n second) ∧ ∀ seq x, d.slotHeader n seq x = c.slotHeader n seq x := by
  have hflash : d.get (K.setFlashOffset n) = c.get (K.setFlashOffset n) := hget _ (by simp only [K.setFlashOffset]; omega)
    (by simp only [K.setFlashOffset]; omega)
  have hgeometry : d.get (K.setGeometry n) = c.get (K.setGeometry n) := hget _ (by simp only [K.setGeometry]; omega)
    (by simp only [K.setGeometry]; omega)
  have htemp : d.get (K.setAnchorTemp n) = c.get (K.setAnchorTemp n) := hget _ (by simp only [K.setAnchorTemp]; omega)
    (by simp only [K.setAnchorTemp]; omega)
  have htime : d.get (K.setAnchorTime n) = c.get (K.setAnchorTime n) := hget _ (by simp only [K.setAnchorTime]; omega)
    (by simp only [K.setAnchorTime]; omega)
  refine ⟨fun second => ?_, fun seq x => ?_⟩
  · simp only [Chip.slotOffset, Chip.setSize, Chip.nat, hflash, hgeometry]
  · simp only [Chip.slotHeader, Chip.nat, htemp, htime]

/-- The part with the E array of a save in its slot. -/
def Chip.saveCounted (c : Chip) (size len : Nat) : Chip :=
  (c.bumpBy K.spmErases (size / 4096)).bumpBy K.spmPrograms (slotPages (2 * len))

theorem Chip.get_saveCounted {size len k : Nat} (h1 : k % 256 ≠ 1) (h2 : k % 256 ≠ 2) : (c.saveCounted size len).get k = c.get k := by
  rw [Chip.saveCounted, Chip.get_bumpBy, if_neg (by simp only [K.spmPrograms]; omega), Chip.get_bumpBy,
    if_neg (by simp only [K.spmErases]; omega)]

theorem Chip.saveField_eq {n : Nat} {second : Bool} {d : SetData} :
    c.saveField n second d = ((c.saveCounted (up64k (64 + 2 * d.view.length)) d.view.length).emit
      (.erased (c.slotOffset n second) (up64k (64 + 2 * d.view.length)))).emit (.saved (c.slotOffset n second + 64) d.fieldBytes) := rfl

theorem Chip.saveOver_set (k : Nat) (v : Int) : (c.set k v).saveOver = c.saveOver.set k v := rfl

/-- The part with the header of a save programmed and its end reported. -/
def Chip.saveReported (c : Chip) (n seq : Nat) : Chip :=
  (((c.bump K.spmPrograms).saveOver.set (K.setSavedSequence n) seq).set K.onionSaveStatus (n * 256 + 2 : Nat)).set K.spmState 1

theorem Chip.saveReported_emit (n seq : Nat) (m : OutMsg) :
    (((c.emit m).bump K.spmPrograms).saveOver.set (K.setSavedSequence n) seq) =
      ((c.bump K.spmPrograms).saveOver.set (K.setSavedSequence n) seq).emit m := rfl

theorem Chip.saveReported_sends (n seq : Nat) (m : OutMsg) : (c.emit m).saveReported n seq = (c.saveReported n seq).emit m := by
  rw [Chip.saveReported, Chip.saveReported_emit]
  rfl

theorem Chip.flashIdle_bump (h : c.saveOver.flashIdle) (k : Nat) : (c.bump k).saveOver.flashIdle := h

theorem Chip.flashIdle_emit (h : c.saveOver.flashIdle) (m : OutMsg) : (c.emit m).saveOver.flashIdle := h

theorem Chip.saveEnds_saved {n seq : Nat} (hidle : c.saveOver.flashIdle) (hport : c.get K.spRole = 0) :
    ((c.bump K.spmPrograms).set (K.setSavedSequence n) seq).saveEnds n 2 = c.saveReported n seq := by
  have hidle' : ((c.bump K.spmPrograms).set (K.setSavedSequence n) seq).saveOver.flashIdle := by
    rw [Chip.saveOver_set]
    exact Chip.flashIdle_set (Chip.flashIdle_bump hidle _) _ _
  rw [Chip.saveEnds_idle hidle', Chip.saveOver_set, Chip.saveReported]
  rw [Chip.get_set_other _ _ _ _ (by simp only [K.spRole, K.setSavedSequence]; omega), Chip.get_bump, if_neg (by decide), hport]

/-- What stands in the way of a save's end: no other sequence, and a header of its own type. -/
theorem onionSaveComplete_same {n : Nat} {d : SetData} {h a b : List Byte} (hsave : c.onion.save = some (n, c.nat (K.setFieldSequence n)))
    (hother : c.spm.seq.any (fun q => decide (q.user ≠ .save n)) = false) (hdata : c.setData n = some d) (hport : c.get K.spRole = 0)
    (hheader : headerOk h = true) (hkind : fieldAt h 13 1 = 2) :
    onionSaveComplete (.parts h a b) c = if fieldAt h 16 4 ≠ d.factoryCrc then c.saveEnds n 4
      else ((((c.saveField n (saveSecond h a b d.view.length) d).emit
        (.saved ((c.saveField n (saveSecond h a b d.view.length) d).slotOffset n (saveSecond h a b d.view.length))
          ((c.saveField n (saveSecond h a b d.view.length) d).slotHeader n (c.nat (K.setFieldSequence n)) d))).bump K.spmPrograms).set
            (K.setSavedSequence n) (c.nat (K.setFieldSequence n))).saveEnds n 2 := by
  have hmaster : c.portMaster = true := decide_eq_true hport
  rw [onionSaveComplete, hsave]
  dsimp only
  rw [hother, if_neg Bool.false_ne_true, hdata]
  dsimp only
  rw [hmaster, if_neg (by simp), hheader, hkind, if_neg (by simp), if_neg (not_not.2 rfl)]

theorem onionSaveComplete_slave {n : Nat} {d : SetData} {h a b : List Byte} (hsave : c.onion.save = some (n, c.nat (K.setFieldSequence n)))
    (hseq : c.spm.seq = none) (hdata : c.setData n = some d) (hport : c.get K.spRole ≠ 0) :
    onionSaveComplete (.parts h a b) c = c.saveFails n := by
  have hmaster : c.portMaster = false := decide_eq_false hport
  rw [onionSaveComplete, hsave]
  dsimp only
  rw [hseq, Option.any_none, if_neg Bool.false_ne_true, hdata]
  dsimp only
  rw [hmaster]
  exact if_pos rfl

/-- A save whose slot takes its header. -/
theorem onionSaveComplete_saves {n : Nat} {d : SetData} {h a b : List Byte} (hsave : c.onion.save = some (n, c.nat (K.setFieldSequence n)))
    (hother : c.spm.seq.any (fun q => decide (q.user ≠ .save n)) = false) (hdata : c.setData n = some d) (hport : c.get K.spRole = 0)
    (hheader : headerOk h = true) (hkind : fieldAt h 13 1 = 2) (hcrc : fieldAt h 16 4 = d.factoryCrc) (hidle : c.saveOver.flashIdle) :
    onionSaveComplete (.parts h a b) c =
      ((((c.saveCounted (up64k (64 + 2 * d.view.length)) d.view.length).saveReported n (c.nat (K.setFieldSequence n))).emit
        (.erased (c.slotOffset n (saveSecond h a b d.view.length)) (up64k (64 + 2 * d.view.length)))).emit
        (.saved (c.slotOffset n (saveSecond h a b d.view.length) + 64) d.fieldBytes)).emit
        (.saved (c.slotOffset n (saveSecond h a b d.view.length)) (c.slotHeader n (c.nat (K.setFieldSequence n)) d)) := by
  have hfield (k : Nat) (h1 : k % 256 ≠ 1) (h2 : k % 256 ≠ 2) :
      (c.saveField n (saveSecond h a b d.view.length) d).get k = c.get k := Chip.get_saveCounted (c := c) h1 h2
  obtain ⟨hoffset, hslot⟩ := Chip.slot_congr (n := n) hfield
  rw [onionSaveComplete_same hsave hother hdata hport hheader hkind, if_neg (not_not.2 hcrc), hoffset, hslot, Chip.saveField_eq]
  generalize hx : c.saveCounted (up64k (64 + 2 * d.view.length)) d.view.length = x
  have hxidle : x.saveOver.flashIdle := by
    rw [← hx]
    exact hidle
  have hxport : x.get K.spRole = 0 := by
    rw [← hx, Chip.saveCounted, Chip.get_bumpBy, if_neg (by decide), Chip.get_bumpBy, if_neg (by decide), hport]
  rw [← Chip.saveReported_sends, ← Chip.saveReported_sends, ← Chip.saveReported_sends]
  exact Chip.saveEnds_saved (Chip.flashIdle_emit (Chip.flashIdle_emit (Chip.flashIdle_emit hxidle _) _) _) hxport

end

/-- Settles O40: a load by its image and its channel, a save by its header, and an eviction by its set. -/
theorem setsLoadSaveEvict : Obligations.SetsLoadSaveEvict := by
  unfold Obligations.SetsLoadSaveEvict
  refine ⟨?load, fun s l hload => ⟨?error, ?shows⟩, fun s l h recs a b base hload hreaches hheader hplace hlen => ⟨?done, ?crc⟩, ?save,
    fun s n d h a b hsave hother hdata hsaves hpages hreads hcopy => ⟨fun hport hheader hkind => ⟨?saves, ?differs⟩, ?slave⟩, ?evict⟩
  case load =>
    intro s m v hs hrange hset n hflash hruns hload hstate hpass husers howns hcopies
    exact effect_of_command rfl hs (onionLoad_starts (c := s.chip.fresh) v hrange hset hflash hruns hload hstate hpass husers howns hcopies)
      (Chip.agrees_refl _)
  case error => exact effect_eq rfl (onionLoadComplete_error (c := s.chip.fresh) hload)
  case shows =>
    intro hboot hset hch hcopy
    obtain ⟨d, hend, hnone, hstate, hstatus, hlast, hchan⟩ := Chip.loadEnd_shows (c := s.chip.fresh) hload hboot hset hch hcopy
    refine leaves_of_eq rfl ((onionLoadComplete_error (c := s.chip.fresh) hload).trans hend) ?_
    obtain ⟨hset0, -, -⟩ := K.set_keys l.set hset
    obtain ⟨hstate0, -, hlast0, -⟩ := K.dma_keys l.ch hch
    rw [settle_onion, settle_get _ _ _ hset0, settle_get _ _ _ (by decide), settle_get _ _ _ hlast0, settle_get _ _ _ hstate0]
    exact ⟨hnone, hstate, hstatus, hlast, hchan⟩
  case done =>
    intro hcrc
    refine effect_eq rfl ((onionLoadComplete_moved (c := s.chip.fresh) hload hreaches hheader hplace hlen).trans ?_)
    rw [if_neg (not_not.2 hcrc)]
    rfl
  case crc =>
    intro hcrc
    refine effect_eq rfl ((onionLoadComplete_moved (c := s.chip.fresh) hload hreaches hheader hplace hlen).trans ?_)
    rw [if_pos hcrc]
    rfl
  case save =>
    intro s m v hs hv hruns hin
    exact effect_of_command rfl hs (onionSave_wants (c := s.chip.fresh) hv hruns hin) (Chip.agrees_refl _)
  case saves =>
    intro hcrc
    have hidle : s.chip.fresh.saveOver.flashIdle := Chip.saveOver_idle (c := s.chip.fresh) hpages hcopy hsaves hreads
    refine answer_of_eq rfl (onionSaveComplete_saves (c := s.chip.fresh) hsave hother hdata hport hheader hkind hcrc hidle) ?_ List.prefix_rfl
    exact Chip.agrees_trans (Chip.extends_emit _ _).1 (Chip.agrees_trans (Chip.extends_emit _ _).1 (Chip.extends_emit _ _).1)
  case differs =>
    intro hcrc
    have hidle : s.chip.fresh.saveOver.flashIdle := Chip.saveOver_idle (c := s.chip.fresh) hpages hcopy hsaves hreads
    refine effect_eq rfl ((onionSaveComplete_same (c := s.chip.fresh) hsave hother hdata hport hheader hkind).trans ?_)
    rw [if_pos hcrc]
    exact Chip.saveEnds_idle hidle hport
  case slave =>
    intro hport hseq
    have hidle : s.chip.fresh.saveOver.flashIdle := Chip.saveOver_idle (c := s.chip.fresh) hpages hcopy hsaves hreads
    exact effect_eq rfl ((onionSaveComplete_slave (c := s.chip.fresh) hsave hseq hdata hport).trans (Chip.saveFails_idle hidle hseq))
  case evict =>
    intro s m v hs hv hruns hstate hpass husers
    exact effect_of_command rfl hs (onionEvict_frees (c := s.chip.fresh) hv hruns hstate hpass husers) (Chip.agrees_refl _)

end Sys2Proof.Machine
end

section
/-! CSI-2 receivers and sources (R300 to R310, R474). -/

namespace Sys2Proof.Machine

section
variable {c : Chip} {k i : Nat}

theorem Chip.pathRuns_set {j : Nat} {v : Int} (hj : j ≠ K.pixelDieState) : (c.set j v).pathRuns = c.pathRuns := by
  rw [Chip.pathRuns, Chip.pathRuns, Chip.pixelRuns, Chip.pixelRuns, Chip.get_set_other _ _ _ _ (Ne.symm hj)]
  rfl

/-! ### Receivers and sources start and stop -/

theorem rxRunStart_starts (hk : k < 2) (hpath : c.pathRuns = true) (hstate : c.get (K.rxState k) = 0) :
    rxRunStart k c = c.setAll [(K.rxRun k, 1), (K.rxState k, 1)] := by
  have hstate' : (c.set (K.rxRun k) 1).get (K.rxState k) = 0 := by
    rw [Chip.get_set_other _ _ _ _ (by interval_cases k <;> decide), hstate]
  rw [rxRunStart]
  rw [if_pos ⟨by rw [Chip.pathRuns_set (by interval_cases k <;> decide), hpath], hstate'⟩]
  rfl

theorem rxStop_stops (hsources : ∀ i < 2, c.get (K.srcState i) = 0) : rxStop k c = .ok (c.setAll [(K.rxRun k, 0), (K.rxState k, 0)]) := by
  have hnone : (List.range 2).any (fun i => decide (c.get (K.srcState i) ≠ 0 ∧ c.get (K.srcReceiver i) = k)) = false := by
    refine List.any_eq_false.2 fun i hi => ?_
    rw [hsources i (List.mem_range.1 hi)]
    simp
  rw [rxStop, guardNot_pass hnone]
  rfl

theorem srcRunOne_starts (hpath : c.pathRuns = true) (hstate : c.get (K.srcState i) = 0) (hok : c.srcStartOk i = true)
    (hadmit : (c.admitted (K.srcRun i) 1).2 = false) :
    srcRunOne i c = ((((((c.admitted (K.srcRun i) 1).1).set (K.srcRun i) 1).set (K.srcState i) 1).modSource (4 + i)
      (fun (x : Source) => { x with isOpen := false, lines := 0, sender := none, tnrSeed := true })).refreshSets, none) := by
  rw [srcRunOne, if_pos hpath, srcRunRequest, if_neg (not_not.2 hstate), hok, if_neg (by simp)]
  dsimp only
  rw [hadmit, if_neg Bool.false_ne_true]

theorem srcStop_rests (hi : i < 2) (hstate : c.get (K.srcState i) ≠ 0) : srcStop i c = (c.set (K.srcRun i) 0).srcRest i := by
  rw [srcStop]
  rw [if_neg]
  rw [Chip.get_set_other _ _ _ _ (by interval_cases i <;> decide)]
  exact hstate

/-! ### Packets -/

/-- Objects that a packet's route and its line turn on. -/
def routeKeys : List Nat := [K.srcState 0, K.srcState 1, K.srcReceiver 0, K.srcReceiver 1, K.srcVc 0, K.srcVc 1, K.srcDataType 0, K.srcDataType 1]

theorem Chip.rxRoute_congr {d : Chip} {vc : Nat} (h : ∀ j ∈ routeKeys, d.get j = c.get j) : d.rxRoute k vc = c.rxRoute k vc := by
  simp only [routeKeys, List.forall_mem_cons, List.not_mem_nil, false_imp_iff, implies_true, and_true] at h
  obtain ⟨hs0, hs1, hr0, hr1, hv0, hv1, -, -⟩ := h
  have hrange : List.range 2 = [0, 1] := rfl
  simp only [Chip.rxRoute, Chip.rxSources, hrange, List.filter_cons, List.filter_nil, hs0, hs1, hr0, hr1]
  have hvc (l : List Nat) (hl : ∀ j ∈ l, j = 0 ∨ j = 1) :
      l.find? (fun i => decide (d.get (K.srcVc i) = vc)) = l.find? (fun i => decide (c.get (K.srcVc i) = vc)) := by
    induction l with
    | nil => rfl
    | cons j l ih =>
      obtain ⟨hj, hl⟩ := List.forall_mem_cons.1 hl
      have hjv : d.get (K.srcVc j) = c.get (K.srcVc j) := by
        rcases hj with rfl | rfl
        · exact hv0
        · exact hv1
      rw [List.find?_cons, List.find?_cons, hjv, ih hl]
  refine hvc _ fun j hj => ?_
  split at hj
  · rcases List.mem_cons.1 hj with rfl | hj
    · exact Or.inl rfl
    · split at hj
      · exact Or.inr (List.mem_singleton.1 hj)
      · exact absurd hj List.not_mem_nil
  · split at hj
    · exact Or.inr (List.mem_singleton.1 hj)
    · exact absurd hj List.not_mem_nil

theorem Chip.rxRoute_lt {vc : Nat} (h : c.rxRoute k vc = some i) : i < 2 :=
  List.mem_range.1 (List.mem_filter.1 (List.mem_of_find?_eq_some h)).1

theorem Chip.csiPacket_good {long : Bool} {use : Chip → Chip} (hworks : c.rxWorks k = true) :
    c.csiPacket k .good long use = use (c.set (K.rxState k) 2) := by
  rw [Chip.csiPacket, hworks, if_neg (by simp)]

theorem Chip.rxRoute_packet {vc : Nat} (hk : k < 2) : (c.set (K.rxState k) 2).rxRoute k vc = c.rxRoute k vc :=
  Chip.rxRoute_congr fun j hj => Chip.get_set_other _ _ _ _ (by
    revert j
    interval_cases k <;> decide)

theorem Chip.rxRoute_count {vc : Nat} (hk : k < 2) (hvc : vc < 4) : (c.bump (K.vcFrameStarts k vc)).rxRoute k vc = c.rxRoute k vc :=
  Chip.rxRoute_congr fun j hj => by
    rw [Chip.get_bump, if_neg]
    revert j
    interval_cases k <;> interval_cases vc <;> decide

theorem csiFrameStart_opens {vc number : Nat} (hk : k < 2) (hvc : vc < 4) (hworks : c.rxWorks k = true) (hroute : c.rxRoute k vc = some i)
    (hgap : senderGap (c.source (4 + i)).sender number = false) :
    csiFrameStart k vc .good number c = (((c.set (K.rxState k) 2).bump (K.vcFrameStarts k vc)).csiOpen i 0).modSource (4 + i)
      (fun (x : Source) => { x with sender := some number }) := by
  have hgap' : senderGap (((c.set (K.rxState k) 2).bump (K.vcFrameStarts k vc)).source (4 + i)).sender number = false := hgap
  rw [csiFrameStart, Chip.csiPacket_good hworks]
  dsimp only
  rw [Chip.rxRoute_count hk hvc, Chip.rxRoute_packet hk, hroute]
  dsimp only
  rw [hgap', if_neg Bool.false_ne_true]

theorem csiFrameEnd_closes {vc : Nat} (hk : k < 2) (hworks : c.rxWorks k = true) (hroute : c.rxRoute k vc = some i) :
    csiFrameEnd k vc .good c = (c.set (K.rxState k) 2).csiClose i := by
  rw [csiFrameEnd, Chip.csiPacket_good hworks, Chip.rxRoute_packet hk, hroute]

/-- A long packet of the source's data type. -/
theorem csiLong_routed {vc : Nat} {l : CsiLine} (hk : k < 2) (hworks : c.rxWorks k = true) (hroute : c.rxRoute k vc = some i)
    (hhdr : l.hdr = .good) (hdt : l.dt.toNat ∈ [0x2A, 0x2B, 0x2C, 0x2D, 0x2E, 0x1E, 0x24]) (htype : c.nat (K.srcDataType i) = l.dt.toNat) :
    csiLong k vc l c =
      if (c.source (4 + i)).isOpen then (c.set (K.rxState k) 2).csiLine k i l
      else if (c.source (4 + i)).ecc then ((c.set (K.rxState k) 2).csiOpen i markEcc).csiLine k i l
      else (c.set (K.rxState k) 2).bump (K.orphanPackets i) := by
  have hi := Chip.rxRoute_lt hroute
  have hkept : csiIgnored l.dt.toNat = false := by
    generalize l.dt.toNat = n at hdt
    revert n
    decide
  have htype' : (c.set (K.rxState k) 2).nat (K.srcDataType i) = l.dt.toNat := by
    rw [Chip.nat, Chip.get_set_other _ _ _ _ (by interval_cases k <;> interval_cases i <;> decide)]
    exact htype
  rw [csiLong, hhdr, Chip.csiPacket_good hworks]
  dsimp only
  rw [hkept, if_neg Bool.false_ne_true, if_neg (not_not.2 hdt), Chip.rxRoute_packet hk, hroute]
  dsimp only
  rw [if_neg (not_not.2 htype')]
  rfl

/-! ### Losses and errors -/

theorem csiSourceTimeout_loses (hi : i < 2) (hpath : c.pathRuns = true) (hstate : c.get (K.srcState i) = 2) :
    csiSourceTimeout i c = (((c.bump (K.srcLostCount i)).raise 0 1 (8 + c.nat (K.srcReceiver i)) 4 0x1030 (4 + i)
      (c.nat (K.srcFrameNumber i))).csiLose i) := by
  have hreceiver : (c.bump (K.srcLostCount i)).nat (K.srcReceiver i) = c.nat (K.srcReceiver i) := by
    rw [Chip.nat, Chip.get_bump, if_neg (by interval_cases i <;> decide)]
    rfl
  have hnumber : (c.bump (K.srcLostCount i)).nat (K.srcFrameNumber i) = c.nat (K.srcFrameNumber i) := by
    rw [Chip.nat, Chip.get_bump, if_neg (by interval_cases i <;> decide)]
    rfl
  rw [csiSourceTimeout, if_neg (by rw [hstate, hpath]; decide)]
  dsimp only
  rw [hreceiver, hnumber]

theorem csiLaneWatchdog_watches {lane : Nat} (hstate : c.get (K.rxState k) = 2) (hlane : lane < c.nat (K.rxLanes k)) :
    csiLaneWatchdog k lane c = c.watchdog 1 (8 + k) lane 0x1032 k lane (fun c => c.set (K.rxState k) 1) := if_pos ⟨hstate, hlane⟩

theorem csiLaneWatchdog_held {lane : Nat} (hk : k < 2) (hstate : c.get (K.rxState k) = 2) (hlane : lane < c.nat (K.rxLanes k))
    (hh : c.cellHeld 1 (8 + k) = true) : csiLaneWatchdog k lane c = c.raise 0 1 (8 + k) lane 0x1032 k lane := by
  have hfree : c.suspended 1 (8 + k) = false := Chip.suspended_none (by interval_cases k <;> decide)
  rw [csiLaneWatchdog_watches hstate hlane, Chip.watchdog_held hfree hh, Chip.cellExpired_held (by decide) hh]

theorem csiLaneWatchdog_resets {lane : Nat} (hk : k < 2) (hstate : c.get (K.rxState k) = 2) (hlane : lane < c.nat (K.rxLanes k))
    (hh : c.cellHeld 1 (8 + k) = false) :
    csiLaneWatchdog k lane c = (c.cellExpired 1 (8 + k) lane 0x1032 k lane).set (K.rxState k) 1 := by
  have hfree : c.suspended 1 (8 + k) = false := Chip.suspended_none (by interval_cases k <;> decide)
  rw [csiLaneWatchdog_watches hstate hlane, Chip.watchdog_free hfree hh]

theorem Chip.bump_fresh_agrees (j m : Nat) (v : Int) : ((c.fresh.bump j).set m v).agrees ((c.bump j).set m v) := ⟨rfl, fun _ _ => rfl⟩

end

/-- Settles O42: packets by their route, which a packet does not move, and the receivers, sources and watchdogs by their states. -/
theorem csiReception : Obligations.CsiReception := by
  unfold Obligations.CsiReception
  refine ⟨fun s m k hs => ⟨?rxStart, ?rxStop⟩, fun s m i hs => ⟨?srcStart, ?srcStop⟩, fun s k vc i hworks hroute => ⟨?frameStart, ?frameEnd, ?long⟩,
    fun s i hpath => ⟨?lost, ?substitute⟩, fun s k => ⟨fun hworks => ⟨?sot, ?deskew⟩, fun lane hstate hlane => ⟨?resets, ?held⟩⟩⟩
  case rxStart =>
    exact fun hpath hstate => effect_of_command rfl hs (congrArg Except.ok (rxRunStart_starts (c := s.chip.fresh) k.isLt hpath hstate))
      ⟨rfl, fun _ _ => rfl⟩
  case rxStop =>
    exact fun hsources => effect_of_command rfl hs (rxStop_stops (c := s.chip.fresh) fun i hi => hsources ⟨i, hi⟩) ⟨rfl, fun _ _ => rfl⟩
  case srcStart =>
    exact fun hpath hstate hok hadmit => effect_of_command2 rfl hs (srcRunOne_starts (c := s.chip.fresh) hpath hstate hok hadmit)
  case srcStop =>
    exact fun hstate => effect_of_command rfl hs (congrArg Except.ok (srcStop_rests (c := s.chip.fresh) i.isLt hstate)) (Chip.agrees_refl _)
  case frameStart =>
    exact fun number hgap => effect_eq rfl (csiFrameStart_opens (c := s.chip.fresh) k.isLt vc.isLt hworks hroute hgap)
  case frameEnd => exact effect_eq rfl (csiFrameEnd_closes (c := s.chip.fresh) k.isLt hworks hroute)
  case long =>
    intro l hhdr hdt htype
    have hlong := csiLong_routed (c := s.chip.fresh) k.isLt hworks hroute hhdr hdt htype
    refine ⟨fun hopen => effect_eq rfl (hlong.trans (if_pos hopen)), fun hclosed hecc => effect_eq rfl (hlong.trans ?_)⟩
    have hclosed' : ¬ (s.chip.fresh.source (4 + i)).isOpen = true := Bool.eq_false_iff.1 hclosed
    have hecc' : ¬ (s.chip.fresh.source (4 + i)).ecc = true := Bool.eq_false_iff.1 hecc
    rw [if_neg hclosed', if_neg hecc']
  case lost => exact fun hstate => effect_eq rfl (csiSourceTimeout_loses (c := s.chip.fresh) i.isLt hpath hstate)
  case substitute =>
    intro hstate
    have hlost : s.chip.fresh.get (K.srcState i.val) = 3 ∧ s.chip.fresh.pathRuns = true := ⟨hstate, hpath⟩
    exact effect_eq (f := csiSubstituteFrame i.val) rfl (if_pos hlost)
  case sot =>
    have hworks' : s.chip.fresh.rxWorks k.val = true := hworks
    exact effect_of_eq (f := csiSotError k.val) rfl (if_pos hworks') (Chip.bump_fresh_agrees _ _ _)
  case deskew =>
    have hworks' : s.chip.fresh.rxWorks k.val = true := hworks
    exact effect_of_eq (f := csiDeskew k.val) rfl (if_pos hworks') (Chip.bump_fresh_agrees _ _ _)
  case resets => exact fun hh => effect_eq rfl (csiLaneWatchdog_resets (c := s.chip.fresh) k.isLt hstate hlane hh)
  case held => exact fun hh => effect_eq rfl (csiLaneWatchdog_held (c := s.chip.fresh) k.isLt hstate hlane hh)

end Sys2Proof.Machine
end

section
/-! Mailbox requests and firmware updates (R409, R411, R413, R455 to R461). -/

namespace Sys2Proof.Machine

/-- A part whose oldest waiting request of a channel has its reply. -/
def Chip.replied (c : Chip) (ch type : Nat) (reply : List Nat) : Chip :=
  c.modMbx ch (fun (x : Mbx) => { x with store := replyOldest type reply x.store })

section
variable {c d : Chip} {ch type : Nat} {r : MbxRequest} {reply : List Nat} {f : List Nat → Chip → List Nat × Chip}

theorem mbxServe_replies (hrun : c.boot.hkpRestart = false) (hoff : c.mbxOldest ch = some r) (htype : hdrType (r.words.headD 0) = type)
    (hf : f r.words c = (reply, d)) : mbxServe ch type f c = d.replied ch type reply := by
  rw [mbxServe, hrun, if_neg Bool.false_ne_true, hoff]
  dsimp only
  rw [if_pos htype, hf]
  rfl

theorem Chip.replied_fresh (c : Chip) : (c.fresh.replied ch type reply).agrees (c.replied ch type reply) := ⟨rfl, fun _ _ => rfl⟩

theorem serveSlot_image {data : List Byte} (hvana : c.vanaLow = false) :
    serveSlot (.image ch data) c = mbxServe ch 0x0100 (fwImageWrite data) c := if_neg (Bool.eq_false_iff.1 hvana)

theorem serveSlot_commit {sigOk : Bool} (hvana : c.vanaLow = false) :
    serveSlot (.commit ch sigOk) c = mbxServe ch 0x0101 (fwCommit sigOk) c := if_neg (Bool.eq_false_iff.1 hvana)

variable {w : List Nat}

theorem mbxObjectRead_value {v : Nat} (h : c.slotRead (mbxMaster ch) (requestKey (at' w 1)) = .ok (v, d)) :
    mbxObjectRead ch w c = (0 :: slotWords v, d) := by
  rw [mbxObjectRead]
  simp only [h]

theorem mbxObjectWrite_written
    (h : c.slotWrite (mbxMaster ch) (requestKey (at' w 1)) (BitVec.ofNat 64 (at' w 2 + at' w 3 * 2 ^ 32)) = (d, none)) :
    mbxObjectWrite ch w c = ([0], d) := by
  rw [mbxObjectWrite]
  simp only [h]

theorem mbxObjectReadMulti_values {l : List Nat} (hone : 1 ≤ at' w 1 % 256) (hthree : at' w 1 % 256 ≤ 3)
    (hlast : requestKey (at' w 1) % 256 + at' w 1 % 256 ≤ 256)
    (h : c.slotRun (mbxMaster ch) (requestKey (at' w 1)) (at' w 1 % 256) = .ok (l, d)) :
    mbxObjectReadMulti ch w c = (0 :: l, d) := by
  rw [mbxObjectReadMulti]
  simp only [if_neg (show ¬ (at' w 1 % 256 = 0 ∨ 3 < at' w 1 % 256) by omega),
    if_neg (show ¬ 255 < requestKey (at' w 1) % 256 + at' w 1 % 256 - 1 by omega), h]

theorem fwImageWrite_writes {data : List Byte} (habort : c.imageAbort? (at' w 1) (at' w 4) = none) (hsend : c.canSend1 = true) :
    fwImageWrite data w c = ([0],
      ({ c.firmwareRead (at' w 2 + at' w 3 * 2 ^ 32) (at' w 4) 1 with
        nvm := { (c.firmwareRead (at' w 2 + at' w 3 * 2 ^ 32) (at' w 4) 1).nvm with
          slots := modAt (c.firmwareRead (at' w 2 + at' w 3 * 2 ^ 32) (at' w 4) 1).nvm.slots (1 - c.boot.slot)
            (fun (x : Slot') => x.write (at' w 1) (padTo (at' w 4) data)) } } : Chip).slotVerified (1 - c.boot.slot) false) := by
  rw [fwImageWrite]
  dsimp only
  rw [habort, hsend]
  rfl

theorem fwImageWrite_unread {data : List Byte} (habort : c.imageAbort? (at' w 1) (at' w 4) = none) (hsend : c.canSend1 = false) :
    fwImageWrite data w c = ([Abort.hardware], c.firmwareRead (at' w 2 + at' w 3 * 2 ^ 32) (at' w 4) 5) := by
  rw [fwImageWrite]
  dsimp only
  rw [habort, hsend]
  rfl

theorem fwCommit_commits {b : Bool} (hgood : (b && (at' c.nvm.slots (1 - c.boot.slot)).sound (1 - c.boot.slot)) = true) :
    fwCommit b w c = ([0, (at' c.nvm.slots (1 - c.boot.slot)).release],
      (({ c with nvm := { c.nvm with slots := modAt c.nvm.slots (1 - c.boot.slot) (fun (x : Slot') => { x with magic := true }) } } : Chip).slotVerified
        (1 - c.boot.slot) true).logOnly 0 0xFF 0xFF 0x000D (1 - c.boot.slot) (at' c.nvm.slots (1 - c.boot.slot)).release) := by
  have hboth : b = true ∧ (at' c.nvm.slots c.spareSlot).sound c.spareSlot = true := Bool.and_eq_true_iff.1 hgood
  rw [fwCommit]
  dsimp only
  rw [if_pos hboth]
  rfl

theorem fwCommit_refused {b : Bool} (hbad : (b && (at' c.nvm.slots (1 - c.boot.slot)).sound (1 - c.boot.slot)) = false) :
    fwCommit b w c = ([Abort.notStored, (at' c.nvm.slots (1 - c.boot.slot)).release], c.slotVerified (1 - c.boot.slot) false) := by
  have hnot : ¬ (b = true ∧ (at' c.nvm.slots c.spareSlot).sound c.spareSlot = true) := fun h =>
    Bool.eq_false_iff.1 hbad (Bool.and_eq_true_iff.2 h)
  rw [fwCommit]
  dsimp only
  rw [if_neg hnot]
  rfl

end

/-- Settles O46: the answer of each type's operation, put in the oldest request of the channel. -/
theorem mailboxRequests : Obligations.MailboxRequests := by
  unfold Obligations.MailboxRequests
  intro s ch r hoff hrun w type put
  have hserve {n : Nat} {f : List Nat → Chip → List Nat × Chip} {reply : List Nat} {d : Chip} (htype : type = n)
      (hf : f r.words s.chip.fresh = (reply, d)) : mbxServe ch.val n f s.chip.fresh = d.replied ch.val type reply := by
    rw [mbxServe_replies (c := s.chip.fresh) hrun hoff htype hf, htype]
  refine ⟨?read, ?write, ?multi, ?echo, fun htype data hvana habort => ⟨?image, ?unread⟩, fun htype hvana => ?commit, ?status⟩
  case read => exact fun htype v c hread => effect_eq rfl (hserve htype (mbxObjectRead_value hread))
  case write => exact fun htype c hwrite => effect_eq rfl (hserve htype (mbxObjectWrite_written hwrite))
  case multi =>
    exact fun htype l c hone hthree hlast hrun => effect_eq rfl (hserve htype (mbxObjectReadMulti_values hone hthree hlast hrun))
  case echo => exact fun htype => effect_of_eq (f := mbxServe ch.val 0x0010 mbxEcho) rfl (hserve htype rfl) (Chip.replied_fresh _)
  case image =>
    exact fun hsend => effect_eq rfl ((serveSlot_image (c := s.chip.fresh) hvana).trans
      (hserve htype (fwImageWrite_writes (c := s.chip.fresh) habort hsend)))
  case unread =>
    exact fun hsend => effect_eq rfl ((serveSlot_image (c := s.chip.fresh) hvana).trans
      (hserve htype (fwImageWrite_unread (c := s.chip.fresh) habort hsend)))
  case commit =>
    intro release slots c b good
    refine ⟨fun hgood => ?_, fun hbad => ?_⟩
    · exact effect_eq rfl ((serveSlot_commit (c := s.chip.fresh) hvana).trans (hserve htype (fwCommit_commits (c := s.chip.fresh) hgood)))
    · exact effect_of_eq rfl ((serveSlot_commit (c := s.chip.fresh) hvana).trans (hserve htype (fwCommit_refused (c := s.chip.fresh) hbad)))
        (Chip.replied_fresh (s.chip.slotVerified (1 - s.chip.boot.slot) false))
  case status => exact fun htype => effect_of_eq (f := mbxServe ch.val 0x0102 fwSlotStatus) rfl (hserve htype rfl) (Chip.replied_fresh _)

end Sys2Proof.Machine
end

section
/-! A USDO transfer that ends the session before it (R380). -/

namespace Sys2Proof.Machine

theorem Chip.spm_of_agrees {a b : Chip} (h : a.agrees b) : a.spm = b.spm := by
  have hbody := congrArg Chip.spm h.1
  exact hbody

/-- A running session, and a save that waits for set 0x17C0, which no part has: its SET_GEOMETRY is CAN_TEC. -/
def straySave : State :=
  (fullState [(K.setState 31, 4), (K.canTec, 0x10001)]).but (fun c => { c with
    can := { c.can with usdo := some ⟨true, K.thrHyst, 2, []⟩ }, onion := { c.onion with saves := [0x17C0] } })

/-- A download of set 31 to ONION_SAVE. -/
def straySaveRequest : UsdoRequest := ⟨0x601, true, false, 0x3500, 7, 1, [31]⟩

/-- The part of the statement when that download comes: the session is over and its abort noted, and no message has gone out. -/
def straySaveEnded : Chip := ({ straySave.chip.fresh with can := { straySave.chip.can with usdo := none } } : Chip).noteAbort .can K.thrHyst 0x08000021

set_option maxRecDepth 40000 in
theorem straySave_erases : (usdoInitiate straySaveRequest straySave.chip.fresh).spm.seq.map (·.off) = some 67536 := by decide

set_option maxRecDepth 40000 in
theorem straySaveEnded_erases : (straySaveEnded.downloadNow K.onionSave [31]).spm.seq.map (·.off) = some 133072 := by decide

set_option maxRecDepth 40000 in
theorem straySave_serves : straySave.chip.usdoServes = true ∧ straySaveRequest.ident.toNat = 0x600 + straySave.chip.nat K.canNodeId ∧
    straySaveEnded.downloadAbort? K.onionSave 1 = none := by decide

/-- Refutes O47: the message that ends the session before moves CAN_TEC, and so the place of a save whose set's geometry that object is. -/
theorem not_usdoAndPdos : ¬ Obligations.UsdoAndPdos := by
  unfold Obligations.UsdoAndPdos
  rintro ⟨initiate, -⟩
  obtain ⟨hserves, hident, habort⟩ := straySave_serves
  obtain ⟨download, -⟩ := initiate straySave straySaveRequest hserves hident rfl
  obtain ⟨now', -⟩ := download rfl rfl habort
  have hagrees := agrees_of_effect (exec_usdoInitiate straySave straySaveRequest []) (now' rfl)
  have hspm := Chip.spm_of_agrees hagrees
  rw [settle_spm] at hspm
  have hoff := congrArg (fun x : Spm => x.seq.map (·.off)) hspm
  exact absurd (straySave_erases.symm.trans (hoff.trans straySaveEnded_erases)) (by decide)

end Sys2Proof.Machine
end

section
/-! The serial port as slave (R428 to R435). -/

namespace Sys2Proof.Machine

section
variable {c d : Chip} {r : SpRequest}

/-! ### Frames -/

/-- The part in a frame of its master. -/
def Chip.framed (c : Chip) : Chip :=
  ({ c with pins := { c.pins with spCs0Low := true }, sps := { c.sps with bad := false, alive := false, dropped := false } } : Chip).set K.spsState 2

theorem spsFrameStart_answers (hreach : c.reaches .sp = true) : spsFrameStart c = c.framed.emit (.spFrame c.sps.frame) := by
  have hreach' : ({ c with pins := { c.pins with spCs0Low := true } } : Chip).reaches .sp = true := hreach
  rw [spsFrameStart]
  dsimp only
  rw [if_pos hreach']
  rfl

/-- The part with the frame of its master at an end. -/
def Chip.unframed (c : Chip) : Chip := ({ c with pins := { c.pins with spCs0Low := false } } : Chip).set K.spsState 1

theorem Chip.slave_stays (hrole : c.sps.toMaster = false) :
    ¬ (({ c with pins := { c.pins with spCs0Low := false } } : Chip).on K.spRole = true ∧ c.sps.toMaster = true) := by
  rw [hrole]
  simp

theorem spsFrameEnd_bad {bytes : List Byte} (hrole : c.sps.toMaster = false) (hstate : c.nat K.spsState = 2) (hnone : requestOf bytes = none) :
    spsFrameEnd bytes c = (c.unframed.modSps (fun (p : Sps) => { p with bad := true })).bump K.spsCrcErrors := by
  have hstate' : ({ c with pins := { c.pins with spCs0Low := false } } : Chip).nat K.spsState = 2 := hstate
  rw [spsFrameEnd]
  dsimp only
  rw [if_neg (Chip.slave_stays hrole), if_pos hstate', hnone]
  rfl

theorem spsFrameEnd_good {bytes : List Byte} (hrole : c.sps.toMaster = false) (hstate : c.nat K.spsState = 2) (hsome : requestOf bytes = some r) :
    spsFrameEnd bytes c = c.unframed.spsFramed r := by
  have hstate' : ({ c with pins := { c.pins with spCs0Low := false } } : Chip).nat K.spsState = 2 := hstate
  rw [spsFrameEnd]
  dsimp only
  rw [if_neg (Chip.slave_stays hrole), if_pos hstate', hsome]
  rfl

/-! ### Requests -/

theorem spsCarryOut_carries {op : Nat} {f : SpRequest → Chip → Chip} (hrequest : c.sps.request = some r) (hop : r.opcode = op)
    (hreach : c.reaches .sp = true) : spsCarryOut op f c = f r c := by
  rw [spsCarryOut, hrequest]
  exact if_pos ⟨hop, hreach⟩

/-- The part with a request answered. -/
def Chip.spsDone (c : Chip) (r : SpRequest) (rest : List Byte) : Chip :=
  { c with sps := { c.sps with request := none, answer := some (r.alive, leBytes 4 0 ++ rest) } }

theorem Chip.spsAnswer_done {rest : List Byte} (hready : c.boot.phase = .ready) : c.spsAnswer r 0 rest = c.spsDone r rest := by
  rw [Chip.spsAnswer, if_neg (not_not.2 hready)]
  rfl

theorem Chip.ready_of_reaches {m : Master} (h : c.reaches m = true) : c.boot.phase = .ready := by
  unfold Chip.reaches at h
  obtain ⟨hpart, -⟩ := Bool.and_eq_true_iff.1 h
  obtain ⟨hready, -⟩ := Bool.and_eq_true_iff.1 hpart
  exact of_decide_eq_true hready

theorem Chip.lockRead_boot (m : Master) (n : Nat) : (c.lockRead m n).1.boot = c.boot := by
  unfold Chip.lockRead
  split
  · rfl
  · rfl

/-- A read leaves the phase of the start. -/
theorem Chip.slotRead_boot {m : Master} {key v : Nat} (h : c.slotRead m key = .ok (v, d)) : d.boot = c.boot := by
  unfold Chip.slotRead at h
  split at h
  · split at h
    · split at h
      · exact nomatch h
      · split at h
        · exact nomatch h
        · cases h
          rfl
    · exact nomatch h
  · split at h
    · exact nomatch h
    · split at h
      · exact nomatch h
      · split at h
        · cases h
          rfl
        · split at h
          · cases h
            rfl
          · split at h
            · cases h
              exact Chip.lockRead_boot _ _
            · cases h
              rfl

theorem spsReadSlot_answers {v : Nat} (hready : c.boot.phase = .ready) (h : c.slotRead .sp r.key = .ok (v, d)) :
    spsReadSlot r c = d.spsDone r (leBytes 8 v) := by
  rw [spsReadSlot, h]
  exact Chip.spsAnswer_done ((congrArg (·.phase) (Chip.slotRead_boot h)).trans hready)

theorem spsWriteSlot_answers (h : c.slotWrite .sp r.key (BitVec.ofNat 64 (fieldAt r.data 0 8)) = (d, none)) (hready : d.boot.phase = .ready) :
    spsWriteSlot r c = d.spsDone r [] := by
  rw [spsWriteSlot, h]
  exact Chip.spsAnswer_done hready

theorem spsReadSlots_answers {h : Nat} {l : List Nat} (hready : c.boot.phase = .ready) (hsub : highestSub r.idx = some h) (hone : 1 ≤ r.count)
    (hmax : r.count ≤ 16) (hin : r.sub ≤ h) (hidx : r.idx ≠ 0x2020) (hread : c.slotsFrom r.key (min r.count (h - r.sub + 1)) = .ok l) :
    spsReadSlots r c = c.spsDone r (leBytes 1 (min r.count (h - r.sub + 1)) ++ (l.map (leBytes 8)).flatten) := by
  rw [spsReadSlots, hsub]
  dsimp only
  rw [if_neg (by omega), if_neg (by omega), if_neg hidx, hread]
  exact Chip.spsAnswer_done hready

theorem Chip.logFound_nil : c.logFound [] = c := rfl

theorem spsDomainRead_answers {l : List Byte} (hready : c.boot.phase = .ready) (hone : 1 ≤ r.count) (hmax : r.count ≤ 8)
    (hread : c.domainRead .sp r.key = .ok l) :
    spsDomainRead [] r c = c.spsDone r (leBytes 1 ((l.drop (fieldAt r.data 0 4)).take (8 * r.count)).length ++
      (l.drop (fieldAt r.data 0 4)).take (8 * r.count)) := by
  rw [spsDomainRead, Chip.logFound_nil, ite_self, if_neg (by omega), hread]
  exact Chip.spsAnswer_done hready

theorem spsDomainWrite_begins (hready : c.boot.phase = .ready) (hone : 1 ≤ r.count) (hmax : r.count ≤ 8)
    (habort : c.domainAbort? .sp r.key = none) (hoff : fieldAt r.data 0 4 = 0) :
    spsDomainWrite r c = (c.modSps (fun (p : Sps) => { p with transfer := some (r.key, r.data.drop 4) })).spsDone r [] := by
  rw [spsDomainWrite, if_neg (by omega), habort]
  dsimp only
  rw [if_pos hoff]
  exact Chip.spsAnswer_done hready

theorem spsDomainEnd_answers {l : List Byte} (htransfer : c.sps.transfer = some (r.key, l)) (hlen : l.length = fieldAt r.data 0 4)
    (hwrite : (c.modSps (fun (p : Sps) => { p with transfer := none })).domainWrite .sp r.key l = (d, none)) (hready : d.boot.phase = .ready) :
    spsDomainEnd r c = d.spsDone r [] := by
  rw [spsDomainEnd, htransfer]
  dsimp only
  rw [if_neg (not_not.2 rfl), if_neg (not_not.2 hlen), hwrite]
  exact Chip.spsAnswer_done hready

theorem spsReplyReady_takes {a : Nat × List Byte} (h : c.sps.answer = some a) :
    spsReplyReady c = { c with sps := { c.sps with reply := some a, answer := none } } := by
  rw [spsReplyReady, h]
  rfl

/-! ### The role of the port -/

theorem spRole_slave (hrole : c.get K.spRole = 0) (hstate : c.get K.spmState = 1) : spRole 1 c = .ok (c.portBecomes 1) := by
  rw [spRole, Chip.nat, hrole]
  exact guardNot_pass (decide_eq_false (not_not.2 hstate))

theorem spRole_busy (hrole : c.get K.spRole = 0) (hstate : c.get K.spmState ≠ 1) : spRole 1 c = .error Abort.localControl := by
  rw [spRole, Chip.nat, hrole]
  exact guardNot_refuses (decide_eq_true hstate)

theorem spRole_master (hrole : c.get K.spRole = 1) : spRole 0 c = .ok { c with sps := { c.sps with toMaster := true } } := by
  rw [spRole, Chip.nat, hrole]
  rfl

end

/-- Settles O48: frames by their check, each opcode by its operation, and the role of the port by its state. -/
theorem slaveFrames : Obligations.SlaveFrames := by
  unfold Obligations.SlaveFrames
  refine ⟨?start, ?bad, ?good, ?nop, fun s r hrequest hreach => ?request, ?reply, fun s m hs => ⟨?slave, ?busy, ?master⟩⟩
  case start =>
    intro s hreach
    exact answer_of_eq rfl (spsFrameStart_answers (c := s.chip.fresh) hreach) (Chip.agrees_trans (Chip.extends_emit _ _).1 ⟨rfl, fun _ _ => rfl⟩)
      List.prefix_rfl
  case bad =>
    intro s bytes hrole hstate hnone
    exact effect_of_eq rfl (spsFrameEnd_bad (c := s.chip.fresh) hrole hstate hnone) ⟨rfl, fun _ _ => rfl⟩
  case good =>
    intro s bytes r hrole hstate hsome
    exact effect_eq rfl (spsFrameEnd_good (c := s.chip.fresh) hrole hstate hsome)
  case nop => exact fun s => effect_none (f := id) rfl rfl
  case request =>
    intro done
    have hready : s.chip.fresh.boot.phase = .ready := Chip.ready_of_reaches (c := s.chip.fresh) (m := .sp) hreach
    have hcarry {op : Nat} {f : SpRequest → Chip → Chip} (hop : r.opcode = op) : spsCarryOut op f s.chip.fresh = f r s.chip.fresh :=
      spsCarryOut_carries (c := s.chip.fresh) hrequest hop hreach
    refine ⟨fun hop v c hread => ?_, fun hop c hwrite hphase => ?_, fun hop h l hsub hone hmax hin hidx hread => ?_,
      fun hop l hone hmax hread => ?_, fun hop hone hmax habort hoff => ?_, fun hop l c htransfer hlen hwrite hphase => ?_⟩
    · exact effect_eq rfl ((hcarry hop).trans (spsReadSlot_answers hready hread))
    · exact effect_eq rfl ((hcarry hop).trans (spsWriteSlot_answers hwrite hphase))
    · exact effect_of_eq rfl ((hcarry hop).trans (spsReadSlots_answers hready hsub hone hmax hin hidx hread)) ⟨rfl, fun _ _ => rfl⟩
    · exact effect_of_eq rfl ((hcarry hop).trans (spsDomainRead_answers hready hone hmax hread)) ⟨rfl, fun _ _ => rfl⟩
    · exact effect_of_eq rfl ((hcarry hop).trans (spsDomainWrite_begins hready hone hmax habort hoff)) ⟨rfl, fun _ _ => rfl⟩
    · exact effect_eq rfl ((hcarry hop).trans (spsDomainEnd_answers (c := s.chip.fresh) htransfer hlen hwrite hphase))
  case reply =>
    intro s a hanswer
    exact effect_of_eq rfl (spsReplyReady_takes (c := s.chip.fresh) hanswer) ⟨rfl, fun _ _ => rfl⟩
  case slave =>
    exact fun hrole hstate => effect_of_command rfl hs (spRole_slave (c := s.chip.fresh) hrole hstate) (Chip.agrees_refl _)
  case busy => exact fun hrole hstate => effect_of_refused rfl hs (spRole_busy (c := s.chip.fresh) hrole hstate)
  case master =>
    exact fun hrole => effect_of_command rfl hs (spRole_master (c := s.chip.fresh) hrole) ⟨rfl, fun _ _ => rfl⟩

end Sys2Proof.Machine
end

section
/-! The external flash and the scrub of the DRAM (R436 to R442). -/

namespace Sys2Proof.Machine

section
variable {c : Chip}

theorem Chip.portMaster_of_role (hrole : c.get K.spRole = 0) : c.portMaster = true := decide_eq_true hrole

/-! ### The window -/

theorem xipRead_waits {off len : Nat} (hrole : c.get K.spRole = 0) (hbusy : c.flashBusy off = true) :
    xipRead off len c = { c with spm := { c.spm with waitReads := c.spm.waitReads ++ [(off, len)] } } := by
  rw [xipRead, Chip.portMaster_of_role hrole, hbusy]
  rfl

/-- SPM_STATE of a port that reads. -/
def Chip.portReads (c : Chip) : Chip := if c.get K.spmState = 1 then c.set K.spmState 2 else c

theorem Chip.portReads_emit (o : OutMsg) : (c.emit o).portReads = c.portReads.emit o := by
  unfold Chip.portReads
  by_cases h : c.get K.spmState = 1
  · have h' : (c.emit o).get K.spmState = 1 := h
    rw [if_pos h, if_pos h']
    rfl
  · have h' : ¬ (c.emit o).get K.spmState = 1 := h
    rw [if_neg h, if_neg h']

theorem Chip.fresh_read (c : Chip) (x : Option (Nat × Nat)) :
    ({ c.fresh with spm := { c.fresh.spm with lastRead := x } } : Chip).agrees { c with spm := { c.spm with lastRead := x } } :=
  ⟨rfl, fun _ _ => rfl⟩

theorem Chip.portReads_out : c.portReads.out = c.out := by
  unfold Chip.portReads
  split <;> rfl

theorem Chip.agrees_portReads {d : Chip} (h : c.agrees d) (hstate : c.get K.spmState = d.get K.spmState) : c.portReads.agrees d.portReads := by
  unfold Chip.portReads
  rw [hstate]
  split
  · exact Chip.agrees_set h _ _
  · exact h

theorem xipRead_reads {off len : Nat} (hrole : c.get K.spRole = 0) (hfree : c.flashBusy off = false) (hfirst : c.spm.lastRead = none) :
    xipRead off len c = (({ c with spm := { c.spm with lastRead := some (off + len, c.mono) } } : Chip).portReads).emit
      (.flashRead (c.flashPlace off).1 (c.flashPlace off).2 false (c.flashCommand (c.nat K.spmReadCmd) ++ flashAddress (c.flashPlace off).2)
        (c.nat K.spmDummyCycles)) := by
  rw [xipRead, Chip.portMaster_of_role hrole, hfree, ← Chip.portReads_emit]
  simp only [Chip.flashReadNow, hfirst]
  rfl

/-- A write of one byte joins the page buffer. -/
theorem xipProgramWrite_byte {off : Nat} {b : Byte} (hrole : c.get K.spRole = 0) : xipProgramWrite off [b] c = c.programByte off b := by
  rw [xipProgramWrite, if_pos (Chip.portMaster_of_role hrole)]
  rfl

theorem xipProgramWrite_opens {off : Nat} {b : Byte} (hrole : c.get K.spRole = 0) (hpage : c.spm.page = none) :
    xipProgramWrite off [b] c = { c with spm := { c.spm with page := some (off, [b]) } } := by
  rw [xipProgramWrite_byte hrole, Chip.programByte, hpage]

theorem xipProgramWrite_gathers {off base : Nat} {data : List Byte} {b : Byte} (hrole : c.get K.spRole = 0)
    (hpage : c.spm.page = some (base, data)) (hnext : off = base + data.length) (hsame : off / 256 = base / 256) :
    xipProgramWrite off [b] c = { c with spm := { c.spm with page := some (base, data ++ [b]) } } := by
  rw [xipProgramWrite_byte hrole, Chip.programByte, hpage]
  exact if_pos ⟨hnext, hsame⟩

theorem Chip.flushPage_programs {off : Nat} {data : List Byte} (hpage : c.spm.page = some (off, data)) (hseq : c.spm.seq = none) :
    c.flushPage = ({ c with spm := { c.spm with page := none } } : Chip).startProgram off data .xip := by
  rw [Chip.flushPage, hpage]
  exact if_neg (by rw [hseq]; exact Bool.false_ne_true)

theorem spmErase_erases {off : Nat} (hrole : c.get K.spRole = 0) (hseq : c.spm.seq = none) (hcopy : c.spm.copy = none) (hoff : off < 0x10000000) :
    spmErase off c = .ok (c.startErase off .xip) := by
  have hinside : decide (xipBytes ≤ off) = false := decide_eq_false (Nat.not_le.2 hoff)
  rw [spmErase, guardNot_pass hinside,
    guardNot_pass (by rw [Chip.portMaster_of_role hrole, hseq, hcopy]; rfl)]

/-! ### Polls -/

/-- The message of a poll of the device of a sequence. -/
def Chip.pollMsg (c : Chip) (q : FlashSeq) : OutMsg := .flash (c.flashPlace q.off).1 (c.flashCommand 0x05)

theorem get_polled_mask {o : OutMsg} {st : Nat} (hmask : Nat.land st (c.nat K.spmErrorMask) = 0) :
    ¬ Nat.land st (((c.emit o).set K.spmLastStatus st).nat K.spmErrorMask) ≠ 0 := by
  rw [not_not, Chip.nat, Chip.get_set_other _ _ _ _ (by decide)]
  exact hmask

theorem polled_seq (o : OutMsg) (k k' : Nat) (v v' : Int) (x : Option FlashSeq) :
    ({ (c.emit o).set k v with spm := { ((c.emit o).set k v).spm with seq := x } } : Chip).set k' v' =
      (({ c with spm := { c.spm with seq := x } } : Chip).setAll [(k, v), (k', v')]).emit o := rfl

theorem spmStatusPoll_ends {q : FlashSeq} {st : Nat} (hseq : c.spm.seq = some q) (hmask : Nat.land st (c.nat K.spmErrorMask) = 0)
    (hdone : st % 2 = 0) (huser : q.user = .xip ∨ q.user = .copy) (hpages : c.spm.waitPages = []) (hcopy : c.spm.copy = none)
    (hreads : c.spm.waitReads = []) (hsave : c.onion.save = none) (hsaves : c.onion.saves = []) :
    spmStatusPoll st c = (({ c with spm := { c.spm with seq := none } } : Chip).setAll [(K.spmLastStatus, st), (K.spmState, 1)]).emit
      (c.pollMsg q) := by
  have hidle : ((({ c with spm := { c.spm with seq := none } } : Chip).setAll [(K.spmLastStatus, st), (K.spmState, 1)]).emit
      (c.pollMsg q)).flashIdle := ⟨hpages, hcopy, hsave, hsaves, rfl, hreads⟩
  rw [spmStatusPoll, hseq]
  dsimp only
  rw [if_neg (get_polled_mask hmask), if_pos hdone]
  rcases huser with huser | huser
  · rw [huser]
    exact (congrArg Chip.flashNext (polled_seq _ _ _ _ _ _)).trans (Chip.flashNext_idle hidle)
  · rw [huser]
    exact (congrArg Chip.flashNext (polled_seq _ _ _ _ _ _)).trans (Chip.flashNext_idle hidle)

theorem spmStatusPoll_programs {q : FlashSeq} {st n : Nat} (hseq : c.spm.seq = some q) (hmask : Nat.land st (c.nat K.spmErrorMask) = 0)
    (hdone : st % 2 = 0) (huser : q.user = .save n) :
    spmStatusPoll st c = (({ c with spm := { c.spm with seq := some { q with erase := false } } } : Chip).setAll
      [(K.spmLastStatus, st), (K.spmState, 3)]).emit (c.pollMsg q) := by
  rw [spmStatusPoll, hseq]
  dsimp only
  rw [if_neg (get_polled_mask hmask), if_pos hdone, huser]
  exact polled_seq _ _ _ _ _ _

theorem spmSequenceTimeout_fails {q : FlashSeq} (hseq : c.spm.seq = some q) : spmSequenceTimeout c = c.flashError q := by
  rw [spmSequenceTimeout, hseq]

/-! ### Copies and the scrub -/

theorem spmCopyStart_starts (hrole : c.get K.spRole = 0) (hcopy : c.spm.copy = none) (hsave : c.onion.save = none)
    (halign : c.nat K.spmCopyDst % 4096 = 0) (hlen : c.nat K.spmCopyLength ≠ 0)
    (hflash : c.nat K.spmCopyDst + c.nat K.spmCopyLength ≤ 0x10000000)
    (hdram : c.nat K.spmCopySrc + c.nat K.spmCopyLength ≤ c.nat K.dramCapacity) :
    spmCopyStart c = .ok (
      let d := c.set K.spmCopyStatus (nextSeq (c.nat K.spmCopyStatus / 65536) 0xFFFF * 65536 + 1 : Nat)
      let d : Chip := { d with spm := { d.spm with copy := some (c.nat K.spmCopyDst, c.nat K.spmCopySrc, c.nat K.spmCopyLength, false) } }
      if c.spm.seq.isSome then d else d.copyNext) := by
  have hfits : ¬ (c.nat K.spmCopyDst % 4096 ≠ 0 ∨ c.nat K.spmCopyLength = 0 ∨ xipBytes < c.nat K.spmCopyDst + c.nat K.spmCopyLength ∨
      c.nat K.dramCapacity < c.nat K.spmCopySrc + c.nat K.spmCopyLength) := by
    rw [show xipBytes = 0x10000000 from rfl]
    omega
  rw [spmCopyStart, guardNot_pass (decide_eq_false hfits), guardNot_pass (by rw [hcopy, hsave, Chip.portMaster_of_role hrole]; rfl)]
  rfl

theorem spmCopyComplete_done {off src : Nat} {e : Bool} (hcopy : c.spm.copy = some (off, src, 0, e)) (hseq : c.spm.seq = none) :
    spmCopyComplete 2 c = ({ c with spm := { c.spm with copy := none } } : Chip).copyStatus 2 := by
  rw [spmCopyComplete, hcopy]
  dsimp only
  rw [if_pos ⟨rfl, rfl, hseq⟩]

theorem spmCopyComplete_lost {x : Nat × Nat × Nat × Bool} (hcopy : c.spm.copy = some x) :
    spmCopyComplete 4 c = (({ c with spm := { c.spm with copy := none } } : Chip).dramMeets 5 [x.2.1]).copyStatus 4 := by
  obtain ⟨off, src, left, e⟩ := x
  rw [spmCopyComplete, hcopy]
  rfl

end

/-- Work that sends one message and leaves a part that agrees with the one stated. -/
theorem answer_of_emits {i : Instr} {s : State} {f : Chip → Chip} {o : OutMsg} {c d : Chip} (h : exec i s = run s f)
    (hf : f s.chip.fresh = d.emit o) (hd : d.agrees c) (hout : d.out = []) : Answer i s [o] c :=
  answer_of_eq h hf (Chip.agrees_trans (Chip.extends_emit d o).1 hd)
    (by rw [show (d.emit o).out = d.out ++ [o] from rfl, hout]; exact List.prefix_rfl)

/-- Settles O49: the window by the role and the page, a poll by its status and its user, and the copies by their results. -/
theorem flashAndScrub : Obligations.FlashAndScrub := by
  unfold Obligations.FlashAndScrub
  refine ⟨fun s off len hrole => ⟨?waits, ?reads⟩, fun s off b hrole => ⟨?opens, ?gathers⟩, fun s m off data hpage hseq => ⟨?timeout, ?flush⟩, ?erase,
    fun s q hseq => ⟨?ends, ?programs, ?lost⟩, ?copy, ?copied, ?unread, ?scrub⟩
  case waits => exact fun hbusy => effect_of_eq rfl (xipRead_waits (c := s.chip.fresh) hrole hbusy) ⟨rfl, fun _ _ => rfl⟩
  case reads =>
    intro hfree hfirst
    have hagrees := Chip.agrees_portReads (Chip.fresh_read s.chip (some (off.toNat + len.toNat, s.chip.mono))) rfl
    exact answer_of_emits rfl (xipRead_reads (c := s.chip.fresh) hrole hfree hfirst) hagrees Chip.portReads_out
  case opens => exact fun hpage => effect_of_eq rfl (xipProgramWrite_opens (c := s.chip.fresh) hrole hpage) ⟨rfl, fun _ _ => rfl⟩
  case gathers =>
    exact fun base data hpage hnext hsame =>
      effect_of_eq rfl (xipProgramWrite_gathers (c := s.chip.fresh) hrole hpage hnext hsame) ⟨rfl, fun _ _ => rfl⟩
  case timeout => exact effect_eq rfl (Chip.flushPage_programs (c := s.chip.fresh) hpage hseq)
  case flush =>
    intro hs hrole
    have hflush : spmFlush s.chip.fresh = .ok s.chip.fresh.flushPage :=
      guardNot_pass (by rw [Chip.portMaster_of_role (c := s.chip.fresh) hrole]; rfl)
    exact effect_of_command rfl hs (hflush.trans (congrArg Except.ok (Chip.flushPage_programs (c := s.chip.fresh) hpage hseq))) (Chip.agrees_refl _)
  case erase =>
    intro s m off hs hrole hseq hcopy hoff
    exact effect_of_command rfl hs (spmErase_erases (c := s.chip.fresh) hrole hseq hcopy hoff) (Chip.agrees_refl _)
  case ends =>
    intro st hmask hdone hpages hcopy hreads hsave hsaves huser
    exact answer_of_emits (exec_spmStatusPoll s st [])
      (spmStatusPoll_ends (c := s.chip.fresh) hseq hmask hdone huser hpages hcopy hreads hsave hsaves)
      (Chip.agrees_setAll ⟨rfl, fun _ _ => rfl⟩ _) rfl
  case programs =>
    intro st n hmask hdone huser
    exact answer_of_emits (exec_spmStatusPoll s st []) (spmStatusPoll_programs (c := s.chip.fresh) hseq hmask hdone huser)
      (Chip.agrees_setAll ⟨rfl, fun _ _ => rfl⟩ _) rfl
  case lost => exact effect_eq rfl (spmSequenceTimeout_fails (c := s.chip.fresh) hseq)
  case copy =>
    intro s m hs hrole hcopy hsave halign hlen hflash hdram
    exact effect_of_command rfl hs (spmCopyStart_starts (c := s.chip.fresh) hrole hcopy hsave halign hlen hflash hdram) (Chip.agrees_refl _)
  case copied =>
    intro s off src e hcopy hseq
    exact effect_of_eq (f := spmCopyComplete 2) rfl (spmCopyComplete_done (c := s.chip.fresh) hcopy hseq) ⟨rfl, fun _ _ => rfl⟩
  case unread =>
    intro s x hcopy
    exact effect_eq (f := spmCopyComplete 4) rfl (spmCopyComplete_lost (c := s.chip.fresh) hcopy)
  case scrub =>
    intro s ch found lost link hruns hstate
    have hworks : s.chip.fresh.pixelRuns = true ∧ s.chip.fresh.get (K.dramChState ch.val) = 2 := ⟨hruns, hstate⟩
    exact effect_eq (f := dramScrubPass ch.val found lost link.toNat) rfl (if_pos hworks)

end Sys2Proof.Machine
end

section
/-! The DMA channels (R415 to R423). -/

namespace Sys2Proof.Machine

section
variable {c : Chip} {ch : Nat}

/-! ### Commands -/

theorem dmaStart_starts {m : Master} (hmay : c.dmaMay m ch = true) (hheld : c.dmaHeld ch = false) (hidle : c.get (K.dmaState ch) = 0)
    (hsound : c.dmaSound ch = true) (hon : c.pixelOn = true) :
    dmaStart ch m c = .ok ((c.modDma ch (fun _ => {})).set (K.dmaState ch) (if c.get (K.dmaReqSource ch) = 0 then 2 else 1)) := by
  have hrest : decide (1 ≤ c.get (K.dmaState ch) ∧ c.get (K.dmaState ch) ≤ 3) = false := decide_eq_false (by omega)
  rw [dmaStart, guardNot_pass (by rw [hmay]; rfl), guardNot_pass hrest, guardNot_pass hheld, guardNot_pass (by rw [hsound]; rfl), if_pos hon]

theorem dmaStart_refuses {m : Master} (hmay : c.dmaMay m ch = true) (hlow : 1 ≤ c.get (K.dmaState ch)) (hhigh : c.get (K.dmaState ch) ≤ 3) :
    dmaStart ch m c = .error Abort.deviceState := by
  rw [dmaStart, guardNot_pass (by rw [hmay]; rfl)]
  exact guardNot_refuses (decide_eq_true ⟨hlow, hhigh⟩)

theorem dmaAbort_ceases {m : Master} (hmay : c.dmaMay m ch = true) (hheld : c.dmaHeld ch = false) : dmaAbort ch m c = .ok (c.dmaCease ch 2) := by
  rw [dmaAbort, guardNot_pass (by rw [hmay]; rfl), guardNot_pass hheld]

theorem Chip.dmaCease_ends (hready : c.get (K.dmaState ch) = 2) : c.dmaCease ch 2 = c.dmaEnd ch 2 0 0 := by
  rw [Chip.dmaCease, hready]
  rfl

theorem Chip.dmaCease_idle (hidle : c.get (K.dmaState ch) = 0) : c.dmaCease ch 2 = c := by
  rw [Chip.dmaCease, hidle]
  rfl

/-! ### Requests -/

theorem Chip.lt_of_dmaPaced {req : Nat} (hpaced : c.dmaPaced req = [ch]) : ch < 16 :=
  List.mem_range.1 (List.mem_filter.1 (by rw [← Chip.dmaPaced, hpaced]; exact List.mem_singleton_self ch)).1

theorem dmaRequestAssert_readies {req : Nat} (hpaced : c.dmaPaced req = [ch]) (hruns : c.pixelRuns = true) (harmed : c.get (K.dmaState ch) = 1) :
    dmaRequestAssert req c = ({ c with dma := { c.dma with
      reqs := modAt c.dma.reqs req (fun _ => true)
      chans := modAt c.dma.chans ch (fun (x : DmaCh) => { x with asserted := some (c.dmaFrame req) }) } } : Chip).set (K.dmaState ch) 2 := by
  have hpaced' : ({ c with dma := { c.dma with reqs := modAt c.dma.reqs req (fun _ => true) } } : Chip).dmaPaced req = [ch] := hpaced
  rw [dmaRequestAssert, if_neg (by rw [hruns]; exact Bool.false_ne_true)]
  dsimp only
  rw [hpaced']
  exact if_pos harmed

theorem dmaRequestWithdraw_misses {req : Nat} (hpaced : c.dmaPaced req = [ch]) (hreq : at' c.dma.reqs req = true)
    (hasserted : (c.dmaCh ch).asserted.isSome = true) (hready : c.get (K.dmaState ch) = 2) :
    dmaRequestWithdraw req c = (({ c with dma := { c.dma with
      reqs := modAt c.dma.reqs req (fun _ => false)
      chans := modAt c.dma.chans ch (fun (x : DmaCh) => { x with frame := x.asserted.getD x.frame, asserted := none }) } } : Chip).bump
        (K.dmaReqMissed ch)).set (K.dmaState ch) 1 := by
  have hpaced' : ({ c with dma := { c.dma with reqs := modAt c.dma.reqs req (fun _ => false) } } : Chip).dmaPaced req = [ch] := hpaced
  have hother : K.dmaState ch ≠ K.dmaReqMissed ch := by
    have := Chip.lt_of_dmaPaced hpaced
    simp only [K.dmaState, K.dmaReqMissed]
    omega
  rw [dmaRequestWithdraw, if_neg (by rw [hreq]; exact Bool.false_ne_true)]
  dsimp only
  rw [hpaced']
  exact (if_pos hasserted).trans (if_pos (((Chip.get_bump ..).trans (if_neg hother)).trans hready))

/-! ### Grants -/

/-- The channels from the one after the last granted, in turn. -/
theorem Chip.dmaNext_ready (hnext : c.dmaNext = some ch) : ch < 16 ∧ c.get (K.dmaState ch) = 2 := by
  have hmem := List.mem_of_find?_eq_some hnext
  obtain ⟨horder, hready⟩ := List.mem_filter.1 hmem
  obtain ⟨n, -, hn⟩ := List.mem_map.1 horder
  exact ⟨by omega, of_decide_eq_true hready⟩

theorem le_foldl_max (f : Nat → Int) (l : List Nat) (m : Int) : m ≤ l.foldl (fun m k => max m (f k)) m := by
  induction l generalizing m with
  | nil => exact le_refl m
  | cons k l ih => exact le_trans (le_max_left m (f k)) (ih _)

theorem le_foldl_max_of_mem (f : Nat → Int) {l : List Nat} {k : Nat} (hk : k ∈ l) (m : Int) : f k ≤ l.foldl (fun m k => max m (f k)) m := by
  induction l generalizing m with
  | nil => exact absurd hk List.not_mem_nil
  | cons x l ih =>
    rcases List.mem_cons.1 hk with rfl | hk
    · exact le_trans (le_max_right m (f k)) (le_foldl_max f l _)
    · exact ih hk _

theorem Chip.dmaNext_top (hnext : c.dmaNext = some ch) {k : Nat} (hk : k < 16) (hready : c.get (K.dmaState k) = 2) :
    c.get (K.dmaPriority k) ≤ c.get (K.dmaPriority ch) := by
  rw [Chip.dmaNext] at hnext
  have htop := List.find?_some hnext
  rw [decide_eq_true_eq] at htop
  have horder : k ∈ tab 16 (fun n => (c.dma.lastGranted + 1 + n) % 16) :=
    List.mem_map.2 ⟨(k + 16 - (c.dma.lastGranted + 1) % 16) % 16, List.mem_range.2 (by omega), by omega⟩
  rw [htop]
  exact le_foldl_max_of_mem (fun ch => c.get (K.dmaPriority ch)) (List.mem_filter.2 ⟨horder, decide_eq_true hready⟩) 0

/-- A part whose DMA engine has a channel granted. -/
def Chip.dmaGranted (c : Chip) (ch : Nat) (src : List Byte) : Chip :=
  (({ c with dma := { c.dma with
    chans := modAt c.dma.chans ch (fun (x : DmaCh) => { x with frame := x.asserted.getD x.frame, asserted := none })
    grant := some { ch := ch, src := src, withdrawn := false }, lastGranted := ch } } : Chip).setAll
      [(K.dmaState ch, 3), (K.dmaActiveChannel, ch)]).total K.dmaGrants 1

theorem Chip.get_dmaGranted {src : List Byte} {k : Nat} (hstate : k ≠ K.dmaState ch) (hactive : k ≠ K.dmaActiveChannel) (hgrants : k ≠ K.dmaGrants) :
    (c.dmaGranted ch src).get k = c.get k := by
  rw [Chip.dmaGranted, Chip.total, Chip.get_set_other _ _ _ _ hgrants]
  exact (Chip.get_set_other _ _ _ _ hactive).trans (Chip.get_set_other _ _ _ _ hstate)

theorem Chip.agrees_dmaGranted (src : List Byte) : (c.fresh.dmaGranted ch src).agrees (c.dmaGranted ch src) := ⟨rfl, fun _ _ => rfl⟩

theorem Chip.dmaGrantTo_eq {src : List Byte} (hch : ch < 16) : c.dmaGrantTo ch src =
    if c.get (K.dmaSrcSpace ch) = 2 ∧ c.get K.spmState = 1 then (c.dmaGranted ch src).set K.spmState 2 else c.dmaGranted ch src := by
  have hspace : (c.dmaGranted ch src).get (K.dmaSrcSpace ch) = c.get (K.dmaSrcSpace ch) := by
    refine Chip.get_dmaGranted ?_ ?_ ?_ <;> simp only [K.dmaSrcSpace, K.dmaState, K.dmaActiveChannel, K.dmaGrants] <;> omega
  have hport : (c.dmaGranted ch src).get K.spmState = c.get K.spmState := by
    refine Chip.get_dmaGranted ?_ ?_ ?_ <;> simp only [K.spmState, K.dmaState, K.dmaActiveChannel, K.dmaGrants] <;> omega
  have hcond : ((c.dmaGranted ch src).nat (K.dmaSrcSpace ch) = 2 ∧ (c.dmaGranted ch src).get K.spmState = 1) ↔
      (c.get (K.dmaSrcSpace ch) = 2 ∧ c.get K.spmState = 1) := by
    rw [Chip.nat, hspace, hport]
    omega
  exact if_congr hcond rfl rfl

theorem dmaGrant_grants {src : List Byte} (hworks : c.dmaWorks = true) (hfree : c.dma.grant = none) (hnext : c.dmaNext = some ch) :
    dmaGrant src c = c.dmaGrantTo ch src := by
  rw [dmaGrant, if_neg (by rw [hworks]; exact Bool.false_ne_true), hfree]
  dsimp only
  rw [hfree, hnext]
  rfl

/-- A grant changes the state of its channel, the channel and count of the engine and SPM_STATE only. -/
theorem get_dmaGrant {src : List Byte} {k : Nat} (hfree : c.dma.grant = none) (hstate : ∀ n < 16, k ≠ K.dmaState n)
    (hactive : k ≠ K.dmaActiveChannel) (hgrants : k ≠ K.dmaGrants) (hport : k ≠ K.spmState) : (dmaGrant src c).get k = c.get k := by
  rcases hworks : c.dmaWorks with _ | _
  · rw [dmaGrant, if_pos (by rw [hworks]; rfl)]
  rcases hnext : c.dmaNext with _ | ch
  · rw [dmaGrant, if_neg (by rw [hworks]; exact Bool.false_ne_true), hfree]
    dsimp only
    rw [hfree, hnext]
    rfl
  have hch : ch < 16 := (Chip.dmaNext_ready hnext).1
  rw [dmaGrant_grants hworks hfree hnext, Chip.dmaGrantTo_eq hch]
  split
  · rw [Chip.get_set_other _ _ _ _ hport, Chip.get_dmaGranted (hstate ch hch) hactive hgrants]
  · exact Chip.get_dmaGranted (hstate ch hch) hactive hgrants

theorem Chip.dramFixed_one {a : BitVec 40} (hruns : c.pixelRuns = true) :
    c.dramFixed [a] = c.dramFinds (c.dramChannel (64 * (a.toNat / 64))) 0 [64 * (a.toNat / 64)] [] :=
  if_pos hruns

theorem Chip.dramChannel_lt (c : Chip) (a : Nat) : c.dramChannel a < 2 := by
  unfold Chip.dramChannel
  split <;> omega

/-! ### Ends -/

theorem dmaComplete_stops {g : Grant} (hgrant : c.dma.grant = some g) (hworks : c.dmaWorks = true) (hlast : c.dmaLastUnit g.ch = true)
    (hload : c.dmaLoads g.ch = false) (hstall : c.dmaStalled g.ch = false) :
    dmaComplete c = c.dmaStop g.ch 1 ((c.dmaDesc g.ch).unitLength * (c.dmaDesc g.ch).elem) false := by
  rw [dmaComplete, hgrant]
  exact if_pos ⟨hworks, hlast, by rw [hload]; rfl, by rw [hstall]; rfl⟩

theorem dmaBeatError_stops {g : Grant} {bytes st : Nat} {dst : Bool} (hgrant : c.dma.grant = some g) (hworks : c.dmaWorks = true)
    (hst : st = 3 ∨ st = 4) : dmaBeatError bytes st dst c =
      (let d := c.dmaDesc g.ch
       let e := c.dmaStop g.ch st (min bytes (d.unitLength * d.elem - 1)) dst
       if st = 3 ∧ dst = false ∧ d.srcSpace = 0 ∧ e.get (K.dmaLastStatus g.ch) = 3 then e.dramMeets 4 [e.nat (K.dmaFailAddr g.ch)] else e) := by
  rw [dmaBeatError, hgrant]
  refine (if_pos ⟨hworks, hst⟩).trans (if_congr ?_ rfl rfl)
  rw [Bool.not_eq_true']

theorem dmaTimeout_stops {g : Grant} {bytes : Nat} {dst : Bool} (hgrant : c.dma.grant = some g) (hworks : c.dmaWorks = true)
    (hjudged : c.suspended 4 2 = false) : dmaTimeout bytes dst c =
      (let d := c.dmaDesc g.ch
       let e := c.dmaStop g.ch 7 (min bytes (d.unitLength * d.elem - 1)) dst
       if e.get (K.dmaLastStatus g.ch) = 7 then e.cellExpired 4 2 g.ch 0x4002 g.ch (e.nat (K.dmaFailAddr g.ch)) else e) := by
  rw [dmaTimeout, hgrant]
  refine if_neg ?_
  rw [hworks, hjudged, Bool.false_and]
  exact Bool.false_ne_true

end

/-- Settles O50: the commands by the state of their channel, the requests by the channel paced, a grant by the next channel, and the ends by
the last status. -/
theorem dmaTransfers : Obligations.DmaTransfers := by
  unfold Obligations.DmaTransfers
  refine ⟨fun s m ch hmay hheld => ⟨?start, ?refused, fun hs => ⟨?aborts, ?idle⟩⟩, fun s req ch hpaced => ⟨?ready, ?missed⟩, ?grant, ?corrected,
    fun s g hgrant hworks => ⟨?complete, ?beat, ?timeout⟩, ?next⟩
  case start =>
    intro hs hidle hsound hon
    exact effect_of_command rfl hs (dmaStart_starts (c := s.chip.fresh) hmay hheld hidle hsound hon) ⟨rfl, fun _ _ => rfl⟩
  case refused => exact fun hs hlow hhigh => effect_of_refused rfl hs (dmaStart_refuses (c := s.chip.fresh) hmay hlow hhigh)
  case aborts =>
    intro hready
    have habort := (dmaAbort_ceases (c := s.chip.fresh) hmay hheld).trans (congrArg Except.ok (Chip.dmaCease_ends (c := s.chip.fresh) hready))
    exact effect_of_command rfl hs habort (Chip.agrees_refl _)
  case idle =>
    intro hidle
    have habort := (dmaAbort_ceases (c := s.chip.fresh) hmay hheld).trans (congrArg Except.ok (Chip.dmaCease_idle (c := s.chip.fresh) hidle))
    exact effect_of_command rfl hs habort ⟨rfl, fun _ _ => rfl⟩
  case ready =>
    exact fun hruns harmed => effect_of_eq rfl (dmaRequestAssert_readies (c := s.chip.fresh) hpaced hruns harmed) ⟨rfl, fun _ _ => rfl⟩
  case missed =>
    exact fun hreq hasserted hready =>
      effect_of_eq rfl (dmaRequestWithdraw_misses (c := s.chip.fresh) hpaced hreq hasserted hready) ⟨rfl, fun _ _ => rfl⟩
  case grant =>
    intro s src ch hworks hfree hnext
    have hch : ch < 16 := (Chip.dmaNext_ready hnext).1
    have heq := (dmaGrant_grants (c := s.chip.fresh) (src := src) hworks hfree hnext).trans (Chip.dmaGrantTo_eq hch)
    have hagrees := s.chip.agrees_dmaGranted (ch := ch) src
    show Effect (.dmaGrant src) s (if s.chip.get (K.dmaSrcSpace ch) = 2 ∧ s.chip.get K.spmState = 1 then
      (s.chip.dmaGranted ch src).set K.spmState 2 else s.chip.dmaGranted ch src)
    refine effect_of_eq (exec_dmaGrant s src []) heq ?_
    by_cases hport : s.chip.get (K.dmaSrcSpace ch) = 2 ∧ s.chip.get K.spmState = 1
    · rw [if_pos hport]
      exact (if_pos (c := s.chip.fresh.get (K.dmaSrcSpace ch) = 2 ∧ s.chip.fresh.get K.spmState = 1) hport) ▸ Chip.agrees_set hagrees _ _
    · rw [if_neg hport]
      exact (if_neg (c := s.chip.fresh.get (K.dmaSrcSpace ch) = 2 ∧ s.chip.fresh.get K.spmState = 1) hport) ▸ hagrees
  case corrected =>
    intro s src a hruns hfree k
    have hk : k < 2 := Chip.dramChannel_lt _ _
    have hfound : s.chip.fresh.dramFixed [a] = (s.chip.fresh.bumpBy (K.dramCorrected k) 1).bumpBy (K.dramUncorrectable k) 0 :=
      Chip.dramFixed_one (c := s.chip.fresh) hruns
    have hother : K.dramCorrected k ≠ K.dramUncorrectable k := by
      simp only [K.dramCorrected, K.dramUncorrectable]
      omega
    refine leaves_of_eq (exec_dmaGrant s src [a]) (congrArg (dmaGrant src) hfound) ?_
    rw [settle_get _ _ _ (by interval_cases k <;> decide)]
    refine (get_dmaGrant (c := (s.chip.fresh.bumpBy (K.dramCorrected k) 1).bumpBy (K.dramUncorrectable k) 0) hfree ?_ ?_ ?_ ?_).trans ?_
    · intro n hn
      simp only [K.dramCorrected, K.dmaState]
      omega
    · simp only [K.dramCorrected, K.dmaActiveChannel]
      omega
    · simp only [K.dramCorrected, K.dmaGrants]
      omega
    · simp only [K.dramCorrected, K.spmState]
      omega
    · rw [Chip.get_bumpBy, if_neg hother, Chip.get_bumpBy, if_pos rfl]
      rfl
  case complete =>
    intro hlast hload hstall
    exact effect_eq (exec_dmaComplete s []) (dmaComplete_stops (c := s.chip.fresh) hgrant hworks hlast hload hstall)
  case beat =>
    intro bytes st dst hst
    exact effect_eq rfl (dmaBeatError_stops (c := s.chip.fresh) hgrant hworks hst)
  case timeout =>
    intro bytes dst hjudged
    exact effect_eq rfl (dmaTimeout_stops (c := s.chip.fresh) hgrant hworks hjudged)
  case next =>
    intro s ch hnext
    obtain ⟨-, hready⟩ := Chip.dmaNext_ready hnext
    exact ⟨hready, fun k hk => Chip.dmaNext_top hnext hk⟩

end Sys2Proof.Machine
end

section
/-! Field layers: what a pass that completes leaves to the saves, the NVM and the states of the sets (R235 to R239, R254 to R256). -/

namespace Sys2Proof.Machine

/-! ### Work beside the field layers -/

/-- A part whose field layers, passes and Solstice records are those of another, and its objects outside a list. -/
structure Chip.FieldKept (ks : List Nat) (d c : Chip) : Prop where
  sets : d.onion.sets = c.onion.sets
  passes : d.onion.passes.map (fun (q : Pass) => (q.set, q.kind)) = c.onion.passes.map (fun (q : Pass) => (q.set, q.kind))
  sol : d.sol = c.sol
  get : ∀ k ∉ ks, d.get k = c.get k

/-- The objects that a write of the NVM's record of a pass, a save and the states of the sets move. -/
def fieldKeys : List Nat :=
  [K.nvmState, K.nvmHeld, K.nvmHeldDropped, K.nvmGroupWrites, K.nvmLogNewest, K.nvmLogValid, K.onionSaveStatus, K.spmState] ++ setStates

theorem mem_fieldKeys {k : Nat} : k ∈ fieldKeys ↔ (k = K.nvmState ∨ k = K.nvmHeld ∨ k = K.nvmHeldDropped ∨ k = K.nvmGroupWrites ∨
    k = K.nvmLogNewest ∨ k = K.nvmLogValid ∨ k = K.onionSaveStatus ∨ k = K.spmState) ∨ k ∈ setStates := by
  simp only [fieldKeys, List.mem_append, List.mem_cons, List.not_mem_nil, or_false]

/-- The objects of the sets but SET_STATE are not among them. -/
theorem set_not_fieldKeys {k : Nat} (hlow : 0x354000 ≤ k) (hhigh : k < 0x356000) (hstate : k % 256 ≠ 1) : k ∉ fieldKeys := by
  rw [mem_fieldKeys, mem_setStates]
  rintro ((rfl | rfl | rfl | rfl | rfl | rfl | rfl | rfl) | rfl | ⟨s, -, rfl⟩)
  all_goals
    simp only [K.nvmState, K.nvmHeld, K.nvmHeldDropped, K.nvmGroupWrites, K.nvmLogNewest, K.nvmLogValid, K.onionSaveStatus, K.spmState,
      K.onionResident, K.setState] at hlow hhigh hstate
    omega

theorem low_not_fieldKeys {k : Nat} (hlow : k < 0x350000) : k ∉ fieldKeys := by
  rw [mem_fieldKeys, mem_setStates]
  rintro ((rfl | rfl | rfl | rfl | rfl | rfl | rfl | rfl) | rfl | ⟨s, -, rfl⟩)
  all_goals
    simp only [K.nvmState, K.nvmHeld, K.nvmHeldDropped, K.nvmGroupWrites, K.nvmLogNewest, K.nvmLogValid, K.onionSaveStatus, K.spmState,
      K.onionResident, K.setState] at hlow
    omega

theorem not_statusKeys_of_solstice {k : Nat} (hlow : 0x340000 ≤ k) (hhigh : k < 0x360000) : k ∉ statusKeys := by
  simp only [statusKeys, List.mem_cons, List.not_mem_nil, or_false, K.errorRegister, K.pcieEventStatus, K.canState, K.canTec, K.emcyDropped,
    K.tpdoLost, K.tpdoCoalesced]
  omega

section
variable {ks : List Nat} {c d e : Chip}

namespace Chip.FieldKept

theorem refl (ks : List Nat) (c : Chip) : c.FieldKept ks c := ⟨rfl, rfl, rfl, fun _ _ => rfl⟩

theorem trans (h : e.FieldKept ks d) (h' : d.FieldKept ks c) : e.FieldKept ks c :=
  ⟨h.sets.trans h'.sets, h.passes.trans h'.passes, h.sol.trans h'.sol, fun k hk => (h.get k hk).trans (h'.get k hk)⟩

theorem set (h : d.FieldKept ks c) {k : Nat} (hk : k ∈ ks) (v : Int) : (d.set k v).FieldKept ks c :=
  ⟨h.sets, h.passes, h.sol, fun j hj => (Chip.get_set_other _ _ _ _ (fun he : j = k => hj (he ▸ hk))).trans (h.get j hj)⟩

theorem bump (h : d.FieldKept ks c) {k : Nat} (hk : k ∈ ks) : (d.bump k).FieldKept ks c :=
  ⟨h.sets, h.passes, h.sol, fun j hj => by
    rw [Chip.get_bump, if_neg (fun he : j = k => hj (he ▸ hk))]
    exact h.get j hj⟩

end Chip.FieldKept

theorem mem_fieldKeys_nvm : K.nvmState ∈ fieldKeys ∧ K.nvmHeld ∈ fieldKeys ∧ K.nvmHeldDropped ∈ fieldKeys ∧ K.nvmGroupWrites ∈ fieldKeys ∧
    K.nvmLogNewest ∈ fieldKeys ∧ K.nvmLogValid ∈ fieldKeys ∧ K.onionSaveStatus ∈ fieldKeys ∧ K.spmState ∈ fieldKeys := by decide

theorem Chip.nvmEnterHold_fieldKept : c.nvmEnterHold.FieldKept fieldKeys c := by
  obtain ⟨hstate, -⟩ := mem_fieldKeys_nvm
  unfold Chip.nvmEnterHold
  split
  · exact .refl _ _
  · dsimp only
    split
    · exact ⟨rfl, rfl, rfl, fun _ _ => rfl⟩
    · refine .set ?_ hstate _
      exact ⟨rfl, rfl, rfl, fun _ _ => rfl⟩

theorem Chip.nvmHold_fieldKept (w : NvmWrite) : (c.nvmHold w).FieldKept fieldKeys c := by
  obtain ⟨-, hheld, hdropped, -⟩ := mem_fieldKeys_nvm
  have hqueue (l : List NvmWrite) : ({ c with nvm := { c.nvm with held := l } } : Chip).FieldKept fieldKeys c := ⟨rfl, rfl, rfl, fun _ _ => rfl⟩
  have hdrop : (c.bump K.nvmHeldDropped).FieldKept fieldKeys c := (Chip.FieldKept.refl _ c).bump hdropped
  unfold Chip.nvmHold
  dsimp only
  split
  · exact (hqueue _).set hheld _
  · cases w with
    | count num n =>
      dsimp only
      split
      · exact (hqueue _).set hheld _
      · exact hdrop.set hheld _
    | _ => exact hdrop.set hheld _

/-- Writes of the NVM that a pass makes: a count, a record of the log, an anchor. -/
def NvmWrite.ofPass : NvmWrite → Bool
  | .count _ _ | .log _ | .anchor _ _ => true
  | _ => false

theorem Chip.nvmBusy_fieldKept (h : d.FieldKept fieldKeys c) (n : Nat) (u : NvmUndo) : (d.nvmBusy n u).FieldKept fieldKeys c := by
  obtain ⟨-, -, -, hwrites, -⟩ := mem_fieldKeys_nvm
  unfold Chip.nvmBusy
  exact ⟨h.sets, h.passes, h.sol, fun j hj =>
    (Chip.get_set_other _ _ _ _ (fun he : j = K.nvmGroupWrites => hj (he ▸ hwrites))).trans (h.get j hj)⟩

theorem Chip.nvmApply_fieldKept {w : NvmWrite} (hw : w.ofPass = true) : (c.nvmApply w).FieldKept fieldKeys c := by
  obtain ⟨-, -, -, -, hnewest, hvalid, -⟩ := mem_fieldKeys_nvm
  cases w with
  | count num n =>
    refine Chip.nvmBusy_fieldKept ?_ _ _
    exact ⟨rfl, rfl, rfl, fun _ _ => rfl⟩
  | anchor set a =>
    refine Chip.nvmBusy_fieldKept ?_ _ _
    exact ⟨rfl, rfl, rfl, fun _ _ => rfl⟩
  | log r =>
    refine Chip.nvmBusy_fieldKept (.set (.set ?_ hnewest _) hvalid _) _ _
    exact ⟨rfl, rfl, rfl, fun _ _ => rfl⟩
  | trim _ _ _ => exact absurd hw Bool.false_ne_true
  | revert _ _ _ => exact absurd hw Bool.false_ne_true
  | again => exact absurd hw Bool.false_ne_true

theorem Chip.nvmWrite_fieldKept {w : NvmWrite} (hw : w.ofPass = true) : (c.nvmWrite w).FieldKept fieldKeys c := by
  unfold Chip.nvmWrite
  split
  · exact (Chip.nvmHold_fieldKept w).trans Chip.nvmEnterHold_fieldKept
  · split
    · exact ⟨rfl, rfl, rfl, fun _ _ => rfl⟩
    · exact Chip.nvmApply_fieldKept hw

theorem Chip.writeAnchor_fieldKept (s : Nat) : (c.writeAnchor s).FieldKept fieldKeys c := by
  unfold Chip.writeAnchor
  split
  · exact .refl _ _
  · exact Chip.nvmWrite_fieldKept rfl

theorem Chip.logOnly_fieldKept (region block cell code ctx0 ctx1 : Nat) :
    (c.logOnly region block cell code ctx0 ctx1).FieldKept fieldKeys c :=
  (Chip.nvmWrite_fieldKept rfl).trans (d := { c with free := c.free + 1 }) ⟨rfl, rfl, rfl, fun _ _ => rfl⟩

theorem Chip.saveRuns_fieldKept (h : d.FieldKept fieldKeys c) : d.saveRuns.FieldKept fieldKeys c := by
  obtain ⟨-, -, -, -, -, -, -, hport⟩ := mem_fieldKeys_nvm
  unfold Chip.saveRuns
  split
  · exact h
  · split
    · exact h
    · refine .set ?_ hport _
      exact ⟨h.sets, h.passes, h.sol, h.get⟩

theorem Chip.nextSave_fieldKept (h : d.FieldKept fieldKeys c) : d.nextSave.FieldKept fieldKeys c := by
  obtain ⟨-, -, -, -, -, -, hstatus, -⟩ := mem_fieldKeys_nvm
  unfold Chip.nextSave
  split
  · refine Chip.saveRuns_fieldKept (.set ?_ hstatus _)
    exact ⟨h.sets, h.passes, h.sol, h.get⟩
  · exact Chip.saveRuns_fieldKept h

theorem Chip.autosave_fieldKept (s : Nat) : (c.autosave s).FieldKept fieldKeys c := by
  unfold Chip.autosave Chip.wantSave
  dsimp only
  split
  · split
    · exact Chip.nextSave_fieldKept (.refl _ _)
    · exact Chip.nextSave_fieldKept ⟨rfl, rfl, rfl, fun _ _ => rfl⟩
  · exact .refl _ _

theorem Chip.seedUsers_fieldKept (s : Nat) : (c.seedUsers s).FieldKept fieldKeys c := by
  unfold Chip.seedUsers
  exact List.foldlRecOn (motive := fun d : Chip => d.FieldKept fieldKeys c) _ _ (.refl _ _) fun d hd x _ => ⟨hd.sets, hd.passes, hd.sol, hd.get⟩

theorem Chip.freePasses_fieldKept : c.freePasses.FieldKept fieldKeys c := by
  refine ⟨rfl, ?_, rfl, fun _ _ => rfl⟩
  unfold Chip.freePasses
  dsimp only
  rw [List.map_map]
  rfl

theorem Chip.refreshSets_fieldKept : c.refreshSets.FieldKept fieldKeys c := by
  unfold Chip.refreshSets
  refine .set ?_ (mem_fieldKeys.2 (.inr (mem_setStates.2 (.inl rfl)))) _
  refine List.foldlRecOn (motive := fun d : Chip => d.FieldKept fieldKeys c) _ _ Chip.freePasses_fieldKept fun d hd x hx => ?_
  split
  · exact hd.set (mem_fieldKeys.2 (.inr (mem_setStates.2 (.inr ⟨x, List.mem_range.1 hx, rfl⟩)))) _
  · exact hd

/-! ### A revert -/

theorem Silent.foldl {β : Type} {f : Chip → β → Chip} (hf : ∀ x, Silent fun c => f c x) (l : List β) : Silent fun c => l.foldl f c := by
  induction l with
  | nil => exact .id
  | cons x l ih => exact .comp ih (hf x)

theorem Chip.freePasses_silent : Silent Chip.freePasses := fun _ _ => rfl

theorem Chip.refreshSets_silent : Silent Chip.refreshSets :=
  .comp (g := fun c : Chip => c.set K.onionResident ((List.range 32).foldl (fun a s => if c.inDram s then a + 2 ^ s else a) 0))
    (fun _ _ => rfl)
    (.comp (g := fun c : Chip => (List.range 32).foldl (fun c s =>
        if c.inDram s then c.set (K.setState s) (if c.passOn s then 4 else if (c.setUsers s).isEmpty then 2 else 3) else c) c)
      (.foldl (fun _ => .ite (fun _ _ => rfl) (fun _ _ => rfl) .id) _) Chip.freePasses_silent)

/-- A part in which a revert of a set is queued and counted. -/
def Chip.revertQueued (c : Chip) (v : Nat) : Chip :=
  ({ c with onion := { c.onion with passes := c.onion.passes ++
    [{ set := v, kind := .revert, waits := !(c.setUsers v).isEmpty }] } } : Chip).bump K.onionReverts

theorem Chip.revertQueued_silent (v : Nat) : Silent fun c => c.revertQueued v := fun _ _ => rfl

theorem onionRevert_queues {v : Nat} (hv : v ≤ 31) (hruns : c.pixelRuns = true) (hshadow : c.get (K.setShadowValid v) = 1)
    (hpass : c.passOn v = false) (howner : 4 ≤ c.nat (K.setOwner v)) : onionRevert v c = .ok (c.revertQueued v).refreshSets := by
  have hrange : decide (31 < v) = false := decide_eq_false (by omega)
  have hvalid : c.on (K.setShadowValid v) = true := decide_eq_true hshadow
  have howner' : decide (c.nat (K.setOwner v) < 4) = false := decide_eq_false (by omega)
  rw [onionRevert, setRange, guardNot_pass hrange, guardNot_pass (by rw [hruns]; rfl), guardNot_pass (by rw [hvalid]; rfl),
    guardNot_pass (by rw [hpass, howner']; rfl)]
  rfl

/-- The field layer of a set exchanged with its shadow, and the anchors with those of the shadow. -/
def Chip.reverted (c : Chip) (n : Nat) (p : Pass) (d : SetData) : Chip :=
  (({ c with onion := { c.onion with passes := c.onion.passes.erase p } } : Chip).putSet n (some { d with
    view := (d.view.zip d.shadow).map (fun (r, e) => withE r e), shadow := d.view.map recE
    shadowTemp := c.get (K.setAnchorTemp n), shadowTime := c.nat (K.setAnchorTime n) })).setAll
      [(K.setAnchorTemp n, d.shadowTemp), (K.setAnchorTime n, d.shadowTime),
        (K.setFieldSequence n, nextSeq (c.nat (K.setFieldSequence n)) 0xFFFFFFFF)]

theorem onionPassComplete_reverts {n : Nat} {p : Pass} {d : SetData}
    (hpass : c.onion.passes.find? (fun p => decide (p.set = n ∧ p.kind = .revert) && !p.waits) = some p) (hset : c.setData n = some d) :
    onionPassComplete n c = ((((c.reverted n p d).writeAnchor n).autosave n).seedUsers n).refreshSets := by
  rw [onionPassComplete, hpass, hset]
  rfl

/-- What follows a revert leaves its layers and anchors. -/
theorem onionPassComplete_fieldKept {n : Nat} {p : Pass} {d : SetData}
    (hpass : c.onion.passes.find? (fun p => decide (p.set = n ∧ p.kind = .revert) && !p.waits) = some p) (hset : c.setData n = some d) :
    (onionPassComplete n c).FieldKept fieldKeys (c.reverted n p d) := by
  rw [onionPassComplete_reverts hpass hset]
  exact Chip.refreshSets_fieldKept.trans ((Chip.seedUsers_fieldKept n).trans ((Chip.autosave_fieldKept n).trans (Chip.writeAnchor_fieldKept n)))

/-- The field sequence and the anchors of a set. -/
theorem set_keys_distinct (n : Nat) : K.setAnchorTemp n ≠ K.setAnchorTime n ∧ K.setAnchorTemp n ≠ K.setFieldSequence n ∧
    K.setAnchorTime n ≠ K.setFieldSequence n := by
  simp only [K.setAnchorTemp, K.setAnchorTime, K.setFieldSequence]
  omega

theorem Chip.setData_putSet {n : Nat} (hn : n < c.onion.sets.length) (x : Option SetData) : (c.putSet n x).setData n = x :=
  at'_modAt_same hn _

theorem Chip.setData_reverted {n : Nat} {p : Pass} {d : SetData} (hn : n < c.onion.sets.length) :
    (c.reverted n p d).setData n = some { d with
      view := (d.view.zip d.shadow).map (fun (r, e) => withE r e), shadow := d.view.map recE
      shadowTemp := c.get (K.setAnchorTemp n), shadowTime := c.nat (K.setAnchorTime n) } :=
  Chip.setData_putSet (c := { c with onion := { c.onion with passes := c.onion.passes.erase p } }) hn _

theorem Chip.get_reverted {n : Nat} {p : Pass} {d : SetData} :
    (c.reverted n p d).get (K.setAnchorTemp n) = d.shadowTemp ∧ (c.reverted n p d).get (K.setAnchorTime n) = d.shadowTime ∧
    (c.reverted n p d).get (K.setFieldSequence n) = nextSeq (c.nat (K.setFieldSequence n)) 0xFFFFFFFF := by
  obtain ⟨htt, hts, hms⟩ := set_keys_distinct n
  unfold Chip.reverted
  rw [Chip.setAll_cons, Chip.setAll_cons, Chip.setAll_cons, Chip.setAll_nil]
  exact ⟨by rw [Chip.get_set_other _ _ _ _ hts, Chip.get_set_other _ _ _ _ htt, Chip.get_set_same],
    by rw [Chip.get_set_other _ _ _ _ hms, Chip.get_set_same], by rw [Chip.get_set_same]⟩

end

/-- Settles O41: the revert queues its pass, and nothing that follows the exchange of a pass touches what it exchanged. -/
theorem revertExchangesFields : Obligations.RevertExchangesFields := by
  unfold Obligations.RevertExchangesFields
  refine ⟨?queued, ?exchanged⟩
  case queued =>
    intro s m v hs hv hruns hshadow hpass howner
    exact effect_of_command rfl hs (onionRevert_queues (c := s.chip.fresh) hv hruns hshadow hpass howner)
      ((Silent.comp Chip.refreshSets_silent (Chip.revertQueued_silent v.toNat)).agrees_fresh s.chip)
  case exchanged =>
    intro s n p d hpass hset hlen
    have hkept := onionPassComplete_fieldKept (c := s.chip.fresh) hpass hset
    have hn : n.val < s.chip.fresh.onion.sets.length := lt_of_lt_of_eq n.isLt hlen.symm
    have hdata : (settle s.chip (onionPassComplete n s.chip.fresh)).setData n.val = (s.chip.fresh.reverted n p d).setData n.val := by
      rw [Chip.setData, Chip.setData, settle_onion, hkept.sets]
    have hget (k : Nat) (hlow : 0x354000 ≤ k) (hhigh : k < 0x356000) (hstate : k % 256 ≠ 1) :
        (settle s.chip (onionPassComplete n s.chip.fresh)).get k = (s.chip.fresh.reverted n p d).get k := by
      rw [settle_get _ _ _ (not_statusKeys_of_solstice (by omega) (by omega)), hkept.get k (set_not_fieldKeys hlow hhigh hstate)]
    obtain ⟨htemp, htime, hseq⟩ := Chip.get_reverted (c := s.chip.fresh) (n := n) (p := p) (d := d)
    rw [Chip.setData_reverted hn] at hdata
    refine leaves_of_eq rfl rfl ⟨?_, ?_, ?_, ?_, ?_, ?_, ?_⟩
    · rw [hdata]
      rfl
    · rw [hdata]
      rfl
    · rw [hget _ (by simp only [K.setAnchorTemp]; omega) (by simp only [K.setAnchorTemp]; omega) (by simp only [K.setAnchorTemp]; omega), htemp]
    · rw [hget _ (by simp only [K.setAnchorTime]; omega) (by simp only [K.setAnchorTime]; omega) (by simp only [K.setAnchorTime]; omega), htime]
    · rw [hdata]
      rfl
    · rw [hget _ (by simp only [K.setFieldSequence]; omega) (by simp only [K.setFieldSequence]; omega)
        (by simp only [K.setFieldSequence]; omega), hseq]
      rfl
    · rw [settle_onion, hkept.passes]
      rfl

end Sys2Proof.Machine
end

section
/-! The commit of a Solstice event and the timeouts of its shutter (R254 to R256). -/

namespace Sys2Proof.Machine

section
variable {ks : List Nat} {c d e : Chip} {h : Nat}

theorem Chip.FieldKept.mono {ks' : List Nat} (hd : d.FieldKept ks c) (hks : ks ⊆ ks') : d.FieldKept ks' c :=
  ⟨hd.sets, hd.passes, hd.sol, fun k hk => hd.get k fun hmem => hk (hks hmem)⟩

/-- The objects that the close of an event moves, beside those of a pass. -/
def eventKeys (h : Nat) : List Nat := K.solsticeLastTime h :: K.solsticeState h :: K.solsticePhaseFrame h :: fieldKeys

theorem fieldKeys_subset (h : Nat) : fieldKeys ⊆ eventKeys h :=
  fun _ hk => List.mem_cons_of_mem _ (List.mem_cons_of_mem _ (List.mem_cons_of_mem _ hk))

theorem not_eventKeys {k : Nat} (hkey : k ∉ fieldKeys) (htime : k ≠ K.solsticeLastTime h) (hstate : k ≠ K.solsticeState h)
    (hframe : k ≠ K.solsticePhaseFrame h) : k ∉ eventKeys h := by
  simp only [eventKeys, List.mem_cons, not_or]
  exact ⟨htime, hstate, hframe, hkey⟩

theorem Chip.solsticeIdle_fieldKept (hd : d.FieldKept (eventKeys h) c) : (d.solsticeIdle h).FieldKept (eventKeys h) c := by
  unfold Chip.solsticeIdle
  split
  · exact hd
  · exact (hd.set (by simp [eventKeys]) _).set (by simp [eventKeys]) _

/-- The averaged layer, the shadow and the anchors of a commit in place. -/
def Chip.committed (c : Chip) (h s : Nat) (d : SetData) : Chip :=
  (({ c with onion := { c.onion with
    passes := c.onion.passes.filter (fun (q : Pass) => !(decide (q.set = s ∧ q.kind = PassKind.commit))) } } : Chip).putSet s (some { d with
      view := (d.view.zip (c.solstice h).newE).map (fun (r, e) => withE r e), shadow := d.view.map recE
      shadowTemp := c.get (K.setAnchorTemp s), shadowTime := c.nat (K.setAnchorTime s) })).setAll
    [(K.setShadowValid s, 1), (K.setFieldSequence s, nextSeq (c.nat (K.setFieldSequence s)) 0xFFFFFFFF),
      (K.setAnchorTemp s, (c.solstice h).temp), (K.setAnchorTime s, (c.solstice h).cap)]

/-- What a commit writes to the NVM and its log. -/
def Chip.commitLogged (c : Chip) (h s : Nat) : Chip :=
  let c := (c.nvmWrite (.count (16 + h) 1)).set (K.solsticeLastTime h) c.now
  (c.writeAnchor s).logOnly 2 1 0xFF 0x2006 h (c.nat (K.setFieldSequence s))

/-- What a commit reports, with its due bits cleared. -/
def Chip.commitReported (c : Chip) (h s : Nat) (x : Solstice) : Chip :=
  (c.setAll [(K.solsticeDue h, 0), (K.setStale s, 0), (K.solsticePixels h, at' x.result 0), (K.solsticeMean h, at' x.result 1),
    (K.solsticeEKept h, at' x.result 2), (K.solsticeEClamped h, at' x.result 3)]).modSol h
      (fun (x : Solstice) => { x with pass := none, newE := [], ev := x.ev.map (fun (e : SolEvent) => { e with done := true }) })

theorem Chip.commitLogged_fieldKept (s : Nat) : (c.commitLogged h s).FieldKept (eventKeys h) c := by
  unfold Chip.commitLogged
  refine ((Chip.logOnly_fieldKept ..).mono (fieldKeys_subset h)).trans (((Chip.writeAnchor_fieldKept s).mono (fieldKeys_subset h)).trans ?_)
  exact ((Chip.nvmWrite_fieldKept rfl).mono (fieldKeys_subset h)).set List.mem_cons_self _

theorem solsticeCommitComplete_commits {s : Nat} {d : SetData} (hpass : (c.solstice h).pass = some s) (hset : c.setData s = some d) :
    solsticeCommitComplete h c =
      (((((c.committed h s d).commitLogged h s).commitReported h s (c.solstice h)).autosave s).refreshSets).solsticeIdle h := by
  rw [solsticeCommitComplete, hpass]
  dsimp only
  rw [hset]
  rfl

theorem solsticeCommitComplete_fieldKept {s : Nat} {d : SetData} (hpass : (c.solstice h).pass = some s) (hset : c.setData s = some d) :
    (solsticeCommitComplete h c).FieldKept (eventKeys h) (((c.committed h s d).commitLogged h s).commitReported h s (c.solstice h)) := by
  rw [solsticeCommitComplete_commits hpass hset]
  exact Chip.solsticeIdle_fieldKept
    ((Chip.refreshSets_fieldKept.mono (fieldKeys_subset h)).trans ((Chip.autosave_fieldKept s).mono (fieldKeys_subset h)))

theorem Chip.solstice_modSol {f : Solstice → Solstice} (hh : h < c.sol.length) : (c.modSol h f).solstice h = f (c.solstice h) :=
  at'_modAt_same hh f

theorem Chip.setData_committed {s : Nat} (hs : s < c.onion.sets.length) (d : SetData) : (c.committed h s d).setData s = some { d with
      view := (d.view.zip (c.solstice h).newE).map (fun (r, e) => withE r e), shadow := d.view.map recE
      shadowTemp := c.get (K.setAnchorTemp s), shadowTime := c.nat (K.setAnchorTime s) } :=
  Chip.setData_putSet (c := { c with onion := { c.onion with
    passes := c.onion.passes.filter (fun (q : Pass) => !(decide (q.set = s ∧ q.kind = PassKind.commit))) } }) hs _

theorem Chip.get_committed {s : Nat} {d : SetData} :
    (c.committed h s d).get (K.setShadowValid s) = 1 ∧
    (c.committed h s d).get (K.setFieldSequence s) = nextSeq (c.nat (K.setFieldSequence s)) 0xFFFFFFFF ∧
    (c.committed h s d).get (K.setAnchorTemp s) = (c.solstice h).temp ∧ (c.committed h s d).get (K.setAnchorTime s) = (c.solstice h).cap := by
  obtain ⟨htt, hts, hms⟩ := set_keys_distinct s
  unfold Chip.committed
  rw [Chip.setAll_cons, Chip.setAll_cons, Chip.setAll_cons, Chip.setAll_cons, Chip.setAll_nil]
  refine ⟨?_, ?_, ?_, ?_⟩
  · rw [Chip.get_set_other _ _ _ _ (by simp only [K.setShadowValid, K.setAnchorTime]; omega),
      Chip.get_set_other _ _ _ _ (by simp only [K.setShadowValid, K.setAnchorTemp]; omega),
      Chip.get_set_other _ _ _ _ (by simp only [K.setShadowValid, K.setFieldSequence]; omega), Chip.get_set_same]
  · rw [Chip.get_set_other _ _ _ _ hms.symm, Chip.get_set_other _ _ _ _ hts.symm, Chip.get_set_same]
  · rw [Chip.get_set_other _ _ _ _ htt, Chip.get_set_same]
  · rw [Chip.get_set_same]

/-- What a commit reports leaves the objects of the sets but SET_STALE. -/
theorem Chip.get_commitReported {s k : Nat} (x : Solstice) (hh : h < 4) (hlow : 0x354000 ≤ k) (hstale : k ≠ K.setStale s) :
    (c.commitReported h s x).get k = c.get k := by
  refine Chip.get_setAll_other _ _ _ ?_
  simp only [List.mem_cons, List.not_mem_nil, or_false, forall_eq_or_imp, forall_eq]
  simp only [K.solsticeDue, K.solsticePixels, K.solsticeMean, K.solsticeEKept, K.solsticeEClamped]
  refine ⟨?_, hstale, ?_, ?_, ?_, ?_⟩ <;> omega

theorem Chip.get_commitReported_cleared {s : Nat} (x : Solstice) (hh : h < 4) :
    (c.commitReported h s x).get (K.solsticeDue h) = 0 ∧ (c.commitReported h s x).get (K.setStale s) = 0 := by
  have hdue (k : Nat) (hk : k = K.solsticeDue h ∨ k = K.setStale s) : k ≠ K.solsticePixels h ∧ k ≠ K.solsticeMean h ∧
      k ≠ K.solsticeEKept h ∧ k ≠ K.solsticeEClamped h := by
    rcases hk with rfl | rfl <;>
      simp only [K.solsticeDue, K.setStale, K.solsticePixels, K.solsticeMean, K.solsticeEKept, K.solsticeEClamped] <;> omega
  have hrest (e : Chip) (k : Nat) (hk : k = K.solsticeDue h ∨ k = K.setStale s) :
      (e.setAll [(K.solsticePixels h, at' x.result 0), (K.solsticeMean h, at' x.result 1), (K.solsticeEKept h, at' x.result 2),
        (K.solsticeEClamped h, at' x.result 3)]).get k = e.get k := by
    obtain ⟨hpixels, hmean, hkept, hclamped⟩ := hdue k hk
    refine Chip.get_setAll_other _ _ _ ?_
    simp only [List.mem_cons, List.not_mem_nil, or_false, forall_eq_or_imp, forall_eq]
    exact ⟨hpixels, hmean, hkept, hclamped⟩
  have hapart : K.solsticeDue h ≠ K.setStale s := by
    simp only [K.solsticeDue, K.setStale]
    omega
  rw [Chip.commitReported, Chip.get_modSol, Chip.get_modSol, Chip.setAll_cons, Chip.setAll_cons, hrest _ _ (.inl rfl), hrest _ _ (.inr rfl)]
  exact ⟨(Chip.get_set_other _ _ _ _ hapart).trans (Chip.get_set_same _ _ _), Chip.get_set_same _ _ _⟩

/-- A set's objects after a commit that completes. -/
theorem get_solsticeCommitComplete {s k : Nat} {d : SetData} (hpass : (c.solstice h).pass = some s) (hset : c.setData s = some d) (hh : h < 4)
    (hlow : 0x354000 ≤ k) (hhigh : k < 0x356000) (hstate : k % 256 ≠ 1) (hstale : k ≠ K.setStale s) :
    (solsticeCommitComplete h c).get k = (c.committed h s d).get k := by
  have hevent : k ∉ eventKeys h := by
    refine not_eventKeys (set_not_fieldKeys hlow hhigh hstate) ?_ ?_ ?_ <;>
      simp only [K.solsticeLastTime, K.solsticeState, K.solsticePhaseFrame] <;> omega
  rw [(solsticeCommitComplete_fieldKept hpass hset).get k hevent, Chip.get_commitReported _ hh hlow hstale,
    (Chip.commitLogged_fieldKept s).get k hevent]

theorem solsticeCommitComplete_clears {s : Nat} {d : SetData} (hpass : (c.solstice h).pass = some s) (hset : c.setData s = some d) (hh : h < 4)
    (hs : s < 32) : (solsticeCommitComplete h c).get (K.solsticeDue h) = 0 ∧ (solsticeCommitComplete h c).get (K.setStale s) = 0 := by
  have hdue : K.solsticeDue h ∉ eventKeys h := by
    refine not_eventKeys (low_not_fieldKeys ?_) ?_ ?_ ?_ <;>
      simp only [K.solsticeDue, K.solsticeLastTime, K.solsticeState, K.solsticePhaseFrame] <;> omega
  have hstale : K.setStale s ∉ eventKeys h := by
    refine not_eventKeys (set_not_fieldKeys ?_ ?_ ?_) ?_ ?_ ?_ <;>
      simp only [K.setStale, K.solsticeLastTime, K.solsticeState, K.solsticePhaseFrame] <;> omega
  obtain ⟨hdue0, hstale0⟩ := Chip.get_commitReported_cleared (c := (c.committed h s d).commitLogged h s) (s := s) (c.solstice h) hh
  have hkept := solsticeCommitComplete_fieldKept hpass hset
  exact ⟨(hkept.get _ hdue).trans hdue0, (hkept.get _ hstale).trans hstale0⟩

/-- A commit that completes leaves its event no pass and no averages. -/
theorem solsticeCommitComplete_ends {s : Nat} {d : SetData} (hpass : (c.solstice h).pass = some s) (hset : c.setData s = some d)
    (hh : h < c.sol.length) :
    ((solsticeCommitComplete h c).solstice h).pass = none ∧ ((solsticeCommitComplete h c).solstice h).newE = [] := by
  have hsol := (solsticeCommitComplete_fieldKept hpass hset).sol
  have hlogged : ((c.committed h s d).commitLogged h s).sol = c.sol := (Chip.commitLogged_fieldKept s).sol
  have hlen : h < (((c.committed h s d).commitLogged h s).setAll [(K.solsticeDue h, 0), (K.setStale s, 0),
      (K.solsticePixels h, at' (c.solstice h).result 0), (K.solsticeMean h, at' (c.solstice h).result 1),
      (K.solsticeEKept h, at' (c.solstice h).result 2), (K.solsticeEClamped h, at' (c.solstice h).result 3)]).sol.length := lt_of_lt_of_eq hh
        (congrArg List.length hlogged).symm
  rw [Chip.solstice, hsol, ← Chip.solstice, Chip.commitReported, Chip.solstice_modSol hlen]
  exact ⟨rfl, rfl⟩

theorem setData_solsticeCommitComplete {s : Nat} {d : SetData} (hpass : (c.solstice h).pass = some s) (hset : c.setData s = some d)
    (hs : s < c.onion.sets.length) : (solsticeCommitComplete h c).setData s = some { d with
      view := (d.view.zip (c.solstice h).newE).map (fun (r, e) => withE r e), shadow := d.view.map recE
      shadowTemp := c.get (K.setAnchorTemp s), shadowTime := c.nat (K.setAnchorTime s) } := by
  have hreported : (((c.committed h s d).commitLogged h s).commitReported h s (c.solstice h)).onion.sets = (c.committed h s d).onion.sets :=
    (Chip.commitLogged_fieldKept s).sets
  rw [← Chip.setData_committed hs d, Chip.setData, Chip.setData, (solsticeCommitComplete_fieldKept hpass hset).sets, hreported]

/-! ### The shutter -/

theorem solsticeCloseTimeout_abandons (hstate : c.get (K.solsticeState h) = 2) (hshutter : c.shutterIs h 1 = false)
    (hframes : 30 ≤ c.phaseFrames h) : solsticeCloseTimeout h c = c.solsticeAbandon h 3 true :=
  if_pos ⟨hstate, by rw [hshutter]; rfl, hframes⟩

theorem shutterStuck_records {ev : SolEvent} {b : Nat} (hev : (c.solstice h).ev = some ev) (hbank : c.shutterBank h = some b)
    (hstate : c.get (K.solsticeState h) = 5) (hopening : ev.opening = false) (hfaulty : c.closeFaulty h = true) :
    shutterStuck h c = (let d := ((c.modEvent h (fun (e : SolEvent) => { e with passed := c.phaseFrames h })).solsticePhase h 7).bump (K.shutterStuck h)
     (d.raise 1 2 1 0xFF 0x2007 h b).emcyFor 0xFF01 2 0x2007) := by
  rw [shutterStuck, hev, hbank]
  exact if_pos ⟨.inl hstate, by rw [hopening]; rfl, .inl hfaulty⟩

theorem shutterReopenRetry_opens (hstate : c.get (K.solsticeState h) = 7) : shutterReopenRetry h c = c.solsticeOpen h := if_pos hstate

end

/-- Settles O34: nothing that follows the exchange of a commit touches it, and the timeouts act by the phase of the event. -/
theorem solsticeEvents : Obligations.SolsticeEvents := by
  unfold Obligations.SolsticeEvents
  refine ⟨?commits, ?abandoned, ?stuck, ?retried⟩
  case commits =>
    intro s h set d hpass hset hlt hsol hsets
    have hh : h.val < s.chip.fresh.sol.length := lt_of_lt_of_eq h.isLt hsol.symm
    have hs : set < s.chip.fresh.onion.sets.length := lt_of_lt_of_eq hlt hsets.symm
    obtain ⟨hend, hnew⟩ := solsticeCommitComplete_ends (c := s.chip.fresh) hpass hset hh
    have hdata := setData_solsticeCommitComplete (c := s.chip.fresh) hpass hset hs
    obtain ⟨hdue, hstale⟩ := solsticeCommitComplete_clears (c := s.chip.fresh) hpass hset h.isLt hlt
    obtain ⟨hvalid, hseq, htemp, htime⟩ := Chip.get_committed (c := s.chip.fresh) (h := h) (s := set) (d := d)
    have hget (k : Nat) (hlow : 0x354000 ≤ k) (hhigh : k < 0x356000) (hstate : k % 256 ≠ 1) (hk : k ≠ K.setStale set) :
        (settle s.chip (solsticeCommitComplete h s.chip.fresh)).get k = (s.chip.fresh.committed h set d).get k := by
      rw [settle_get _ _ _ (not_statusKeys_of_solstice (by omega) (by omega)),
        get_solsticeCommitComplete (c := s.chip.fresh) hpass hset h.isLt hlow hhigh hstate hk]
    refine leaves_of_eq rfl rfl ⟨?_, ?_, ?_, ?_, ?_, ?_, ?_, ?_, ?_, ?_⟩
    · rw [Chip.solstice, settle_sol]
      exact hend
    · rw [Chip.solstice, settle_sol]
      exact hnew
    · rw [Chip.setData, settle_onion, ← Chip.setData, hdata]
      rfl
    · rw [Chip.setData, settle_onion, ← Chip.setData, hdata]
      rfl
    · rw [settle_get _ _ _ (not_statusKeys_of_solstice (by simp only [K.solsticeDue]; omega) (by simp only [K.solsticeDue]; omega)), hdue]
    · rw [settle_get _ _ _ (not_statusKeys_of_solstice (by simp only [K.setStale]; omega) (by simp only [K.setStale]; omega)), hstale]
    · rw [hget _ (by simp only [K.setShadowValid]; omega) (by simp only [K.setShadowValid]; omega) (by simp only [K.setShadowValid]; omega)
        (by simp only [K.setShadowValid, K.setStale]; omega), hvalid]
    · rw [hget _ (by simp only [K.setFieldSequence]; omega) (by simp only [K.setFieldSequence]; omega) (by simp only [K.setFieldSequence]; omega)
        (by simp only [K.setFieldSequence, K.setStale]; omega), hseq]
      rfl
    · rw [hget _ (by simp only [K.setAnchorTemp]; omega) (by simp only [K.setAnchorTemp]; omega) (by simp only [K.setAnchorTemp]; omega)
        (by simp only [K.setAnchorTemp, K.setStale]; omega), htemp]
      rfl
    · rw [hget _ (by simp only [K.setAnchorTime]; omega) (by simp only [K.setAnchorTime]; omega) (by simp only [K.setAnchorTime]; omega)
        (by simp only [K.setAnchorTime, K.setStale]; omega), htime]
      rfl
  case abandoned =>
    exact fun s h hstate hshutter hframes => effect_eq rfl (solsticeCloseTimeout_abandons (c := s.chip.fresh) hstate hshutter hframes)
  case stuck =>
    exact fun s h e b hev hbank hstate hopening hfaulty =>
      effect_eq rfl (shutterStuck_records (c := s.chip.fresh) hev hbank hstate hopening hfaulty)
  case retried => exact fun s h hstate => effect_eq rfl (shutterReopenRetry_opens (c := s.chip.fresh) hstate)

end Sys2Proof.Machine
end

section
/-! A row of a head on its way to the FIFO of its source (R311, R314). -/

namespace Sys2Proof.Machine

section
variable {c d : Chip} {h : Nat}

/-! ### The parts of the way -/

/-- A part that has the heads, sources, DRAM and sets of another, and the geometry of its heads. -/
structure Chip.RowKept (d c : Chip) : Prop where
  heads : d.heads = c.heads
  sources : d.pix.sources = c.pix.sources
  dram : d.dram = c.dram
  onion : d.onion = c.onion
  get : ∀ k < 0x282000, d.get k = c.get k

theorem Chip.RowKept.bumpBy (hd : d.RowKept c) {k : Nat} (hk : 0x282000 ≤ k) (n : Nat) : (d.bumpBy k n).RowKept c :=
  ⟨hd.heads, hd.sources, hd.dram, hd.onion, fun j hj => by
    rw [Chip.get_bumpBy, if_neg (by omega)]
    exact hd.get j hj⟩

theorem Chip.countConverters_rowKept (l : List Raw) : (c.countConverters h l).RowKept c := by
  unfold Chip.countConverters
  refine List.foldlRecOn (motive := fun d : Chip => d.RowKept c) _ _ ⟨rfl, rfl, rfl, rfl, fun _ _ => rfl⟩ fun d hd j _ => ?_
  refine ((hd.bumpBy ?_ _).bumpBy ?_ _).bumpBy ?_ _ <;> simp only [K.convOvrCount, K.convSatCount, K.convMissCount] <;> omega

theorem geoOf_congr (hh : h < 4) (hget : ∀ k < 0x282000, d.get k = c.get k) : geoOf d.dict h = geoOf c.dict h := by
  have hnat (k : Nat) (hk : k < 0x282000) : d.dict.natAt k = c.dict.natAt k := congrArg Int.toNat (hget k hk)
  have hon (k : Nat) (hk : k < 0x282000) : d.dict.onAt k = c.dict.onAt k := by
    unfold Dict.onAt
    rw [show d.dict.get k = c.dict.get k from hget k hk]
  unfold geoOf
  rw [if_pos hh, if_pos hh, hnat _ (by simp only [K.activeWidth]; omega), hnat _ (by simp only [K.blindColumns]; omega),
    hnat _ (by simp only [K.activeHeight]; omega), hnat _ (by simp only [K.blindRows]; omega),
    hon _ (by simp only [K.blindRowPlace]; omega), hon _ (by simp only [K.blindColumnPlace]; omega),
    hnat _ (by simp only [K.integrations]; omega), hnat _ (by simp only [K.tapCount]; omega)]

theorem Chip.fifoRoom_congr (hh : h < 4) (hget : ∀ k < 0x282000, d.get k = c.get k) : d.fifoRoom h = c.fifoRoom h := by
  unfold Chip.fifoRoom
  rw [if_pos hh, if_pos hh, geoOf_congr hh hget]

/-- A change of a frame of a source that leaves its number, its place and its steps. -/
def Work.Keeps (f : Work → Work) : Prop := ∀ w, (f w).closed = w.closed ∧ (f w).id = w.id ∧ (f w).front = w.front

theorem Work.markIf_keeps (b : Bool) (m : Nat) : Work.Keeps (·.markIf b m) := fun w => by
  cases b with
  | false => exact ⟨rfl, rfl, rfl⟩
  | true => exact ⟨rfl, rfl, rfl⟩

theorem Work.Keeps.comp {f g : Work → Work} (hg : Work.Keeps g) (hf : Work.Keeps f) : Work.Keeps fun w => g (f w) := fun w => by
  obtain ⟨hclosed, hid, hfront⟩ := hg (f w)
  obtain ⟨hclosed', hid', hfront'⟩ := hf w
  exact ⟨hclosed.trans hclosed', hid.trans hid', hfront.trans hfront'⟩

theorem Chip.source_modSource_same {s : Nat} (hs : s < c.pix.sources.length) (f : Source → Source) : (c.modSource s f).source s = f (c.source s) :=
  at'_modAt_same hs f

theorem Chip.source_modSource_other {s t : Nat} (hst : s ≠ t) (f : Source → Source) : (c.modSource s f).source t = c.source t :=
  at'_modAt_other _ hst f

theorem Chip.sources_modSource (s : Nat) (f : Source → Source) : (c.modSource s f).pix.sources.length = c.pix.sources.length :=
  List.length_modify ..

/-- A change of frames that keeps their numbers leaves which frame of the source is open. -/
theorem Chip.open_modWork {s id : Nat} {f : Work → Work} {w : Work} (hs : s < c.pix.sources.length) (hf : Work.Keeps f)
    (hopen : (c.source s).open' = some w) :
    ∃ w', ((c.modWork s id f).source s).open' = some w' ∧ w'.id = w.id ∧ w'.front = w.front := by
  have hfilter (l : List Work) : (l.map fun w => if w.id = id then f w else w).filter (fun w => !w.closed) =
      (l.filter fun w => !w.closed).map fun w => if w.id = id then f w else w := by
    rw [List.filter_map]
    refine congrArg _ (List.filter_congr fun w _ => ?_)
    obtain ⟨hclosed, -, -⟩ := hf w
    simp only [Function.comp_apply]
    split
    · rw [hclosed]
    · rfl
  refine ⟨if w.id = id then f w else w, ?_, ?_⟩
  · rw [Chip.modWork, Chip.source_modSource_same hs, Source.open', hfilter, List.getLast?_map, ← Source.open', hopen]
    rfl
  · obtain ⟨-, hid, hfront⟩ := hf w
    split
    · exact ⟨hid, hfront⟩
    · exact ⟨rfl, rfl⟩

theorem Chip.fifo_modWork {s id : Nat} {f : Work → Work} (hs : s < c.pix.sources.length) :
    ((c.modWork s id f).source s).fifo = (c.source s).fifo := by
  rw [Chip.modWork, Chip.source_modSource_same hs]

/-! ### A row -/

/-- A head whose next row is converted, its frame marked where taps are out. -/
def Chip.rowConverted (c : Chip) (h id out : Nat) (l : List Raw) : Chip :=
  ((c.countConverters h l).modHead h (fun (p : HeadPort) => { p with rows := p.rows + 1 })).modWork h id
    (fun w => w.markIf (out ≠ 0) markSubst)

/-- The samples of the next row of a head, tap by tap. -/
def Chip.rowTaps (c : Chip) (h : Nat) (raws : List (List (Option (BitVec 16)))) : List (List (Raw × Sample)) :=
  let g := geoOf c.dict h
  tab g.taps (fun t => c.tapSamples h t (g.w / max 1 g.taps) g.n (c.lineAt h (c.head h).rows) (raws.getD t []))

/-- The samples of the next row as its conversions. -/
def Chip.rowRaws (c : Chip) (h : Nat) (raws : List (List (Option (BitVec 16)))) : List Raw := (c.rowTaps h raws).flatten.map fun x => x.1

/-- The samples of the next row in the order of its columns, integration by integration. -/
def Chip.rowSamples (c : Chip) (h : Nat) (raws : List (List (Option (BitVec 16)))) : List (List Sample) :=
  let g := geoOf c.dict h
  tab g.n (fun i => tab g.w (fun col => ((((c.rowTaps h raws).getD (col % max 1 g.taps) []).map fun x => x.2).getD
    (i * (g.w / max 1 g.taps) + col / max 1 g.taps) default)))

theorem Chip.open_congr (hd : d.RowKept c) : (d.source h).open' = (c.source h).open' := by
  rw [Chip.source, hd.sources]
  rfl

theorem Chip.source_modHead (g : Nat) (f : HeadPort → HeadPort) : (c.modHead g f).source h = c.source h := rfl

theorem lineEligible_converts {raws : List (List (Option (BitVec 16)))} {w : Work} (htiming : (c.head h).timing = true)
    (hgap : (c.head h).gap = false) (hrun : c.get (K.runState h) = 3) (hrows : (c.head h).rows + 1 < (geoOf c.dict h).h)
    (hregion : c.regionRestarting 1 = false) (hruns : c.pixelRuns = true) (hopen : (c.source h).open' = some w) :
    lineEligible h raws c =
      (c.rowConverted h w.id (c.tapsOut h) (c.rowRaws h raws)).headLine h (c.head h).rows (c.rowSamples h raws) (c.rowRaws h raws) (c.tapsOut h) := by
  have hgo : ¬ ((!(c.head h).timing) = true ∨ (c.head h).gap = true ∨ (!decide (c.get (K.runState h) = 2 ∨ c.get (K.runState h) = 3 ∨
      c.get (K.runState h) = 5)) = true ∨ (geoOf c.dict h).h ≤ (c.head h).rows ∨ c.regionRestarting 1 = true) := by
    rw [htiming, hgap, hregion, hrun]
    simp only [Bool.not_true, Bool.false_eq_true, false_or, or_false]
    simp
    omega
  have hkept := c.countConverters_rowKept (h := h) (c.rowRaws h raws)
  have hruns' : (c.countConverters h (c.rowRaws h raws)).pixelRuns = true := by
    rw [Chip.pixelRuns, hkept.get _ (by decide)]
    exact hruns
  have hopen' := (Chip.open_congr (h := h) hkept).trans hopen
  generalize hd : c.countConverters h (c.rowRaws h raws) = d at hruns' hopen'
  unfold lineEligible
  dsimp only
  rw [if_neg hgo, if_neg (by omega : ¬ (c.head h).rows + 1 = (geoOf c.dict h).h), hrun]
  have hraws : (tab (geoOf c.dict h).taps fun t => c.tapSamples h t ((geoOf c.dict h).w / max 1 (geoOf c.dict h).taps) (geoOf c.dict h).n
      (c.lineAt h (c.head h).rows) (raws.getD t [])) = c.rowTaps h raws := rfl
  rw [hraws]
  simp only [if_neg (show ¬ (3 : Int) = 2 by decide)]
  refine (if_pos (hd ▸ hruns')).trans ?_
  have hid : (((c.countConverters h (c.rowRaws h raws)).source h).open'.map fun x => x.id).getD 0 = w.id := by rw [hd, hopen']; rfl
  rw [show (c.rowTaps h raws).flatten.map (fun x => x.1) = c.rowRaws h raws from rfl, Chip.source_modHead, hid]
  rfl

/-- A frame with the over-range, clamped and missing samples of a row. -/
def Work.withRow (raws : List Raw) (w : Work) : Work :=
  let ovr := (raws.filter fun (r : Raw) => r.ovr).length
  (({ w with ovr := w.ovr + ovr }.markIf (ovr ≠ 0) markOvr).clamps (raws.filter fun (r : Raw) => r.sat).length).markIf (raws.any fun (r : Raw) => r.miss) markSubst

/-- A line as its head gives it. -/
def newLine (frame row : Nat) (samples : List (List Sample)) (taps : Nat) : Line :=
  { frame := frame, row := row, samples := samples, pixels := [], tapsOut := taps, deadline := 0, done := false }

theorem Chip.headLine_enqueues {row taps : Nat} {samples : List (List Sample)} {raws : List Raw} {w : Work}
    (hs : h < c.pix.sources.length) (hopen : (c.source h).open' = some w) (hfront : w.front = true)
    (hroom : (c.source h).fifo.length < c.fifoRoom h) :
    c.headLine h row samples raws taps = (c.modWork h w.id (Work.withRow raws)).enqueue h (newLine w.id row samples taps) := by
  have hroom' : ((c.modWork h w.id (Work.withRow raws)).source h).fifo.length < c.fifoRoom h := by
    rw [Chip.fifo_modWork hs]
    exact hroom
  rw [Chip.headLine, hopen]
  dsimp only
  rw [hfront, if_neg (by decide)]
  exact if_pos hroom'

/-- The deadline of the next line of a source (R312). -/
def Chip.lineDeadline (c : Chip) (s : Nat) (l : Line) : Nat :=
  match (c.source s).deadline with
  | some (f, p) => if f = l.frame then max (c.mono * 6) p + c.lineInterval s else c.mono * 6 + c.lineInterval s
  | none => c.mono * 6 + c.lineInterval s

/-- A source with a line behind what waits. -/
def Chip.lineJoined (c : Chip) (s : Nat) (l : Line) : Chip :=
  (c.modSource s (fun (x : Source) => { x with
    fifo := x.fifo ++ [{ l with deadline := c.lineDeadline s l }], deadline := some (l.frame, c.lineDeadline s l) })).modWork s l.frame
      (fun w => { w with left := w.left + 1 })

theorem Chip.enqueue_joins {l : Line} : c.enqueue h l =
    (c.lineJoined h l).set (K.fifoPeak h) (max (c.nat (K.fifoPeak h)) ((c.lineJoined h l).source h).fifo.length : Nat) := rfl

theorem Chip.fifo_enqueue {l : Line} (hs : h < c.pix.sources.length) :
    ((c.enqueue h l).source h).fifo = (c.source h).fifo ++ [{ l with deadline := c.lineDeadline h l }] := by
  rw [Chip.enqueue_joins]
  refine (Chip.fifo_modWork (c := c.modSource h _) (by rw [Chip.sources_modSource]; exact hs)).trans ?_
  rw [Chip.source_modSource_same hs]

/-! ### What the row leaves -/

theorem Chip.heads_enqueue {l : Line} : (c.enqueue h l).heads = c.heads ∧ (c.enqueue h l).dram = c.dram ∧ (c.enqueue h l).onion = c.onion := by
  rw [Chip.enqueue_joins]
  exact ⟨rfl, rfl, rfl⟩

theorem Chip.source_enqueue_other {l : Line} {g : Nat} (hg : h ≠ g) : (c.enqueue h l).source g = c.source g := by
  rw [Chip.enqueue_joins]
  exact (Chip.source_modSource_other hg _).trans (Chip.source_modSource_other hg _)

/-- The next row of a head with its frame marked: the head, the sources of the others, the memory and the sets. -/
theorem Chip.rowTaken_shows {id : Nat} {f : Work → Work} (hh : h < c.heads.length) :
    (((c.modHead h (fun (p : HeadPort) => { p with rows := p.rows + 1 })).modWork h id f).head h).rows = (c.head h).rows + 1 ∧
    (∀ g, g ≠ h → ((c.modHead h (fun (p : HeadPort) => { p with rows := p.rows + 1 })).modWork h id f).head g = c.head g) ∧
    (∀ g, g ≠ h → ((c.modHead h (fun (p : HeadPort) => { p with rows := p.rows + 1 })).modWork h id f).source g = c.source g) := by
  refine ⟨congrArg HeadPort.rows (at'_modAt_same hh fun (p : HeadPort) => { p with rows := p.rows + 1 }), fun g hg => ?_, fun g hg => ?_⟩
  · exact at'_modAt_other c.heads hg.symm fun (p : HeadPort) => { p with rows := p.rows + 1 }
  · exact Chip.source_modSource_other hg.symm _

/-- A converted row: the head, the sources of the others, the memory and the sets. -/
theorem Chip.rowConverted_shows {id out : Nat} {l : List Raw} (hh : h < c.heads.length) :
    ((c.rowConverted h id out l).head h).rows = (c.head h).rows + 1 ∧ (∀ g, g ≠ h → (c.rowConverted h id out l).head g = c.head g) ∧
    (∀ g, g ≠ h → (c.rowConverted h id out l).source g = c.source g) ∧ (c.rowConverted h id out l).dram = c.dram ∧
    (c.rowConverted h id out l).onion = c.onion := by
  have hkept := c.countConverters_rowKept (h := h) l
  have hlen : h < (c.countConverters h l).heads.length := lt_of_lt_of_eq hh (congrArg List.length hkept.heads.symm)
  unfold Chip.rowConverted
  generalize c.countConverters h l = d at hkept hlen
  have hhead (g : Nat) : d.head g = c.head g := congrArg (fun x => at' x g) hkept.heads
  have hsource (g : Nat) : d.source g = c.source g := congrArg (fun x => at' x g) hkept.sources
  obtain ⟨hrows, hothers, hsources⟩ := Chip.rowTaken_shows (id := id) (f := fun w => w.markIf (out ≠ 0) markSubst) hlen
  rw [hhead] at hrows
  refine ⟨hrows, fun g hg => (hothers g hg).trans (hhead g), fun g hg => (hsources g hg).trans (hsource g), hkept.dram, hkept.onion⟩

/-- A converted row leaves the FIFO of its source and the frame that is open. -/
theorem Chip.rowConverted_source {id out : Nat} {l : List Raw} {w : Work} (hs : h < c.pix.sources.length) (hopen : (c.source h).open' = some w) :
    ((c.rowConverted h id out l).source h).fifo = (c.source h).fifo ∧ (c.rowConverted h id out l).pix.sources.length = c.pix.sources.length ∧
    ∃ w', ((c.rowConverted h id out l).source h).open' = some w' ∧ w'.id = w.id ∧ w'.front = w.front := by
  have hkept := c.countConverters_rowKept (h := h) l
  generalize hd : (c.countConverters h l).modHead h (fun (p : HeadPort) => { p with rows := p.rows + 1 }) = d
  have hsources : d.pix.sources = c.pix.sources := by
    rw [← hd]
    exact hkept.sources
  have hsource : d.source h = c.source h := congrArg (fun x => at' x h) hsources
  have hs' : h < d.pix.sources.length := lt_of_lt_of_eq hs (congrArg List.length hsources.symm)
  rw [Chip.rowConverted, hd, Chip.fifo_modWork hs', hsource, Chip.modWork, Chip.sources_modSource, hsources]
  exact ⟨rfl, rfl, Chip.open_modWork hs' (Work.markIf_keeps _ _) (hsource ▸ hopen)⟩

theorem Chip.rowConverted_get {id out k : Nat} {l : List Raw} (hk : k < 0x282000) : (c.rowConverted h id out l).get k = c.get k := by
  rw [Chip.rowConverted, Chip.get_modWork, Chip.get_modHead, (c.countConverters_rowKept (h := h) l).get k hk]

end

/-- Settles O38: the conversion counts and marks, and the line joins behind what the FIFO held. -/
theorem headRowsReachTheirFifo : Obligations.HeadRowsReachTheirFifo := by
  unfold Obligations.HeadRowsReachTheirFifo
  intro s h samples w
  dsimp only
  intro htiming hgap hrun hrows hregion hruns hopen hfront hroom hsources hheads
  have hh : h.val < s.chip.fresh.heads.length := lt_of_lt_of_eq h.isLt hheads.symm
  have hs : h.val < s.chip.fresh.pix.sources.length := lt_of_lt_of_eq (by omega) hsources.symm
  have hrow := lineEligible_converts (c := s.chip.fresh) (raws := samples) htiming hgap hrun hrows hregion hruns hopen
  obtain ⟨hnext, hothers, hapart, hdram, honion⟩ := Chip.rowConverted_shows (c := s.chip.fresh) (id := w.id) (out := s.chip.fresh.tapsOut h)
    (l := s.chip.fresh.rowRaws h samples) hh
  obtain ⟨hfifo, hlen, w', hopen', hid, hfront'⟩ := Chip.rowConverted_source (c := s.chip.fresh) (id := w.id) (out := s.chip.fresh.tapsOut h)
    (l := s.chip.fresh.rowRaws h samples) hs hopen
  have hget (k : Nat) (hk : k < 0x282000) := Chip.rowConverted_get (c := s.chip.fresh) (h := h) (id := w.id) (out := s.chip.fresh.tapsOut h)
    (l := s.chip.fresh.rowRaws h samples) hk
  generalize hd : s.chip.fresh.rowConverted h w.id (s.chip.fresh.tapsOut h) (s.chip.fresh.rowRaws h samples) = d at *
  have hsd : h.val < d.pix.sources.length := lt_of_lt_of_eq hs hlen.symm
  have hroom' : (d.source h).fifo.length < d.fifoRoom h := by
    rw [hfifo, Chip.fifoRoom_congr h.isLt hget]
    exact hroom
  rw [Chip.headLine_enqueues hsd hopen' (hfront'.trans hfront) hroom', hid] at hrow
  generalize hline : newLine w.id (s.chip.fresh.head h).rows (s.chip.fresh.rowSamples h samples) (s.chip.fresh.tapsOut h) = line at hrow
  have hjoined := Chip.fifo_enqueue (c := d.modWork h w.id (Work.withRow (s.chip.fresh.rowRaws h samples))) (h := h) (l := line)
    (lt_of_lt_of_eq hsd (Chip.sources_modSource ..).symm)
  rw [Chip.fifo_modWork hsd, hfifo] at hjoined
  generalize Work.withRow (s.chip.fresh.rowRaws h samples) = f at hrow hjoined
  obtain ⟨hqheads, hqdram, hqonion⟩ := Chip.heads_enqueue (c := d.modWork h w.id f) (h := h) (l := line)
  have hqhead (g : Nat) : ((d.modWork h w.id f).enqueue h line).head g = d.head g := congrArg (fun x => at' x g) hqheads
  have hqsource (g : Nat) (hg : g ≠ h.val) : ((d.modWork h w.id f).enqueue h line).source g = d.source g :=
    (Chip.source_enqueue_other hg.symm).trans (Chip.source_modSource_other hg.symm _)
  refine leaves_of_eq rfl hrow ⟨?_, ⟨?_, ?_⟩, fun g hg => ?_, fun g hg => ?_, ?_, ?_⟩
  · rw [Chip.head, settle_heads, ← Chip.head, hqhead, hnext]
    rfl
  · rw [Chip.source, settle_pix, ← Chip.source, hjoined, List.dropLast_concat]
    rfl
  · rw [Chip.source, settle_pix, ← Chip.source, hjoined, List.getLast?_concat, ← hline]
    rfl
  · rw [Chip.head, settle_heads, ← Chip.head, hqhead, hothers g (fun he => hg (Fin.ext he))]
    rfl
  · rw [Chip.source, settle_pix, ← Chip.source, hqsource g hg, hapart g hg]
    rfl
  · rw [settle_dram, hqdram]
    exact hdram
  · rw [settle_onion, hqonion]
    exact honion

end Sys2Proof.Machine
end

section
/-! Streams in a pixel die that runs for the host link alone (R483). -/

namespace Sys2Proof.Machine

/-- A part that could start stream 7, its pixel die on for the host link alone. -/
def hostOnlyStream : State := (stream7 []).but (fun c => { c with mode := { c.mode with pixelUse := .hostOnly } })

/-- Every condition that the statement sets on a start of the stream. -/
theorem hostOnlyStream_mayStart :
    hostOnlyStream.chip.serves .mc (K.streamRun 7) ∧ hostOnlyStream.chip.pixelOn = true ∧ hostOnlyStream.chip.get (K.streamState 7) = 0 ∧
    hostOnlyStream.chip.nv (K.streamSource 7) < 16 ∧ hostOnlyStream.chip.sourceWanted (hostOnlyStream.chip.nv (K.streamSource 7)) = true ∧
    hostOnlyStream.chip.val (K.ringBase 7) ≠ 0 ∧ hostOnlyStream.chip.val (K.slotSize 7) ≠ 0 ∧ hostOnlyStream.chip.streamFormatOk 7 = true ∧
    hostOnlyStream.chip.streamShape 7 = true ∧ (hostOnlyStream.chip.fresh.admitted (K.streamRun 7) 1).2 = false ∧
    hostOnlyStream.chip.pix.streams.length = 8 := by decide

/-- A die on for the host link alone keeps the request and leaves the stream stopped. -/
theorem streamRunOne_hostOnly {c : Chip} {n : Nat} (huse : c.mode.pixelUse = .hostOnly) : streamRunOne n c = (c.set (K.streamRun n) 1, none) :=
  if_neg fun ⟨_, hother⟩ => hother huse

theorem streamState_of_hostOnly {s t : State} {m : Master} {n : Fin 8} (hs : s.chip.serves m (K.streamRun n))
    (huse : s.chip.mode.pixelUse = .hostOnly) (hexec : exec (.streamStart m n) s = .next t) :
    t.chip.get (K.streamState n) = s.chip.get (K.streamState n) := by
  obtain ⟨u, hexec', -, -, hkept⟩ := effect_of_command2 (i := .streamStart m n) rfl hs (streamRunOne_hostOnly (c := s.chip.fresh) huse)
  injection hexec.symm.trans hexec' with htu
  subst htu
  have hstatus : K.streamState n ∉ statusKeys := by fin_cases n <;> decide
  rw [hkept _ hstatus, Chip.get_set_other _ _ _ _ (by simp only [K.streamState, K.streamRun]; omega)]
  rfl

theorem hostOnlyStream_use : hostOnlyStream.chip.mode.pixelUse = .hostOnly := rfl

/-- Refutes O43: where the pixel die is on for the host link alone, STREAM_RUN is kept and the stream does not start. -/
theorem not_streamsDeliver : ¬ Obligations.StreamsDeliver := by
  unfold Obligations.StreamsDeliver
  rintro ⟨hstream, -⟩
  obtain ⟨hs, hon, hstate, hsource, hwanted, hbase, hsize, hformat, hshape, hadmitted, hlen⟩ := hostOnlyStream_mayStart
  obtain ⟨-, -, -, hstart⟩ := hstream hostOnlyStream .mc 7 hs
  obtain ⟨t, hexec, -, -, hstarted, -⟩ := hstart hon hstate hsource hwanted hbase hsize hformat hshape hadmitted hlen
  have hkept := streamState_of_hostOnly hs hostOnlyStream_use hexec
  exact absurd (hstarted.symm.trans (hkept.trans hstate)) (by decide)

end Sys2Proof.Machine
end

section
/-! A copy of statistics whose channel writes its completion record into a set (R422). -/

namespace Sys2Proof.Machine

theorem after_of_exec {i : Instr} {s t : State} (h : exec i s = .next t) : after i s = t.chip := by
  rw [after, h]

/-- A copy of a record of source 5 that ends on channel 15, whose own record goes to the view of a set in DRAM. -/
def recordedCopy : State :=
  (fullState [(K.statDmaChannel 5, 15), (K.statHostSlots 5, 2), (K.dmaState 15, 3), (K.dmaRecordAddr 15, 4096)]).but (fun c => { c with
    pix := { c.pix with copies := [{ source := 5, seq := 7, started := true, data := some rec5 }] }
    dma := { c.dma with grant := some ⟨15, [], false⟩ }
    onion := { c.onion with sets := [some { view := [0], shadow := [], base := 4096, factoryCrc := 0 }] } })

/-- Every condition that the statement sets on the end of a copy. -/
theorem recordedCopy_ends :
    let x : StatCopy := { source := 5, seq := 7, started := true, data := some rec5 }
    recordedCopy.chip.dmaCopy? 15 = some x ∧ x.data = some rec5 ∧ x.source < 6 ∧ (0 : BitVec 8).toNat ≤ 2 ∧ recordedCopy.chip.canSend0 = true ∧
    recordedCopy.chip.dmaWorks = true ∧ recordedCopy.chip.dmaMayEnd 15 = true := by decide

set_option maxRecDepth 40000 in
/-- The channel's record, its sequence first, stands in the view of the set. -/
theorem recordedCopy_writes : (after (.statHostCopyComplete 15 0) recordedCopy).onion.sets ≠ recordedCopy.chip.onion.sets := by decide

/-- Refutes O44: the end of a copy writes the record of its channel, which may go to the image of a set. -/
theorem not_statisticsAndPalettes : ¬ Obligations.StatisticsAndPalettes := by
  unfold Obligations.StatisticsAndPalettes
  rintro ⟨⟨-, -, hends⟩, -⟩
  obtain ⟨hcopy, hdata, hsource, hstatus, hsend, hworks, hmay⟩ := recordedCopy_ends
  obtain ⟨t, hexec, -, -, -, -, -, -, -, -, honion⟩ := hends recordedCopy 15 0 _ rec5 hcopy hdata hsource hstatus hsend hworks hmay
  exact recordedCopy_writes (by rw [after_of_exec hexec, honion])

end Sys2Proof.Machine
end

section
/-! The messages of a mailbox channel (R404 to R413). -/

namespace Sys2Proof.Machine

section
variable {c : Chip} {ch : Nat} {m : Master}

theorem mbxByHost_pass {k : Except Abort Chip} (hm : mbxHost ch m = true) : mbxByHost ch m c k = k := if_pos hm

/-! ### The host's commands -/

theorem mbxSend_sends (hm : mbxHost ch m = true) (hfull : c.h2dFull ch = false) (hrun : c.boot.hkpRestart = false)
    (hbusy : c.gnonerBusy = true) (hlow : 0 < hdrLength (c.nat (K.mbxH2dWord ch 0))) (hhigh : hdrLength (c.nat (K.mbxH2dWord ch 0)) ≤ 8) :
    mbxSend ch m c = .ok ((((c.set (K.mbxH2dState ch) 1).mbxFlag ch 0 false).modMbx ch (fun (x : Mbx) =>
      { x with timeoutRaised := false, takenAt := none })).bump (K.mbxSent ch)) := by
  have hlen : decide (hdrLength (c.nat (K.mbxH2dWord ch 0)) = 0 ∨ 8 < hdrLength (c.nat (K.mbxH2dWord ch 0))) = false :=
    decide_eq_false (by omega)
  unfold mbxSend
  dsimp only
  rw [mbxByHost_pass hm, guardNot_pass hrun, guardNot_pass hfull, guardNot_pass hlen, hbusy, if_pos rfl]

theorem mbxSend_full (hm : mbxHost ch m = true) (hfull : c.h2dFull ch = true) (hrun : c.boot.hkpRestart = false) :
    mbxSend ch m c = .error Abort.localControl := by
  unfold mbxSend
  dsimp only
  rw [mbxByHost_pass hm, guardNot_pass hrun]
  exact guardNot_refuses hfull

theorem mbxRecall_empties (hm : mbxHost ch m = true) (hfull : c.h2dFull ch = true) :
    mbxRecall ch m c = .ok ((((c.set (K.mbxH2dState ch) 0).mbxFlag ch 1 true).mbxFlag ch 2 false).bump (K.mbxRecalls ch)) := by
  rw [mbxRecall, mbxByHost_pass hm, if_pos hfull]

theorem mbxD2hRelease_releases (hm : mbxHost ch m = true) : mbxD2hRelease ch m c =
    .ok ((c.set (K.mbxD2hState ch) 0).modMbx ch (fun (x : Mbx) => { x with d2hTimedOut := false })) := by
  rw [mbxD2hRelease, mbxByHost_pass hm]

theorem mbxIrqAck_clears {v : Nat} (hm : mbxHost ch m = true) : mbxIrqAck ch m v c =
    (let again := Nat.land (c.risesAgain (K.mbxIrqStatus ch) v) (c.nat (K.mbxIrqEnable ch))
     .ok ((List.range 4).foldl (fun (c : Chip) b => if bitOf again b then c.mbxMessage ch else c) (c.ackBits (K.mbxIrqStatus ch) v))) := by
  rw [mbxIrqAck, mbxByHost_pass hm]

/-! ### Timeouts and requests -/

theorem mbxTimeout_counts (hruns : c.pixelRuns = true) (hfull : c.d2hFull ch = true) (hfirst : (c.mbxOf ch).d2hTimedOut = false) :
    mbxTimeout ch true c = (c.modMbx ch (fun (x : Mbx) => { x with d2hTimedOut := true })).bump (K.mbxD2hTimeouts ch) := by
  rw [mbxTimeout, if_neg (by rw [hruns]; decide), if_pos rfl]
  exact if_pos ⟨hfull, by rw [hfirst]; rfl⟩

/-- An interrupt whose bit is set is only noted. -/
theorem Chip.mbxIrq_set {b : Nat} (hbit : bitOf (c.nat (K.mbxIrqStatus ch)) b = true) :
    c.mbxIrq ch b = c.noteBit (K.mbxIrqStatus ch) b (!bitOf (c.nat (K.mbxIrqStatus ch)) b) := if_pos hbit

theorem mbxTake_takes (hruns : c.pixelRuns = true) (hfull : c.h2dFull ch = true) (hroom : (c.mbxOf ch).store.length < 2)
    (hrun : c.boot.hkpRestart = false) : mbxTake ch c = ((c.set (K.mbxH2dState ch) 0).modMbx ch (fun (x : Mbx) => { x with
      store := x.store ++ [{ words := c.h2dWords ch, reply := mbxRefusal? ch (c.h2dWords ch) }], takenAt := some c.mono })).mbxIrq ch 1 :=
  if_pos ⟨hruns, hfull, hroom, by rw [hrun]; rfl⟩

/-! ### The reply -/

/-- A part with the words of a reply. -/
def Chip.replyWords (c : Chip) (ch : Nat) (words : List Nat) : Chip :=
  (List.range 8).foldl (fun c j => c.set (K.mbxD2hWord ch j) (words.getD j 0 : Nat)) c

theorem Chip.get_replyWords (words : List Nat) {j : Nat} (hj : j < 8) :
    (c.replyWords ch words).get (K.mbxD2hWord ch j) = (words.getD j 0 : Nat) := by
  unfold Chip.replyWords
  rw [show List.range 8 = [0, 1, 2, 3, 4, 5, 6, 7] from rfl]
  simp only [List.foldl_cons, List.foldl_nil]
  interval_cases j <;> simp [Chip.get_set, K.mbxD2hWord]

theorem Chip.get_replyWords_other (words : List Nat) {k : Nat} (hk : ∀ j < 8, k ≠ K.mbxD2hWord ch j) :
    (c.replyWords ch words).get k = c.get k := by
  unfold Chip.replyWords
  exact List.foldlRecOn (motive := fun d : Chip => d.get k = c.get k) _ _ rfl fun d hd j hj =>
    (Chip.get_set_other _ _ _ _ (hk j (List.mem_range.1 hj))).trans hd

theorem Chip.mbx_replyWords (words : List Nat) : (c.replyWords ch words).mbx = c.mbx := by
  unfold Chip.replyWords
  exact List.foldlRecOn (motive := fun d : Chip => d.mbx = c.mbx) _ _ rfl fun d hd _ _ => hd

/-- A reply in place. -/
def Chip.replyPlaced (c : Chip) (ch : Nat) (words : List Nat) (rest : List MbxRequest) : Chip :=
  (((c.replyWords ch words).modMbx ch (fun (x : Mbx) => { x with store := rest, d2hTimedOut := false })).set (K.mbxD2hState ch) 1).bump
    (K.mbxReceived ch)

theorem mbxD2hSend_replies {r : MbxRequest} {rest : List MbxRequest} {words : List Nat} (hstore : (c.mbxOf ch).store = r :: rest)
    (hreply : r.reply = some words) (hfree : c.d2hFull ch = false) (hruns : c.pixelRuns = true) (hrun : c.boot.hkpRestart = false) :
    mbxD2hSend ch c = if ch < 6 then ((c.replyPlaced ch words rest).mbxIrq ch 0).wakeCause else (c.replyPlaced ch words rest).mbxIrq ch 0 := by
  have hgo : ¬ (c.d2hFull ch = true ∨ (!c.pixelRuns) = true ∨ c.boot.hkpRestart = true) := by
    rw [hfree, hruns, hrun]
    decide
  rw [mbxD2hSend, hstore]
  dsimp only
  rw [hreply]
  exact if_neg hgo

/-- Messages and the wake of the host leave the objects and the channels. -/
theorem Chip.wakeCause_leaves : (∀ k, c.wakeCause.get k = c.get k) ∧ c.wakeCause.mbx = c.mbx := by
  unfold Chip.wakeCause
  dsimp only
  generalize hd : (if c.pcie.d3hot0 = true then _ else c) = d
  have hsame : (∀ k, d.get k = c.get k) ∧ d.mbx = c.mbx := by
    subst hd
    split
    · split <;> exact ⟨fun _ => rfl, rfl⟩
    · exact ⟨fun _ => rfl, rfl⟩
  split
  · exact hsame
  · exact hsame

theorem Chip.mbxMessage_leaves : (∀ k, (c.mbxMessage ch).get k = c.get k) ∧ (c.mbxMessage ch).mbx = c.mbx := by
  unfold Chip.mbxMessage Chip.msix0 Chip.msix1
  split <;> split <;> exact ⟨fun _ => rfl, rfl⟩

theorem bitOf_add_two_pow {v b : Nat} (h : bitOf v b = false) : bitOf (v + 2 ^ b) b = true := by
  unfold bitOf at h ⊢
  rw [Nat.add_div_right _ (Nat.two_pow_pos b)]
  simp only [decide_eq_false_iff_not, decide_eq_true_eq] at h ⊢
  omega

/-- An interrupt that rises sets its bit, beside messages. -/
theorem Chip.mbxIrq_rises {b : Nat} (hbit : bitOf (c.nat (K.mbxIrqStatus ch)) b = false) :
    (c.mbxIrq ch b).mbx = c.mbx ∧
    ∀ k, (c.mbxIrq ch b).get k = (c.set (K.mbxIrqStatus ch) (c.nat (K.mbxIrqStatus ch) + 2 ^ b : Nat)).get k := by
  unfold Chip.mbxIrq
  dsimp only
  rw [hbit, if_neg Bool.false_ne_true]
  split
  · obtain ⟨hget, hmbx⟩ := Chip.mbxMessage_leaves (ch := ch)
      (c := (c.noteBit (K.mbxIrqStatus ch) b (!false)).set (K.mbxIrqStatus ch) (c.nat (K.mbxIrqStatus ch) + 2 ^ b : Nat))
    exact ⟨hmbx, hget⟩
  · exact ⟨rfl, fun _ => rfl⟩

/-- An interrupt sets its bit and leaves every other object and the channels. -/
theorem Chip.mbxIrq_leaves (b : Nat) : bitOf ((c.mbxIrq ch b).nat (K.mbxIrqStatus ch)) b = true ∧ (c.mbxIrq ch b).mbx = c.mbx ∧
    ∀ k, k ≠ K.mbxIrqStatus ch → (c.mbxIrq ch b).get k = c.get k := by
  rcases hbit : bitOf (c.nat (K.mbxIrqStatus ch)) b with _ | _
  · obtain ⟨hmbx, hget⟩ := Chip.mbxIrq_rises hbit
    refine ⟨?_, hmbx, fun k hk => (hget k).trans (Chip.get_set_other _ _ _ _ hk)⟩
    rw [Chip.nat, hget, Chip.get_set_same, Int.toNat_natCast]
    exact bitOf_add_two_pow hbit
  · rw [Chip.mbxIrq_set hbit]
    exact ⟨hbit, rfl, fun _ _ => rfl⟩

/-- What a reply leaves. -/
theorem mbxD2hSend_leaves {r : MbxRequest} {rest : List MbxRequest} {words : List Nat} (hstore : (c.mbxOf ch).store = r :: rest)
    (hreply : r.reply = some words) (hfree : c.d2hFull ch = false) (hruns : c.pixelRuns = true) (hrun : c.boot.hkpRestart = false) :
    (mbxD2hSend ch c).mbx = (c.replyPlaced ch words rest).mbx ∧ bitOf ((mbxD2hSend ch c).nat (K.mbxIrqStatus ch)) 0 = true ∧
    ∀ k, k ≠ K.mbxIrqStatus ch → (mbxD2hSend ch c).get k = (c.replyPlaced ch words rest).get k := by
  obtain ⟨hbit, hmbx, hget⟩ := Chip.mbxIrq_leaves (c := c.replyPlaced ch words rest) (ch := ch) 0
  rw [mbxD2hSend_replies hstore hreply hfree hruns hrun]
  generalize (c.replyPlaced ch words rest).mbxIrq ch 0 = d at hbit hmbx hget
  split
  · obtain ⟨hwake, hwakeMbx⟩ := d.wakeCause_leaves
    exact ⟨hwakeMbx.trans hmbx, by rw [Chip.nat, hwake]; exact hbit, fun k hk => (hwake k).trans (hget k hk)⟩
  · exact ⟨hmbx, hbit, hget⟩

theorem Chip.mbx_replyPlaced (words : List Nat) (rest : List MbxRequest) (hch : ch < c.mbx.length) :
    ((c.replyPlaced ch words rest).mbxOf ch).store = rest := by
  have hlen : ch < (c.replyWords ch words).mbx.length := lt_of_lt_of_eq hch (congrArg List.length (Chip.mbx_replyWords words).symm)
  exact congrArg Mbx.store (at'_modAt_same hlen fun (x : Mbx) => { x with store := rest, d2hTimedOut := false })

theorem Chip.get_replyPlaced (words : List Nat) (rest : List MbxRequest) :
    (∀ j < 8, (c.replyPlaced ch words rest).get (K.mbxD2hWord ch j) = (words.getD j 0 : Nat)) ∧
    (c.replyPlaced ch words rest).get (K.mbxD2hState ch) = 1 ∧
    (c.replyPlaced ch words rest).get (K.mbxReceived ch) = min (c.get (K.mbxReceived ch) + 1) 0xFFFFFFFF := by
  have hstate : K.mbxReceived ch ≠ K.mbxD2hState ch := by
    simp only [K.mbxReceived, K.mbxD2hState]
    omega
  unfold Chip.replyPlaced
  refine ⟨fun j hj => ?_, ?_, ?_⟩
  · rw [Chip.get_bump, if_neg (by simp only [K.mbxD2hWord, K.mbxReceived]; omega), Chip.get_set_other _ _ _ _
      (by simp only [K.mbxD2hWord, K.mbxD2hState]; omega), Chip.get_modMbx, Chip.get_replyWords words hj]
  · rw [Chip.get_bump, if_neg hstate.symm, Chip.get_set_same]
  · rw [Chip.get_bump, if_pos rfl, Chip.get_set_other _ _ _ _ hstate, Chip.get_modMbx, Chip.get_replyWords_other words
      (fun j hj => by simp only [K.mbxReceived, K.mbxD2hWord]; omega)]

theorem K.mbx_keys (ch : Fin 8) : (∀ j : Fin 8, K.mbxD2hWord ch j ∉ statusKeys) ∧ K.mbxD2hState ch ∉ statusKeys ∧ K.mbxReceived ch ∉ statusKeys ∧
    K.mbxIrqStatus ch ∉ statusKeys := by
  revert ch
  decide

/-! ### The watchdog -/

theorem mbxChannelWatchdog_judges (hruns : c.pixelRuns = true) :
    mbxChannelWatchdog ch c = c.watchdog 4 3 ch 0x4003 ch 0 (fun c => c.mbxRestarted ch) := if_pos hruns

end

/-- Settles O45: the commands by the state of their buffer, the reply by its words, the interrupts by their bits. -/
theorem mailboxMessages : Obligations.MailboxMessages := by
  unfold Obligations.MailboxMessages
  intro s m ch hm
  refine ⟨fun hs => ⟨?send, ?full, ?recalled⟩, ?release, ?ack, fun hruns => ⟨?timeout, ?take, ?reply, ?suspended, ?held, ?reset⟩⟩
  case send =>
    intro hfull hrun hbusy hlow hhigh
    exact effect_of_command rfl hs (mbxSend_sends (c := s.chip.fresh) hm hfull hrun hbusy hlow hhigh) ⟨rfl, fun _ _ => rfl⟩
  case full => exact fun hfull hrun => effect_of_refused rfl hs (mbxSend_full (c := s.chip.fresh) hm hfull hrun)
  case recalled =>
    exact fun hfull => effect_of_command rfl hs (mbxRecall_empties (c := s.chip.fresh) hm hfull) ⟨rfl, fun _ _ => rfl⟩
  case release => exact fun hs => effect_of_command rfl hs (mbxD2hRelease_releases (c := s.chip.fresh) hm) ⟨rfl, fun _ _ => rfl⟩
  case ack => exact fun v hs => effect_of_command rfl hs (mbxIrqAck_clears (c := s.chip.fresh) hm) (Chip.agrees_refl _)
  case timeout =>
    exact fun hfull hfirst => effect_of_eq rfl (mbxTimeout_counts (c := s.chip.fresh) hruns hfull hfirst) ⟨rfl, fun _ _ => rfl⟩
  case take =>
    intro hfull hroom hrun hbit
    have htake := mbxTake_takes (c := s.chip.fresh) hruns hfull hroom hrun
    have hother : K.mbxIrqStatus ch ≠ K.mbxH2dState ch := by
      simp only [K.mbxIrqStatus, K.mbxH2dState]
      omega
    have hset (f : Mbx → Mbx) : bitOf (((s.chip.fresh.set (K.mbxH2dState ch) 0).modMbx ch f).nat (K.mbxIrqStatus ch)) 1 = true := by
      rw [Chip.nat, Chip.get_modMbx, Chip.get_set_other _ _ _ _ hother]
      exact hbit
    rw [Chip.mbxIrq_set (hset _)] at htake
    exact effect_of_eq rfl htake ⟨rfl, fun _ _ => rfl⟩
  case reply =>
    intro r rest words hstore hreply hfree hrun hlen
    obtain ⟨hmbx, hbit, hget⟩ := mbxD2hSend_leaves (c := s.chip.fresh) hstore hreply hfree hruns hrun
    obtain ⟨hwords, hstate, hcount⟩ := Chip.get_replyPlaced (c := s.chip.fresh) (ch := ch) words rest
    obtain ⟨hwordKey, hstateKey, hcountKey, hirqKey⟩ := K.mbx_keys ch
    refine leaves_of_eq rfl rfl ⟨fun j => ?_, ?_, ?_, ?_, ?_⟩
    · rw [settle_get _ _ _ (hwordKey j), hget _ (by simp only [K.mbxD2hWord, K.mbxIrqStatus]; omega), hwords j j.isLt]
    · rw [settle_get _ _ _ hstateKey, hget _ (by simp only [K.mbxD2hState, K.mbxIrqStatus]; omega), hstate]
    · rw [Chip.mbxOf, settle_mbx, hmbx, ← Chip.mbxOf]
      exact Chip.mbx_replyPlaced words rest (lt_of_lt_of_eq ch.isLt hlen.symm)
    · rw [settle_get _ _ _ hcountKey, hget _ (by simp only [K.mbxReceived, K.mbxIrqStatus]; omega), hcount]
      rfl
    · rw [Chip.nat, settle_get _ _ _ hirqKey]
      exact hbit
  case suspended =>
    exact fun hs => effect_of_eq rfl ((mbxChannelWatchdog_judges (c := s.chip.fresh) hruns).trans (Chip.watchdog_suspended (c := s.chip.fresh) hs))
      ⟨rfl, fun _ _ => rfl⟩
  case held =>
    exact fun hs hh => effect_eq rfl ((mbxChannelWatchdog_judges (c := s.chip.fresh) hruns).trans
      ((Chip.watchdog_held (c := s.chip.fresh) hs hh).trans (Chip.cellExpired_held (c := s.chip.fresh) (by decide) hh)))
  case reset =>
    exact fun hs hh => effect_eq rfl ((mbxChannelWatchdog_judges (c := s.chip.fresh) hruns).trans
      (Chip.watchdog_free (c := s.chip.fresh) hs hh))

end Sys2Proof.Machine
end

section
/-! A head that is lost (R138 to R140): what the end of its frame and of its calibration leave. -/

namespace Sys2Proof.Machine

/-- A change of one entry that leaves a field leaves it in every entry. -/
theorem at'_modAt_field {α β : Type} [Inhabited α] (p : α → β) {f : α → α} (hf : ∀ x, p (f x) = p x) (l : List α) (i j : Nat) :
    p (at' (modAt l i f) j) = p (at' l j) := by
  by_cases hij : i = j
  · subst hij
    by_cases hi : i < l.length
    · rw [at'_modAt_same hi, hf]
    · rw [at', at', List.getD_eq_default _ _ (by rw [modAt, List.length_modify]; omega), List.getD_eq_default _ _ (by omega)]
  · rw [at'_modAt_other l hij]

section
variable {c d e : Chip} {h : Nat}

/-! ### Work beside the head ports -/

/-- A part with the head ports of another and the objects of their own pages. -/
structure Chip.PortKept (d c : Chip) : Prop where
  heads : d.heads = c.heads
  get : ∀ k, 0x240000 ≤ k → k < 0x250000 → d.get k = c.get k

/-- The same, with the clock, the converters and the events of Solstice. -/
structure Chip.FrameKept (d c : Chip) : Prop extends d.PortKept c where
  clk : d.clk = c.clk
  banks : d.banks = c.banks
  ev : ∀ g, (d.solstice g).ev = (c.solstice g).ev

namespace Chip.PortKept

theorem refl (c : Chip) : c.PortKept c := ⟨rfl, fun _ _ _ => rfl⟩

theorem trans (h : e.PortKept d) (h' : d.PortKept c) : e.PortKept c :=
  ⟨h.heads.trans h'.heads, fun k hlow hhigh => (h.get k hlow hhigh).trans (h'.get k hlow hhigh)⟩

theorem set (h : d.PortKept c) {k : Nat} (hk : 0x250000 ≤ k) (v : Int) : (d.set k v).PortKept c :=
  ⟨h.heads, fun j hlow hhigh => (Chip.get_set_other _ _ _ _ (by omega)).trans (h.get j hlow hhigh)⟩

theorem bumpBy (h : d.PortKept c) {k : Nat} (hk : 0x250000 ≤ k) (n : Nat) : (d.bumpBy k n).PortKept c :=
  ⟨h.heads, fun j hlow hhigh => by
    rw [Chip.get_bumpBy, if_neg (by omega)]
    exact h.get j hlow hhigh⟩

end Chip.PortKept

namespace Chip.FrameKept

theorem refl (c : Chip) : c.FrameKept c := ⟨.refl c, rfl, rfl, fun _ => rfl⟩

theorem set (h : d.FrameKept c) {k : Nat} (hk : 0x250000 ≤ k) (v : Int) : (d.set k v).FrameKept c :=
  ⟨h.toPortKept.set hk v, h.clk, h.banks, h.ev⟩

theorem bumpBy (h : d.FrameKept c) {k : Nat} (hk : 0x250000 ≤ k) (n : Nat) : (d.bumpBy k n).FrameKept c :=
  ⟨h.toPortKept.bumpBy hk n, h.clk, h.banks, h.ev⟩

theorem setAll (h : d.FrameKept c) {l : List (Nat × Int)} (hl : ∀ x ∈ l, 0x250000 ≤ x.1) : (d.setAll l).FrameKept c := by
  induction l generalizing d with
  | nil => exact h
  | cons x l ih =>
    obtain ⟨hx, hl⟩ := List.forall_mem_cons.1 hl
    exact ih (h.set hx _) hl

theorem modSource (h : d.FrameKept c) (s : Nat) (f : Source → Source) : (d.modSource s f).FrameKept c :=
  ⟨⟨h.heads, h.get⟩, h.clk, h.banks, h.ev⟩

theorem modWork (h : d.FrameKept c) (s id : Nat) (f : Work → Work) : (d.modWork s id f).FrameKept c := h.modSource _ _

theorem modStream (h : d.FrameKept c) (n : Nat) (f : Stream → Stream) : (d.modStream n f).FrameKept c :=
  ⟨⟨h.heads, h.get⟩, h.clk, h.banks, h.ev⟩

/-! ### The end of a frame -/

theorem attach (hd : d.FrameKept c) (s frame : Nat) (plain : Stored) (fused : Option Stored) : (d.attach s frame plain fused).FrameKept c := by
  unfold Chip.attach
  refine List.foldlRecOn (motive := fun e : Chip => e.FrameKept c) _ _ hd fun e he n _ => ?_
  dsimp only
  split
  · exact he.modStream _ _
  · exact he

theorem pushDue (hd : d.FrameKept c) (s : Nat) (w : Work) (r : StatRec) : (d.pushDue s w r).FrameKept c := by
  unfold Chip.pushDue
  split
  · exact hd.modSource _ _
  · exact hd

theorem seedOnly (hd : d.FrameKept c) (s : Nat) (w : Work) : (d.seedOnly s w).FrameKept c := by
  unfold Chip.seedOnly
  split
  · exact hd.modSource _ _
  · exact hd

theorem accumulate (hd : d.FrameKept c) (s : Nat) (w : Work) (o : FrontOut) : (d.accumulate s w o).FrameKept c := by
  unfold Chip.accumulate
  split
  · refine ⟨⟨hd.heads, hd.get⟩, hd.clk, hd.banks, fun g => Eq.trans ?_ (hd.ev g)⟩
    refine at'_modAt_field Solstice.ev ?_ d.sol s g
    exact fun _ => rfl
  · exact hd

theorem compObjects (hd : d.FrameKept c) (s : Nat) (l : List (Option (Int × Nat))) : (d.compObjects s l).FrameKept c := by
  unfold Chip.compObjects
  refine List.foldlRecOn (motive := fun e : Chip => e.FrameKept c) _ _ hd fun e he x _ => ?_
  dsimp only
  split
  · refine he.setAll ?_
    simp only [List.mem_cons, List.not_mem_nil, or_false, forall_eq_or_imp, forall_eq, K.compC, K.compK]
    omega
  · refine he.setAll ?_
    simp only [List.mem_cons, List.not_mem_nil, or_false, forall_eq_or_imp, forall_eq, K.roiCompC, K.roiCompK]
    omega

theorem startObjects (hd : d.FrameKept c) (s : Nat) (w : Work) : (d.startObjects s w).FrameKept c := by
  have hall : (d.setAll [(K.linInForce s, w.par.get (K.linSelect s)), (K.deltaT s, w.dT), (K.tFpaUsed s, w.tFpa),
      (K.tRefUsed s, w.tRef)]).FrameKept c := by
    refine hd.setAll ?_
    simp only [List.mem_cons, List.not_mem_nil, or_false, forall_eq_or_imp, forall_eq, K.linInForce, K.deltaT, K.tFpaUsed, K.tRefUsed]
    omega
  have hrho : 0x250000 ≤ K.rhoInv s ∧ 0x250000 ≤ K.hdrRhoInForce s := by
    simp only [K.rhoInv, K.hdrRhoInForce]
    omega
  obtain ⟨hinv, hforce⟩ := hrho
  unfold Chip.startObjects
  dsimp only
  split
  · exact hall
  · split
    · exact (hall.set hinv _).set hforce _
    · exact hall.set hforce _

theorem frontObjects (hd : d.FrameKept c) (s : Nat) (w : Work) (o : FrontOut) : (d.frontObjects s w o).FrameKept c := by
  have hkeys : 0x250000 ≤ K.bpFallbacks s ∧ 0x250000 ≤ K.bpUnreplaced s ∧ 0x250000 ≤ K.bpMethodInvalid s ∧ 0x250000 ≤ K.hdrSatCount s ∧
      0x250000 ≤ K.hdrRedirects s ∧ 0x250000 ≤ K.eqxRangeSkips s := by
    simp only [K.bpFallbacks, K.bpUnreplaced, K.bpMethodInvalid, K.hdrSatCount, K.hdrRedirects, K.eqxRangeSkips]
    omega
  obtain ⟨hfall, hun, hinvalid, hsat, hred, hskips⟩ := hkeys
  have hpixels : ((((d.setAll [(K.bpReplacedFrame s, o.replaced), (K.bpMissFrame s, o.miss)]).bumpBy (K.bpFallbacks s) o.fallbacks).bumpBy
      (K.bpUnreplaced s) o.unreplaced).bumpBy (K.bpMethodInvalid s) o.invalid).FrameKept c := by
    refine (((hd.setAll ?_).bumpBy hfall _).bumpBy hun _).bumpBy hinvalid _
    simp only [List.mem_cons, List.not_mem_nil, or_false, forall_eq_or_imp, forall_eq, K.bpReplacedFrame, K.bpMissFrame]
    omega
  have hblend (e : Chip) (he : e.FrameKept c) (x y : Int) : (e.setAll [(K.hdrShortFrame s, x), (K.hdrBlendFrame s, y)]).FrameKept c := by
    refine he.setAll ?_
    simp only [List.mem_cons, List.not_mem_nil, or_false, forall_eq_or_imp, forall_eq, K.hdrShortFrame, K.hdrBlendFrame]
    omega
  have heqx (e : Chip) (he : e.FrameKept c) : ((e.setAll [(K.eqxColumnsHeld s, o.held), (K.eqxUnseeded s, o.unseeded),
      (K.eqxCorrMax s, o.corrMax)]).bumpBy (K.eqxRangeSkips s) o.skips).FrameKept c := by
    refine (he.setAll ?_).bumpBy hskips _
    simp only [List.mem_cons, List.not_mem_nil, or_false, forall_eq_or_imp, forall_eq, K.eqxColumnsHeld, K.eqxUnseeded, K.eqxCorrMax]
    omega
  unfold Chip.frontObjects
  dsimp only
  split
  · exact hpixels
  · generalize hx : (if (w.geo s).n = 2 then _ else _) = x
    have hkept : x.FrameKept c := by
      subst hx
      split
      · exact ((hblend _ hpixels _ _).bumpBy hsat _).bumpBy hred _
      · exact hblend _ hpixels _ _
    split
    · exact heqx _ hkept
    · exact hkept

theorem thermalEnd (hd : d.FrameKept c) (s : Nat) (w : Work) (o : FrontOut) : (d.thermalEnd s w o).1.FrameKept c := by
  have hkeys : 0x250000 ≤ K.radioSatCount s ∧ 0x250000 ≤ K.y16fSatCount s := by
    simp only [K.radioSatCount, K.y16fSatCount]
    omega
  obtain ⟨hradio, hy16⟩ := hkeys
  unfold Chip.thermalEnd
  refine pushDue (.modSource (.compObjects (.bumpBy (.bumpBy (.setAll hd ?_) hradio _) hy16 _) _ _) _ _) _ _ _
  simp only [List.mem_cons, List.not_mem_nil, or_false, forall_eq_or_imp, forall_eq, K.tnrResetPixels, K.radioInForce, K.respIndexUsed,
    K.belowRangeFrame, K.aboveRangeFrame]
  omega

theorem finishThermal (hd : d.FrameKept c) (s : Nat) (w : Work) : (d.finishThermal s w).FrameKept c := by
  unfold Chip.finishThermal
  dsimp only
  generalize hx : (if w.real = true then _ else _) = x
  have hkept : x.FrameKept c := by
    subst hx
    split
    · exact hd.startObjects s w
    · exact hd
  split
  · split
    · exact (hkept.seedOnly s w).pushDue _ _ _
    · exact ((hkept.seedOnly s w).pushDue _ _ _).attach _ _ _ _
  · have hfront : (((x.modSource s fun (y : Source) => { y with eqx := (front w s (x.source s).eqx).eqx }).frontObjects s w
        (front w s (x.source s).eqx)).accumulate s w (front w s (x.source s).eqx)).FrameKept c :=
      ((hkept.modSource _ _).frontObjects _ _ _).accumulate _ _ _
    split
    · exact (hfront.thermalEnd _ _ _).attach _ _ _ _
    · exact (hfront.pushDue _ _ _).attach _ _ _ _

theorem finish (hd : d.FrameKept c) {s : Nat} (hs : s < 4) (w : Work) : (d.finish s w).FrameKept c := by
  unfold Chip.finish
  dsimp only
  rw [if_pos (by rw [Chip.isThermal, decide_eq_true hs]; rfl)]
  exact (hd.modSource _ _).finishThermal _ _

theorem finishDue (n : Nat) (hd : d.FrameKept c) {s : Nat} (hs : s < 4) : (Chip.finishDue n d s).FrameKept c := by
  induction n generalizing d with
  | zero => exact hd
  | succ n ih =>
    rw [Chip.finishDue]
    split
    · exact hd
    · split
      · exact ih (hd.finish hs _)
      · exact hd

theorem closeWorks (hd : d.FrameKept c) {s : Nat} (hs : s < 4) : (d.closeWorks s).FrameKept c := (hd.modSource _ _).finishDue _ hs

theorem markFinished (hd : d.FrameKept c) (s number m : Nat) : (d.markFinished s number m).FrameKept c := by
  unfold Chip.markFinished
  refine List.foldlRecOn (motive := fun e : Chip => e.FrameKept c) _ _ (hd.modSource _ _) fun e he n _ => ?_
  split
  · exact he.modStream _ _
  · exact he

theorem markCurrent (hd : d.FrameKept c) (s m : Nat) : (d.markCurrent s m).FrameKept c := by
  unfold Chip.markCurrent
  split
  · exact hd.modWork _ _ _
  · split
    · exact hd.markFinished _ _ _
    · exact hd

theorem headLostFrame (hd : d.FrameKept c) {s : Nat} (hs : s < 4) : (d.headLostFrame s).FrameKept c := by
  unfold Chip.headLostFrame
  dsimp only
  split
  · exact hd.markCurrent _ _
  · exact (((hd.markCurrent _ _).modSource _ _).modWork _ _ _).closeWorks hs

end Chip.FrameKept

/-! ### What ends with the head -/

theorem Chip.PortKept.modBank (hd : d.PortKept c) (b : Nat) (f : ConvBank → ConvBank) : (d.modBank b f).PortKept c := ⟨hd.heads, hd.get⟩

theorem K.recordKeys_apart {k : Nat} (hlow : 0x240000 ≤ k) (hhigh : k < 0x250000) : k ∉ statusKeys ∧ k ∉ recordKeys := by
  simp only [statusKeys, recordKeys, List.mem_cons, List.not_mem_nil, or_false, K.errorRegister, K.pcieEventStatus, K.canState, K.canTec,
    K.emcyDropped, K.tpdoLost, K.tpdoCoalesced, K.nvmState, K.nvmHeld, K.nvmHeldDropped, K.nvmGroupWrites, K.nvmLogNewest, K.nvmLogValid,
    K.errqOverflow]
  omega

theorem Chip.PortKept.recorded (hd : d.PortKept c) (he : e.recorded d) : e.PortKept c :=
  ⟨(Chip.recorded_heads he).trans hd.heads, fun k hlow hhigh => by
    obtain ⟨hstatus, hrecord⟩ := K.recordKeys_apart hlow hhigh
    rw [he.2 k hstatus hrecord]
    exact hd.get k hlow hhigh⟩

theorem Chip.PortKept.refreshCal (hd : d.PortKept c) : d.refreshCal.PortKept c := hd.set (by decide) _

theorem Chip.PortKept.calStop (hd : d.PortKept c) : d.calStop.PortKept c := by
  unfold Chip.calStop
  split
  · exact .refreshCal ⟨hd.heads, hd.get⟩
  · exact hd

theorem Chip.PortKept.offNode (hd : d.PortKept c) (b j : Nat) : (d.offNode b j).PortKept c := by
  refine hd.set ?_ _
  simp only [K.convState]
  omega

theorem Chip.PortKept.calNextIn (n : Nat) (hd : d.PortKept c) (b : Nat) : (Chip.calNextIn n d b).PortKept c := by
  induction n generalizing d with
  | zero => exact hd
  | succ n ih =>
    unfold Chip.calNextIn
    dsimp only
    split
    · split
      · exact ih ⟨hd.heads, hd.get⟩
      · split
        · exact (hd.offNode _ _).modBank _ _
        · split
          · exact hd
          · refine hd.set ?_ _
            simp only [K.convState]
            omega
    · exact hd

theorem Chip.PortKept.calNext (hd : d.PortKept c) (b : Nat) : (d.calNext b).PortKept c := by
  unfold Chip.calNext
  split
  · exact (hd.calNextIn _ _).calStop
  · exact hd

theorem Chip.PortKept.calBanks (hd : d.PortKept c) : d.calBanks.PortKept c := by
  unfold Chip.calBanks
  exact List.foldlRecOn (motive := fun e : Chip => e.PortKept c) _ _ hd fun e he b _ => he.calNext b

theorem Chip.PortKept.markCurrent (hd : d.PortKept c) (s m : Nat) : (d.markCurrent s m).PortKept c :=
  ((Chip.FrameKept.refl d).markCurrent s m).toPortKept.trans hd

theorem Chip.headImages_congr (hd : d.PortKept c) (hh : h < 4) : d.headImages h = c.headImages h := by
  rw [Chip.headImages, Chip.headImages, hd.get _ (by simp only [K.runState]; omega) (by simp only [K.runState]; omega)]

theorem Chip.nvmTrim_recorded (target set : Nat) (codes : TrimCodes) (back : Bool) : (c.nvmTrim target set codes back).recorded c :=
  Chip.nvmWrite_recorded _ _

theorem Chip.PortKept.modCal (hd : d.PortKept c) (x : Cal) : ({ d with cal := x } : Chip).PortKept c := ⟨hd.heads, hd.get⟩

/-- A new trim of a buffer whose heads do not image leaves the head ports. -/
theorem Chip.PortKept.putBuffer (hd : d.PortKept c) {r : Nat} (hr : r < 2) (hrest : c.headImages (2 * r) = false)
    (hrest' : c.headImages (2 * r + 1) = false) (code : Int) (atHead : Option Nat) (back : Bool) : (d.putBuffer r code atHead back).PortKept c := by
  have htrim : 0x250000 ≤ K.refbufTrim r := by
    simp only [K.refbufTrim]
    omega
  have hset : ((({ d with cal := { d.cal with prevRef := modAt d.cal.prevRef r (fun _ => some (d.get (K.refbufTrim r))) } } : Chip).set
      (K.refbufTrim r) code).nvmTrim (232 + r) 0 [code] back).PortKept c :=
    .recorded (.set (hd.modCal _) htrim _) (Chip.nvmTrim_recorded ..)
  unfold Chip.putBuffer
  dsimp only
  split
  · exact hset
  · refine List.foldlRecOn (motive := fun e : Chip => e.PortKept c) _ _ hset fun e he g hg => ?_
    have hnot : e.headImages g = false := by
      rcases List.mem_cons.1 hg with rfl | hg
      · rw [Chip.headImages_congr he (by omega), hrest]
      · obtain rfl := List.mem_singleton.1 hg
        rw [Chip.headImages_congr he (by omega), hrest']
    simp only [hnot, Bool.false_eq_true, if_false]
    split
    · exact he
    · exact he.markCurrent _ _

theorem Chip.PortKept.bufferStep (hd : d.PortKept c) {r : Nat} (hr : r < 2) (hrest : c.headImages (2 * r) = false)
    (hrest' : c.headImages (2 * r + 1) = false) (t : CalStep) : (d.bufferStep r t none).PortKept c := by
  have hkeys : 0x250000 ≤ K.calCountRefbuf r ∧ 0x250000 ≤ K.calTimeRefbuf r ∧ 0x250000 ≤ K.calResidualRefbuf r := by
    simp only [K.calCountRefbuf, K.calTimeRefbuf, K.calResidualRefbuf]
    omega
  obtain ⟨hcount, htime, hresidual⟩ := hkeys
  exact .modCal (.set (.set (.bumpBy (hd.putBuffer hr hrest hrest' _ _ _) hcount 1) htime _) hresidual _) _

/-- A buffer whose trim takes back what a revert left for its heads' gap. -/
def Chip.bufferReverted (c : Chip) (r : Nat) : Chip :=
  match at' c.cal.refRevert r with
  | some code => ({ c with cal := { c.cal with refRevert := modAt c.cal.refRevert r (fun _ => none) } } : Chip).putBuffer r code none true
  | none => c

theorem Chip.bufferReverted_portKept {r : Nat} (hr : r < 2) (hrest : c.headImages (2 * r) = false)
    (hrest' : c.headImages (2 * r + 1) = false) : (c.bufferReverted r).PortKept c := by
  unfold Chip.bufferReverted
  split
  · exact .putBuffer ((Chip.PortKept.refl c).modCal _) hr hrest hrest' _ _ _
  · exact .refl c

theorem Chip.bufferAlone_eq {r : Nat} : c.bufferAlone r =
    if !(c.bufferHeads r).isEmpty then c
    else if (c.bufferReverted r).cal.running ∧ r ∈ (c.bufferReverted r).cal.refbuf then
      ((((c.bufferReverted r).freeNat 10).2.freeNat 32).2.bufferStep r
        { code := BitVec.ofNat _ ((c.bufferReverted r).freeNat 10).1
          residual := BitVec.ofNat _ (((c.bufferReverted r).freeNat 10).2.freeNat 32).1 } none).calBanks
    else c.bufferReverted r := rfl

theorem Chip.PortKept.freeNat (hd : d.PortKept c) (w : Nat) : (d.freeNat w).2.PortKept c := ⟨hd.heads, hd.get⟩

theorem Chip.bufferAlone_portKept {r : Nat} (hr : r < 2) : (c.bufferAlone r).PortKept c := by
  rw [Chip.bufferAlone_eq]
  split
  · exact .refl c
  · rename_i hsome
    rw [Bool.not_eq_true, Bool.not_eq_false', List.isEmpty_iff, Chip.bufferHeads, List.filter_eq_nil_iff] at hsome
    have hrest := Bool.eq_false_iff.2 (hsome (2 * r) (by simp))
    have hrest' := Bool.eq_false_iff.2 (hsome (2 * r + 1) (by simp))
    have hkept := Chip.bufferReverted_portKept hr hrest hrest'
    split
    · exact (((hkept.freeNat 10).freeNat 32).bufferStep hr hrest hrest' _).calBanks
    · exact hkept

theorem Chip.calHeadGone_portKept (hh : h < 4) : (c.calHeadGone h).PortKept c :=
  (Chip.bufferAlone_portKept (by omega)).calNext h

/-! ### The loss -/

/-- The bias codes that a head reports leave everything but the objects of the codes. -/
theorem Chip.reportBias_shows : (c.reportBias h).heads = c.heads ∧ (c.reportBias h).clk = c.clk ∧ (c.reportBias h).banks = c.banks ∧
    (c.reportBias h).sol = c.sol ∧ (c.reportBias h).get (K.lostCount h) = c.get (K.lostCount h) := by
  unfold Chip.reportBias
  refine List.foldlRecOn (motive := fun d : Chip => d.heads = c.heads ∧ d.clk = c.clk ∧ d.banks = c.banks ∧ d.sol = c.sol ∧
    d.get (K.lostCount h) = c.get (K.lostCount h)) _ _ ⟨rfl, rfl, rfl, rfl, rfl⟩ fun d hd b _ => ?_
  obtain ⟨hheads, hclk, hbanks, hsol, hget⟩ := hd
  split
  · refine ⟨hheads, hclk, hbanks, hsol, (Chip.get_set_other _ _ _ _ ?_).trans hget⟩
    simp only [K.lostCount, K.biasCode]
    omega
  · exact ⟨hheads, hclk, hbanks, hsol, hget⟩

/-- The port of a head whose outputs are off. -/
def HeadPort.outputsOff (p : HeadPort) : HeadPort :=
  { ({ p.linkOff with
      phase := .idle, mclk := false, verified := 0, lost := true, lastFrame := false, supLow := 0, biasLow := List.replicate 8 0 } : HeadPort) with
    bias := List.replicate 8 0, target := List.replicate 8 0, codes := List.replicate 8 0, biasLimited := 0 }

theorem Chip.headOutputsOff_eq : c.headOutputsOff h = (c.modHead h HeadPort.outputsOff).reportBias h := by
  rw [Chip.headOutputsOff, Chip.biasOff, Chip.modHead, Chip.modHead, modAt_modAt]
  rfl

/-- A part that shows the loss of a head to undercurrent. -/
def Chip.lossPlaced (c : Chip) (h : Nat) : Chip :=
  let x := (c.headLostFrame h).headOutputsOff h
  let x := x.modHead h (fun (p : HeadPort) => { p with
    failed := if p.retrying then p.failed + 1 else p.failed, retrying := false, biasOver := decide (2 = 3) })
  ((x.set (K.runState h) 4).setAll [(K.supState h, 0), (K.lastLostTime h, x.now), (K.lastLostCause h, 2)]).bump (K.lostCount h)

theorem Chip.loseHead_undercurrent (hrun : c.get (K.runState h) = 3) : c.loseHead h 2 =
    (((((c.lossPlaced h).raise 0 1 h 0xFF 0x1010 2 0).emcyFor 0xFF02 1 0x1010).solsticeHeadGone h false).headStopsStandin h false).calHeadGone h := by
  have hgo : ¬ ((!decide (1 ≤ (3 : Int) ∧ (3 : Int) ≤ 3)) = true ∧ (3 : Int) ≠ 5) := by decide
  unfold Chip.loseHead
  dsimp only
  rw [hrun, if_neg hgo, if_neg (by decide : ¬ (3 : Int) = 5), if_neg (by decide : ¬ 2 = 1), decide_eq_false (by decide : ¬ (3 : Int) = 5)]
  rfl

/-- The frame and the outputs of a lost head end with these of its port. -/
theorem Chip.headOutputsOff_shows (hh : h < 4) :
    ((c.headLostFrame h).headOutputsOff h).heads = modAt c.heads h HeadPort.outputsOff ∧
    ((c.headLostFrame h).headOutputsOff h).clk = c.clk ∧ ((c.headLostFrame h).headOutputsOff h).banks = c.banks ∧
    (∀ g, (((c.headLostFrame h).headOutputsOff h).solstice g).ev = (c.solstice g).ev) ∧
    ((c.headLostFrame h).headOutputsOff h).get (K.lostCount h) = c.get (K.lostCount h) := by
  have hframe := (Chip.FrameKept.refl c).headLostFrame hh
  rw [Chip.headOutputsOff_eq]
  generalize c.headLostFrame h = d at hframe
  obtain ⟨hheads, hclk, hbanks, hsol, hget⟩ := Chip.reportBias_shows (c := d.modHead h HeadPort.outputsOff) (h := h)
  refine ⟨hheads.trans (congrArg (fun l => modAt l h HeadPort.outputsOff) hframe.heads), hclk.trans hframe.clk, hbanks.trans hframe.banks,
    fun g => ?_, hget.trans (hframe.get _ ?_ ?_)⟩
  · rw [Chip.solstice, hsol]
    exact hframe.ev g
  · simp only [K.lostCount]
    omega
  · simp only [K.lostCount]
    omega

/-- The port of a head lost to undercurrent. -/
def HeadPort.undercurrent (p : HeadPort) : HeadPort :=
  { p.outputsOff with
    failed := if p.outputsOff.retrying then p.outputsOff.failed + 1 else p.outputsOff.failed, retrying := false, biasOver := decide (2 = 3) }

theorem Chip.lossPlaced_shows (hh : h < 4) :
    (c.lossPlaced h).heads = modAt c.heads h HeadPort.undercurrent ∧ (c.lossPlaced h).banks = c.banks ∧
    (∀ g, ((c.lossPlaced h).solstice g).ev = (c.solstice g).ev) ∧ (c.lossPlaced h).get (K.runState h) = 4 ∧
    (c.lossPlaced h).get (K.supState h) = 0 ∧ (c.lossPlaced h).get (K.lastLostTime h) = c.now ∧ (c.lossPlaced h).get (K.lastLostCause h) = 2 ∧
    (c.lossPlaced h).get (K.lostCount h) = min (c.get (K.lostCount h) + 1) 0xFFFFFFFF := by
  obtain ⟨hheads, hclk, hbanks, hev, hget⟩ := Chip.headOutputsOff_shows (c := c) hh
  unfold Chip.lossPlaced
  dsimp only
  generalize (c.headLostFrame h).headOutputsOff h = d at hheads hclk hbanks hev hget
  have hnow : (d.modHead h (fun (p : HeadPort) => { p with
      failed := if p.retrying then p.failed + 1 else p.failed, retrying := false, biasOver := decide (2 = 3) })).now = c.now := by
    rw [Chip.now, Chip.now, show (d.modHead h _).clk = d.clk from rfl, hclk]
  rw [hnow, Chip.setAll_cons, Chip.setAll_cons, Chip.setAll_cons, Chip.setAll_nil]
  refine ⟨?_, hbanks, hev, ?_, ?_, ?_, ?_, ?_⟩
  · refine (congrArg (fun l => modAt l h (fun (p : HeadPort) => { p with
      failed := if p.retrying then p.failed + 1 else p.failed, retrying := false, biasOver := decide (2 = 3) })) hheads).trans ?_
    exact modAt_modAt ..
  · rw [Chip.get_bump, if_neg (by simp only [K.runState, K.lostCount]; omega),
      Chip.get_set_other _ _ _ _ (by simp only [K.runState, K.lastLostCause]; omega),
      Chip.get_set_other _ _ _ _ (by simp only [K.runState, K.lastLostTime]; omega),
      Chip.get_set_other _ _ _ _ (by simp only [K.runState, K.supState]; omega), Chip.get_set_same]
  · rw [Chip.get_bump, if_neg (by simp only [K.supState, K.lostCount]; omega),
      Chip.get_set_other _ _ _ _ (by simp only [K.supState, K.lastLostCause]; omega),
      Chip.get_set_other _ _ _ _ (by simp only [K.supState, K.lastLostTime]; omega), Chip.get_set_same]
  · rw [Chip.get_bump, if_neg (by simp only [K.lastLostTime, K.lostCount]; omega),
      Chip.get_set_other _ _ _ _ (by simp only [K.lastLostTime, K.lastLostCause]; omega), Chip.get_set_same]
  · rw [Chip.get_bump, if_neg (by simp only [K.lastLostCause, K.lostCount]; omega), Chip.get_set_same]
  · rw [Chip.get_bump, if_pos rfl, Chip.get_set_other _ _ _ _ (by simp only [K.lastLostCause, K.lostCount]; omega),
      Chip.get_set_other _ _ _ _ (by simp only [K.lastLostTime, K.lostCount]; omega),
      Chip.get_set_other _ _ _ _ (by simp only [K.supState, K.lostCount]; omega),
      Chip.get_set_other _ _ _ _ (by simp only [K.runState, K.lostCount]; omega), Chip.get_modHead, hget]

theorem Chip.solsticeHeadGone_none (now : Bool) (hev : (c.solstice h).ev = none) : c.solsticeHeadGone h now = c := by
  have habandon : c.solsticeAbandon h 2 now = c := by
    rw [Chip.solsticeAbandon, hev]
  rw [Chip.solsticeHeadGone, habandon, ite_self]

theorem Chip.headStopsStandin_none (now : Bool) (hsub : (c.bank h).sub = none) : c.headStopsStandin h now = c := by
  rw [Chip.headStopsStandin, hsub]

/-- The record and the end of calibration leave what the loss placed. -/
theorem Chip.loseHead_portKept (hh : h < 4) (hrun : c.get (K.runState h) = 3) (hev : (c.solstice h).ev = none) (hsub : (c.bank h).sub = none) :
    (c.loseHead h 2).PortKept (c.lossPlaced h) := by
  obtain ⟨-, hbanks, hevs, -⟩ := c.lossPlaced_shows hh
  have hrecorded : (((c.lossPlaced h).raise 0 1 h 0xFF 0x1010 2 0).emcyFor 0xFF02 1 0x1010).recorded (c.lossPlaced h) :=
    Chip.recorded_trans (Chip.emcy_recorded _ _) (Chip.raise_recorded _ _ _ _ _ _ _ _ (by decide))
  rw [Chip.loseHead_undercurrent hrun]
  generalize ((c.lossPlaced h).raise 0 1 h 0xFF 0x1010 2 0).emcyFor 0xFF02 1 0x1010 = d at hrecorded
  have hev' : (d.solstice h).ev = none := by
    rw [Chip.solstice, Chip.recorded_sol hrecorded]
    exact (hevs h).trans hev
  have hsub' : (d.bank h).sub = none := by
    rw [Chip.bank, Chip.recorded_banks hrecorded, hbanks]
    exact hsub
  rw [Chip.solsticeHeadGone_none false hev', Chip.headStopsStandin_none false hsub']
  exact (Chip.calHeadGone_portKept hh).trans ((Chip.PortKept.refl _).recorded hrecorded)

end

/-- Settles O30: the loss places its objects and its port, and what follows leaves both. -/
theorem lostHeadState : Obligations.LostHeadState := by
  unfold Obligations.LostHeadState
  intro s h hlow hrun hsolstice hsub hopen hheads
  have hev : (s.chip.solstice h.val).ev = none := Option.not_isSome_iff_eq_none.1 (Bool.eq_false_iff.1 hsolstice)
  have hkept := Chip.loseHead_portKept (c := s.chip.fresh) h.isLt hrun hev hsub
  obtain ⟨hports, -, -, hstate, hsup, htime, hcause, hcount⟩ := Chip.lossPlaced_shows (c := s.chip.fresh) h.isLt
  have hget (k : Nat) (hlow : 0x240000 ≤ k) (hhigh : k < 0x250000) :
      (settle s.chip (s.chip.fresh.loseHead h 2)).get k = (s.chip.fresh.lossPlaced h).get k := by
    obtain ⟨hstatus, -⟩ := K.recordKeys_apart hlow hhigh
    rw [settle_get _ _ _ hstatus, hkept.get k hlow hhigh]
  have hhead (g : Nat) : (settle s.chip (s.chip.fresh.loseHead h 2)).head g = at' (modAt s.chip.heads h HeadPort.undercurrent) g := by
    rw [Chip.head, settle_heads, hkept.heads, hports]
    rfl
  have hport : (settle s.chip (s.chip.fresh.loseHead h 2)).head h = (s.chip.head h).undercurrent :=
    (hhead h).trans (at'_modAt_same (lt_of_lt_of_eq h.isLt hheads.symm) _)
  have hlost : headSupplyUndercurrent h s.chip.fresh = s.chip.fresh.loseHead h 2 := if_pos hlow
  refine leaves_of_eq rfl hlost ⟨?_, ?_, ?_, ?_, ?_, ?_, ?_, ?_, fun g hg => ?_⟩
  · rw [hget _ (by simp only [K.runState]; omega) (by simp only [K.runState]; omega), hstate]
  · rw [hget _ (by simp only [K.supState]; omega) (by simp only [K.supState]; omega), hsup]
  · rw [hget _ (by simp only [K.lastLostCause]; omega) (by simp only [K.lastLostCause]; omega), hcause]
  · rw [hget _ (by simp only [K.lastLostTime]; omega) (by simp only [K.lastLostTime]; omega), htime]
    rfl
  · rw [hget _ (by simp only [K.lostCount]; omega) (by simp only [K.lostCount]; omega), hcount]
    rfl
  · rw [hport]
    rfl
  · rw [hport]
    rfl
  · rw [hport]
    rfl
  · exact (hhead g).trans (at'_modAt_other _ (fun he => hg (Fin.ext he.symm)) _)

end Sys2Proof.Machine
end

section
/-! Cell, block and region resets (R467 to R476). -/

namespace Sys2Proof.Machine

section
variable {c d : Chip} {region block : Nat}

theorem Chip.modRegion_congr {f g : RegionHist → RegionHist} (h : f (c.regionOf region) = g (c.regionOf region)) :
    c.modRegion region f = c.modRegion region g := by
  rw [Chip.modRegion, Chip.modRegion, modAt_congr h]

/-! ### Blocks and their regions -/

theorem Chip.schedule_first {why : Nat} (hrest : (c.regionOf region).restarting = false) (hnone : (c.regionOf region).scheduled = none) :
    c.schedule region block why = c.modRegion region (fun x => { x with scheduled := some (block, why) }) := by
  refine Chip.modRegion_congr ?_
  rw [hrest, if_neg Bool.false_ne_true, hnone]

theorem blockResetComplete_ends {fits : Nat} (hreset : c.blockResetting region block = true) : blockResetComplete region block fits c =
    (let c := (c.modBlock region block (fun (h : BlockHist) => { h with resetting := false })).resetEnded region
     if region = 1 ∧ 4 ≤ block ∧ block ≤ 7 then c.bankResetEnded (block - 4)
     else if region = 4 ∧ block = 2 then c.dmaBlockReset
     else if (region = 4 ∧ block = 1) ∨ (region = 2 ∧ block = 6) then c.rewriteFrames fits
     else c) := by
  rw [blockResetComplete, hreset]
  rfl

theorem regionReset_schedules {v : Nat} (hlow : 1 ≤ v) (hhigh : v ≤ 5) (hrest : (c.regionOf v).restarting = false)
    (hnone : (c.regionOf v).scheduled = none) :
    regionReset v c = .ok (c.modRegion v (fun x => { x with scheduled := some (0xFF, 2) })) := by
  rw [regionReset, guardNot_pass (decide_eq_false (by omega)), guardNot_pass (decide_eq_false (by omega)), Chip.schedule_first hrest hnone]

/-! ### Restarts -/

theorem Chip.restartDue_none (hnone : (c.regionOf region).scheduled = none) : c.restartDue region = c := by
  rw [Chip.restartDue, hnone]

theorem Chip.restartDue_asked (hdue : (c.regionOf region).scheduled = some (block, 2)) (hrest : (c.regionOf region).restarting = false)
    (hready : c.boot.phase = .ready) (hpix : region = 2 → c.pixelRuns = true) : c.restartDue region = c.restartRegion region block 2 := by
  have hgo : ¬ ((c.regionOf region).restarting = true ∨ (3 ≤ 2 ∧ c.boot.hkpRestart = true) ∨ c.boot.phase ≠ .ready) := by
    rw [hrest, hready]
    simp
  have hruns : ¬ (region = 2 ∧ (!c.pixelRuns) = true) := by
    rintro ⟨htwo, hoff⟩
    rw [hpix htwo] at hoff
    exact Bool.false_ne_true hoff
  rw [Chip.restartDue, hdue]
  dsimp only
  rw [if_neg hgo, if_neg hruns]
  rfl

theorem regionRestart_alone (hdue : (c.regionOf region).scheduled = some (block, 2)) (hrest : (c.regionOf region).restarting = false)
    (hready : c.boot.phase = .ready) (hpix : region = 2 → c.pixelRuns = true)
    (hbefore : ∀ q ∈ restartsBefore region, (c.regionOf q).scheduled = none) : regionRestart region c = c.restartRegion region block 2 := by
  rw [regionRestart, hdue, Option.isNone_some, if_neg Bool.false_ne_true, foldl_id fun q hq => Chip.restartDue_none (hbefore q hq),
    Chip.restartDue_asked hdue hrest hready hpix]

theorem Chip.memRestart_leaves (hseq : c.spm.seq = none) : c.memRestart.regions = c.regions ∧ c.memRestart.boot = c.boot := by
  have hpending : (c.applyPending memP).regions = c.regions ∧ (c.applyPending memP).boot = c.boot := by
    unfold Chip.applyPending
    exact ⟨Chip.setAll_regions _ _, Chip.setAll_boot _ _⟩
  obtain ⟨hregions, hboot⟩ := hpending
  have hhold : (c.applyPending memP).nvmHoldCheck.regions = c.regions ∧ (c.applyPending memP).nvmHoldCheck.boot = c.boot := by
    unfold Chip.nvmHoldCheck
    split
    · exact ⟨(Chip.recorded_regions (Chip.nvmEnterHold_recorded _)).trans hregions, (Chip.recorded_boot (Chip.nvmEnterHold_recorded _)).trans hboot⟩
    · exact ⟨hregions, hboot⟩
  unfold Chip.memRestart
  rw [hseq]
  dsimp only
  split
  · refine List.foldlRecOn (motive := fun d : Chip => d.regions = c.regions ∧ d.boot = c.boot) _ _ hhold fun d hd n _ => ?_
    split
    · exact hd
    · exact hd
  · exact hhold

/-- A restart of MEM leaves that of HOST due, and the start-up as it is. -/
theorem Chip.restartRegion_mem_leaves (hseq : c.spm.seq = none) (why : Nat) :
    (c.restartRegion 3 block why).regionOf 4 = c.regionOf 4 ∧ (c.restartRegion 3 block why).boot = c.boot := by
  generalize hx : ((c.modRegion 3 (fun (r : RegionHist) => { r with
    scheduled := none, restarting := true, reason := (block, why)
    blocks := r.blocks.map (fun (b : BlockHist) => { b with resetting := false }) })).set (K.regionState (3 - 1)) 2) = x
  have hxkept : x.regionOf 4 = c.regionOf 4 ∧ x.boot = c.boot ∧ x.spm.seq = none := by
    subst hx
    exact ⟨at'_modAt_other c.regions (by decide : 2 ≠ 3) _, rfl, hseq⟩
  obtain ⟨hregion, hboot, hxseq⟩ := hxkept
  have hrecorded := x.raise_recorded 2 3 0xFF 0xFF 0x00F1 block why (by decide)
  have heq : c.restartRegion 3 block why = (x.raise 2 3 0xFF 0xFF 0x00F1 block why).memRestart := by
    rw [← hx]
    rfl
  obtain ⟨hmem, hmemBoot⟩ := Chip.memRestart_leaves (c := x.raise 2 3 0xFF 0xFF 0x00F1 block why)
    ((congrArg Spm.seq (Chip.recorded_spm hrecorded)).trans hxseq)
  rw [heq, hmemBoot, Chip.recorded_boot hrecorded, hboot, ← hregion, Chip.regionOf, Chip.regionOf, hmem, Chip.recorded_regions hrecorded]
  exact ⟨rfl, rfl⟩

/-- Where both are due, MEM restarts first (R474). -/
theorem regionRestart_memFirst {b3 b4 : Nat} (h3 : (c.regionOf 3).scheduled = some (b3, 2)) (h4 : (c.regionOf 4).scheduled = some (b4, 2))
    (hrest3 : c.regionRestarting 3 = false) (hrest4 : c.regionRestarting 4 = false) (hready : c.boot.phase = .ready) (hseq : c.spm.seq = none) :
    regionRestart 4 c = (c.restartRegion 3 b3 2).restartRegion 4 b4 2 := by
  obtain ⟨hregion, hboot⟩ := Chip.restartRegion_mem_leaves (block := b3) hseq 2
  rw [regionRestart, h4, Option.isNone_some, if_neg Bool.false_ne_true, show restartsBefore 4 = [3] from rfl, List.foldl_cons, List.foldl_nil,
    Chip.restartDue_asked h3 hrest3 hready (fun h => absurd h (by decide))]
  exact Chip.restartDue_asked (by rw [hregion, h4]) (by rw [hregion]; exact hrest4) (by rw [hboot, hready]) (fun h => absurd h (by decide))

theorem regionRestartComplete_works {lanesOk : Nat} (hrest : c.regionRestarting region = true) : regionRestartComplete region lanesOk c =
    (let c := ((c.modRegion region (fun (r : RegionHist) => { r with restarting := false })).resetEnded region).restartEnds region lanesOk
     c.set (K.regionState (region - 1)) (c.regionWorks region)) := by
  rw [regionRestartComplete, hrest]
  rfl

theorem gnonerWatchdog_restarts (hready : c.boot.phase = .ready) (hawake : c.mode.asleep = false) (hrun : c.boot.hkpRestart = false) :
    gnonerWatchdog c = (c.raise 2 5 0xFF 0xFF 0x500A c.boot.slot 0).countedRestart 5 0xFF := by
  have hgo : ¬ (c.boot.phase ≠ .ready ∨ c.mode.asleep = true ∨ c.boot.hkpRestart = true) := by
    rw [hready, hawake, hrun]
    simp
  exact if_neg hgo

/-! ### The safe state -/

theorem Chip.get_safeState_chipMode (code : Nat) : (c.safeState region code).get K.chipMode = 4 := by
  unfold Chip.safeState
  dsimp only
  rw [Chip.get_raise _ _ _ _ _ _ _ _ (by decide) _ (by decide) (by decide)]
  split
  · rename_i hsafe
    exact (of_decide_eq_true hsafe).1
  · rw [Chip.toSafe]
    exact (Chip.get_set_other _ _ _ _ (by decide)).trans (Chip.get_set_same _ _ _)

theorem regionRestartTimeout_fails (hrest : c.regionRestarting region = true) : regionRestartTimeout region c =
    (let c := (c.modRegion region (fun (r : RegionHist) => { r with restarting := false })).resetEnded region
     let c := if region = 5 then { c with boot := { c.boot with hkpRestart := false } } else c
     (c.safeState region 0x00F1).set (K.regionState (region - 1)) 4) := if_pos hrest

end

theorem K.regionState_keys (r : Fin 5) : K.regionState r ∉ statusKeys ∧ K.chipMode ≠ K.regionState r := by
  revert r
  decide

/-- Settles O8: the ends by what resets or restarts, and the order of two restarts by what the first leaves. -/
theorem recovery : Obligations.Recovery := by
  unfold Obligations.Recovery
  refine ⟨⟨fun s cell => effect_of_eq rfl rfl ⟨rfl, fun _ _ => rfl⟩, ?ended, ?escalated⟩, ?asked, ?restarts, ?memFirst, ?works, ?fails, ?gnoner⟩
  case ended =>
    intro s r b fits hreset
    refine effect_eq rfl ((blockResetComplete_ends (c := s.chip.fresh) hreset).trans ?_)
    exact if_congr (by omega) rfl (if_congr (by omega) rfl (if_congr (by omega) rfl rfl))
  case escalated =>
    intro s r b hreset hrest hnone
    have htimeout : blockResetTimeout (r.val + 1) b.toNat s.chip.fresh = s.chip.fresh.schedule (r.val + 1) b.toNat 1 := if_pos hreset
    exact effect_of_eq rfl (htimeout.trans (Chip.schedule_first (c := s.chip.fresh) hrest hnone)) ⟨rfl, fun _ _ => rfl⟩
  case asked =>
    intro s m v hs hlow hhigh hrest hnone
    exact effect_of_command rfl hs (regionReset_schedules (c := s.chip.fresh) hlow hhigh hrest hnone) ⟨rfl, fun _ _ => rfl⟩
  case restarts =>
    intro s r block hdue hrest hready hpix hbefore
    exact effect_eq rfl (regionRestart_alone (c := s.chip.fresh) hdue hrest hready (fun h => hpix (by omega)) hbefore)
  case memFirst =>
    intro s b3 b4 h3 h4 hrest3 hrest4 hready hseq
    exact effect_eq rfl (regionRestart_memFirst (c := s.chip.fresh) h3 h4 hrest3 hrest4 hready hseq)
  case works =>
    exact fun s r lanesOk hrest => effect_eq rfl (regionRestartComplete_works (c := s.chip.fresh) hrest)
  case fails =>
    intro s r hrest
    obtain ⟨hregionKey, hmodeKey⟩ := K.regionState_keys r
    have hfails := regionRestartTimeout_fails (c := s.chip.fresh) hrest
    refine ⟨effect_eq rfl (hfails.trans ?_), leaves_of_eq rfl hfails ⟨?_, ?_⟩⟩
    · exact congrArg (fun x : Chip => (x.safeState (r.val + 1) 0x00F1).set (K.regionState r.val) 4) (if_congr (by omega) rfl rfl)
    · exact (settle_get _ _ _ hregionKey).trans (Chip.get_set_same _ _ _)
    · exact (settle_get _ _ _ (by decide)).trans ((Chip.get_set_other _ _ _ _ hmodeKey).trans (Chip.get_safeState_chipMode _))
  case gnoner =>
    exact fun s hready hawake hrun => effect_eq rfl (gnonerWatchdog_restarts (c := s.chip.fresh) hready hawake hrun)

end Sys2Proof.Machine
end

section
/-! The start of the pixel die (R440, R457, R473). -/

namespace Sys2Proof.Machine

section
variable {c d e : Chip} {ch gib : Nat}

/-! ### Training -/

theorem dramTrained_ok (hstart : c.pixelStarts = true) (hsingle : c.mode.single = false) (hgib : gib ≠ 0) (hsize : gib < 9)
    (hstate : c.get (K.dramChState ch) ≠ 3) :
    dramTrained ch true gib c = (({ c.releaseIsolation with mode := { c.releaseIsolation.mode with
      trained := modAt c.releaseIsolation.mode.trained ch (fun _ => true) } } : Chip).set (K.dramChState ch) 2).dramSize gib := by
  have hgo : ¬ ((!(c.pixelStarts || (c.pixelRuns && c.regionRestarting 3)) || (c.mode.single && decide (ch ≠ c.mode.onCh)) ||
      (true && decide (gib = 0 ∨ 8 < gib)) || decide (c.get (K.dramChState ch) = 3)) = true) := by
    rw [hstart, hsingle, decide_eq_false (show ¬ (gib = 0 ∨ 8 < gib) by omega), decide_eq_false hstate]
    simp
  unfold dramTrained
  dsimp only
  rw [if_neg hgo, if_pos rfl, if_pos hstart, if_pos hstart]

theorem dramTrained_failed_goes (hgo : c.pixelStarts = true ∨ (c.pixelRuns = true ∧ c.regionRestarting 3 = true))
    (hch : c.mode.single = true → c.mode.onCh = ch) (hstate : c.get (K.dramChState ch) ≠ 3) : dramTrained ch false gib c =
    (let d := if c.pixelStarts then c.releaseIsolation else c
     if d.mode.single then
       if c.pixelStarts then d.startFailed 3 0x3002 (fun c _ => c.channelFailed ch) else d.channelFailed ch
     else if c.pixelStarts then
       let d := (d.channelFailed ch).toSingle ch
       let size := if gib = 0 then d.dramGib else gib
       if size = 0 then d else d.dramSize size
     else d.singleRestart ch) := by
  have hgo' : ¬ ((!(c.pixelStarts || (c.pixelRuns && c.regionRestarting 3)) || (c.mode.single && decide (ch ≠ c.mode.onCh)) ||
      (false && decide (gib = 0 ∨ 8 < gib)) || decide (c.get (K.dramChState ch) = 3)) = true) := by
    have hstarts : (c.pixelStarts || (c.pixelRuns && c.regionRestarting 3)) = true := by
      rcases hgo with h | ⟨h, h'⟩
      · rw [h, Bool.true_or]
      · rw [h, h', Bool.and_self, Bool.or_true]
    have hother : (c.mode.single && decide (ch ≠ c.mode.onCh)) = false := by
      rcases hs : c.mode.single with _ | _
      · rfl
      · rw [hch hs]
        simp
    rw [hstarts, hother, decide_eq_false hstate]
    simp
  unfold dramTrained
  dsimp only
  rw [if_neg hgo', if_neg Bool.false_ne_true]

theorem Chip.releaseIsolation_mode : c.releaseIsolation.mode = c.mode := by
  unfold Chip.releaseIsolation
  dsimp only
  split <;> rfl

/-- The isolation of the die ends as its first channel trains. -/
theorem Chip.trained_agrees (hstart : c.pixelStarts = true) :
    ({ c.fresh.releaseIsolation with mode := { c.fresh.releaseIsolation.mode with
      trained := modAt c.fresh.releaseIsolation.mode.trained ch (fun _ => true) } } : Chip).agrees
    (({ c with mode := { c.mode with trained := c.mode.trained.set ch true }, pins := { c.pins with dieLinkIsolated := false } } : Chip).set
      K.pixelDieState 1) := by
  rw [List.set_eq_modify]
  unfold Chip.releaseIsolation
  dsimp only
  split
  · exact ⟨rfl, fun _ _ => rfl⟩
  · rename_i hother
    have hone : c.get K.pixelDieState = 1 := (of_decide_eq_true hstart).resolve_right hother
    refine ⟨rfl, fun k _ => ?_⟩
    by_cases hk : k = K.pixelDieState
    · rw [hk, Chip.get_set_same]
      exact hone
    · rw [Chip.get_set_other _ _ _ _ hk]
      rfl

theorem Chip.dramSize_both {n : Nat} (hsingle : c.mode.single = false) (hstraps : c.nat K.straps = n) : c.dramSize gib =
    c.setAll [(K.dramInstalled, if bitOf n 5 then gib * 2 ^ 30 else 2 * (gib * 2 ^ 30)),
      (K.dramCapacity, (2 * (gib * 2 ^ 30) / 32 * 31 : Nat)), (K.dramChannels, 2)] := by
  unfold Chip.dramSize
  dsimp only
  rw [hsingle, hstraps]
  simp only [Bool.false_eq_true, if_false, Nat.cast_ite, Nat.cast_mul, Nat.cast_pow, Nat.cast_ofNat]

/-! ### Initialisation -/

/-- A part that has the mode of another and the objects before the mailboxes. -/
structure Chip.DieKept (d c : Chip) : Prop where
  mode : d.mode = c.mode
  get : ∀ k < 0x500000, d.get k = c.get k

theorem Chip.DieKept.set (h : d.DieKept c) {k : Nat} (hk : 0x500000 ≤ k) (v : Int) : (d.set k v).DieKept c :=
  ⟨h.mode, fun j hj => (Chip.get_set_other _ _ _ _ (by omega)).trans (h.get j hj)⟩

theorem Chip.DieKept.mbxMessage (h : d.DieKept c) : (d.mbxMessage ch).DieKept c := by
  unfold Chip.mbxMessage Chip.msix0 Chip.msix1
  split
  · split <;> exact ⟨h.mode, h.get⟩
  · split <;> exact ⟨h.mode, h.get⟩

theorem Chip.DieKept.mbxIrq (h : d.DieKept c) (b : Nat) : (d.mbxIrq ch b).DieKept c := by
  have hkey : 0x500000 ≤ K.mbxIrqStatus ch := by
    simp only [K.mbxIrqStatus]
    omega
  unfold Chip.mbxIrq
  dsimp only
  split
  · exact ⟨h.mode, h.get⟩
  · have hset (v : Int) : (((d.noteBit (K.mbxIrqStatus ch) b (!bitOf (d.nat (K.mbxIrqStatus ch)) b))).set (K.mbxIrqStatus ch) v).DieKept c := by
      refine .set ?_ hkey v
      exact ⟨h.mode, h.get⟩
    split
    · exact (hset _).mbxMessage
    · exact hset _

theorem Chip.DieKept.mbxEmpty (h : d.DieKept c) : (d.mbxEmpty ch).DieKept c := by
  have hwords : ((List.range 8).foldl (fun c j => (c.set (K.mbxH2dWord ch j) 0).set (K.mbxD2hWord ch j) 0) d).DieKept c := by
    refine List.foldlRecOn (motive := fun e : Chip => e.DieKept c) _ _ h fun e he j _ => (he.set ?_ _).set ?_ _
    · simp only [K.mbxH2dWord]
      omega
    · simp only [K.mbxD2hWord]
      omega
  unfold Chip.mbxEmpty
  dsimp only
  generalize (List.range 8).foldl (fun c j => (c.set (K.mbxH2dWord ch j) 0).set (K.mbxD2hWord ch j) 0) d = e at hwords
  have hstates : (e.setAll [(K.mbxH2dState ch, 0), (K.mbxD2hState ch, 0), (K.mbxH2dFlags ch, 0), (K.mbxIrqStatus ch, 0)]).DieKept c := by
    refine (((hwords.set ?_ _).set ?_ _).set ?_ _).set ?_ _
    all_goals
      simp only [K.mbxH2dState, K.mbxD2hState, K.mbxH2dFlags, K.mbxIrqStatus]
      omega
  refine ⟨hstates.mode, fun k hk => ?_⟩
  rw [Chip.get_bump, if_neg (by simp only [K.mbxResets]; omega), Chip.get_modMbx, hstates.get k hk]

theorem Chip.DieKept.mbxPixelStart (h : d.DieKept c) : d.mbxPixelStart.DieKept c := by
  unfold Chip.mbxPixelStart
  refine List.foldlRecOn (motive := fun e : Chip => e.DieKept c) _ _ h fun e he j _ => ?_
  refine (he.mbxEmpty.mbxIrq 3).set ?_ _
  simp only [K.mbxResets]
  omega

theorem Chip.DieKept.applyKept (h : d.DieKept c) : d.applyKept.DieKept c := by
  unfold Chip.applyKept
  refine List.foldlRecOn (motive := fun e : Chip => e.DieKept c) _ _ ⟨h.mode, h.get⟩ fun e he x _ => ?_
  split
  · by_cases hv : decide (7 < x.2.toNat) = true
    · rw [paletteLoad, guardNot, if_pos hv]
      exact he
    · rw [paletteLoad, guardNot, if_neg hv]
      exact ⟨he.mode, he.get⟩
  · refine List.foldlRecOn (motive := fun e : Chip => e.DieKept c) _ _ he fun e he s _ => ?_
    split
    · exact ⟨he.mode, he.get⟩
    · exact he

theorem Chip.modHk_mode (f : Hk → Hk) (b : Bool) : (if b then c.modHk f else c).mode = c.mode := by
  split <;> rfl

theorem Chip.hkJudge_mode : c.hkJudge.mode = c.mode := by
  unfold Chip.hkJudge
  exact Chip.modHk_mode _ _

/-- A part whose blocks start, before its mailboxes and what was kept for it. -/
def Chip.blocksReady (c : Chip) : Chip :=
  { c with
    rails := { c.rails with failedStarts := 0 }
    clk := { c.clk with pixSkew := 0 }
    pins := { c.pins with dieLinkIsolated := false }
    pix := { c.pix with palettes := tab 8 (fun p => paletteOf (c.domainImage (K.paletteImage p))) } }

/-- The state of a DRAM channel as the die starts. -/
def Chip.channelStarts (c : Chip) (n : Nat) : Int := if c.mode.single ∧ n ≠ c.mode.onCh then c.get (K.dramChState n) else 2

theorem Chip.pixelBlocks_eq : c.pixelBlocks =
    (let d := (c.applyPending memP).hkJudge.blocksReady
     d.setAll [(K.pixelDieState, 2), (K.dramChState 0, d.channelStarts 0), (K.dramChState 1, d.channelStarts 1),
       (K.dmaActiveChannel, 0xFF)]).mbxPixelStart.applyKept := rfl

theorem Chip.applyPending_mode (p : Nat → Bool) : (c.applyPending p).mode = c.mode := by
  unfold Chip.applyPending
  exact Chip.setAll_mode _ _

theorem Chip.pixelBlocks_shows : c.pixelBlocks.mode = c.mode ∧ c.pixelBlocks.get K.pixelDieState = 2 := by
  have hmode : (c.applyPending memP).hkJudge.blocksReady.mode = c.mode := Chip.hkJudge_mode.trans (Chip.applyPending_mode _)
  rw [Chip.pixelBlocks_eq]
  dsimp only
  generalize (c.applyPending memP).hkJudge.blocksReady = d at hmode
  have hkept : (d.setAll [(K.pixelDieState, 2), (K.dramChState 0, d.channelStarts 0), (K.dramChState 1, d.channelStarts 1),
       (K.dmaActiveChannel, 0xFF)]).mbxPixelStart.applyKept.DieKept _ := (Chip.DieKept.mbxPixelStart ⟨rfl, fun _ _ => rfl⟩).applyKept
  rw [hkept.mode, hkept.get _ (by decide), Chip.setAll_mode, hmode, Chip.setAll_cons]
  refine ⟨rfl, (Chip.get_setAll_other _ _ _ ?_).trans (Chip.get_set_same _ _ _)⟩
  simp only [List.mem_cons, List.not_mem_nil, or_false, forall_eq_or_imp, forall_eq]
  decide

theorem Chip.laneTest_all : c.laneTest 0xF 0xF = ({ c with mode := { c.mode with lanes := 0xF } } : Chip).set K.nucLanesInService 0xF := by
  unfold Chip.laneTest
  rw [foldl_id fun n hn => ?_]
  · rfl
  · have hlane : bitOf 0xF n = true := by
      have := List.mem_range.1 hn
      interval_cases n <;> decide
    rw [if_neg]
    rw [hlane, Bool.not_true, Bool.and_false]
    exact Bool.false_ne_true

/-- The pixel die in use once every channel has trained and every lane group passes. -/
def Chip.dieStarted (c : Chip) : Chip := (c.pixelBlocks.laneTest 0xF 0xF).pixelRegions

theorem Chip.dieStarted_mode : c.dieStarted.mode = { c.mode with lanes := 0xF } := by
  obtain ⟨hmode, -⟩ := c.pixelBlocks_shows
  rw [Chip.dieStarted, Chip.laneTest_all, Chip.pixelRegions, Chip.setAll_mode, ← hmode]
  rfl

theorem Chip.dieStarted_shows (hsingle : c.mode.single = false) :
    c.dieStarted.mode.lanes = 0xF ∧ c.dieStarted.mode.single = false ∧ c.dieStarted.get K.pixelDieState = 2 ∧
    c.dieStarted.get (K.regionState 1) = 1 ∧ c.dieStarted.get (K.regionState 2) = 1 ∧ c.dieStarted.get (K.regionState 3) = 1 ∧
    c.dieStarted.get K.nucLanesInService = 0xF := by
  obtain ⟨hmode, hdie⟩ := c.pixelBlocks_shows
  have hstarted := c.dieStarted_mode
  refine ⟨by rw [hstarted], by rw [hstarted]; exact hsingle, ?_⟩
  rw [Chip.dieStarted, Chip.laneTest_all]
  generalize c.pixelBlocks = d at hmode hdie
  have hregions : (({ d with mode := { d.mode with lanes := 0xF } } : Chip).set K.nucLanesInService 0xF).pixelRegions =
      (({ d with mode := { d.mode with lanes := 0xF } } : Chip).set K.nucLanesInService 0xF).setAll
        [(K.regionState 1, 1), (K.regionState 2, 1), (K.regionState 3, 1)] := by
    unfold Chip.pixelRegions
    rw [if_pos, if_neg]
    · show ¬ d.mode.single = true
      rw [hmode, hsingle]
      exact Bool.false_ne_true
    · rfl
  rw [hregions, Chip.setAll_cons, Chip.setAll_cons, Chip.setAll_cons, Chip.setAll_nil]
  refine ⟨?_, ?_, ?_, ?_, ?_⟩
  · rw [Chip.get_set_other _ _ _ _ (by decide), Chip.get_set_other _ _ _ _ (by decide), Chip.get_set_other _ _ _ _ (by decide),
      Chip.get_set_other _ _ _ _ (by decide)]
    exact hdie
  · rw [Chip.get_set_other _ _ _ _ (by decide), Chip.get_set_other _ _ _ _ (by decide), Chip.get_set_same]
  · rw [Chip.get_set_other _ _ _ _ (by decide), Chip.get_set_same]
  · rw [Chip.get_set_same]
  · rw [Chip.get_set_other _ _ _ _ (by decide), Chip.get_set_other _ _ _ _ (by decide), Chip.get_set_other _ _ _ _ (by decide),
      Chip.get_set_same]

theorem dramInit_starts (hstate : c.get K.pixelDieState = 1) (hsingle : c.mode.single = false) (htrained : c.mode.trained.all id = true) :
    dramInit 0xF c = if c.mode.pixelUse = .full then c.dieStarted.pixelInUse else c.dieStarted := by
  obtain ⟨hlanes, hboth, -⟩ := c.dieStarted_shows hsingle
  have hmode := c.dieStarted_mode
  have htest : (c.pixelBlocks.laneTest 0xF 0xF).mode.lanes = 0xF := by
    rw [Chip.laneTest_all]
    rfl
  have hgo : ¬ (c.get K.pixelDieState ≠ 1 ∨ (!(if c.mode.single = true then at' c.mode.trained c.mode.onCh else c.mode.trained.all id)) = true) := by
    rw [hstate, hsingle, htrained]
    simp
  have hwhole : ¬ (((c.dieStarted.mode.single && !bitOf (c.dieStarted.nat K.straps) 5) || decide (c.dieStarted.mode.lanes ≠ 0xF)) = true) := by
    rw [hboth, hlanes]
    simp
  unfold dramInit
  dsimp only
  rw [if_neg hgo, htest, if_neg (by decide), show (c.pixelBlocks.laneTest 0xF 0xF).pixelRegions = c.dieStarted from rfl, if_neg hwhole, hmode]

end

/-- Settles O4: a trained channel by its size, a failed one by what is left, and the initialisation by its mailboxes and lanes, which leave the
states it sets. -/
theorem pixelDieStarts : Obligations.PixelDieStarts := by
  unfold Obligations.PixelDieStarts
  refine ⟨?trained, fun s ch gib hstate => ⟨?lost, ?alone, ?again⟩, ?starts⟩
  case trained =>
    intro s ch gib hstart hsingle hgib hstate
    have hbase := Chip.agrees_set (Chip.trained_agrees (c := s.chip) (ch := ch) hstart) (K.dramChState ch) 2
    refine effect_of_eq rfl (dramTrained_ok (c := s.chip.fresh) hstart hsingle hgib gib.isLt hstate) ?_
    rw [Chip.dramSize_both (n := s.chip.nat K.straps) ?_ ?_]
    · exact Chip.agrees_setAll hbase _
    · exact (congrArg Mode.single Chip.releaseIsolation_mode).trans hsingle
    · have hstraps := (Chip.trained_agrees (c := s.chip) (ch := ch) hstart).2 K.straps (by decide)
      rw [Chip.nat, Chip.get_set_other _ _ _ _ (by simp only [K.straps, K.dramChState]; omega), hstraps, Chip.get_set_other _ _ _ _ (by decide)]
      rfl
  case lost =>
    intro hstart hsingle
    refine effect_eq rfl ((dramTrained_failed_goes (c := s.chip.fresh) (.inl hstart) (fun h => ?_) hstate).trans ?_)
    · exact absurd (hsingle.symm.trans h) (by decide)
    · have hmode : ¬ s.chip.fresh.releaseIsolation.mode.single = true := by
        rw [Chip.releaseIsolation_mode]
        exact Bool.eq_false_iff.1 hsingle
      rw [if_pos (show s.chip.fresh.pixelStarts = true from hstart)]
      dsimp only
      rw [if_neg hmode, if_pos (show s.chip.fresh.pixelStarts = true from hstart)]
  case alone =>
    intro hstart hsingle hon
    refine effect_eq rfl ((dramTrained_failed_goes (c := s.chip.fresh) (.inl hstart) (fun _ => hon) hstate).trans ?_)
    have hmode : s.chip.fresh.releaseIsolation.mode.single = true := by
      rw [Chip.releaseIsolation_mode]
      exact hsingle
    rw [if_pos (show s.chip.fresh.pixelStarts = true from hstart)]
    dsimp only
    rw [if_pos hmode, if_pos (show s.chip.fresh.pixelStarts = true from hstart)]
  case again =>
    intro hstart hruns hrestart hsingle
    refine effect_eq rfl ((dramTrained_failed_goes (c := s.chip.fresh) (.inr ⟨hruns, hrestart⟩) (fun h => ?_) hstate).trans ?_)
    · exact absurd (hsingle.symm.trans h) (by decide)
    · have hoff : ¬ s.chip.fresh.pixelStarts = true := Bool.eq_false_iff.1 hstart
      rw [if_neg hoff]
      dsimp only
      rw [if_neg (show ¬ s.chip.fresh.mode.single = true from Bool.eq_false_iff.1 hsingle), if_neg hoff]
  case starts =>
    intro s hstate hsingle htrained
    have hinit := dramInit_starts (c := s.chip.fresh) hstate hsingle htrained
    refine ⟨Chip.dieStarted_shows hsingle, fun huse => ?_, fun huse => ?_⟩
    · exact effect_eq rfl (hinit.trans (if_neg (by rw [show s.chip.fresh.mode.pixelUse = _ from huse]; decide)))
    · exact effect_eq rfl (hinit.trans (if_pos huse))

end Sys2Proof.Machine
end

section
/-! The conditions of a start of a stream do not name the use of the pixel die (R483). -/

namespace Sys2Proof.Machine

/-- Refutes O51: on its conditions a stream does not start where the pixel die is on for the host link alone. -/
theorem not_commandsTakeEffect : ¬ Obligations.CommandsTakeEffect := by
  unfold Obligations.CommandsTakeEffect
  intro h
  obtain ⟨-, -, -, -, -, -, ⟨-, -, -, -, -, hstream, -⟩, -⟩ := h hostOnlyStream
  obtain ⟨hs, hon, hstate, hsource, hwanted, hbase, hsize, hformat, hshape, hadmitted, -⟩ := hostOnlyStream_mayStart
  obtain ⟨-, hstart⟩ := hstream .mc 7 hs
  obtain ⟨t, hexec, -, -, hstarted⟩ := hstart hon hstate hsource hwanted hbase hsize hformat hshape hadmitted
  have hkept := streamState_of_hostOnly hs hostOnlyStream_use hexec
  exact absurd (hstarted.symm.trans (hkept.trans hstate)) (by decide)

end Sys2Proof.Machine
end

section
/-! The edges of PERST_N (R366, R368, R463). -/

namespace Sys2Proof.Machine

/-- How a part started and whether the host calls: nothing that ends the work of the pixel die or of the host changes them. -/
def supervisor (d : Chip) : Invariant where
  holds c := c.boot = d.boot ∧ c.mode.hostCall = d.mode.hostCall
  beside h := h
  set h := h
  forget h := h
  dramPut h := h
  dramBytes h := h
  noDram h := h
  dieOff h := h

theorem Chip.holds_supervisor (c : Chip) : c.Holds (supervisor c) := ⟨rfl, rfl⟩

/-! ### The assertion -/

/-- PERST_N low: the link of a working endpoint goes down, and both functions are reset. -/
def Chip.perstReset (c : Chip) : Chip :=
  let r := (c.bump K.pcieResets).dmaOutstanding [1, 3]
  if c.pixelOn then (r.2.linkTo 0).hostResets r.1 else c

theorem Chip.perstReset_hostCall (c : Chip) : c.perstReset.mode.hostCall = c.mode.hostCall := by
  have hc := c.holds_supervisor
  have hreset : c.perstReset.Holds (supervisor c) := .ite hc.bump.dmaOutstanding.linkTo.hostResets hc
  obtain ⟨-, hcall⟩ := hreset
  exact hcall

/-- PERST_N low and both functions reset. -/
def Chip.perstDown (c : Chip) : Chip := ({ c with pins := { c.pins with perstLow := true } } : Chip).perstReset

theorem Chip.perstDown_hostCall (c : Chip) : c.perstDown.mode.hostCall = c.mode.hostCall := Chip.perstReset_hostCall _

theorem perstAssert_idle {c : Chip} (hhigh : c.pins.perstLow = false) (hcall : c.mode.hostCall = false) : perstAssert c = c.perstDown := by
  have hmode := c.perstDown_hostCall
  rw [perstAssert, if_neg (by simp [hhigh])]
  exact if_neg (ne_true_of_eq_false (hmode.trans hcall))

theorem perstAssert_standby {c : Chip} (hhigh : c.pins.perstLow = false) (hcall : c.mode.hostCall = true)
    (hstandby : c.perstDown.get K.chipMode = 2) (hgoing : c.perstDown.mode.going = 0) (hon : c.perstDown.get K.pixelDieState ≠ 0) :
    perstAssert c = ({ c.perstDown with mode := { c.perstDown.mode with hostCall := false } } : Chip).pixelLost 0 false := by
  rw [perstAssert, if_neg (by simp [hhigh])]
  exact (if_pos (c.perstDown_hostCall.trans hcall)).trans (if_pos ⟨hstandby, hgoing, hon⟩)

/-! ### The deassertion -/

/-- PERST_N and WAKE_N high. -/
def Chip.perstUp (c : Chip) : Chip :=
  { c with pins := { c.pins with perstLow := false, wakeLow := false }, pcie := { c.pcie with l2 := false } }

/-- PERST_N high, and the host calls. -/
def Chip.perstCalls (c : Chip) : Chip := { c.perstUp with mode := { c.mode with hostCall := true } }

theorem perstDeassert_low {c : Chip} (hlow : c.pins.perstLow = true) : perstDeassert c =
    if c.perstUp.pixelOn then c.perstUp.linkTo 1
    else if c.boot.phase = .ready ∧ (c.get K.chipMode = 2 ∨ c.get K.chipMode = 3) ∧ c.mode.going ≠ 1 then
      if c.mode.asleep then c.perstCalls.wake
      else if c.mode.going = 3 then { c.perstCalls with mode := { c.perstCalls.mode with waking := true } }
      else c.perstCalls.pixelUp .hostOnly
    else c.perstUp := by
  rw [perstDeassert, if_neg (by simp [hlow])]
  rfl

theorem perstDeassert_on {c : Chip} (hlow : c.pins.perstLow = true) (hon : c.pixelOn = true) : perstDeassert c = c.perstUp.linkTo 1 :=
  (perstDeassert_low hlow).trans (if_pos hon)

theorem perstDeassert_off {c : Chip} (hlow : c.pins.perstLow = true) (hoff : c.pixelOn = false) (hready : c.boot.phase = .ready)
    (hmode : c.get K.chipMode = 2 ∨ c.get K.chipMode = 3) (hgoing : c.mode.going ≠ 1) : perstDeassert c =
      if c.mode.asleep then c.perstCalls.wake
      else if c.mode.going = 3 then { c.perstCalls with mode := { c.perstCalls.mode with waking := true } }
      else c.perstCalls.pixelUp .hostOnly :=
  (perstDeassert_low hlow).trans ((if_neg (ne_true_of_eq_false hoff)).trans (if_pos ⟨hready, hmode, hgoing⟩))

/-- Settles O7: the reset of both functions leaves whether the host calls, so each edge takes one branch of its operation. -/
theorem perstEdges : Obligations.PerstEdges := by
  unfold Obligations.PerstEdges
  refine ⟨?assert, ?deassert⟩
  case assert =>
    intro s hhigh
    exact ⟨fun hcall => effect_eq rfl (perstAssert_idle (c := s.chip.fresh) hhigh hcall),
      fun hcall hstandby hgoing hon => effect_eq rfl (perstAssert_standby (c := s.chip.fresh) hhigh hcall hstandby hgoing hon)⟩
  case deassert =>
    intro s hlow
    refine ⟨fun hon => effect_eq rfl (perstDeassert_on (c := s.chip.fresh) hlow hon), ?deep, ?standby⟩
    case deep =>
      intro hoff hready hmode hasleep hgoing
      exact effect_eq rfl ((perstDeassert_off (c := s.chip.fresh) hlow hoff hready (.inr hmode) hgoing).trans (if_pos hasleep))
    case standby =>
      intro hoff hready hmode hawake
      have hoperates := fun hgoing => (perstDeassert_off (c := s.chip.fresh) hlow hoff hready (.inl hmode) hgoing).trans
        (if_neg (ne_true_of_eq_false hawake))
      exact ⟨fun hgoing hdeep => effect_eq rfl ((hoperates hgoing).trans (if_neg hdeep)),
        fun hdeep => effect_eq rfl ((hoperates (by rw [show s.chip.fresh.mode.going = 3 from hdeep]; decide)).trans (if_pos hdeep))⟩

end Sys2Proof.Machine
end

section
/-! Supplies and clocks (R27 to R33, R54, R479). -/

namespace Sys2Proof.Machine

/-! ### A rail that crosses a trip level -/

/-- A rail known at a level, and no longer faulty once in range. -/
def Chip.railAt (c : Chip) (r : Nat) (l : RailLevel) : Chip :=
  { c with rails := { c.rails with
    level := c.rails.level.set r l, fault := if l = .inRange then c.rails.fault.set r false else c.rails.fault } }

theorem railTrip_eq (c : Chip) (r : Nat) (l : RailLevel) : railTrip r l c =
    if r = 10 then (c.railAt r l).vsolUpdate
    else if r = 8 ∧ l ≠ .under then (c.railAt r l).beginImage.nvmVanaBack else c.railAt r l := by
  rw [railTrip, modAt_const, modAt_const]
  by_cases hr : r = 10
  · subst hr
    rfl
  · exact (if_neg hr).trans (if_neg hr).symm

theorem railCrossing_eq (c : Chip) (r : Nat) (l : RailLevel) : railCrossing r l c =
    let d := if r = 10 then (c.railAt r l).vsolUpdate
      else if r = 8 ∧ l ≠ .under then (c.railAt r l).beginImage.nvmVanaBack else c.railAt r l
    if d.vanaLow then d
    else d.nvm.gnonerWaits.foldl (fun (c : Chip) (w : SlotRequest) => serveSlot w c) { d with nvm := { d.nvm with gnonerWaits := [] } } := by
  rw [railCrossing, railTrip_eq]

/-! ### The time base -/

theorem Chip.clk_reportBias (c : Chip) (h : Nat) : (c.reportBias h).clk = c.clk := by
  refine List.foldlRecOn (motive := fun d : Chip => d.clk = c.clk) _ _ rfl fun d hd b _ => ?_
  split <;> exact hd

theorem Chip.clk_biasTick (c : Chip) (h : Nat) : (c.biasTick h).clk = c.clk := by
  unfold Chip.biasTick
  split
  · rfl
  · exact Chip.clk_reportBias _ _

theorem Chip.clk_readEnds (c : Chip) : c.readEnds.clk = c.clk := by
  unfold Chip.readEnds
  dsimp only
  split
  · split <;> rfl
  · rfl

/-- Where REFCLK takes over, the clock runs from it (R32). -/
def Clk.takenOver (k : Clk) : Clk := if k.rootReturn then { k with rootReturn := false, onBackup := false } else k

theorem clk_clkTick (c : Chip) : (clkTick c).clk = ({ c with clk := c.clk.takenOver } : Chip).timeTick.clk :=
  (List.foldlRecOn (motive := fun d : Chip => d.clk = ({ c with clk := c.clk.takenOver } : Chip).timeTick.readEnds.clk) _ _ rfl
    fun _ hd _ _ => (Chip.clk_biasTick _ _).trans hd).trans (Chip.clk_readEnds _)

theorem Clk.takenOver_time (k : Clk) : k.takenOver.time = k.time ∧ k.takenOver.ticks = k.ticks ∧ k.takenOver.pixSkew = k.pixSkew ∧
    k.takenOver.frac = k.frac := by
  unfold Clk.takenOver
  split <;> exact ⟨rfl, rfl, rfl, rfl⟩

theorem Clk.takenOver_returns {k : Clk} (h : k.rootReturn = true) : k.takenOver.rootReturn = false ∧ k.takenOver.onBackup = false := by
  rw [Clk.takenOver, if_pos h]
  exact ⟨rfl, rfl⟩

/-- A tick without slew and rate correction is 1000 ns, of the clock that takes over. -/
theorem clkTick_plain {c : Chip} (hslew : c.psi.slew = 0) (hrate : c.get K.psirelRateAdj = 0) (hfrac : c.clk.frac = 0) :
    let k := ({ c with clk := c.clk.takenOver } : Chip).timeTick.clk
    k.time = (c.clk.time + 1000) % 2 ^ 64 ∧ k.sub = 0 ∧ k.ticks = c.clk.ticks + 1 ∧ k.pixSkew = c.clk.pixSkew := by
  obtain ⟨htime, hticks, hskew, hfrac'⟩ := c.clk.takenOver_time
  have hwhole : (c.clk.takenOver.frac + c.get K.psirelRateAdj + clampI c.psi.slew (-100000) 100000).fdiv 1000000 = 0 := by
    rw [hslew, hrate, hfrac', hfrac]
    decide
  have hwhole' : (c.clk.takenOver.frac + ({ c with clk := c.clk.takenOver } : Chip).get K.psirelRateAdj +
      clampI c.psi.slew (-100000) 100000).fdiv 1000000 = 0 := hwhole
  simp only [Chip.timeTick, Chip.modClk, hwhole', htime, hticks, hskew]
  exact ⟨by omega, trivial, trivial, by omega⟩

theorem timeBaseCompare_far {c : Chip} (hruns : c.pixelRuns = true) (hfar : 5 < c.clk.pixSkew ∨ c.clk.pixSkew < -5) :
    timeBaseCompare c = { c with clk := { c.clk with pixSkew := 0 } } :=
  if_pos ⟨hruns, by omega⟩

theorem timeBaseCompare_near {c : Chip} (hlow : -5 ≤ c.clk.pixSkew) (hhigh : c.clk.pixSkew ≤ 5) : timeBaseCompare c = c :=
  if_neg fun ⟨_, h⟩ => absurd h (by omega)

/-! ### The loss of REFCLK -/

theorem Chip.refPresent_cases {c : Chip} (h : c.refPresent = true) : c.get K.refclkState = 0 ∧ c.clk.rootReturn = false := by
  simp only [Chip.refPresent, Bool.and_eq_true, decide_eq_true_eq, Bool.not_eq_true'] at h
  obtain ⟨⟨hstate, -⟩, hreturn⟩ := h
  exact ⟨hstate, hreturn⟩

theorem backupTrim_present {c : Chip} (p : Nat) (h : c.refPresent = true) :
    backupTrim p c = { c with clk := { c.clk with window := max 999 (min 1001 p) } } := if_pos h

/-- Whether a window counts too few or too many edges (R31). -/
def Chip.windowBad (c : Chip) (e : Nat) : Bool := decide (e * 100 < 98 * c.clk.window ∨ 102 * c.clk.window < e * 100)

theorem monitorWindow_present {c : Chip} (e : Nat) (h : c.refPresent = true) : monitorWindow e c =
    let n := if c.windowBad e then c.clk.badRun + 1 else 0
    let d : Chip := { c with clk := { c.clk with badRun := n } }
    if 2 ≤ n then d.refLost else d := by
  obtain ⟨-, hreturn⟩ := Chip.refPresent_cases h
  rw [monitorWindow, if_neg (by simp [hreturn]), if_pos h]
  rfl

theorem monitorWindow_good {c : Chip} {e : Nat} (h : c.refPresent = true) (hlow : 98 * c.clk.window ≤ e * 100)
    (hhigh : e * 100 ≤ 102 * c.clk.window) : monitorWindow e c = { c with clk := { c.clk with badRun := 0 } } := by
  have hgood : c.windowBad e = false := decide_eq_false (by omega)
  rw [monitorWindow_present e h, hgood]
  rfl

section
variable {c : Chip} {e : Nat} (h : c.refPresent = true) (hbad : e * 100 < 98 * c.clk.window ∨ 102 * c.clk.window < e * 100)
include h hbad

theorem monitorWindow_firstBad (hfirst : c.clk.badRun = 0) : monitorWindow e c = { c with clk := { c.clk with badRun := 1 } } := by
  have hb : c.windowBad e = true := decide_eq_true hbad
  rw [monitorWindow_present e h, hb, hfirst]
  rfl

theorem monitorWindow_secondBad (hsecond : 1 ≤ c.clk.badRun) :
    monitorWindow e c = ({ c with clk := { c.clk with badRun := c.clk.badRun + 1 } } : Chip).refLost := by
  have hb : c.windowBad e = true := decide_eq_true hbad
  rw [monitorWindow_present e h, hb]
  exact if_pos (by rw [if_pos rfl]; omega)

end

/-- The front die on the backup oscillator, Psirel off and CAN FD calibrating. -/
def Chip.onBackup (c : Chip) : Chip :=
  (({ c with
    clk := { c.clk with onBackup := true, rootReturn := false, sub := (c.clk.sub + 9) / 10, badRun := 0, goodRun := 0, lostAt := c.now }
    psi := { c.psi with linkOff := true }
    can := { c.can with calibrating := true, locked := false, times := [] } } : Chip).set K.refclkState 1).canStatus

theorem Chip.refLost_eq (c : Chip) : c.refLost =
    let d := if c.boot.phase = .ready then c.onBackup.standDown 0 else c.onBackup
    if d.boot.phase = .held then d else d.raise 3 0 0xFF 0xFF 0x0007 0 0 := rfl

theorem Chip.refLost_notReady {c : Chip} (h : c.boot.phase ≠ .ready) :
    c.refLost = if c.boot.phase = .held then c.onBackup else c.onBackup.raise 3 0 0xFF 0xFF 0x0007 0 0 := by
  rw [Chip.refLost_eq, if_neg h]
  rfl

theorem Chip.boot_standDown (c : Chip) (st : Int) : (c.standDown st).boot = c.boot := by
  obtain ⟨hboot, -⟩ := c.holds_supervisor.standDown (st := st)
  exact hboot

theorem Chip.refLost_ready {c : Chip} (h : c.boot.phase = .ready) :
    c.refLost = (c.onBackup.standDown 0).raise 3 0 0xFF 0xFF 0x0007 0 0 := by
  have hready : (c.onBackup.standDown 0).boot.phase = .ready := by rw [Chip.boot_standDown]; exact h
  rw [Chip.refLost_eq, if_pos h]
  exact if_neg (by rw [hready]; decide)

/-! ### What a record leaves of the CAN controller -/

theorem Chip.can_nvmApply (c : Chip) (w : NvmWrite) : (c.nvmApply w).can = c.can := by cases w <;> rfl

theorem Chip.can_nvmEnterHold (c : Chip) : c.nvmEnterHold.can = c.can := by
  unfold Chip.nvmEnterHold
  dsimp only
  split
  · rfl
  · split <;> rfl

theorem Chip.can_nvmHold (c : Chip) (w : NvmWrite) : (c.nvmHold w).can = c.can := by
  unfold Chip.nvmHold
  dsimp only [Chip.set]
  split
  · rfl
  · split
    · split <;> rfl
    · rfl

theorem Chip.can_nvmWrite (c : Chip) (w : NvmWrite) : (c.nvmWrite w).can = c.can := by
  unfold Chip.nvmWrite
  split
  · exact (Chip.can_nvmHold _ _).trans (Chip.can_nvmEnterHold _)
  · split
    · rfl
    · exact Chip.can_nvmApply _ _

theorem Chip.calibrating_emcy (c : Chip) (e : Emcy) : (c.emcy e).can.calibrating = c.can.calibrating := by
  obtain ⟨⟨hbody, -⟩, -⟩ := c.emcy_extends e
  have hcan := congrArg (fun x : Chip => x.can.calibrating) hbody
  exact hcan

/-- A record in its queue, and what counts it. -/
def Chip.recordEntered (c : Chip) (qi level : Nat) (r : ErrRec) : Chip :=
  let x := (at' c.errq qi).enter r
  let d : Chip := { c with errq := modAt c.errq qi (fun _ => x.1) }
  let d := if x.2 then d.bump (K.errqOverflow qi) else d
  if level ≥ 1 then { d with entered := d.entered + 1 } else d

theorem Chip.can_recordEntered (c : Chip) (qi level : Nat) (r : ErrRec) : (c.recordEntered qi level r).can = c.can := by
  unfold Chip.recordEntered
  extract_lets x d counted
  have hcounted : counted.can = c.can := by
    unfold counted
    split <;> rfl
  split <;> exact hcounted

/-- A record at chip level is entered, logged and told in an EMCY message. -/
theorem Chip.raise_refclkLost (c : Chip) : ∃ (r : ErrRec) (w : NvmWrite) (e : Emcy),
    c.raise 3 0 0xFF 0xFF 0x0007 0 0 = ((c.recordEntered (Chip.queueOf 0) 3 r).nvmWrite w).emcy e := ⟨_, _, _, rfl⟩

theorem Chip.calibrating_refclkLost (c : Chip) : (c.raise 3 0 0xFF 0xFF 0x0007 0 0).can.calibrating = c.can.calibrating := by
  obtain ⟨r, w, e, hraise⟩ := c.raise_refclkLost
  rw [hraise, Chip.calibrating_emcy, Chip.can_nvmWrite, Chip.can_recordEntered]

/-- What the loss of REFCLK shows. -/
def Chip.refIsLost (c : Chip) : Prop :=
  c.get K.refclkState = 1 ∧ c.clk.onBackup = true ∧ c.clk.badRun = 0 ∧ c.psi.linkOff = true ∧ c.can.calibrating = true

theorem Chip.onBackup_refIsLost (c : Chip) : c.onBackup.refIsLost := by
  refine ⟨?_, rfl, rfl, rfl, rfl⟩
  rw [Chip.onBackup, Chip.get_canStatus_other (by decide), Chip.get_set_same]

theorem Chip.refIsLost_raise {c : Chip} (h : c.refIsLost) : (c.raise 3 0 0xFF 0xFF 0x0007 0 0).refIsLost := by
  obtain ⟨hstate, hbackup, hbad, hlink, hcal⟩ := h
  have hrecorded := c.raise_recorded 3 0 0xFF 0xFF 0x0007 0 0 (by decide)
  have hclk := Chip.recorded_clk hrecorded
  have hpsi := Chip.recorded_psi hrecorded
  refine ⟨?_, by rw [hclk, hbackup], by rw [hclk, hbad], by rw [hpsi, hlink], by rw [Chip.calibrating_refclkLost, hcal]⟩
  rw [Chip.get_raise _ _ _ _ _ _ _ _ (by decide) _ (by decide) (by decide), hstate]

theorem Chip.refIsLost_of_notReady {c : Chip} (h : c.boot.phase ≠ .ready) : c.refLost.refIsLost := by
  rw [Chip.refLost_notReady h]
  split
  · exact c.onBackup_refIsLost
  · exact Chip.refIsLost_raise c.onBackup_refIsLost

theorem settle_refIsLost (a : Chip) {c : Chip} (h : c.refIsLost) : (settle a c).refIsLost := by
  obtain ⟨hstate, hbackup, hbad, hlink, hcal⟩ := h
  refine ⟨?_, by rw [settle_clk, hbackup], by rw [settle_clk, hbad], by rw [settle_psi, hlink], by rw [settle_can_calibrating, hcal]⟩
  rw [settle_get _ _ _ (by decide), hstate]

/-! ### The return of REFCLK -/

theorem monitorWindow_absent {c : Chip} {e : Nat} (habsent : c.refPresent = false) (hreturn : c.clk.rootReturn = false)
    (hlow : 930 ≤ e) (hhigh : e ≤ 1070) (hnear : e ≤ c.clk.lastEdges + 2) (hnear' : c.clk.lastEdges ≤ e + 2) :
    monitorWindow e c =
      let d : Chip := { c with clk := { c.clk with goodRun := c.clk.goodRun + 1, lastEdges := e } }
      if 100 ≤ c.clk.goodRun + 1 then d.refBack else if d.get K.refclkState = 0 then d else d.set K.refclkState 2 := by
  have hgood : decide (930 ≤ e ∧ e ≤ 1070) = true := decide_eq_true ⟨hlow, hhigh⟩
  have hclose : decide (e ≤ c.clk.lastEdges + 2 ∧ c.clk.lastEdges ≤ e + 2) = true := decide_eq_true ⟨hnear, hnear'⟩
  rw [monitorWindow, if_neg (by simp [hreturn]), if_neg (by simp [habsent])]
  dsimp only
  rw [hgood, hclose]
  rfl

/-- REFCLK is back, and what follows it is locked again. -/
def Chip.refReturned (c : Chip) (e : Nat) : Chip :=
  (({ c with
    clk := { c.clk with rootReturn := true, goodRun := 0, badRun := 0, lastEdges := e, window := e }
    psi := { c.psi with linkOff := c.mode.asleep }
    can := { c.can with calibrating := false, locked := false, times := [] } } : Chip).set K.refclkState 0).canStatus

/-- The calibration goes on and the time lost is recorded. -/
def Chip.refReturnTold (c : Chip) (lost : Nat) : Chip :=
  (if c.cal.running ∧ c.cal.refbuf.isEmpty then c.calBanks else c).raise 3 0 0xFF 0xFF 0x0008 lost 0

section
variable {c : Chip} {e : Nat} (hstate : c.get K.refclkState ≠ 0)
include hstate

theorem Chip.refBack_notReady (hphase : c.boot.phase ≠ .ready) :
    ({ c with clk := { c.clk with goodRun := c.clk.goodRun + 1, lastEdges := e } } : Chip).refBack = c.refReturned e := by
  have hlost : ¬ ((!decide (c.get K.refclkState ≠ 0)) = true) := by simp [hstate]
  exact (if_neg hlost).trans (if_pos hphase)

theorem Chip.refBack_ready (hphase : c.boot.phase = .ready) :
    ({ c with clk := { c.clk with goodRun := c.clk.goodRun + 1, lastEdges := e } } : Chip).refBack =
      let d := (c.refReturned e).refReturnTold (((c.now + 2 ^ 64 - c.clk.lostAt) % 2 ^ 64) / 1000000)
      match d.wantedUse with
      | .off => d
      | .hostOnly => d.pixelUp .hostOnly
      | .full => d.resume := by
  have hlost : ¬ ((!decide (c.get K.refclkState ≠ 0)) = true) := by simp [hstate]
  exact (if_neg hlost).trans (if_neg (not_not.2 hphase))

end

theorem dividerSwitch_on {c : Chip} {d : Nat} (hnext : c.clk.divNext = some d) (hon : c.pixelOn = true) :
    dividerSwitch c = ({ c with clk := { c.clk with divNext := none } } : Chip).set K.clkPixDiv d := by
  rw [dividerSwitch, hnext]
  exact if_pos hon

/-! ### The statement -/

/-- What a part says beside its messages of the last command. -/
theorem Chip.fresh_agrees (c : Chip) : c.fresh.agrees c := ⟨rfl, fun _ _ => rfl⟩

/-- Settles O3: each command takes one branch of its operation; what stops at the loss of REFCLK leaves how the part started. -/
theorem suppliesAndClocks : Obligations.SuppliesAndClocks := by
  unfold Obligations.SuppliesAndClocks
  refine ⟨?rail, ⟨?tick, ?takeover, ?compare, ?near⟩, ?trim, ?good, ?first, ?lost, ?stands, ?back, ?divider⟩
  case rail =>
    intro s r l
    exact effect_eq rfl (railCrossing_eq s.chip.fresh r.val l)
  case tick =>
    intro s hslew hrate hfrac
    refine leaves_of_eq rfl rfl ?_
    rw [settle_clk, clk_clkTick]
    exact clkTick_plain (c := s.chip.fresh) hslew hrate hfrac
  case takeover =>
    intro s hreturn
    refine leaves_of_eq rfl rfl ?_
    rw [settle_clk, clk_clkTick]
    exact Clk.takenOver_returns (k := s.chip.clk) hreturn
  case compare =>
    intro s hruns hfar
    exact effect_of_eq rfl (timeBaseCompare_far (c := s.chip.fresh) hruns hfar) ⟨rfl, fun _ _ => rfl⟩
  case near =>
    intro s _ hlow hhigh
    exact effect_of_eq rfl (timeBaseCompare_near (c := s.chip.fresh) hlow hhigh) s.chip.fresh_agrees
  case trim =>
    intro s p h
    exact effect_of_eq rfl (backupTrim_present (c := s.chip.fresh) p.toNat h) ⟨rfl, fun _ _ => rfl⟩
  case good =>
    intro s e h hlow hhigh
    exact effect_of_eq rfl (monitorWindow_good (c := s.chip.fresh) h hlow hhigh) ⟨rfl, fun _ _ => rfl⟩
  case first =>
    intro s e h hfirst hbad
    exact effect_of_eq rfl (monitorWindow_firstBad (c := s.chip.fresh) h hbad hfirst) ⟨rfl, fun _ _ => rfl⟩
  case lost =>
    intro s e h hsecond hphase hbad
    have hwindow := monitorWindow_secondBad (c := s.chip.fresh) h hbad hsecond
    exact leaves_of_eq rfl hwindow (settle_refIsLost _ (Chip.refIsLost_of_notReady hphase))
  case stands =>
    intro s e h hsecond hphase hbad
    exact effect_eq rfl ((monitorWindow_secondBad (c := s.chip.fresh) h hbad hsecond).trans (Chip.refLost_ready hphase))
  case back =>
    intro s e habsent hreturn hstate hlow hhigh hnear hnear'
    have hwindow := monitorWindow_absent (c := s.chip.fresh) habsent hreturn hlow hhigh hnear hnear'
    refine ⟨fun hmore => ?_, fun hlast => ⟨fun hphase => ?_, fun hphase => ?_⟩⟩
    · exact effect_of_eq rfl (hwindow.trans ((if_neg (Nat.not_le_of_lt (Nat.add_lt_add_right hmore 1))).trans (if_neg hstate))) ⟨rfl, fun _ _ => rfl⟩
    · exact effect_eq rfl (hwindow.trans ((if_pos (Nat.add_le_add_right hlast 1)).trans (Chip.refBack_notReady (c := s.chip.fresh) hstate hphase)))
    · exact effect_eq rfl (hwindow.trans ((if_pos (Nat.add_le_add_right hlast 1)).trans (Chip.refBack_ready (c := s.chip.fresh) hstate hphase)))
  case divider =>
    intro s d hnext hon
    exact effect_of_eq rfl (dividerSwitch_on (c := s.chip.fresh) hnext hon) ⟨rfl, fun _ _ => rfl⟩

end Sys2Proof.Machine
end
